-- ==== Sys2Proof/Word.lean ====
section
/-! DEFINITION. The word types of the DK9 and the little-endian view of bytes (R3, R40, R106). -/

namespace Sys2Proof

abbrev Byte := BitVec 8
abbrev Half := BitVec 16
/-- One vector lane, or one 4-byte unit (R121). -/
abbrev Lane := BitVec 32
/-- A scalar register, an address, or a doubleword (R40). -/
abbrev Word := BitVec 64
/-- The number of a scalar register, x0 to x15 (R20). -/
abbrev XReg := BitVec 4

end Sys2Proof
end

