-- ==== Sys2Proof/Syntax.lean ====
section
/-! DEFINITION. The instructions and device steps of the Drukin DK9: one constructor for each row of
spec/opcode_table.json. The arguments of an instruction are the fields of its encoding, at their widths
(R25 to R38). The rows without an encoding are device steps (spec/95); their arguments say which core,
context, queue entry, message or partition takes the step, and carry the data that comes from outside. -/

namespace Sys2Proof

/-- Where a waiting message stands (R189, R190, R194): the ejection queue, the spill area, a reply cell. -/
inductive Source where
  | ejection
  | spill
  | cell
  deriving DecidableEq, Repr

/-- The four command queues of a core (R272). -/
inductive Queue where
  | qc0
  | qc1
  | qg
  | qm
  deriving DecidableEq, Repr

/-- What raises the security alarm at the SECURITY_ALARM step: a tamper, voltage or clock-glitch detector, or a request that is signed
with a revoked key. A firmware image whose signature fails raises it at its own step (R378). -/
inductive AlarmCause where
  | detector
  | revoked
  deriving DecidableEq, Repr

/-- What bring-up finds and sets in a package: whether the boot firmware passes its check, the physical cores that fail self-test, the
capacity of each CXL segment, the partition and the base of each window of BAR4, and the policy bit for an alarm (R378, R380, R384,
R387). -/
structure Bringup where
  measured : Bool
  failed : List Nat
  segments : List (Nat × Nat)
  windows : List (Nat × Nat × Nat)
  policy : Bool
  deriving DecidableEq, Repr

/-- One constructor per row of the opcode table. -/
inductive Instr where
  /-- `NOP` (R26). -/
  | nop
  /-- `MOV_COMPACT` (R26). -/
  | movCompact (d : XReg) (a : XReg)
  /-- `ADD_COMPACT` (R26). -/
  | addCompact (d : XReg) (a : XReg)
  /-- `SUB_COMPACT` (R26). -/
  | subCompact (d : XReg) (a : XReg)
  /-- `AND_COMPACT` (R26). -/
  | andCompact (d : XReg) (a : XReg)
  /-- `OR_COMPACT` (R26). -/
  | orCompact (d : XReg) (a : XReg)
  /-- `XOR_COMPACT` (R26). -/
  | xorCompact (d : XReg) (a : XReg)
  /-- `ADDI_COMPACT` (R26). -/
  | addiCompact (d : XReg) (i : BitVec 4)
  /-- `LI_COMPACT` (R26). -/
  | liCompact (d : XReg) (i : BitVec 4)
  /-- `SHL_COMPACT` (R26). -/
  | shlCompact (d : XReg) (i : BitVec 4)
  /-- `SHR_COMPACT` (R26). -/
  | shrCompact (d : XReg) (i : BitVec 4)
  /-- `SRA_COMPACT` (R26). -/
  | sraCompact (d : XReg) (i : BitVec 4)
  /-- `J_COMPACT` (R85). -/
  | jCompact (d : BitVec 10)
  /-- `BZ_COMPACT` (R85). -/
  | bzCompact (a : XReg) (d : BitVec 6)
  /-- `BNZ_COMPACT` (R85). -/
  | bnzCompact (a : XReg) (d : BitVec 6)
  /-- `LDL_D_COMPACT` (R147). -/
  | ldlDCompact (o : BitVec 4) (d : XReg) (a : XReg)
  /-- `MUL_COMPACT` (R26). -/
  | mulCompact (d : XReg) (a : XReg)
  /-- `MIN_COMPACT` (R26). -/
  | minCompact (d : XReg) (a : XReg)
  /-- `MAX_COMPACT` (R26). -/
  | maxCompact (d : XReg) (a : XReg)
  /-- `SLT_COMPACT` (R26). -/
  | sltCompact (d : XReg) (a : XReg)
  /-- `SEQ_COMPACT` (R26). -/
  | seqCompact (d : XReg) (a : XReg)
  /-- `CLZ_COMPACT` (R26). -/
  | clzCompact (d : XReg) (a : XReg)
  /-- `POPC_COMPACT` (R26). -/
  | popcCompact (d : XReg) (a : XReg)
  /-- `SLTU_COMPACT` (R26). -/
  | sltuCompact (d : XReg) (a : XReg)
  /-- `MINU_COMPACT` (R26). -/
  | minuCompact (d : XReg) (a : XReg)
  /-- `MAXU_COMPACT` (R26). -/
  | maxuCompact (d : XReg) (a : XReg)
  /-- `JR_COMPACT` (R85). -/
  | jrCompact (a : XReg)
  /-- `HALT_COMPACT` (R92). -/
  | haltCompact
  /-- `YIELD_COMPACT` (R94). -/
  | yieldCompact
  /-- `HINT` (R18). -/
  | hint (h : BitVec 8)
  /-- `ADD` (R57). -/
  | add (d : XReg) (a : XReg) (b : XReg)
  /-- `SUB` (R57). -/
  | sub (d : XReg) (a : XReg) (b : XReg)
  /-- `MUL` (R57). -/
  | mul (d : XReg) (a : XReg) (b : XReg)
  /-- `MULH` (R57). -/
  | mulh (d : XReg) (a : XReg) (b : XReg)
  /-- `MULHU` (R57). -/
  | mulhu (d : XReg) (a : XReg) (b : XReg)
  /-- `DIV` (R58). -/
  | div (d : XReg) (a : XReg) (b : XReg)
  /-- `DIVU` (R58). -/
  | divu (d : XReg) (a : XReg) (b : XReg)
  /-- `REM` (R58). -/
  | rem (d : XReg) (a : XReg) (b : XReg)
  /-- `REMU` (R58). -/
  | remu (d : XReg) (a : XReg) (b : XReg)
  /-- `AND` (R57). -/
  | and (d : XReg) (a : XReg) (b : XReg)
  /-- `OR` (R57). -/
  | or (d : XReg) (a : XReg) (b : XReg)
  /-- `XOR` (R57). -/
  | xor (d : XReg) (a : XReg) (b : XReg)
  /-- `SHL` (R57). -/
  | shl (d : XReg) (a : XReg) (b : XReg)
  /-- `SHR` (R57). -/
  | shr (d : XReg) (a : XReg) (b : XReg)
  /-- `SRA` (R57). -/
  | sra (d : XReg) (a : XReg) (b : XReg)
  /-- `MIN` (R57). -/
  | min (d : XReg) (a : XReg) (b : XReg)
  /-- `MAX` (R57). -/
  | max (d : XReg) (a : XReg) (b : XReg)
  /-- `MINU` (R57). -/
  | minu (d : XReg) (a : XReg) (b : XReg)
  /-- `MAXU` (R57). -/
  | maxu (d : XReg) (a : XReg) (b : XReg)
  /-- `SLT` (R57). -/
  | slt (d : XReg) (a : XReg) (b : XReg)
  /-- `SLTU` (R57). -/
  | sltu (d : XReg) (a : XReg) (b : XReg)
  /-- `SEQ` (R57). -/
  | seq (d : XReg) (a : XReg) (b : XReg)
  /-- `CLZ` (R57). -/
  | clz (d : XReg) (a : XReg)
  /-- `POPC` (R57). -/
  | popc (d : XReg) (a : XReg)
  /-- `MOV` (R57). -/
  | mov (d : XReg) (a : XReg)
  /-- `SEL` (R57). -/
  | sel (d : XReg) (a : XReg) (b : XReg) (c : XReg)
  /-- `ADDSH` (R57). -/
  | addsh (d : XReg) (a : XReg) (b : XReg) (s : BitVec 6)
  /-- `ADDI` (R59). -/
  | addi (d : XReg) (a : XReg) (i : BitVec 15)
  /-- `ANDI` (R59). -/
  | andi (d : XReg) (a : XReg) (i : BitVec 15)
  /-- `ORI` (R59). -/
  | ori (d : XReg) (a : XReg) (i : BitVec 15)
  /-- `XORI` (R59). -/
  | xori (d : XReg) (a : XReg) (i : BitVec 15)
  /-- `SHL_IMM` (R59). -/
  | shlImm (d : XReg) (a : XReg) (s : BitVec 6)
  /-- `SHR_IMM` (R59). -/
  | shrImm (d : XReg) (a : XReg) (s : BitVec 6)
  /-- `SRA_IMM` (R59). -/
  | sraImm (d : XReg) (a : XReg) (s : BitVec 6)
  /-- `LI` (R59). -/
  | li (d : XReg) (i : BitVec 19)
  /-- `LIH` (R59). -/
  | lih (d : XReg) (h : BitVec 2) (i : BitVec 16)
  /-- `BFX` (R59). -/
  | bfx (d : XReg) (a : XReg) (l : BitVec 6) (p : BitVec 6)
  /-- `BFI` (R59). -/
  | bfi (d : XReg) (a : XReg) (l : BitVec 6) (p : BitVec 6)
  /-- `LI64` (R60). -/
  | li64 (d : XReg) (i : BitVec 52)
  /-- `LDL` (R147). -/
  | ldl (z : BitVec 2) (d : XReg) (a : XReg) (g : BitVec 1) (o : BitVec 13)
  /-- `STL` (R147). -/
  | stl (z : BitVec 2) (d : XReg) (a : XReg) (o : BitVec 13)
  /-- `LDG` (R229). -/
  | ldg (z : BitVec 2) (d : XReg) (a : XReg) (g : BitVec 1) (o : BitVec 13)
  /-- `STG` (R229). -/
  | stg (z : BitVec 2) (d : XReg) (a : XReg) (o : BitVec 13)
  /-- `AMO_ADD` (R232). -/
  | amoAdd (z : BitVec 2) (d : XReg) (a : XReg) (b : XReg)
  /-- `AMO_MIN` (R232). -/
  | amoMin (z : BitVec 2) (d : XReg) (a : XReg) (b : XReg)
  /-- `AMO_MAX` (R232). -/
  | amoMax (z : BitVec 2) (d : XReg) (a : XReg) (b : XReg)
  /-- `AMO_AND` (R232). -/
  | amoAnd (z : BitVec 2) (d : XReg) (a : XReg) (b : XReg)
  /-- `AMO_OR` (R232). -/
  | amoOr (z : BitVec 2) (d : XReg) (a : XReg) (b : XReg)
  /-- `AMO_XOR` (R232). -/
  | amoXor (z : BitVec 2) (d : XReg) (a : XReg) (b : XReg)
  /-- `AMO_SWAP` (R232). -/
  | amoSwap (z : BitVec 2) (d : XReg) (a : XReg) (b : XReg)
  /-- `AMO_CAS` (R232). -/
  | amoCas (z : BitVec 2) (d : XReg) (a : XReg) (b : XReg) (c : XReg)
  /-- `AMO_FADD` (R232). -/
  | amoFadd (d : XReg) (a : XReg) (b : XReg)
  /-- `CRD` (R61). -/
  | crd (d : XReg) (r : BitVec 12)
  /-- `CWR` (R61). -/
  | cwr (a : XReg) (r : BitVec 12)
  /-- `B_CC` (R85). -/
  | bCc (c : BitVec 4) (a : XReg) (b : XReg) (d : BitVec 12)
  /-- `BZ` (R85). -/
  | bz (a : XReg) (d : BitVec 16)
  /-- `BNZ` (R85). -/
  | bnz (a : XReg) (d : BitVec 16)
  /-- `J` (R85). -/
  | j (d : BitVec 24)
  /-- `JAL` (R85). -/
  | jal (r : XReg) (d : BitVec 20)
  /-- `JR` (R85). -/
  | jr (a : XReg)
  /-- `LOOP` (R82). -/
  | loop (a : XReg) (e : BitVec 12)
  /-- `LOOPI` (R82). -/
  | loopi (n : BitVec 12) (e : BitVec 12)
  /-- `BREAKL` (R84). -/
  | breakl
  /-- `LAUNCH` (R100). -/
  | launch (a : XReg)
  /-- `FORK` (R87). -/
  | fork (a : XReg) (d : BitVec 16)
  /-- `JOIN` (R89). -/
  | join (a : XReg)
  /-- `BAR` (R91). -/
  | bar
  /-- `HALT` (R92). -/
  | halt
  /-- `HALT_K` (R93). -/
  | haltK (c : BitVec 6)
  /-- `YIELD` (R94). -/
  | yield
  /-- `MIGRATE_HOME` (R98). -/
  | migrateHome (a : XReg) (m : BitVec 16)
  /-- `MIGRATE` (R98). -/
  | migrate (a : XReg) (m : BitVec 16)
  /-- `WAITCH` (R95). -/
  | waitch (c : BitVec 6)
  /-- `GETID` (R96). -/
  | getid (d : XReg) (s : BitVec 4)
  /-- `VADD` (R127). -/
  | vadd (d : BitVec 5) (a : BitVec 6) (b : BitVec 6) (p : BitVec 3) (f : BitVec 3)
  /-- `VSUB` (R127). -/
  | vsub (d : BitVec 5) (a : BitVec 6) (b : BitVec 6) (p : BitVec 3) (f : BitVec 3)
  /-- `VMUL` (R127). -/
  | vmul (d : BitVec 5) (a : BitVec 6) (b : BitVec 6) (p : BitVec 3) (f : BitVec 3)
  /-- `VFMA` (R127). -/
  | vfma (d : BitVec 5) (a : BitVec 6) (b : BitVec 6) (p : BitVec 3) (f : BitVec 3)
  /-- `VFMS` (R127). -/
  | vfms (d : BitVec 5) (a : BitVec 6) (b : BitVec 6) (p : BitVec 3) (f : BitVec 3)
  /-- `VMIN` (R127). -/
  | vmin (d : BitVec 5) (a : BitVec 6) (b : BitVec 6) (p : BitVec 3) (f : BitVec 3)
  /-- `VMAX` (R127). -/
  | vmax (d : BitVec 5) (a : BitVec 6) (b : BitVec 6) (p : BitVec 3) (f : BitVec 3)
  /-- `VABS` (R127). -/
  | vabs (d : BitVec 5) (a : BitVec 6) (p : BitVec 3) (f : BitVec 3)
  /-- `VNEG` (R127). -/
  | vneg (d : BitVec 5) (a : BitVec 6) (p : BitVec 3) (f : BitVec 3)
  /-- `VDIV` (R127). -/
  | vdiv (d : BitVec 5) (a : BitVec 6) (b : BitVec 6) (p : BitVec 3) (f : BitVec 3)
  /-- `VSQRT` (R127). -/
  | vsqrt (d : BitVec 5) (a : BitVec 6) (p : BitVec 3) (f : BitVec 3)
  /-- `VREDADD` (R128). -/
  | vredadd (d : BitVec 5) (a : BitVec 6) (p : BitVec 3)
  /-- `VREDMAX` (R128). -/
  | vredmax (d : BitVec 5) (a : BitVec 6) (p : BitVec 3)
  /-- `VFMA_PREFIXED` (R127). -/
  | vfmaPrefixed (d : BitVec 5) (a b c : BitVec 6) (p f : BitVec 3)
  /-- `VFMS_PREFIXED` (R127). -/
  | vfmsPrefixed (d : BitVec 5) (a b c : BitVec 6) (p f : BitVec 3)
  /-- `VIADD` (R129). -/
  | viadd (d : BitVec 5) (a : BitVec 6) (b : BitVec 6) (p : BitVec 3) (f : BitVec 3)
  /-- `VIMUL` (R129). -/
  | vimul (d : BitVec 5) (a : BitVec 6) (b : BitVec 6) (p : BitVec 3) (f : BitVec 3)
  /-- `VAND` (R129). -/
  | vand (d : BitVec 5) (a : BitVec 6) (b : BitVec 6) (p : BitVec 3)
  /-- `VOR` (R129). -/
  | vor (d : BitVec 5) (a : BitVec 6) (b : BitVec 6) (p : BitVec 3)
  /-- `VXOR` (R129). -/
  | vxor (d : BitVec 5) (a : BitVec 6) (b : BitVec 6) (p : BitVec 3)
  /-- `VSHL` (R129). -/
  | vshl (d : BitVec 5) (a : BitVec 6) (b : BitVec 6) (p : BitVec 3) (f : BitVec 3)
  /-- `VSHR` (R129). -/
  | vshr (d : BitVec 5) (a : BitVec 6) (b : BitVec 6) (p : BitVec 3) (f : BitVec 3)
  /-- `VSHR_A` (R129). -/
  | vshrA (d : BitVec 5) (a : BitVec 6) (b : BitVec 6) (p : BitVec 3) (f : BitVec 3)
  /-- `VSEL` (R131). -/
  | vsel (d : BitVec 5) (a : BitVec 6) (b : BitVec 6) (p : BitVec 3)
  /-- `VCMP_EQ` (R130). -/
  | vcmpEq (d : BitVec 5) (a : BitVec 6) (b : BitVec 6) (p : BitVec 3) (f : BitVec 3)
  /-- `VCMP_NE` (R130). -/
  | vcmpNe (d : BitVec 5) (a : BitVec 6) (b : BitVec 6) (p : BitVec 3) (f : BitVec 3)
  /-- `VCMP_LT` (R130). -/
  | vcmpLt (d : BitVec 5) (a : BitVec 6) (b : BitVec 6) (p : BitVec 3) (f : BitVec 3)
  /-- `VCMP_LE` (R130). -/
  | vcmpLe (d : BitVec 5) (a : BitVec 6) (b : BitVec 6) (p : BitVec 3) (f : BitVec 3)
  /-- `VCMP_GT` (R130). -/
  | vcmpGt (d : BitVec 5) (a : BitVec 6) (b : BitVec 6) (p : BitVec 3) (f : BitVec 3)
  /-- `VCMP_GE` (R130). -/
  | vcmpGe (d : BitVec 5) (a : BitVec 6) (b : BitVec 6) (p : BitVec 3) (f : BitVec 3)
  /-- `VMOV` (R131). -/
  | vmov (d : BitVec 5) (a : BitVec 6) (p : BitVec 3)
  /-- `VBCAST` (R131). -/
  | vbcast (d : BitVec 5) (a : BitVec 6) (l : BitVec 6) (p : BitVec 3)
  /-- `VPERM` (R131). -/
  | vperm (d : BitVec 5) (a : BitVec 6) (b : BitVec 6) (p : BitVec 3)
  /-- `VLDL` (R148). -/
  | vldl (d : BitVec 5) (a : BitVec 6) (p : BitVec 3)
  /-- `VSTL` (R148). -/
  | vstl (d : BitVec 5) (a : BitVec 6) (p : BitVec 3)
  /-- `VGATHL` (R148). -/
  | vgathl (d : BitVec 5) (a : BitVec 6) (b : BitVec 6) (p : BitVec 3)
  /-- `VSCATL` (R148). -/
  | vscatl (d : BitVec 5) (a : BitVec 6) (b : BitVec 6) (p : BitVec 3)
  /-- `TBLLD` (R149). -/
  | tblld (d : BitVec 5) (a : BitVec 6)
  /-- `VLDG` (R230). -/
  | vldg (d : BitVec 5) (a : BitVec 6) (p : BitVec 3)
  /-- `VSTG` (R230). -/
  | vstg (d : BitVec 5) (a : BitVec 6) (p : BitVec 3)
  /-- `VGATHG` (R230). -/
  | vgathg (d : BitVec 5) (a : BitVec 6) (b : BitVec 6) (p : BitVec 3)
  /-- `VSCATG` (R230). -/
  | vscatg (d : BitVec 5) (a : BitVec 6) (b : BitVec 6) (p : BitVec 3)
  /-- `VTLU` (R137). -/
  | vtlu (d : BitVec 5) (a : BitVec 6) (t : BitVec 3) (p : BitVec 3) (f : BitVec 3)
  /-- `VROPE` (R138). -/
  | vrope (d : BitVec 5) (a : BitVec 6) (b : BitVec 6) (p : BitVec 3)
  /-- `VCVT` (R132). -/
  | vcvt (d : BitVec 5) (a : BitVec 6) (r : BitVec 3) (s : BitVec 3) (p : BitVec 3) (f : BitVec 3)
  /-- `VCVTN` (R134). -/
  | vcvtn (d : BitVec 5) (a : BitVec 6) (b : BitVec 6) (p : BitVec 3) (f : BitVec 3)
  /-- `VCVTN_COUNTER` (R135). -/
  | vcvtnCounter (d : BitVec 5) (a b : BitVec 6) (p f : BitVec 3) (n : BitVec 12)
  /-- `VPACK` (R133). -/
  | vpack (d : BitVec 5) (a : BitVec 6) (b : BitVec 6) (p : BitVec 3) (f : BitVec 3)
  /-- `VUNPACK` (R133). -/
  | vunpack (d : BitVec 5) (a : BitVec 6) (k : BitVec 6) (p : BitVec 3) (f : BitVec 3)
  /-- `SENDL` (R198). -/
  | sendl (a b : XReg) (c : BitVec 6) (l : BitVec 12) (x : XReg) (v r : BitVec 1)
  /-- `MLOADB` (R295). -/
  | mloadb (a : XReg) (s : BitVec 3) (g : BitVec 3)
  /-- `MMA` (R296). -/
  | mma (s : BitVec 3) (f : BitVec 3) (g : BitVec 3) (m : BitVec 1)
  /-- `SACC` (R298). -/
  | sacc (a : XReg) (b : XReg) (s : BitVec 3)
  /-- `ASWAP` (R299). -/
  | aswap
  /-- `AREAD` (R300). -/
  | aread (a : XReg) (b : XReg)
  /-- `AZERO` (R300). -/
  | azero (v : BitVec 1)
  /-- `OFIX` (R301). -/
  | ofix (a : XReg) (b : XReg) (c : XReg)
  /-- `MSTAT` (R302). -/
  | mstat (a : XReg)
  /-- `COPY` (R280). -/
  | copy (q : BitVec 1) (a : XReg) (b : XReg) (c : XReg) (i : BitVec 6) (t : BitVec 2) (f : BitVec 1)
  /-- `GATHERKV` (R287). -/
  | gatherkv (a : XReg) (c : XReg)
  /-- `PAGEIN` (R286). -/
  | pagein (q : BitVec 1) (a : XReg) (b : XReg) (c : XReg)
  /-- `EFENCE` (R276). -/
  | efence (m : BitVec 4)
  /-- `EQWAIT` (R277). -/
  | eqwait (q : BitVec 2)
  /-- `TMAPSET` (R279). -/
  | tmapset (a : XReg) (i : BitVec 6)
  /-- `BINIT` (R152). -/
  | binit (a : XReg) (b : XReg)
  /-- `BEXPECT` (R152). -/
  | bexpect (a : XReg) (b : XReg)
  /-- `BARRIVE` (R152). -/
  | barrive (a : XReg)
  /-- `BWAIT` (R152). -/
  | bwait (a : XReg) (b : XReg)
  /-- `BTEST` (R152). -/
  | btest (a : XReg) (b : XReg) (c : XReg)
  /-- `CNEW` (R173). -/
  | cnew (d : XReg) (p : BitVec 2) (w : BitVec 3)
  /-- `CFREE` (R174). -/
  | cfree (a : XReg)
  /-- `CTAKE` (R175). -/
  | ctake (d : XReg) (a : XReg)
  /-- `CGIVE` (R175). -/
  | cgive (d : XReg) (a : XReg)
  /-- `CCANCEL` (R176). -/
  | ccancel (d : XReg) (a : XReg) (b : XReg)
  /-- `CREAD` (R177). -/
  | cread (d : XReg) (a : XReg)
  /-- `CARM` (R178). -/
  | carm (a : XReg) (b : XReg)
  /-- `CWAIT` (R179). -/
  | cwait (a : XReg) (b : XReg)
  /-- `SEND` (R197). -/
  | send (a : XReg) (b : XReg) (n : BitVec 2) (v : BitVec 1) (r : BitVec 1) (c : BitVec 6)
  /-- `REPLY` (R199). -/
  | reply (n : BitVec 2)
  /-- `MSGRD` (R200). -/
  | msgrd (d : XReg) (a : XReg)
  /-- `CHMASK` (R201). -/
  | chmask (m : BitVec 1) (c : BitVec 6)
  /-- `LPBIND` (R335). -/
  | lpbind (a : XReg) (c : BitVec 6)
  /-- `VTSET` (R335). -/
  | vtset (a : XReg)
  /-- `VTGET` (R335). -/
  | vtget (d : XReg)
  /-- `GVTRD` (R335). -/
  | gvtrd (d : XReg) (t : BitVec 8)
  /-- `IRREV` (R329). -/
  | irrev (a : XReg)
  /-- `CKPT` (R336). -/
  | ckpt (a : XReg)
  /-- `SWATER` (R335). -/
  | swater (a : XReg) (t : BitVec 8)
  /-- `STRUNC` (R336). -/
  | strunc (a : XReg) (b : XReg)
  /-- `SCURSOR` (R336). -/
  | scursor (d : XReg) (a : XReg) (s : BitVec 1)
  /-- `NRED` (R237). -/
  | nred (a : XReg) (b : XReg)
  /-- `NREDW` (R238). -/
  | nredw (d : XReg) (a : XReg)
  /-- `TRAP` (R214). -/
  | trap (c : BitVec 10)
  /-- `ERET` (R216). -/
  | eret
  /-- `RESUME` (R215). -/
  | resume (a : XReg)
  /-- `BRK` (R214). -/
  | brk (c : BitVec 10)
  /-- `FENCE` (R235). -/
  | fence (k : BitVec 2) (s : BitVec 3)
  /-- `DRAIN` (R234). -/
  | drain
  /-- `TLBINV_PAGE` (R259). -/
  | tlbinvPage (a : XReg) (s : BitVec 1)
  /-- `TLBINV_PART` (R259). -/
  | tlbinvPart (a : XReg) (s : BitVec 1)
  /-- `TLBINV_ALL` (R259). -/
  | tlbinvAll
  /-- `TLBSYNC` (R260). -/
  | tlbsync
  /-- `FBREAD` (R257). -/
  | fbread (d : XReg) (w : BitVec 2) (e : BitVec 3)
  /-- `FBPOP` (R257). -/
  | fbpop
  /-- `REPLAYALL` (R258). -/
  | replayall
  /-- `XLATE` (R262). -/
  | xlate (d : XReg) (a : XReg) (k : BitVec 2)
  /-- `BMCINV` (R339). -/
  | bmcinv (a : XReg)
  /-- `FETCH_LINE` (R13). -/
  | fetchLine (g c : Nat)
  /-- `CLASS_PROMOTION` (R79). -/
  | classPromotion (g c : Nat)
  /-- `RING_ENTRY_COMPLETE` (R209). -/
  | ringEntryComplete (g c : Nat) (seq : BitVec 8)
  /-- `TRAP_ENTRY` (R205). -/
  | trapEntry (g c : Nat)
  /-- `WATCHDOG` (R219). -/
  | watchdog (g c : Nat)
  /-- `WAIT_WAKE` (R66). -/
  | waitWake (g c : Nat)
  /-- `LOAD_REPLY` (R229). -/
  | loadReply (k : Nat)
  /-- `STORE_ACK` (R233). -/
  | storeAck (k : Nat)
  /-- `MEMORY_ACCESS` (R228). -/
  | memoryAccess (k : Nat)
  /-- `WEIR_PERIOD` (R352). -/
  | weirPeriod (h : Nat)
  /-- `PAGE_WALK` (R247). -/
  | pageWalk (g : Nat) (va : Word) (kind : BitVec 2)
  /-- `CONTEXT_REPLAY` (R255). -/
  | contextReplay (g c : Nat)
  /-- `MESSAGE_ARRIVAL` (R189). -/
  | messageArrival (k : Nat)
  /-- `MESSAGE_SPILL` (R190). -/
  | messageSpill (g : Nat)
  /-- `HANDLER_START` (R191). -/
  | handlerStart (g : Nat) (src : Source) (k : Nat)
  /-- `WAITCH_DELIVERY` (R95). -/
  | waitchDelivery (g : Nat) (src : Source) (k : Nat)
  /-- `SEND_INJECTION` (R195). -/
  | sendInjection (g : Nat) (reply : Bool)
  /-- `REPLY_LANDING` (R194). -/
  | replyLanding (k : Nat)
  /-- `CELL_RELEASE` (R194). -/
  | cellRelease (k : Nat)
  /-- `HOST_WINDOW_WRITE` (R202). -/
  | hostWindowWrite (t : Nat) (off : Nat) (data : List Byte)
  /-- `LAUNCH_FORWARD` (R72). -/
  | launchForward (g k : Nat)
  /-- `LAUNCH_MESSAGE` (R72). -/
  | launchMessage (t k : Nat)
  /-- `DISPATCH_RETRY` (R72). -/
  | dispatchRetry (t : Nat)
  /-- `GRID_DESCRIPTOR` (R72). -/
  | gridDescriptor (k : Nat)
  /-- `CREW_ADMISSION` (R74). -/
  | crewAdmission (g : Nat)
  /-- `CREW_DONE` (R92). -/
  | crewDone (g k : Nat)
  /-- `GRID_COMPLETION` (R75). -/
  | gridCompletion (t k : Nat)
  /-- `GRID_END` (R75). -/
  | gridEnd (k : Nat)
  /-- `FORK_CHILD_START` (R88). -/
  | forkChildStart (g : Nat)
  /-- `STEAL_REQUEST` (R88). -/
  | stealRequest (g : Nat)
  /-- `STEAL_SERVE` (R88). -/
  | stealServe (k : Nat)
  /-- `STEAL_REPLY` (R88). -/
  | stealReply (k : Nat)
  /-- `STEAL_ROUND` (R88). -/
  | stealRound (g : Nat)
  /-- `JOIN_SWAP_OUT` (R90). -/
  | joinSwapOut (g : Nat)
  /-- `JOIN_READMIT` (R90). -/
  | joinReadmit (g k : Nat)
  /-- `RETAIN_TIMEOUT` (R93). -/
  | retainTimeout (g k : Nat)
  /-- `MIGRATION_ARRIVAL` (R99). -/
  | migrationArrival (g k : Nat)
  /-- `BALANCER_TOKEN` (R162). -/
  | balancerToken (k : Nat)
  /-- `BALANCER_ANTITOKEN` (R162). -/
  | balancerAntitoken (k : Nat)
  /-- `EXIT_TOKEN` (R162). -/
  | exitToken (k : Nat)
  /-- `EXIT_ANTITOKEN` (R162). -/
  | exitAntitoken (k : Nat)
  /-- `EXIT_CANCEL` (R162). -/
  | exitCancel (k : Nat)
  /-- `GENERATION_CLOSE` (R167). -/
  | generationClose (t key : Nat)
  /-- `PENNANT_RAISE` (R167). -/
  | pennantRaise (t key : Nat)
  /-- `NRED_CONTRIBUTION` (R237). -/
  | nredContribution (k : Nat)
  /-- `CREW_SWAP_OUT` (R264). -/
  | crewSwapOut (g k : Nat)
  /-- `IDLE_CREW_SWAP` (R267). -/
  | idleCrewSwap (g : Nat)
  /-- `CREW_READMISSION` (R265). -/
  | crewReadmission (g : Nat)
  /-- `COMMAND_ACTIVATION` (R274): g names a core and, above the numbers of cores, which move of its engine. -/
  | commandActivation (g : Nat) (q : Queue)
  /-- `ENGINE_CREDIT` (R151). -/
  | engineCredit (g : Nat) (q : Queue) (n : Nat)
  /-- `COMMAND_COMPLETION` (R275). -/
  | commandCompletion (g : Nat) (q : Queue)
  /-- `TIER_MISS_EVENT` (R342). -/
  | tierMissEvent (g : Nat)
  /-- `GVT_ROUND` (R327). -/
  | gvtRound (t dom : Nat)
  /-- `GVT_PUBLICATION` (R328). -/
  | gvtPublication (t dom : Nat)
  /-- `LP_EVENT_START` (R319). -/
  | lpEventStart (g slot : Nat)
  /-- `CHECKPOINT_SNAPSHOT` (R324). -/
  | checkpointSnapshot (g slot : Nat)
  /-- `STRAGGLER_ROLLBACK` (R323). -/
  | stragglerRollback (g k : Nat)
  /-- `ANTI_MESSAGE_ARRIVAL` (R325). -/
  | antiMessageArrival (g k m : Nat)
  /-- `LATE_MESSAGE` (R333). -/
  | lateMessage (g k : Nat)
  /-- `LP_UNBIND` (R316). -/
  | lpUnbind (g slot : Nat)
  /-- `EVICTION` (R357). -/
  | eviction (g : Nat)
  /-- `EVICT_ROUTINE_TIMEOUT` (R357). -/
  | evictRoutineTimeout (g : Nat)
  /-- `EVICTED_MESSAGE` (R359). -/
  | evictedMessage (k : Nat)
  /-- `RETRY_RESEND` (R359). -/
  | retryResend (k : Nat)
  /-- `RESTORE` (R360). -/
  | restore (g : Nat)
  /-- `PARTITION_RESET` (R361). -/
  | partitionReset (t : Nat)
  /-- `JOURNAL_REPLAY` (R362). -/
  | journalReplay (t : Nat)
  /-- `ARRAY_ERROR` (R366). -/
  | arrayError (g : Nat) (unit index : BitVec 8) (correctable : Bool) (syndrome : BitVec 32) (off : Nat)
  /-- `MACHINE_CHECK` (R367). -/
  | machineCheck (g : Nat) (unit index : BitVec 8) (syndrome : BitVec 32) (off : Nat)
  /-- `HALYARD_HALT` (R369). -/
  | halyardHalt (cl : Nat) (cmp : Word)
  /-- `HALYARD_RESUME` (R369). -/
  | halyardResume (cl : Nat)
  /-- `MONITOR_SAMPLE` (R374). -/
  | monitorSample (g m : Nat) (v : Word)
  /-- `MONITOR_CLEAR` (R365). -/
  | monitorClear (g m : Nat)
  /-- `TENCNT_FLUSH` (R354). -/
  | tencntFlush (t i : Nat)
  /-- `TCSYNC_FLUSH` (R354). -/
  | tcsyncFlush (t : Nat)
  /-- `JFENCE_MARK` (R362). -/
  | jfenceMark (t : Nat)
  /-- `GVTPER_WRITE` (R314). -/
  | gvtperWrite (g : Nat) (v : Word)
  /-- `DISPATCH_REGISTER_WRITE` (R349). -/
  | dispatchRegisterWrite (g off : Nat) (v : Word)
  /-- `DRAMCE_CLEAR` (R365). -/
  | dramceClear (g : Nat)
  /-- `MCREC_CLEAR` (R365). -/
  | mcrecClear (g : Nat) (v : Word)
  /-- `FTEST_START` (R375). -/
  | ftestStart (cl : Nat)
  /-- `FTEST_COMPLETE` (R375). -/
  | ftestComplete (cl : Nat) (results : List (BitVec 32))
  /-- `MARGIN_MEASUREMENT` (R377). -/
  | marginMeasurement (port : Nat) (vals : List Byte)
  /-- `PORT_RECORD_CLEAR` (R377). -/
  | portRecordClear (port : Nat)
  /-- `REGISTER_WRITE` (R226). -/
  | registerWrite (g off : Nat) (v : Word)
  /-- `SECURITY_ALARM` (R378). -/
  | securityAlarm (cause : AlarmCause)
  /-- `PARTITION_FORM` (R386). -/
  | partitionForm (t : Nat) (hyper : Bool) (cores : List Nat) (limit floor : Nat)
  /-- `PARTITION_RESIZE` (R386). -/
  | partitionResize (t : Nat) (cores : List Nat) (limit floor : Nat)
  /-- `PARTITION_RELEASE` (R386). -/
  | partitionRelease (t : Nat)
  /-- `SELF_TEST_COMMAND` (R386). -/
  | selfTestCommand (cl : Nat)
  /-- `STATUS_HEALTH` (R386). -/
  | statusHealth
  /-- `ATTEST` (R379). -/
  | attest (nonce : List Byte)
  /-- `FIRMWARE_UPDATE` (R386). -/
  | firmwareUpdate (image : List Byte) (signed : Bool)
  /-- `REPLACE_REQUEST` (R386). -/
  | replaceRequest
  /-- `POWER_ON` (R387). -/
  | powerOn (chip : Nat) (found : Bringup)
  /-- `ISLAND_CLOCK_CHANGE` (R388). -/
  | islandClockChange (isl : Nat) (f : Nat)
  /-- `THERMAL_THROTTLE` (R388). -/
  | thermalThrottle (isls : List Nat)
  /-- `THERMAL_SHUTDOWN` (R388). -/
  | thermalShutdown
  /-- `PORT_FAILURE` (R385). -/
  | portFailure (port : Nat)
  /-- `CXL_DEVICE_FAILURE` (R384). -/
  | cxlDeviceFailure (seg : Nat)
  /-- `MSIX_DOORBELL` (R382). -/
  | msixDoorbell (t v : Nat)
  /-- `FABRIC_REPLY` (R172). -/
  | fabricReply (k : Nat)
  /-- `HOST_MEMORY_ACCESS` (R380). -/
  | hostMemoryAccess (t win off : Nat) (write : Bool) (data : List Byte)
  /-- `PACKAGE_RESET` (R386). -/
  | packageReset
  /-- `LOGGED_HOST_DELIVERY` (R373). -/
  | loggedHostDelivery (g : Nat)
  deriving DecidableEq, Repr

end Sys2Proof
end

