-- ==== Sys2Proof/WellFormed.lean ====
section
/-! DEFINITION. Which field values of an instruction are legal (the `FieldIllegal` check of R16), and
which instructions ask for supervisor privilege (the `SupervisorOnly` check of R16). An instruction
word that fails the first raises the illegal-instruction trap, one that fails the second the
privileged-instruction trap (R18). -/

namespace Sys2Proof

/-- A format code of R24. -/
abbrev Fmt := BitVec 3

/-- The codes FP32 and BF16, which the elementwise FP instructions and VTLU accept (R127, R137). -/
def fmtFp (f : Fmt) : Bool := f == 0 || f == 1

/-- The integer codes INT32, INT16 and INT8 (R129). -/
def fmtInt (f : Fmt) : Bool := f == 5 || f == 6 || f == 7

/-- The narrow floating-point codes BF16, E4M3, E5M2 and E2M1 (R134, R292). -/
def fmtNarrow (f : Fmt) : Bool := f == 1 || f == 2 || f == 3 || f == 4

/-- The codes VPACK and VUNPACK accept (R133). -/
def fmtPack (f : Fmt) : Bool := f != 0 && f != 5

/-- Elements per lane (R121). -/
def elemsPerLane (f : Fmt) : Nat :=
  if f == 0 || f == 5 then 1 else if f == 1 || f == 6 then 2 else if f == 4 then 8 else 4

/-- Whether a small constant may be read in a format (R22): a finite constant must not overflow the
element format; an integer format takes only the constants with an integer value that fits it. -/
def constLegal (k : Nat) (f : Fmt) : Bool :=
  if fmtInt f then
    (k == 38 || k == 39 || k == 40 || k == 42 || k == 44 || (46 ≤ k && k ≤ 54))
      && !(f == 7 && (k == 53 || k == 54))
  else if f == 0 then true
  else if f == 4 then !(49 ≤ k && k ≤ 54) && k != 63
  else k != 63

/-- A source specifier read in a format: a register is always legal, a constant as R22 allows. -/
def srcLegal (a : BitVec 6) (f : Fmt) : Bool := a.toNat < 38 || constLegal a.toNat f

/-- A source specifier read as an unsigned INT32: the negative constants do not fit (R22, R138). -/
def posLegal (b : BitVec 6) : Bool := srcLegal b 5 && b != 40 && b != 44

/-- A vector destination field (R23): values 0 to 21. -/
def dstLegal (d : BitVec 5) : Bool := d.toNat < 22

/-- A memory base: a specifier that names an x register (R34). -/
def baseLegal (a : BitVec 6) : Bool := 16 ≤ a.toNat && a.toNat < 32

/-- An offset register of a gather or scatter: a v, w or y register (R148, R230). The manual names no fate for another specifier; the
model's choice is that it makes the instruction illegal (DESIGN CHOICE, log entry 99). -/
def offsLegal (b : BitVec 6) : Bool := b.toNat < 16 || (32 ≤ b.toNat && b.toNat < 38)

/-- The assigned control-register numbers (R45). -/
def crAssigned (r : BitVec 12) : Bool :=
  let n := r.toNat
  n ≤ 3 || (8 ≤ n && n ≤ 0x11) || (0x100 ≤ n && n ≤ 0x103) || (0x200 ≤ n && n ≤ 0x202) || n == 0x300

/-- The control registers that CWR may name at some privilege (the Write column of R45). -/
def crWritable (r : BitVec 12) : Bool :=
  crAssigned r && !(r == 0x003 || r == 0x100 || r == 0x202 || r == 0x300)

/-- A binary vector instruction whose operands are both read in the instruction's format. -/
def binLegal (ok : Fmt → Bool) (d : BitVec 5) (a b : BitVec 6) (f : Fmt) : Bool :=
  ok f && dstLegal d && srcLegal a f && srcLegal b f

/-- A unary vector instruction whose operand is read in the instruction's format. -/
def unLegal (ok : Fmt → Bool) (d : BitVec 5) (a : BitVec 6) (f : Fmt) : Bool :=
  ok f && dstLegal d && srcLegal a f

/-- A comparison (R130, R23): any format, destination p1 to p7. -/
def cmpLegal (d : BitVec 5) (a b : BitVec 6) (f : Fmt) : Bool :=
  1 ≤ d.toNat && d.toNat ≤ 7 && srcLegal a f && srcLegal b f

/-- The sizes an AMO accepts besides 16 B (R29, R30). -/
def amoSize (z : BitVec 2) : Bool := z == 2 || z == 3

/-- An even register number, which begins a pair (R30). -/
def evenReg (r : XReg) : Bool := r.toNat % 2 == 0

/-- A channel a SEND or SENDL may name at some privilege (R184, R197). -/
def sendChannel (c : BitVec 6) : Bool := c != 4 && c != 6

/-- The number of named registers in a migration's vmask (R32). -/
def maskCount (m : BitVec 16) : Nat := ((List.range 16).filter fun i => m.getLsbD i).length

/-- Whether every field value of the instruction is legal (R16, R18). A device step has no encoding,
and nothing to check. -/
def Instr.wellFormed : Instr → Bool
  | .ldl z _ _ g _ => !(z == 3 && g == 1)
  | .ldg z _ _ g _ => !(z == 3 && g == 1)
  | .amoAdd z _ _ _ => amoSize z
  | .amoMin z _ _ _ => amoSize z
  | .amoMax z _ _ _ => amoSize z
  | .amoAnd z _ _ _ => amoSize z
  | .amoOr z _ _ _ => amoSize z
  | .amoXor z _ _ _ => amoSize z
  | .amoSwap z d _ b => amoSize z || (z == 0 && evenReg d && evenReg b)
  | .amoCas z d _ b c => amoSize z || (z == 0 && evenReg d && evenReg b && evenReg c)
  | .crd _ r => crAssigned r
  | .cwr _ r => crWritable r
  | .bCc c _ _ _ => c.toNat ≤ 5
  | .bfx _ _ l p => p.toNat + (l.toNat + 1) ≤ 64
  | .bfi _ _ l p => p.toNat + (l.toNat + 1) ≤ 64
  | .loop _ e => 2 < e.toNat
  | .loopi _ e => 2 < e.toNat
  | .haltK c => 8 ≤ c.toNat
  | .migrateHome _ m => maskCount m ≤ 4
  | .migrate _ m => maskCount m ≤ 4
  | .waitch c => 8 ≤ c.toNat
  | .getid _ s => s.toNat ≤ 8
  | .vadd d a b _ f => binLegal fmtFp d a b f
  | .vsub d a b _ f => binLegal fmtFp d a b f
  | .vmul d a b _ f => binLegal fmtFp d a b f
  | .vfma d a b _ f => binLegal fmtFp d a b f
  | .vfms d a b _ f => binLegal fmtFp d a b f
  | .vmin d a b _ f => binLegal fmtFp d a b f
  | .vmax d a b _ f => binLegal fmtFp d a b f
  | .vabs d a _ f => unLegal fmtFp d a f
  | .vneg d a _ f => unLegal fmtFp d a f
  | .vdiv d a b _ f => binLegal fmtFp d a b f
  | .vsqrt d a _ f => unLegal fmtFp d a f
  | .vredadd d a _ => unLegal fmtFp d a 0
  | .vredmax d a _ => unLegal fmtFp d a 0
  | .viadd d a b _ f => binLegal fmtInt d a b f
  | .vimul d a b _ f => binLegal fmtInt d a b f
  | .vand d a b _ => binLegal fmtInt d a b 5
  | .vor d a b _ => binLegal fmtInt d a b 5
  | .vxor d a b _ => binLegal fmtInt d a b 5
  | .vshl d a b _ f => binLegal fmtInt d a b f
  | .vshr d a b _ f => binLegal fmtInt d a b f
  | .vshrA d a b _ f => binLegal fmtInt d a b f
  | .vsel d a b _ => binLegal fmtInt d a b 5
  | .vcmpEq d a b _ f => cmpLegal d a b f
  | .vcmpNe d a b _ f => cmpLegal d a b f
  | .vcmpLt d a b _ f => cmpLegal d a b f
  | .vcmpLe d a b _ f => cmpLegal d a b f
  | .vcmpGt d a b _ f => cmpLegal d a b f
  | .vcmpGe d a b _ f => cmpLegal d a b f
  | .vmov d a _ => unLegal fmtInt d a 5
  | .vbcast d a _ _ => unLegal fmtInt d a 5
  | .vperm d a b _ => binLegal fmtInt d a b 5
  | .vldl d a _ => dstLegal d && baseLegal a
  | .vstl d a _ => dstLegal d && baseLegal a
  | .vgathl d a b _ => dstLegal d && baseLegal a && offsLegal b
  | .vscatl d a b _ => dstLegal d && baseLegal a && offsLegal b
  | .tblld d a => d.toNat < 8 && baseLegal a
  | .vldg d a _ => dstLegal d && baseLegal a
  | .vstg d a _ => dstLegal d && baseLegal a
  | .vgathg d a b _ => dstLegal d && baseLegal a && offsLegal b
  | .vscatg d a b _ => dstLegal d && baseLegal a && offsLegal b
  | .vtlu d a _ _ f => unLegal fmtFp d a f
  | .vrope d a b _ => dstLegal d && srcLegal a 0 && posLegal b
  | .vcvt d a r s _ _ => dstLegal d && srcLegal a s && r.toNat ≤ 5
  | .vcvtn d a b _ f => fmtNarrow f && dstLegal d && srcLegal a 0 && srcLegal b 0
  | .vcvtnCounter d a b _ f _ => fmtNarrow f && dstLegal d && srcLegal a 0 && srcLegal b 0
  | .vpack d a b _ f => binLegal fmtPack d a b f
  | .vunpack d a k _ f => unLegal fmtPack d a f && k.toNat < elemsPerLane f
  | .vfmaPrefixed d a b c _ f => binLegal fmtFp d a b f && srcLegal c f
  | .vfmsPrefixed d a b c _ f => binLegal fmtFp d a b f && srcLegal c f
  | .sendl _ _ c l x v _ => sendChannel c && l.toNat ≤ 2016 && (v == 1 || x == 0)
  | .mloadb _ s g => s.toNat ≤ 4 && fmtNarrow g
  | .mma s f g _ => s.toNat ≤ 4 && fmtNarrow f && fmtNarrow g
  | .sacc _ _ s => s.toNat ≤ 4
  | .copy _ _ _ _ _ t f => f == 0 || t == 3
  | .efence m => m != 0
  | .cnew _ p w => p.toNat ≤ 2 && w.toNat ≤ 6
  | .send _ b _ v _ c => sendChannel c && (v == 1 || b == 0)
  | .lpbind _ c => 8 ≤ c.toNat
  | .fence k s => k != 0 && s.toNat ≤ 4
  | .tlbinvPart a s2 => s2 == 1 || a == 0
  | .xlate _ _ k => k.toNat ≤ 2
  | .nop => true
  | .movCompact _ _ => true
  | .addCompact _ _ => true
  | .subCompact _ _ => true
  | .andCompact _ _ => true
  | .orCompact _ _ => true
  | .xorCompact _ _ => true
  | .addiCompact _ _ => true
  | .liCompact _ _ => true
  | .shlCompact _ _ => true
  | .shrCompact _ _ => true
  | .sraCompact _ _ => true
  | .jCompact _ => true
  | .bzCompact _ _ => true
  | .bnzCompact _ _ => true
  | .ldlDCompact _ _ _ => true
  | .mulCompact _ _ => true
  | .minCompact _ _ => true
  | .maxCompact _ _ => true
  | .sltCompact _ _ => true
  | .seqCompact _ _ => true
  | .clzCompact _ _ => true
  | .popcCompact _ _ => true
  | .sltuCompact _ _ => true
  | .minuCompact _ _ => true
  | .maxuCompact _ _ => true
  | .jrCompact _ => true
  | .haltCompact => true
  | .yieldCompact => true
  | .hint _ => true
  | .add _ _ _ => true
  | .sub _ _ _ => true
  | .mul _ _ _ => true
  | .mulh _ _ _ => true
  | .mulhu _ _ _ => true
  | .div _ _ _ => true
  | .divu _ _ _ => true
  | .rem _ _ _ => true
  | .remu _ _ _ => true
  | .and _ _ _ => true
  | .or _ _ _ => true
  | .xor _ _ _ => true
  | .shl _ _ _ => true
  | .shr _ _ _ => true
  | .sra _ _ _ => true
  | .min _ _ _ => true
  | .max _ _ _ => true
  | .minu _ _ _ => true
  | .maxu _ _ _ => true
  | .slt _ _ _ => true
  | .sltu _ _ _ => true
  | .seq _ _ _ => true
  | .clz _ _ => true
  | .popc _ _ => true
  | .mov _ _ => true
  | .sel _ _ _ _ => true
  | .addsh _ _ _ _ => true
  | .addi _ _ _ => true
  | .andi _ _ _ => true
  | .ori _ _ _ => true
  | .xori _ _ _ => true
  | .shlImm _ _ _ => true
  | .shrImm _ _ _ => true
  | .sraImm _ _ _ => true
  | .li _ _ => true
  | .li64 _ _ => true
  | .lih _ _ _ => true
  | .stl _ _ _ _ => true
  | .stg _ _ _ _ => true
  | .amoFadd _ _ _ => true
  | .bz _ _ => true
  | .bnz _ _ => true
  | .j _ => true
  | .jal _ _ => true
  | .jr _ => true
  | .breakl => true
  | .launch _ => true
  | .fork _ _ => true
  | .join _ => true
  | .bar => true
  | .halt => true
  | .yield => true
  | .aswap => true
  | .aread _ _ => true
  | .azero _ => true
  | .ofix _ _ _ => true
  | .mstat _ => true
  | .gatherkv _ _ => true
  | .pagein _ _ _ _ => true
  | .eqwait _ => true
  | .tmapset _ _ => true
  | .binit _ _ => true
  | .bexpect _ _ => true
  | .barrive _ => true
  | .bwait _ _ => true
  | .btest _ _ _ => true
  | .cfree _ => true
  | .ctake _ _ => true
  | .cgive _ _ => true
  | .ccancel _ _ _ => true
  | .cread _ _ => true
  | .carm _ _ => true
  | .cwait _ _ => true
  | .reply _ => true
  | .msgrd _ _ => true
  | .chmask _ _ => true
  | .vtset _ => true
  | .vtget _ => true
  | .gvtrd _ _ => true
  | .irrev _ => true
  | .ckpt _ => true
  | .swater _ _ => true
  | .strunc _ _ => true
  | .scursor _ _ _ => true
  | .nred _ _ => true
  | .nredw _ _ => true
  | .trap _ => true
  | .eret => true
  | .resume _ => true
  | .brk _ => true
  | .drain => true
  | .tlbinvPage _ _ => true
  | .tlbinvAll => true
  | .tlbsync => true
  | .fbread _ _ _ => true
  | .fbpop => true
  | .replayall => true
  | .bmcinv _ => true
  | .fetchLine _ _ => true
  | .classPromotion _ _ => true
  | .ringEntryComplete _ _ _ => true
  | .trapEntry _ _ => true
  | .watchdog _ _ => true
  | .waitWake _ _ => true
  | .loadReply _ => true
  | .storeAck _ => true
  | .memoryAccess _ => true
  | .weirPeriod _ => true
  | .pageWalk _ _ _ => true
  | .contextReplay _ _ => true
  | .messageArrival _ => true
  | .messageSpill _ => true
  | .handlerStart _ _ _ => true
  | .waitchDelivery _ _ _ => true
  | .sendInjection _ _ => true
  | .replyLanding _ => true
  | .cellRelease _ => true
  | .hostWindowWrite _ _ _ => true
  | .launchForward _ _ => true
  | .launchMessage _ _ => true
  | .dispatchRetry _ => true
  | .gridDescriptor _ => true
  | .crewAdmission _ => true
  | .crewDone _ _ => true
  | .gridCompletion _ _ => true
  | .gridEnd _ => true
  | .forkChildStart _ => true
  | .stealRequest _ => true
  | .stealServe _ => true
  | .stealReply _ => true
  | .stealRound _ => true
  | .joinSwapOut _ => true
  | .joinReadmit _ _ => true
  | .retainTimeout _ _ => true
  | .migrationArrival _ _ => true
  | .balancerToken _ => true
  | .balancerAntitoken _ => true
  | .exitToken _ => true
  | .exitAntitoken _ => true
  | .exitCancel _ => true
  | .generationClose _ _ => true
  | .pennantRaise _ _ => true
  | .nredContribution _ => true
  | .crewSwapOut _ _ => true
  | .idleCrewSwap _ => true
  | .crewReadmission _ => true
  | .commandActivation _ _ => true
  | .engineCredit _ _ _ => true
  | .commandCompletion _ _ => true
  | .tierMissEvent _ => true
  | .gvtRound _ _ => true
  | .gvtPublication _ _ => true
  | .lpEventStart _ _ => true
  | .checkpointSnapshot _ _ => true
  | .stragglerRollback _ _ => true
  | .antiMessageArrival _ _ _ => true
  | .lateMessage _ _ => true
  | .lpUnbind _ _ => true
  | .eviction _ => true
  | .evictRoutineTimeout _ => true
  | .evictedMessage _ => true
  | .retryResend _ => true
  | .restore _ => true
  | .partitionReset _ => true
  | .journalReplay _ => true
  | .arrayError _ _ _ _ _ _ => true
  | .machineCheck _ _ _ _ _ => true
  | .halyardHalt _ _ => true
  | .halyardResume _ => true
  | .monitorSample _ _ _ => true
  | .monitorClear _ _ => true
  | .tencntFlush _ _ => true
  | .tcsyncFlush _ => true
  | .jfenceMark _ => true
  | .gvtperWrite _ _ => true
  | .dispatchRegisterWrite _ _ _ => true
  | .dramceClear _ => true
  | .mcrecClear _ _ => true
  | .ftestStart _ => true
  | .ftestComplete _ _ => true
  | .marginMeasurement _ _ => true
  | .portRecordClear _ => true
  | .registerWrite _ _ _ => true
  | .securityAlarm _ => true
  | .partitionForm _ _ _ _ _ => true
  | .partitionResize _ _ _ _ => true
  | .partitionRelease _ => true
  | .selfTestCommand _ => true
  | .statusHealth => true
  | .attest _ => true
  | .firmwareUpdate _ _ => true
  | .replaceRequest => true
  | .powerOn _ _ => true
  | .islandClockChange _ _ => true
  | .thermalThrottle _ => true
  | .thermalShutdown => true
  | .portFailure _ => true
  | .cxlDeviceFailure _ => true
  | .msixDoorbell _ _ => true
  | .fabricReply _ => true
  | .hostMemoryAccess _ _ _ _ _ => true
  | .packageReset => true
  | .loggedHostDelivery _ => true

/-- A control register that a user context may not read (R45). -/
def crReadPrivileged (r : BitVec 12) : Bool :=
  r == 0x103 || (0x200 ≤ r.toNat && r.toNat ≤ 0x202)

/-- A control register that a user context may not write (R45). -/
def crWritePrivileged (r : BitVec 12) : Bool :=
  r == 0x010 || r == 0x011 || r == 0x103 || r == 0x200 || r == 0x201

/-- A channel reserved to supervisor privilege in SEND and SENDL (R184, R197). -/
def channelPrivileged (c : BitVec 6) : Bool := c == 0 || c == 1 || c == 2 || c == 5 || c == 7

/-- Whether the instruction asks for supervisor privilege (R16, R38, R46, R197, R201). -/
def Instr.supervisorOnly : Instr → Bool
  | .eret => true
  | .resume _ => true
  | .tlbinvPage _ _ => true
  | .tlbinvPart _ _ => true
  | .tlbinvAll => true
  | .tlbsync => true
  | .fbread _ _ _ => true
  | .fbpop => true
  | .replayall => true
  | .bmcinv _ => true
  | .crd _ r => crReadPrivileged r
  | .cwr _ r => crWritePrivileged r
  | .send _ _ _ _ _ c => channelPrivileged c
  | .sendl _ _ c _ _ _ _ => channelPrivileged c
  | .chmask _ c => c.toNat < 8
  | _ => false

end Sys2Proof
end

