-- ==== Sys2Proof/Decode.lean ====
section
/-! DEFINITION. The decoder of the DK9's instruction words and bytes, and the encoder, both from the
encoding tables of R25 to R38. A word that is unassigned, or whose reserved field is nonzero, is
rejected by name; both fates are the illegal-instruction trap (R18). A word whose field value is
illegal decodes, and is caught by `Instr.wellFormed` before it issues (R16, R18). -/

namespace Sys2Proof

/-- Why a word has no instruction (R16, R18). -/
inductive DecodeError where
  /-- An unassigned major, minor, function or sub-operation code. -/
  | unassigned
  /-- A reserved field, or a field marked "—", holds a nonzero value. -/
  | reserved
  /-- Fewer bytes than the major opcode's length asks for. -/
  | short
  deriving DecidableEq, Repr

/-- An instruction word of one, two or four halfwords (R9). -/
inductive Code where
  | w16 (w : BitVec 16)
  | w32 (w : BitVec 32)
  | w64 (w : BitVec 64)
  deriving DecidableEq, Repr

abbrev DecodeResult := Except DecodeError Instr

/-- Majors 0x0 and 0x3: the compact register and immediate forms (R25, R26). -/
def decodeCompact (w : BitVec 16) : DecodeResult :=
  match (w.extractLsb' 8 8).toNat with
  | 0x0 => if w.extractLsb' 0 8 = 1 then .ok (.nop) else .error .reserved
  | 0x1 => .ok (.movCompact (w.extractLsb' 4 4) (w.extractLsb' 0 4))
  | 0x2 => .ok (.addCompact (w.extractLsb' 4 4) (w.extractLsb' 0 4))
  | 0x3 => .ok (.subCompact (w.extractLsb' 4 4) (w.extractLsb' 0 4))
  | 0x4 => .ok (.andCompact (w.extractLsb' 4 4) (w.extractLsb' 0 4))
  | 0x5 => .ok (.orCompact (w.extractLsb' 4 4) (w.extractLsb' 0 4))
  | 0x6 => .ok (.xorCompact (w.extractLsb' 4 4) (w.extractLsb' 0 4))
  | 0x7 => .ok (.addiCompact (w.extractLsb' 4 4) (w.extractLsb' 0 4))
  | 0x8 => .ok (.liCompact (w.extractLsb' 4 4) (w.extractLsb' 0 4))
  | 0x9 => .ok (.shlCompact (w.extractLsb' 4 4) (w.extractLsb' 0 4))
  | 0xa => .ok (.shrCompact (w.extractLsb' 4 4) (w.extractLsb' 0 4))
  | 0xb => .ok (.sraCompact (w.extractLsb' 4 4) (w.extractLsb' 0 4))
  | 0x30 => .ok (.mulCompact (w.extractLsb' 4 4) (w.extractLsb' 0 4))
  | 0x31 => .ok (.minCompact (w.extractLsb' 4 4) (w.extractLsb' 0 4))
  | 0x32 => .ok (.maxCompact (w.extractLsb' 4 4) (w.extractLsb' 0 4))
  | 0x33 => .ok (.sltCompact (w.extractLsb' 4 4) (w.extractLsb' 0 4))
  | 0x34 => .ok (.seqCompact (w.extractLsb' 4 4) (w.extractLsb' 0 4))
  | 0x35 => .ok (.clzCompact (w.extractLsb' 4 4) (w.extractLsb' 0 4))
  | 0x36 => .ok (.popcCompact (w.extractLsb' 4 4) (w.extractLsb' 0 4))
  | 0x37 => .ok (.sltuCompact (w.extractLsb' 4 4) (w.extractLsb' 0 4))
  | 0x38 => .ok (.minuCompact (w.extractLsb' 4 4) (w.extractLsb' 0 4))
  | 0x39 => .ok (.maxuCompact (w.extractLsb' 4 4) (w.extractLsb' 0 4))
  | 0x3a => if w.extractLsb' 4 4 = 0 then .ok (.jrCompact (w.extractLsb' 0 4)) else .error .reserved
  | 0x3b => if w.extractLsb' 0 8 = 0 then .ok (.haltCompact) else .error .reserved
  | 0x3c => if w.extractLsb' 0 8 = 0 then .ok (.yieldCompact) else .error .reserved
  | 0x3f => .ok (.hint (w.extractLsb' 0 8))
  | _ => .error .unassigned

/-- Major 0x1: the short J, BZ and BNZ (R25). Kind 11 is illegal. -/
def decodeShortBranch (w : BitVec 16) : DecodeResult :=
  match (w.extractLsb' 10 2).toNat with
  | 0 => .ok (.jCompact (w.extractLsb' 0 10))
  | 1 => .ok (.bzCompact (w.extractLsb' 6 4) (w.extractLsb' 0 6))
  | 2 => .ok (.bnzCompact (w.extractLsb' 6 4) (w.extractLsb' 0 6))
  | _ => .error .unassigned

/-- The 16-bit majors 0x0 to 0x3 (R19). -/
def decode16 (w : BitVec 16) : DecodeResult :=
  match (w.extractLsb' 12 4).toNat with
  | 0 => decodeCompact w
  | 1 => decodeShortBranch w
  | 2 => .ok (.ldlDCompact (w.extractLsb' 8 4) (w.extractLsb' 4 4) (w.extractLsb' 0 4))
  | 3 => decodeCompact w
  | _ => .error .unassigned

/-- Major 0x4: register forms of the scalar ALU (R27). -/
def decode4 (w : BitVec 32) : DecodeResult :=
  match (w.extractLsb' 22 6).toNat with
  | 0 => if w.extractLsb' 0 10 = 0 then .ok (.add (w.extractLsb' 18 4) (w.extractLsb' 14 4) (w.extractLsb' 10 4)) else .error .reserved
  | 1 => if w.extractLsb' 0 10 = 0 then .ok (.sub (w.extractLsb' 18 4) (w.extractLsb' 14 4) (w.extractLsb' 10 4)) else .error .reserved
  | 2 => if w.extractLsb' 0 10 = 0 then .ok (.mul (w.extractLsb' 18 4) (w.extractLsb' 14 4) (w.extractLsb' 10 4)) else .error .reserved
  | 3 => if w.extractLsb' 0 10 = 0 then .ok (.mulh (w.extractLsb' 18 4) (w.extractLsb' 14 4) (w.extractLsb' 10 4)) else .error .reserved
  | 4 => if w.extractLsb' 0 10 = 0 then .ok (.mulhu (w.extractLsb' 18 4) (w.extractLsb' 14 4) (w.extractLsb' 10 4)) else .error .reserved
  | 5 => if w.extractLsb' 0 10 = 0 then .ok (.div (w.extractLsb' 18 4) (w.extractLsb' 14 4) (w.extractLsb' 10 4)) else .error .reserved
  | 6 => if w.extractLsb' 0 10 = 0 then .ok (.divu (w.extractLsb' 18 4) (w.extractLsb' 14 4) (w.extractLsb' 10 4)) else .error .reserved
  | 7 => if w.extractLsb' 0 10 = 0 then .ok (.rem (w.extractLsb' 18 4) (w.extractLsb' 14 4) (w.extractLsb' 10 4)) else .error .reserved
  | 8 => if w.extractLsb' 0 10 = 0 then .ok (.remu (w.extractLsb' 18 4) (w.extractLsb' 14 4) (w.extractLsb' 10 4)) else .error .reserved
  | 9 => if w.extractLsb' 0 10 = 0 then .ok (.and (w.extractLsb' 18 4) (w.extractLsb' 14 4) (w.extractLsb' 10 4)) else .error .reserved
  | 10 => if w.extractLsb' 0 10 = 0 then .ok (.or (w.extractLsb' 18 4) (w.extractLsb' 14 4) (w.extractLsb' 10 4)) else .error .reserved
  | 11 => if w.extractLsb' 0 10 = 0 then .ok (.xor (w.extractLsb' 18 4) (w.extractLsb' 14 4) (w.extractLsb' 10 4)) else .error .reserved
  | 12 => if w.extractLsb' 0 10 = 0 then .ok (.shl (w.extractLsb' 18 4) (w.extractLsb' 14 4) (w.extractLsb' 10 4)) else .error .reserved
  | 13 => if w.extractLsb' 0 10 = 0 then .ok (.shr (w.extractLsb' 18 4) (w.extractLsb' 14 4) (w.extractLsb' 10 4)) else .error .reserved
  | 14 => if w.extractLsb' 0 10 = 0 then .ok (.sra (w.extractLsb' 18 4) (w.extractLsb' 14 4) (w.extractLsb' 10 4)) else .error .reserved
  | 15 => if w.extractLsb' 0 10 = 0 then .ok (.min (w.extractLsb' 18 4) (w.extractLsb' 14 4) (w.extractLsb' 10 4)) else .error .reserved
  | 16 => if w.extractLsb' 0 10 = 0 then .ok (.max (w.extractLsb' 18 4) (w.extractLsb' 14 4) (w.extractLsb' 10 4)) else .error .reserved
  | 17 => if w.extractLsb' 0 10 = 0 then .ok (.minu (w.extractLsb' 18 4) (w.extractLsb' 14 4) (w.extractLsb' 10 4)) else .error .reserved
  | 18 => if w.extractLsb' 0 10 = 0 then .ok (.maxu (w.extractLsb' 18 4) (w.extractLsb' 14 4) (w.extractLsb' 10 4)) else .error .reserved
  | 19 => if w.extractLsb' 0 10 = 0 then .ok (.slt (w.extractLsb' 18 4) (w.extractLsb' 14 4) (w.extractLsb' 10 4)) else .error .reserved
  | 20 => if w.extractLsb' 0 10 = 0 then .ok (.sltu (w.extractLsb' 18 4) (w.extractLsb' 14 4) (w.extractLsb' 10 4)) else .error .reserved
  | 21 => if w.extractLsb' 0 10 = 0 then .ok (.seq (w.extractLsb' 18 4) (w.extractLsb' 14 4) (w.extractLsb' 10 4)) else .error .reserved
  | 22 => if w.extractLsb' 0 14 = 0 then .ok (.clz (w.extractLsb' 18 4) (w.extractLsb' 14 4)) else .error .reserved
  | 23 => if w.extractLsb' 0 14 = 0 then .ok (.popc (w.extractLsb' 18 4) (w.extractLsb' 14 4)) else .error .reserved
  | 24 => if w.extractLsb' 0 14 = 0 then .ok (.mov (w.extractLsb' 18 4) (w.extractLsb' 14 4)) else .error .reserved
  | 25 => if w.extractLsb' 0 6 = 0 then .ok (.sel (w.extractLsb' 18 4) (w.extractLsb' 14 4) (w.extractLsb' 10 4) (w.extractLsb' 6 4)) else .error .reserved
  | 26 => if w.extractLsb' 6 4 = 0 then .ok (.addsh (w.extractLsb' 18 4) (w.extractLsb' 14 4) (w.extractLsb' 10 4) (w.extractLsb' 0 6)) else .error .reserved
  | _ => .error .unassigned

/-- Major 0x5: immediate forms of the scalar ALU (R28). -/
def decode5 (w : BitVec 32) : DecodeResult :=
  match (w.extractLsb' 23 5).toNat with
  | 0 => .ok (.addi (w.extractLsb' 19 4) (w.extractLsb' 15 4) (w.extractLsb' 0 15))
  | 1 => .ok (.andi (w.extractLsb' 19 4) (w.extractLsb' 15 4) (w.extractLsb' 0 15))
  | 2 => .ok (.ori (w.extractLsb' 19 4) (w.extractLsb' 15 4) (w.extractLsb' 0 15))
  | 3 => .ok (.xori (w.extractLsb' 19 4) (w.extractLsb' 15 4) (w.extractLsb' 0 15))
  | 4 => if w.extractLsb' 6 9 = 0 then .ok (.shlImm (w.extractLsb' 19 4) (w.extractLsb' 15 4) (w.extractLsb' 0 6)) else .error .reserved
  | 5 => if w.extractLsb' 6 9 = 0 then .ok (.shrImm (w.extractLsb' 19 4) (w.extractLsb' 15 4) (w.extractLsb' 0 6)) else .error .reserved
  | 6 => if w.extractLsb' 6 9 = 0 then .ok (.sraImm (w.extractLsb' 19 4) (w.extractLsb' 15 4) (w.extractLsb' 0 6)) else .error .reserved
  | 7 => .ok (.li (w.extractLsb' 19 4) (w.extractLsb' 0 19))
  | 8 => if w.extractLsb' 18 1 = 0 then .ok (.lih (w.extractLsb' 19 4) (w.extractLsb' 16 2) (w.extractLsb' 0 16)) else .error .reserved
  | 9 => if w.extractLsb' 12 3 = 0 then .ok (.bfx (w.extractLsb' 19 4) (w.extractLsb' 15 4) (w.extractLsb' 6 6) (w.extractLsb' 0 6)) else .error .reserved
  | 10 => if w.extractLsb' 12 3 = 0 then .ok (.bfi (w.extractLsb' 19 4) (w.extractLsb' 15 4) (w.extractLsb' 6 6) (w.extractLsb' 0 6)) else .error .reserved
  | _ => .error .unassigned

/-- Major 0x6, op 0x4: its sub-operations (R30 to R32, R38). -/
def decode6op4 (w : BitVec 32) : DecodeResult :=
  match (w.extractLsb' 2 4).toNat with
  | 0 => if w.extractLsb' 6 4 = 0 ∧ w.extractLsb' 0 2 = 0 then .ok (.amoAdd (w.extractLsb' 22 2) (w.extractLsb' 18 4) (w.extractLsb' 14 4) (w.extractLsb' 10 4)) else .error .reserved
  | 1 => if w.extractLsb' 6 4 = 0 ∧ w.extractLsb' 0 2 = 0 then .ok (.amoMin (w.extractLsb' 22 2) (w.extractLsb' 18 4) (w.extractLsb' 14 4) (w.extractLsb' 10 4)) else .error .reserved
  | 2 => if w.extractLsb' 6 4 = 0 ∧ w.extractLsb' 0 2 = 0 then .ok (.amoMax (w.extractLsb' 22 2) (w.extractLsb' 18 4) (w.extractLsb' 14 4) (w.extractLsb' 10 4)) else .error .reserved
  | 3 => if w.extractLsb' 6 4 = 0 ∧ w.extractLsb' 0 2 = 0 then .ok (.amoAnd (w.extractLsb' 22 2) (w.extractLsb' 18 4) (w.extractLsb' 14 4) (w.extractLsb' 10 4)) else .error .reserved
  | 4 => if w.extractLsb' 6 4 = 0 ∧ w.extractLsb' 0 2 = 0 then .ok (.amoOr (w.extractLsb' 22 2) (w.extractLsb' 18 4) (w.extractLsb' 14 4) (w.extractLsb' 10 4)) else .error .reserved
  | 5 => if w.extractLsb' 6 4 = 0 ∧ w.extractLsb' 0 2 = 0 then .ok (.amoXor (w.extractLsb' 22 2) (w.extractLsb' 18 4) (w.extractLsb' 14 4) (w.extractLsb' 10 4)) else .error .reserved
  | 6 => if w.extractLsb' 6 4 = 0 ∧ w.extractLsb' 0 2 = 0 then .ok (.amoSwap (w.extractLsb' 22 2) (w.extractLsb' 18 4) (w.extractLsb' 14 4) (w.extractLsb' 10 4)) else .error .reserved
  | 7 => if w.extractLsb' 0 2 = 0 then .ok (.amoCas (w.extractLsb' 22 2) (w.extractLsb' 18 4) (w.extractLsb' 14 4) (w.extractLsb' 10 4) (w.extractLsb' 6 4)) else .error .reserved
  | 8 => if w.extractLsb' 22 2 = 2 ∧ w.extractLsb' 6 4 = 0 ∧ w.extractLsb' 0 2 = 0 then .ok (.amoFadd (w.extractLsb' 18 4) (w.extractLsb' 14 4) (w.extractLsb' 10 4)) else .error .reserved
  | _ => .error .unassigned

/-- Major 0x6: scalar loads, stores, AMO, CRD and CWR (R29, R30). -/
def decode6 (w : BitVec 32) : DecodeResult :=
  match (w.extractLsb' 24 4).toNat with
  | 0 => .ok (.ldl (w.extractLsb' 22 2) (w.extractLsb' 18 4) (w.extractLsb' 14 4) (w.extractLsb' 13 1) (w.extractLsb' 0 13))
  | 1 => if w.extractLsb' 13 1 = 0 then .ok (.stl (w.extractLsb' 22 2) (w.extractLsb' 18 4) (w.extractLsb' 14 4) (w.extractLsb' 0 13)) else .error .reserved
  | 2 => .ok (.ldg (w.extractLsb' 22 2) (w.extractLsb' 18 4) (w.extractLsb' 14 4) (w.extractLsb' 13 1) (w.extractLsb' 0 13))
  | 3 => if w.extractLsb' 13 1 = 0 then .ok (.stg (w.extractLsb' 22 2) (w.extractLsb' 18 4) (w.extractLsb' 14 4) (w.extractLsb' 0 13)) else .error .reserved
  | 4 => decode6op4 w
  | 5 => if w.extractLsb' 22 2 = 0 ∧ w.extractLsb' 12 6 = 0 then .ok (.crd (w.extractLsb' 18 4) (w.extractLsb' 0 12)) else .error .reserved
  | 6 => if w.extractLsb' 18 6 = 0 ∧ w.extractLsb' 12 2 = 0 then .ok (.cwr (w.extractLsb' 14 4) (w.extractLsb' 0 12)) else .error .reserved
  | _ => .error .unassigned

/-- Major 0x7, op 0xD: its sub-operations (R30 to R32, R38). -/
def decode7opD (w : BitVec 32) : DecodeResult :=
  match (w.extractLsb' 23 1).toNat with
  | 0 => if w.extractLsb' 0 23 = 0 then .ok (.halt) else .error .reserved
  | 1 => if w.extractLsb' 6 17 = 0 then .ok (.haltK (w.extractLsb' 0 6)) else .error .reserved
  | _ => .error .unassigned

/-- Major 0x7, op 0xE: its sub-operations (R30 to R32, R38). -/
def decode7opE (w : BitVec 32) : DecodeResult :=
  match (w.extractLsb' 20 4).toNat with
  | 0 => if w.extractLsb' 0 20 = 0 then .ok (.yield) else .error .reserved
  | 1 => .ok (.migrateHome (w.extractLsb' 16 4) (w.extractLsb' 0 16))
  | 2 => .ok (.migrate (w.extractLsb' 16 4) (w.extractLsb' 0 16))
  | 3 => if w.extractLsb' 6 14 = 0 then .ok (.waitch (w.extractLsb' 0 6)) else .error .reserved
  | 4 => if w.extractLsb' 4 12 = 0 then .ok (.getid (w.extractLsb' 16 4) (w.extractLsb' 0 4)) else .error .reserved
  | _ => .error .unassigned

/-- Major 0x7: control flow, loops and contexts (R31, R32). -/
def decode7 (w : BitVec 32) : DecodeResult :=
  match (w.extractLsb' 24 4).toNat with
  | 0 => .ok (.bCc (w.extractLsb' 20 4) (w.extractLsb' 16 4) (w.extractLsb' 12 4) (w.extractLsb' 0 12))
  | 1 => if w.extractLsb' 20 4 = 0 then .ok (.bz (w.extractLsb' 16 4) (w.extractLsb' 0 16)) else .error .reserved
  | 2 => if w.extractLsb' 20 4 = 0 then .ok (.bnz (w.extractLsb' 16 4) (w.extractLsb' 0 16)) else .error .reserved
  | 3 => .ok (.j (w.extractLsb' 0 24))
  | 4 => .ok (.jal (w.extractLsb' 20 4) (w.extractLsb' 0 20))
  | 5 => if w.extractLsb' 20 4 = 0 ∧ w.extractLsb' 0 16 = 0 then .ok (.jr (w.extractLsb' 16 4)) else .error .reserved
  | 6 => if w.extractLsb' 20 4 = 0 ∧ w.extractLsb' 12 4 = 0 then .ok (.loop (w.extractLsb' 16 4) (w.extractLsb' 0 12)) else .error .reserved
  | 7 => .ok (.loopi (w.extractLsb' 12 12) (w.extractLsb' 0 12))
  | 8 => if w.extractLsb' 0 24 = 0 then .ok (.breakl) else .error .reserved
  | 9 => if w.extractLsb' 20 4 = 0 ∧ w.extractLsb' 0 16 = 0 then .ok (.launch (w.extractLsb' 16 4)) else .error .reserved
  | 10 => if w.extractLsb' 20 4 = 0 then .ok (.fork (w.extractLsb' 16 4) (w.extractLsb' 0 16)) else .error .reserved
  | 11 => if w.extractLsb' 20 4 = 0 ∧ w.extractLsb' 0 16 = 0 then .ok (.join (w.extractLsb' 16 4)) else .error .reserved
  | 12 => if w.extractLsb' 0 24 = 0 then .ok (.bar) else .error .reserved
  | 13 => decode7opD w
  | 14 => decode7opE w
  | _ => .error .unassigned

/-- Major 0x8: vector floating point (R33, R34). -/
def decode8 (w : BitVec 32) : DecodeResult :=
  match (w.extractLsb' 23 5).toNat with
  | 0 => .ok (.vadd (w.extractLsb' 18 5) (w.extractLsb' 12 6) (w.extractLsb' 6 6) (w.extractLsb' 3 3) (w.extractLsb' 0 3))
  | 1 => .ok (.vsub (w.extractLsb' 18 5) (w.extractLsb' 12 6) (w.extractLsb' 6 6) (w.extractLsb' 3 3) (w.extractLsb' 0 3))
  | 2 => .ok (.vmul (w.extractLsb' 18 5) (w.extractLsb' 12 6) (w.extractLsb' 6 6) (w.extractLsb' 3 3) (w.extractLsb' 0 3))
  | 3 => .ok (.vfma (w.extractLsb' 18 5) (w.extractLsb' 12 6) (w.extractLsb' 6 6) (w.extractLsb' 3 3) (w.extractLsb' 0 3))
  | 4 => .ok (.vfms (w.extractLsb' 18 5) (w.extractLsb' 12 6) (w.extractLsb' 6 6) (w.extractLsb' 3 3) (w.extractLsb' 0 3))
  | 5 => .ok (.vmin (w.extractLsb' 18 5) (w.extractLsb' 12 6) (w.extractLsb' 6 6) (w.extractLsb' 3 3) (w.extractLsb' 0 3))
  | 6 => .ok (.vmax (w.extractLsb' 18 5) (w.extractLsb' 12 6) (w.extractLsb' 6 6) (w.extractLsb' 3 3) (w.extractLsb' 0 3))
  | 7 => if w.extractLsb' 6 6 = 0 then .ok (.vabs (w.extractLsb' 18 5) (w.extractLsb' 12 6) (w.extractLsb' 3 3) (w.extractLsb' 0 3)) else .error .reserved
  | 8 => if w.extractLsb' 6 6 = 0 then .ok (.vneg (w.extractLsb' 18 5) (w.extractLsb' 12 6) (w.extractLsb' 3 3) (w.extractLsb' 0 3)) else .error .reserved
  | 9 => .ok (.vdiv (w.extractLsb' 18 5) (w.extractLsb' 12 6) (w.extractLsb' 6 6) (w.extractLsb' 3 3) (w.extractLsb' 0 3))
  | 10 => if w.extractLsb' 6 6 = 0 then .ok (.vsqrt (w.extractLsb' 18 5) (w.extractLsb' 12 6) (w.extractLsb' 3 3) (w.extractLsb' 0 3)) else .error .reserved
  | 11 => if w.extractLsb' 6 6 = 0 ∧ w.extractLsb' 0 3 = 0 then .ok (.vredadd (w.extractLsb' 18 5) (w.extractLsb' 12 6) (w.extractLsb' 3 3)) else .error .reserved
  | 12 => if w.extractLsb' 6 6 = 0 ∧ w.extractLsb' 0 3 = 0 then .ok (.vredmax (w.extractLsb' 18 5) (w.extractLsb' 12 6) (w.extractLsb' 3 3)) else .error .reserved
  | _ => .error .unassigned

/-- Major 0x9: vector integer, logic, compare, select and permute (R33, R34). -/
def decode9 (w : BitVec 32) : DecodeResult :=
  match (w.extractLsb' 23 5).toNat with
  | 0 => .ok (.viadd (w.extractLsb' 18 5) (w.extractLsb' 12 6) (w.extractLsb' 6 6) (w.extractLsb' 3 3) (w.extractLsb' 0 3))
  | 1 => .ok (.vimul (w.extractLsb' 18 5) (w.extractLsb' 12 6) (w.extractLsb' 6 6) (w.extractLsb' 3 3) (w.extractLsb' 0 3))
  | 2 => if w.extractLsb' 0 3 = 5 then .ok (.vand (w.extractLsb' 18 5) (w.extractLsb' 12 6) (w.extractLsb' 6 6) (w.extractLsb' 3 3)) else .error .reserved
  | 3 => if w.extractLsb' 0 3 = 5 then .ok (.vor (w.extractLsb' 18 5) (w.extractLsb' 12 6) (w.extractLsb' 6 6) (w.extractLsb' 3 3)) else .error .reserved
  | 4 => if w.extractLsb' 0 3 = 5 then .ok (.vxor (w.extractLsb' 18 5) (w.extractLsb' 12 6) (w.extractLsb' 6 6) (w.extractLsb' 3 3)) else .error .reserved
  | 5 => .ok (.vshl (w.extractLsb' 18 5) (w.extractLsb' 12 6) (w.extractLsb' 6 6) (w.extractLsb' 3 3) (w.extractLsb' 0 3))
  | 6 => .ok (.vshr (w.extractLsb' 18 5) (w.extractLsb' 12 6) (w.extractLsb' 6 6) (w.extractLsb' 3 3) (w.extractLsb' 0 3))
  | 7 => .ok (.vshrA (w.extractLsb' 18 5) (w.extractLsb' 12 6) (w.extractLsb' 6 6) (w.extractLsb' 3 3) (w.extractLsb' 0 3))
  | 8 => if w.extractLsb' 0 3 = 5 then .ok (.vsel (w.extractLsb' 18 5) (w.extractLsb' 12 6) (w.extractLsb' 6 6) (w.extractLsb' 3 3)) else .error .reserved
  | 9 => .ok (.vcmpEq (w.extractLsb' 18 5) (w.extractLsb' 12 6) (w.extractLsb' 6 6) (w.extractLsb' 3 3) (w.extractLsb' 0 3))
  | 10 => .ok (.vcmpNe (w.extractLsb' 18 5) (w.extractLsb' 12 6) (w.extractLsb' 6 6) (w.extractLsb' 3 3) (w.extractLsb' 0 3))
  | 11 => .ok (.vcmpLt (w.extractLsb' 18 5) (w.extractLsb' 12 6) (w.extractLsb' 6 6) (w.extractLsb' 3 3) (w.extractLsb' 0 3))
  | 12 => .ok (.vcmpLe (w.extractLsb' 18 5) (w.extractLsb' 12 6) (w.extractLsb' 6 6) (w.extractLsb' 3 3) (w.extractLsb' 0 3))
  | 13 => .ok (.vcmpGt (w.extractLsb' 18 5) (w.extractLsb' 12 6) (w.extractLsb' 6 6) (w.extractLsb' 3 3) (w.extractLsb' 0 3))
  | 14 => .ok (.vcmpGe (w.extractLsb' 18 5) (w.extractLsb' 12 6) (w.extractLsb' 6 6) (w.extractLsb' 3 3) (w.extractLsb' 0 3))
  | 15 => if w.extractLsb' 6 6 = 0 ∧ w.extractLsb' 0 3 = 5 then .ok (.vmov (w.extractLsb' 18 5) (w.extractLsb' 12 6) (w.extractLsb' 3 3)) else .error .reserved
  | 16 => if w.extractLsb' 0 3 = 5 then .ok (.vbcast (w.extractLsb' 18 5) (w.extractLsb' 12 6) (w.extractLsb' 6 6) (w.extractLsb' 3 3)) else .error .reserved
  | 17 => if w.extractLsb' 0 3 = 5 then .ok (.vperm (w.extractLsb' 18 5) (w.extractLsb' 12 6) (w.extractLsb' 6 6) (w.extractLsb' 3 3)) else .error .reserved
  | _ => .error .unassigned

/-- Major 0xA: vector memory, tables and conversions (R33, R34). -/
def decodeA (w : BitVec 32) : DecodeResult :=
  match (w.extractLsb' 23 5).toNat with
  | 0 => if w.extractLsb' 6 6 = 0 ∧ w.extractLsb' 0 3 = 5 then .ok (.vldl (w.extractLsb' 18 5) (w.extractLsb' 12 6) (w.extractLsb' 3 3)) else .error .reserved
  | 1 => if w.extractLsb' 6 6 = 0 ∧ w.extractLsb' 0 3 = 5 then .ok (.vstl (w.extractLsb' 18 5) (w.extractLsb' 12 6) (w.extractLsb' 3 3)) else .error .reserved
  | 2 => if w.extractLsb' 0 3 = 5 then .ok (.vgathl (w.extractLsb' 18 5) (w.extractLsb' 12 6) (w.extractLsb' 6 6) (w.extractLsb' 3 3)) else .error .reserved
  | 3 => if w.extractLsb' 0 3 = 5 then .ok (.vscatl (w.extractLsb' 18 5) (w.extractLsb' 12 6) (w.extractLsb' 6 6) (w.extractLsb' 3 3)) else .error .reserved
  | 4 => if w.extractLsb' 0 12 = 0 then .ok (.tblld (w.extractLsb' 18 5) (w.extractLsb' 12 6)) else .error .reserved
  | 5 => if w.extractLsb' 6 6 = 0 ∧ w.extractLsb' 0 3 = 5 then .ok (.vldg (w.extractLsb' 18 5) (w.extractLsb' 12 6) (w.extractLsb' 3 3)) else .error .reserved
  | 6 => if w.extractLsb' 6 6 = 0 ∧ w.extractLsb' 0 3 = 5 then .ok (.vstg (w.extractLsb' 18 5) (w.extractLsb' 12 6) (w.extractLsb' 3 3)) else .error .reserved
  | 7 => if w.extractLsb' 0 3 = 5 then .ok (.vgathg (w.extractLsb' 18 5) (w.extractLsb' 12 6) (w.extractLsb' 6 6) (w.extractLsb' 3 3)) else .error .reserved
  | 8 => if w.extractLsb' 0 3 = 5 then .ok (.vscatg (w.extractLsb' 18 5) (w.extractLsb' 12 6) (w.extractLsb' 6 6) (w.extractLsb' 3 3)) else .error .reserved
  | 9 => if w.extractLsb' 9 3 = 0 then .ok (.vtlu (w.extractLsb' 18 5) (w.extractLsb' 12 6) (w.extractLsb' 6 3) (w.extractLsb' 3 3) (w.extractLsb' 0 3)) else .error .reserved
  | 10 => if w.extractLsb' 0 3 = 0 then .ok (.vrope (w.extractLsb' 18 5) (w.extractLsb' 12 6) (w.extractLsb' 6 6) (w.extractLsb' 3 3)) else .error .reserved
  | 11 => .ok (.vcvt (w.extractLsb' 18 5) (w.extractLsb' 12 6) (w.extractLsb' 9 3) (w.extractLsb' 6 3) (w.extractLsb' 3 3) (w.extractLsb' 0 3))
  | 12 => .ok (.vcvtn (w.extractLsb' 18 5) (w.extractLsb' 12 6) (w.extractLsb' 6 6) (w.extractLsb' 3 3) (w.extractLsb' 0 3))
  | 13 => .ok (.vpack (w.extractLsb' 18 5) (w.extractLsb' 12 6) (w.extractLsb' 6 6) (w.extractLsb' 3 3) (w.extractLsb' 0 3))
  | 14 => .ok (.vunpack (w.extractLsb' 18 5) (w.extractLsb' 12 6) (w.extractLsb' 6 6) (w.extractLsb' 3 3) (w.extractLsb' 0 3))
  | _ => .error .unassigned

/-- Major 0xC: the matrix engine (R36). -/
def decodeC (w : BitVec 32) : DecodeResult :=
  match (w.extractLsb' 24 4).toNat with
  | 0 => if w.extractLsb' 12 8 = 0 ∧ w.extractLsb' 6 3 = 0 ∧ w.extractLsb' 0 3 = 0 then .ok (.mloadb (w.extractLsb' 20 4) (w.extractLsb' 9 3) (w.extractLsb' 3 3)) else .error .reserved
  | 1 => if w.extractLsb' 12 12 = 0 ∧ w.extractLsb' 1 2 = 0 then .ok (.mma (w.extractLsb' 9 3) (w.extractLsb' 6 3) (w.extractLsb' 3 3) (w.extractLsb' 0 1)) else .error .reserved
  | 2 => if w.extractLsb' 12 4 = 0 ∧ w.extractLsb' 0 9 = 0 then .ok (.sacc (w.extractLsb' 20 4) (w.extractLsb' 16 4) (w.extractLsb' 9 3)) else .error .reserved
  | 3 => if w.extractLsb' 0 24 = 0 then .ok (.aswap) else .error .reserved
  | 4 => if w.extractLsb' 0 16 = 0 then .ok (.aread (w.extractLsb' 20 4) (w.extractLsb' 16 4)) else .error .reserved
  | 5 => if w.extractLsb' 1 23 = 0 then .ok (.azero (w.extractLsb' 0 1)) else .error .reserved
  | 6 => if w.extractLsb' 0 12 = 0 then .ok (.ofix (w.extractLsb' 20 4) (w.extractLsb' 16 4) (w.extractLsb' 12 4)) else .error .reserved
  | 7 => if w.extractLsb' 0 20 = 0 then .ok (.mstat (w.extractLsb' 20 4)) else .error .reserved
  | _ => .error .unassigned

/-- Major 0xD: engine queues and byte barriers (R37). -/
def decodeD (w : BitVec 32) : DecodeResult :=
  match (w.extractLsb' 23 5).toNat with
  | 0 => if w.extractLsb' 22 1 = 0 then .ok (.copy (w.extractLsb' 21 1) (w.extractLsb' 17 4) (w.extractLsb' 13 4) (w.extractLsb' 9 4) (w.extractLsb' 3 6) (w.extractLsb' 1 2) (w.extractLsb' 0 1)) else .error .reserved
  | 1 => if w.extractLsb' 21 2 = 2 ∧ w.extractLsb' 13 4 = 0 ∧ w.extractLsb' 0 9 = 0 then .ok (.gatherkv (w.extractLsb' 17 4) (w.extractLsb' 9 4)) else .error .reserved
  | 2 => if w.extractLsb' 22 1 = 0 ∧ w.extractLsb' 0 9 = 0 then .ok (.pagein (w.extractLsb' 21 1) (w.extractLsb' 17 4) (w.extractLsb' 13 4) (w.extractLsb' 9 4)) else .error .reserved
  | 3 => if w.extractLsb' 9 14 = 0 ∧ w.extractLsb' 0 5 = 0 then .ok (.efence (w.extractLsb' 5 4)) else .error .reserved
  | 4 => if w.extractLsb' 0 21 = 0 then .ok (.eqwait (w.extractLsb' 21 2)) else .error .reserved
  | 5 => if w.extractLsb' 21 2 = 0 ∧ w.extractLsb' 9 8 = 0 ∧ w.extractLsb' 0 3 = 0 then .ok (.tmapset (w.extractLsb' 17 4) (w.extractLsb' 3 6)) else .error .reserved
  | 6 => if w.extractLsb' 21 2 = 0 ∧ w.extractLsb' 0 13 = 0 then .ok (.binit (w.extractLsb' 17 4) (w.extractLsb' 13 4)) else .error .reserved
  | 7 => if w.extractLsb' 21 2 = 0 ∧ w.extractLsb' 0 13 = 0 then .ok (.bexpect (w.extractLsb' 17 4) (w.extractLsb' 13 4)) else .error .reserved
  | 8 => if w.extractLsb' 21 2 = 0 ∧ w.extractLsb' 0 17 = 0 then .ok (.barrive (w.extractLsb' 17 4)) else .error .reserved
  | 9 => if w.extractLsb' 21 2 = 0 ∧ w.extractLsb' 0 13 = 0 then .ok (.bwait (w.extractLsb' 17 4) (w.extractLsb' 13 4)) else .error .reserved
  | 10 => if w.extractLsb' 21 2 = 0 ∧ w.extractLsb' 0 9 = 0 then .ok (.btest (w.extractLsb' 17 4) (w.extractLsb' 13 4) (w.extractLsb' 9 4)) else .error .reserved
  | _ => .error .unassigned

/-- Major 0xE: fabric, messaging, virtual time and NRED (R38). -/
def decodeE (w : BitVec 32) : DecodeResult :=
  match (w.extractLsb' 22 6).toNat with
  | 0 => if w.extractLsb' 5 13 = 0 then .ok (.cnew (w.extractLsb' 18 4) (w.extractLsb' 3 2) (w.extractLsb' 0 3)) else .error .reserved
  | 1 => if w.extractLsb' 18 4 = 0 ∧ w.extractLsb' 0 14 = 0 then .ok (.cfree (w.extractLsb' 14 4)) else .error .reserved
  | 2 => if w.extractLsb' 0 14 = 0 then .ok (.ctake (w.extractLsb' 18 4) (w.extractLsb' 14 4)) else .error .reserved
  | 3 => if w.extractLsb' 0 14 = 0 then .ok (.cgive (w.extractLsb' 18 4) (w.extractLsb' 14 4)) else .error .reserved
  | 4 => if w.extractLsb' 0 10 = 0 then .ok (.ccancel (w.extractLsb' 18 4) (w.extractLsb' 14 4) (w.extractLsb' 10 4)) else .error .reserved
  | 5 => if w.extractLsb' 0 14 = 0 then .ok (.cread (w.extractLsb' 18 4) (w.extractLsb' 14 4)) else .error .reserved
  | 6 => if w.extractLsb' 18 4 = 0 ∧ w.extractLsb' 0 10 = 0 then .ok (.carm (w.extractLsb' 14 4) (w.extractLsb' 10 4)) else .error .reserved
  | 7 => if w.extractLsb' 18 4 = 0 ∧ w.extractLsb' 0 10 = 0 then .ok (.cwait (w.extractLsb' 14 4) (w.extractLsb' 10 4)) else .error .reserved
  | 8 => if w.extractLsb' 18 4 = 0 then .ok (.send (w.extractLsb' 14 4) (w.extractLsb' 10 4) (w.extractLsb' 8 2) (w.extractLsb' 7 1) (w.extractLsb' 6 1) (w.extractLsb' 0 6)) else .error .reserved
  | 9 => if w.extractLsb' 10 12 = 0 ∧ w.extractLsb' 0 8 = 0 then .ok (.reply (w.extractLsb' 8 2)) else .error .reserved
  | 10 => if w.extractLsb' 0 14 = 0 then .ok (.msgrd (w.extractLsb' 18 4) (w.extractLsb' 14 4)) else .error .reserved
  | 11 => if w.extractLsb' 7 15 = 0 then .ok (.chmask (w.extractLsb' 6 1) (w.extractLsb' 0 6)) else .error .reserved
  | 12 => if w.extractLsb' 18 4 = 0 ∧ w.extractLsb' 6 8 = 0 then .ok (.lpbind (w.extractLsb' 14 4) (w.extractLsb' 0 6)) else .error .reserved
  | 13 => if w.extractLsb' 18 4 = 0 ∧ w.extractLsb' 0 14 = 0 then .ok (.vtset (w.extractLsb' 14 4)) else .error .reserved
  | 14 => if w.extractLsb' 0 18 = 0 then .ok (.vtget (w.extractLsb' 18 4)) else .error .reserved
  | 15 => if w.extractLsb' 8 10 = 0 then .ok (.gvtrd (w.extractLsb' 18 4) (w.extractLsb' 0 8)) else .error .reserved
  | 16 => if w.extractLsb' 18 4 = 0 ∧ w.extractLsb' 0 14 = 0 then .ok (.irrev (w.extractLsb' 14 4)) else .error .reserved
  | 17 => if w.extractLsb' 18 4 = 0 ∧ w.extractLsb' 0 14 = 0 then .ok (.ckpt (w.extractLsb' 14 4)) else .error .reserved
  | 18 => if w.extractLsb' 18 4 = 0 ∧ w.extractLsb' 8 6 = 0 then .ok (.swater (w.extractLsb' 14 4) (w.extractLsb' 0 8)) else .error .reserved
  | 19 => if w.extractLsb' 18 4 = 0 ∧ w.extractLsb' 0 10 = 0 then .ok (.strunc (w.extractLsb' 14 4) (w.extractLsb' 10 4)) else .error .reserved
  | 20 => if w.extractLsb' 1 13 = 0 then .ok (.scursor (w.extractLsb' 18 4) (w.extractLsb' 14 4) (w.extractLsb' 0 1)) else .error .reserved
  | 21 => if w.extractLsb' 18 4 = 0 ∧ w.extractLsb' 0 10 = 0 then .ok (.nred (w.extractLsb' 14 4) (w.extractLsb' 10 4)) else .error .reserved
  | 22 => if w.extractLsb' 0 14 = 0 then .ok (.nredw (w.extractLsb' 18 4) (w.extractLsb' 14 4)) else .error .reserved
  | _ => .error .unassigned

/-- Major 0xF, op 0x6: its sub-operations (R30 to R32, R38). -/
def decodeFop6 (w : BitVec 32) : DecodeResult :=
  match (w.extractLsb' 0 2).toNat with
  | 0 => if w.extractLsb' 18 4 = 0 ∧ w.extractLsb' 3 11 = 0 then .ok (.tlbinvPage (w.extractLsb' 14 4) (w.extractLsb' 2 1)) else .error .reserved
  | 1 => if w.extractLsb' 18 4 = 0 ∧ w.extractLsb' 3 11 = 0 then .ok (.tlbinvPart (w.extractLsb' 14 4) (w.extractLsb' 2 1)) else .error .reserved
  | 2 => if w.extractLsb' 2 20 = 1 then .ok (.tlbinvAll) else .error .reserved
  | _ => .error .unassigned

/-- Major 0xF: system, traps, fences and translation (R38). -/
def decodeF (w : BitVec 32) : DecodeResult :=
  match (w.extractLsb' 22 6).toNat with
  | 0 => if w.extractLsb' 10 12 = 0 then .ok (.trap (w.extractLsb' 0 10)) else .error .reserved
  | 1 => if w.extractLsb' 0 22 = 0 then .ok (.eret) else .error .reserved
  | 2 => if w.extractLsb' 18 4 = 0 ∧ w.extractLsb' 0 14 = 0 then .ok (.resume (w.extractLsb' 14 4)) else .error .reserved
  | 3 => if w.extractLsb' 10 12 = 0 then .ok (.brk (w.extractLsb' 0 10)) else .error .reserved
  | 4 => if w.extractLsb' 5 17 = 0 then .ok (.fence (w.extractLsb' 3 2) (w.extractLsb' 0 3)) else .error .reserved
  | 5 => if w.extractLsb' 0 22 = 0 then .ok (.drain) else .error .reserved
  | 6 => decodeFop6 w
  | 7 => if w.extractLsb' 0 22 = 0 then .ok (.tlbsync) else .error .reserved
  | 8 => if w.extractLsb' 5 13 = 0 then .ok (.fbread (w.extractLsb' 18 4) (w.extractLsb' 3 2) (w.extractLsb' 0 3)) else .error .reserved
  | 9 => if w.extractLsb' 0 22 = 0 then .ok (.fbpop) else .error .reserved
  | 10 => if w.extractLsb' 0 22 = 0 then .ok (.replayall) else .error .reserved
  | 11 => if w.extractLsb' 2 12 = 0 then .ok (.xlate (w.extractLsb' 18 4) (w.extractLsb' 14 4) (w.extractLsb' 0 2)) else .error .reserved
  | 12 => if w.extractLsb' 18 4 = 0 ∧ w.extractLsb' 0 14 = 0 then .ok (.bmcinv (w.extractLsb' 14 4)) else .error .reserved
  | _ => .error .unassigned

/-- The 32-bit majors (R19). -/
def decode32 (w : BitVec 32) : DecodeResult :=
  match (w.extractLsb' 28 4).toNat with
  | 4 => decode4 w
  | 5 => decode5 w
  | 6 => decode6 w
  | 7 => decode7 w
  | 8 => decode8 w
  | 9 => decode9 w
  | 10 => decodeA w
  | 12 => decodeC w
  | 13 => decodeD w
  | 14 => decodeE w
  | 15 => decodeF w
  | _ => .error .unassigned

/-- A prefixed vector word (R35): legal only around VFMA and VFMS with the counter fields zero, and
around VCVTN with the counter valid bit set and operand c zero (R135). -/
def decodePrefixed (w : BitVec 64) : DecodeResult :=
  match decode32 (w.extractLsb' 0 32) with
  | .ok (.vfma d a b p f) =>
    if w.extractLsb' 32 18 = 0 then .ok (.vfmaPrefixed d a b (w.extractLsb' 50 6) p f) else .error .reserved
  | .ok (.vfms d a b p f) =>
    if w.extractLsb' 32 18 = 0 then .ok (.vfmsPrefixed d a b (w.extractLsb' 50 6) p f) else .error .reserved
  | .ok (.vcvtn d a b p f) =>
    if w.extractLsb' 50 6 = 0 ∧ w.extractLsb' 37 1 = 1 ∧ w.extractLsb' 32 5 = 0 then
      .ok (.vcvtnCounter d a b p f (w.extractLsb' 38 12))
    else .error .reserved
  | _ => .error .unassigned

/-- Major 0xB: LI64, the prefixed vector words and SENDL (R35). -/
def decode64 (w : BitVec 64) : DecodeResult :=
  if w.extractLsb' 60 4 = 0xB then
    match (w.extractLsb' 56 4).toNat with
    | 0 => .ok (.li64 (w.extractLsb' 52 4) (w.extractLsb' 0 52))
    | 1 => decodePrefixed w
    | 2 =>
      if w.extractLsb' 0 24 = 0 then
        .ok (.sendl (w.extractLsb' 52 4) (w.extractLsb' 48 4) (w.extractLsb' 42 6) (w.extractLsb' 30 12)
          (w.extractLsb' 26 4) (w.extractLsb' 25 1) (w.extractLsb' 24 1))
      else .error .reserved
    | _ => .error .unassigned
  else .error .unassigned

/-- The instruction of a word. -/
def decode : Code → DecodeResult
  | .w16 w => decode16 w
  | .w32 w => decode32 w
  | .w64 w => decode64 w

/-- The length in halfwords that the first halfword's major gives (R16). -/
def halfwordsOf (h0 : BitVec 16) : Nat :=
  match (h0.extractLsb' 12 4).toNat with
  | 0 => 1
  | 1 => 1
  | 2 => 1
  | 3 => 1
  | 0xB => 4
  | _ => 2

/-- The word that a list of halfwords holds, lowest address first (R9): halfword 0 is the most significant. -/
def codeOfHalves : List Half → Option Code
  | [h0] => if halfwordsOf h0 = 1 then some (.w16 h0) else none
  | [h0, h1] => if halfwordsOf h0 = 2 then some (.w32 (h0 ++ h1)) else none
  | [h0, h1, h2, h3] => if halfwordsOf h0 = 4 then some (.w64 (h0 ++ h1 ++ h2 ++ h3)) else none
  | _ => none

/-- The halfwords of a word, lowest address first (R9). -/
def halvesOfCode : Code → List Half
  | .w16 w => [w]
  | .w32 w => [w.extractLsb' 16 16, w.extractLsb' 0 16]
  | .w64 w => [w.extractLsb' 48 16, w.extractLsb' 32 16, w.extractLsb' 16 16, w.extractLsb' 0 16]

/-- Two bytes as a halfword, little-endian (R9). -/
def halfOfBytes (b0 b1 : Byte) : Half := b1 ++ b0

/-- The first `n` halfwords of a byte list, and the rest. -/
def takeHalves : Nat → List Byte → Option (List Half × List Byte)
  | 0, bs => some ([], bs)
  | n + 1, b0 :: b1 :: bs => (takeHalves n bs).map fun (hs, r) => (halfOfBytes b0 b1 :: hs, r)
  | _ + 1, _ => none

/-- Decode the instruction at the front of a byte list, and give the rest. Total on any bytes. -/
def decodeBytes : List Byte → Except DecodeError (Instr × List Byte)
  | b0 :: b1 :: bs =>
    match takeHalves (halfwordsOf (halfOfBytes b0 b1)) (b0 :: b1 :: bs) with
    | some (hs, rest) =>
      match codeOfHalves hs with
      | some c => (decode c).map fun i => (i, rest)
      | none => .error .short
    | none => .error .short
  | _ => .error .short

/-- The bytes of a word as memory holds them: halfword 0 first, each halfword little-endian (R9). -/
def bytesOfCode (c : Code) : List Byte :=
  (halvesOfCode c).flatMap fun h => [h.extractLsb' 0 8, h.extractLsb' 8 8]

/-- The word a table row's bits stand for. The table numbers a row's bits as the manual numbers an
instruction word, with the major opcode in the most significant four bits (R9, R19). -/
def tableCode (nbits w : Nat) : Code :=
  if nbits ≤ 16 then .w16 (BitVec.ofNat 16 w)
  else if nbits ≤ 32 then .w32 (BitVec.ofNat 32 w)
  else .w64 (BitVec.ofNat 64 w)

/-- The instruction the decoder reads from a table row's word, laid out as memory stores it. -/
def decodeTableWord (nbits w : Nat) : Option Instr :=
  match decodeBytes (bytesOfCode (tableCode nbits w)) with
  | .ok (i, _) => some i
  | .error _ => none

/-- The word of an instruction, from the encoding tables of R25 to R38; a device step has none. -/
def encode : Instr → Option Code
  | .nop => some (.w16 (0x1#16))
  | .movCompact d a => some (.w16 (0x1#8 ++ d ++ a))
  | .addCompact d a => some (.w16 (0x2#8 ++ d ++ a))
  | .subCompact d a => some (.w16 (0x3#8 ++ d ++ a))
  | .andCompact d a => some (.w16 (0x4#8 ++ d ++ a))
  | .orCompact d a => some (.w16 (0x5#8 ++ d ++ a))
  | .xorCompact d a => some (.w16 (0x6#8 ++ d ++ a))
  | .addiCompact d i => some (.w16 (0x7#8 ++ d ++ i))
  | .liCompact d i => some (.w16 (0x8#8 ++ d ++ i))
  | .shlCompact d i => some (.w16 (0x9#8 ++ d ++ i))
  | .shrCompact d i => some (.w16 (0xa#8 ++ d ++ i))
  | .sraCompact d i => some (.w16 (0xb#8 ++ d ++ i))
  | .jCompact d => some (.w16 (0x4#6 ++ d))
  | .bzCompact a d => some (.w16 (0x5#6 ++ a ++ d))
  | .bnzCompact a d => some (.w16 (0x6#6 ++ a ++ d))
  | .ldlDCompact o d a => some (.w16 (0x2#4 ++ o ++ d ++ a))
  | .mulCompact d a => some (.w16 (0x30#8 ++ d ++ a))
  | .minCompact d a => some (.w16 (0x31#8 ++ d ++ a))
  | .maxCompact d a => some (.w16 (0x32#8 ++ d ++ a))
  | .sltCompact d a => some (.w16 (0x33#8 ++ d ++ a))
  | .seqCompact d a => some (.w16 (0x34#8 ++ d ++ a))
  | .clzCompact d a => some (.w16 (0x35#8 ++ d ++ a))
  | .popcCompact d a => some (.w16 (0x36#8 ++ d ++ a))
  | .sltuCompact d a => some (.w16 (0x37#8 ++ d ++ a))
  | .minuCompact d a => some (.w16 (0x38#8 ++ d ++ a))
  | .maxuCompact d a => some (.w16 (0x39#8 ++ d ++ a))
  | .jrCompact a => some (.w16 (0x3a0#12 ++ a))
  | .haltCompact => some (.w16 (0x3b00#16))
  | .yieldCompact => some (.w16 (0x3c00#16))
  | .hint h => some (.w16 (0x3f#8 ++ h))
  | .add d a b => some (.w32 (0x100#10 ++ d ++ a ++ b ++ 0x0#10))
  | .sub d a b => some (.w32 (0x101#10 ++ d ++ a ++ b ++ 0x0#10))
  | .mul d a b => some (.w32 (0x102#10 ++ d ++ a ++ b ++ 0x0#10))
  | .mulh d a b => some (.w32 (0x103#10 ++ d ++ a ++ b ++ 0x0#10))
  | .mulhu d a b => some (.w32 (0x104#10 ++ d ++ a ++ b ++ 0x0#10))
  | .div d a b => some (.w32 (0x105#10 ++ d ++ a ++ b ++ 0x0#10))
  | .divu d a b => some (.w32 (0x106#10 ++ d ++ a ++ b ++ 0x0#10))
  | .rem d a b => some (.w32 (0x107#10 ++ d ++ a ++ b ++ 0x0#10))
  | .remu d a b => some (.w32 (0x108#10 ++ d ++ a ++ b ++ 0x0#10))
  | .and d a b => some (.w32 (0x109#10 ++ d ++ a ++ b ++ 0x0#10))
  | .or d a b => some (.w32 (0x10a#10 ++ d ++ a ++ b ++ 0x0#10))
  | .xor d a b => some (.w32 (0x10b#10 ++ d ++ a ++ b ++ 0x0#10))
  | .shl d a b => some (.w32 (0x10c#10 ++ d ++ a ++ b ++ 0x0#10))
  | .shr d a b => some (.w32 (0x10d#10 ++ d ++ a ++ b ++ 0x0#10))
  | .sra d a b => some (.w32 (0x10e#10 ++ d ++ a ++ b ++ 0x0#10))
  | .min d a b => some (.w32 (0x10f#10 ++ d ++ a ++ b ++ 0x0#10))
  | .max d a b => some (.w32 (0x110#10 ++ d ++ a ++ b ++ 0x0#10))
  | .minu d a b => some (.w32 (0x111#10 ++ d ++ a ++ b ++ 0x0#10))
  | .maxu d a b => some (.w32 (0x112#10 ++ d ++ a ++ b ++ 0x0#10))
  | .slt d a b => some (.w32 (0x113#10 ++ d ++ a ++ b ++ 0x0#10))
  | .sltu d a b => some (.w32 (0x114#10 ++ d ++ a ++ b ++ 0x0#10))
  | .seq d a b => some (.w32 (0x115#10 ++ d ++ a ++ b ++ 0x0#10))
  | .clz d a => some (.w32 (0x116#10 ++ d ++ a ++ 0x0#14))
  | .popc d a => some (.w32 (0x117#10 ++ d ++ a ++ 0x0#14))
  | .mov d a => some (.w32 (0x118#10 ++ d ++ a ++ 0x0#14))
  | .sel d a b c => some (.w32 (0x119#10 ++ d ++ a ++ b ++ c ++ 0x0#6))
  | .addsh d a b s => some (.w32 (0x11a#10 ++ d ++ a ++ b ++ 0x0#4 ++ s))
  | .addi d a i => some (.w32 (0xa0#9 ++ d ++ a ++ i))
  | .andi d a i => some (.w32 (0xa1#9 ++ d ++ a ++ i))
  | .ori d a i => some (.w32 (0xa2#9 ++ d ++ a ++ i))
  | .xori d a i => some (.w32 (0xa3#9 ++ d ++ a ++ i))
  | .shlImm d a s => some (.w32 (0xa4#9 ++ d ++ a ++ 0x0#9 ++ s))
  | .shrImm d a s => some (.w32 (0xa5#9 ++ d ++ a ++ 0x0#9 ++ s))
  | .sraImm d a s => some (.w32 (0xa6#9 ++ d ++ a ++ 0x0#9 ++ s))
  | .li d i => some (.w32 (0xa7#9 ++ d ++ i))
  | .lih d h i => some (.w32 (0xa8#9 ++ d ++ 0x0#1 ++ h ++ i))
  | .bfx d a l p => some (.w32 (0xa9#9 ++ d ++ a ++ 0x0#3 ++ l ++ p))
  | .bfi d a l p => some (.w32 (0xaa#9 ++ d ++ a ++ 0x0#3 ++ l ++ p))
  | .li64 d i => some (.w64 (0xB0#8 ++ d ++ i))
  | .ldl z d a g o => some (.w32 (0x60#8 ++ z ++ d ++ a ++ g ++ o))
  | .stl z d a o => some (.w32 (0x61#8 ++ z ++ d ++ a ++ 0x0#1 ++ o))
  | .ldg z d a g o => some (.w32 (0x62#8 ++ z ++ d ++ a ++ g ++ o))
  | .stg z d a o => some (.w32 (0x63#8 ++ z ++ d ++ a ++ 0x0#1 ++ o))
  | .amoAdd z d a b => some (.w32 (0x64#8 ++ z ++ d ++ a ++ b ++ 0x0#10))
  | .amoMin z d a b => some (.w32 (0x64#8 ++ z ++ d ++ a ++ b ++ 0x4#10))
  | .amoMax z d a b => some (.w32 (0x64#8 ++ z ++ d ++ a ++ b ++ 0x8#10))
  | .amoAnd z d a b => some (.w32 (0x64#8 ++ z ++ d ++ a ++ b ++ 0xc#10))
  | .amoOr z d a b => some (.w32 (0x64#8 ++ z ++ d ++ a ++ b ++ 0x10#10))
  | .amoXor z d a b => some (.w32 (0x64#8 ++ z ++ d ++ a ++ b ++ 0x14#10))
  | .amoSwap z d a b => some (.w32 (0x64#8 ++ z ++ d ++ a ++ b ++ 0x18#10))
  | .amoCas z d a b c => some (.w32 (0x64#8 ++ z ++ d ++ a ++ b ++ c ++ 0x1c#6))
  | .amoFadd d a b => some (.w32 (0x192#10 ++ d ++ a ++ b ++ 0x20#10))
  | .crd d r => some (.w32 (0x194#10 ++ d ++ 0x0#6 ++ r))
  | .cwr a r => some (.w32 (0x1980#14 ++ a ++ 0x0#2 ++ r))
  | .bCc c a b d => some (.w32 (0x70#8 ++ c ++ a ++ b ++ d))
  | .bz a d => some (.w32 (0x710#12 ++ a ++ d))
  | .bnz a d => some (.w32 (0x720#12 ++ a ++ d))
  | .j d => some (.w32 (0x73#8 ++ d))
  | .jal r d => some (.w32 (0x74#8 ++ r ++ d))
  | .jr a => some (.w32 (0x750#12 ++ a ++ 0x0#16))
  | .loop a e => some (.w32 (0x760#12 ++ a ++ 0x0#4 ++ e))
  | .loopi n e => some (.w32 (0x77#8 ++ n ++ e))
  | .breakl => some (.w32 (0x78000000#32))
  | .launch a => some (.w32 (0x790#12 ++ a ++ 0x0#16))
  | .fork a d => some (.w32 (0x7a0#12 ++ a ++ d))
  | .join a => some (.w32 (0x7b0#12 ++ a ++ 0x0#16))
  | .bar => some (.w32 (0x7c000000#32))
  | .halt => some (.w32 (0x7d000000#32))
  | .haltK c => some (.w32 (0x1f60000#26 ++ c))
  | .yield => some (.w32 (0x7e000000#32))
  | .migrateHome a m => some (.w32 (0x7e1#12 ++ a ++ m))
  | .migrate a m => some (.w32 (0x7e2#12 ++ a ++ m))
  | .waitch c => some (.w32 (0x1f8c000#26 ++ c))
  | .getid d s => some (.w32 (0x7e4#12 ++ d ++ 0x0#12 ++ s))
  | .vadd d a b p f => some (.w32 (0x100#9 ++ d ++ a ++ b ++ p ++ f))
  | .vsub d a b p f => some (.w32 (0x101#9 ++ d ++ a ++ b ++ p ++ f))
  | .vmul d a b p f => some (.w32 (0x102#9 ++ d ++ a ++ b ++ p ++ f))
  | .vfma d a b p f => some (.w32 (0x103#9 ++ d ++ a ++ b ++ p ++ f))
  | .vfms d a b p f => some (.w32 (0x104#9 ++ d ++ a ++ b ++ p ++ f))
  | .vmin d a b p f => some (.w32 (0x105#9 ++ d ++ a ++ b ++ p ++ f))
  | .vmax d a b p f => some (.w32 (0x106#9 ++ d ++ a ++ b ++ p ++ f))
  | .vabs d a p f => some (.w32 (0x107#9 ++ d ++ a ++ 0x0#6 ++ p ++ f))
  | .vneg d a p f => some (.w32 (0x108#9 ++ d ++ a ++ 0x0#6 ++ p ++ f))
  | .vdiv d a b p f => some (.w32 (0x109#9 ++ d ++ a ++ b ++ p ++ f))
  | .vsqrt d a p f => some (.w32 (0x10a#9 ++ d ++ a ++ 0x0#6 ++ p ++ f))
  | .vredadd d a p => some (.w32 (0x10b#9 ++ d ++ a ++ 0x0#6 ++ p ++ 0x0#3))
  | .vredmax d a p => some (.w32 (0x10c#9 ++ d ++ a ++ 0x0#6 ++ p ++ 0x0#3))
  | .vfmaPrefixed d a b c p f => some (.w64 (0xB1#8 ++ c ++ 0x0#18 ++ 0x103#9 ++ d ++ a ++ b ++ p ++ f))
  | .vfmsPrefixed d a b c p f => some (.w64 (0xB1#8 ++ c ++ 0x0#18 ++ 0x104#9 ++ d ++ a ++ b ++ p ++ f))
  | .viadd d a b p f => some (.w32 (0x120#9 ++ d ++ a ++ b ++ p ++ f))
  | .vimul d a b p f => some (.w32 (0x121#9 ++ d ++ a ++ b ++ p ++ f))
  | .vand d a b p => some (.w32 (0x122#9 ++ d ++ a ++ b ++ p ++ 0x5#3))
  | .vor d a b p => some (.w32 (0x123#9 ++ d ++ a ++ b ++ p ++ 0x5#3))
  | .vxor d a b p => some (.w32 (0x124#9 ++ d ++ a ++ b ++ p ++ 0x5#3))
  | .vshl d a b p f => some (.w32 (0x125#9 ++ d ++ a ++ b ++ p ++ f))
  | .vshr d a b p f => some (.w32 (0x126#9 ++ d ++ a ++ b ++ p ++ f))
  | .vshrA d a b p f => some (.w32 (0x127#9 ++ d ++ a ++ b ++ p ++ f))
  | .vsel d a b p => some (.w32 (0x128#9 ++ d ++ a ++ b ++ p ++ 0x5#3))
  | .vcmpEq d a b p f => some (.w32 (0x129#9 ++ d ++ a ++ b ++ p ++ f))
  | .vcmpNe d a b p f => some (.w32 (0x12a#9 ++ d ++ a ++ b ++ p ++ f))
  | .vcmpLt d a b p f => some (.w32 (0x12b#9 ++ d ++ a ++ b ++ p ++ f))
  | .vcmpLe d a b p f => some (.w32 (0x12c#9 ++ d ++ a ++ b ++ p ++ f))
  | .vcmpGt d a b p f => some (.w32 (0x12d#9 ++ d ++ a ++ b ++ p ++ f))
  | .vcmpGe d a b p f => some (.w32 (0x12e#9 ++ d ++ a ++ b ++ p ++ f))
  | .vmov d a p => some (.w32 (0x12f#9 ++ d ++ a ++ 0x0#6 ++ p ++ 0x5#3))
  | .vbcast d a l p => some (.w32 (0x130#9 ++ d ++ a ++ l ++ p ++ 0x5#3))
  | .vperm d a b p => some (.w32 (0x131#9 ++ d ++ a ++ b ++ p ++ 0x5#3))
  | .vldl d a p => some (.w32 (0x140#9 ++ d ++ a ++ 0x0#6 ++ p ++ 0x5#3))
  | .vstl d a p => some (.w32 (0x141#9 ++ d ++ a ++ 0x0#6 ++ p ++ 0x5#3))
  | .vgathl d a b p => some (.w32 (0x142#9 ++ d ++ a ++ b ++ p ++ 0x5#3))
  | .vscatl d a b p => some (.w32 (0x143#9 ++ d ++ a ++ b ++ p ++ 0x5#3))
  | .tblld d a => some (.w32 (0x144#9 ++ d ++ a ++ 0x0#12))
  | .vldg d a p => some (.w32 (0x145#9 ++ d ++ a ++ 0x0#6 ++ p ++ 0x5#3))
  | .vstg d a p => some (.w32 (0x146#9 ++ d ++ a ++ 0x0#6 ++ p ++ 0x5#3))
  | .vgathg d a b p => some (.w32 (0x147#9 ++ d ++ a ++ b ++ p ++ 0x5#3))
  | .vscatg d a b p => some (.w32 (0x148#9 ++ d ++ a ++ b ++ p ++ 0x5#3))
  | .vtlu d a t p f => some (.w32 (0x149#9 ++ d ++ a ++ 0x0#3 ++ t ++ p ++ f))
  | .vrope d a b p => some (.w32 (0x14a#9 ++ d ++ a ++ b ++ p ++ 0x0#3))
  | .vcvt d a r s p f => some (.w32 (0x14b#9 ++ d ++ a ++ r ++ s ++ p ++ f))
  | .vcvtn d a b p f => some (.w32 (0x14c#9 ++ d ++ a ++ b ++ p ++ f))
  | .vcvtnCounter d a b p f n => some (.w64 (0xB1#8 ++ 0x0#6 ++ n ++ 0x20#6 ++ 0x14C#9 ++ d ++ a ++ b ++ p ++ f))
  | .vpack d a b p f => some (.w32 (0x14d#9 ++ d ++ a ++ b ++ p ++ f))
  | .vunpack d a k p f => some (.w32 (0x14e#9 ++ d ++ a ++ k ++ p ++ f))
  | .sendl a b c l x v r => some (.w64 (0xB2#8 ++ a ++ b ++ c ++ l ++ x ++ v ++ r ++ 0x0#24))
  | .mloadb a s g => some (.w32 (0xc0#8 ++ a ++ 0x0#8 ++ s ++ 0x0#3 ++ g ++ 0x0#3))
  | .mma s f g m => some (.w32 (0xc1000#20 ++ s ++ f ++ g ++ 0x0#2 ++ m))
  | .sacc a b s => some (.w32 (0xc2#8 ++ a ++ b ++ 0x0#4 ++ s ++ 0x0#9))
  | .aswap => some (.w32 (0xc3000000#32))
  | .aread a b => some (.w32 (0xc4#8 ++ a ++ b ++ 0x0#16))
  | .azero v => some (.w32 (0x62800000#31 ++ v))
  | .ofix a b c => some (.w32 (0xc6#8 ++ a ++ b ++ c ++ 0x0#12))
  | .mstat a => some (.w32 (0xc7#8 ++ a ++ 0x0#20))
  | .copy q a b c i t f => some (.w32 (0x340#10 ++ q ++ a ++ b ++ c ++ i ++ t ++ f))
  | .gatherkv a c => some (.w32 (0x686#11 ++ a ++ 0x0#4 ++ c ++ 0x0#9))
  | .pagein q a b c => some (.w32 (0x344#10 ++ q ++ a ++ b ++ c ++ 0x0#9))
  | .efence m => some (.w32 (0x68c000#23 ++ m ++ 0x0#5))
  | .eqwait q => some (.w32 (0x1a4#9 ++ q ++ 0x0#21))
  | .tmapset a i => some (.w32 (0x694#11 ++ a ++ 0x0#8 ++ i ++ 0x0#3))
  | .binit a b => some (.w32 (0x698#11 ++ a ++ b ++ 0x0#13))
  | .bexpect a b => some (.w32 (0x69c#11 ++ a ++ b ++ 0x0#13))
  | .barrive a => some (.w32 (0x6a0#11 ++ a ++ 0x0#17))
  | .bwait a b => some (.w32 (0x6a4#11 ++ a ++ b ++ 0x0#13))
  | .btest a b c => some (.w32 (0x6a8#11 ++ a ++ b ++ c ++ 0x0#9))
  | .cnew d p w => some (.w32 (0x380#10 ++ d ++ 0x0#13 ++ p ++ w))
  | .cfree a => some (.w32 (0x3810#14 ++ a ++ 0x0#14))
  | .ctake d a => some (.w32 (0x382#10 ++ d ++ a ++ 0x0#14))
  | .cgive d a => some (.w32 (0x383#10 ++ d ++ a ++ 0x0#14))
  | .ccancel d a b => some (.w32 (0x384#10 ++ d ++ a ++ b ++ 0x0#10))
  | .cread d a => some (.w32 (0x385#10 ++ d ++ a ++ 0x0#14))
  | .carm a b => some (.w32 (0x3860#14 ++ a ++ b ++ 0x0#10))
  | .cwait a b => some (.w32 (0x3870#14 ++ a ++ b ++ 0x0#10))
  | .send a b n v r c => some (.w32 (0x3880#14 ++ a ++ b ++ n ++ v ++ r ++ c))
  | .reply n => some (.w32 (0x389000#22 ++ n ++ 0x0#8))
  | .msgrd d a => some (.w32 (0x38a#10 ++ d ++ a ++ 0x0#14))
  | .chmask m c => some (.w32 (0x1c58000#25 ++ m ++ c))
  | .lpbind a c => some (.w32 (0x38c0#14 ++ a ++ 0x0#8 ++ c))
  | .vtset a => some (.w32 (0x38d0#14 ++ a ++ 0x0#14))
  | .vtget d => some (.w32 (0x38e#10 ++ d ++ 0x0#18))
  | .gvtrd d t => some (.w32 (0x38f#10 ++ d ++ 0x0#10 ++ t))
  | .irrev a => some (.w32 (0x3900#14 ++ a ++ 0x0#14))
  | .ckpt a => some (.w32 (0x3910#14 ++ a ++ 0x0#14))
  | .swater a t => some (.w32 (0x3920#14 ++ a ++ 0x0#6 ++ t))
  | .strunc a b => some (.w32 (0x3930#14 ++ a ++ b ++ 0x0#10))
  | .scursor d a s => some (.w32 (0x394#10 ++ d ++ a ++ 0x0#13 ++ s))
  | .nred a b => some (.w32 (0x3950#14 ++ a ++ b ++ 0x0#10))
  | .nredw d a => some (.w32 (0x396#10 ++ d ++ a ++ 0x0#14))
  | .trap c => some (.w32 (0x3c0000#22 ++ c))
  | .eret => some (.w32 (0xf0400000#32))
  | .resume a => some (.w32 (0x3c20#14 ++ a ++ 0x0#14))
  | .brk c => some (.w32 (0x3c3000#22 ++ c))
  | .fence k s => some (.w32 (0x7880000#27 ++ k ++ s))
  | .drain => some (.w32 (0xf1400000#32))
  | .tlbinvPage a s => some (.w32 (0x3c60#14 ++ a ++ 0x0#11 ++ s ++ 0x0#2))
  | .tlbinvPart a s => some (.w32 (0x3c60#14 ++ a ++ 0x0#11 ++ s ++ 0x1#2))
  | .tlbinvAll => some (.w32 (0xf1800006#32))
  | .tlbsync => some (.w32 (0xf1c00000#32))
  | .fbread d w e => some (.w32 (0x3c8#10 ++ d ++ 0x0#13 ++ w ++ e))
  | .fbpop => some (.w32 (0xf2400000#32))
  | .replayall => some (.w32 (0xf2800000#32))
  | .xlate d a k => some (.w32 (0x3cb#10 ++ d ++ a ++ 0x0#12 ++ k))
  | .bmcinv a => some (.w32 (0x3cc0#14 ++ a ++ 0x0#14))
  | .fetchLine _ _ => none
  | .classPromotion _ _ => none
  | .ringEntryComplete _ _ _ => none
  | .trapEntry _ _ => none
  | .watchdog _ _ => none
  | .waitWake _ _ => none
  | .loadReply _ => none
  | .storeAck _ => none
  | .memoryAccess _ => none
  | .weirPeriod _ => none
  | .pageWalk _ _ _ => none
  | .contextReplay _ _ => none
  | .messageArrival _ => none
  | .messageSpill _ => none
  | .handlerStart _ _ _ => none
  | .waitchDelivery _ _ _ => none
  | .sendInjection _ _ => none
  | .replyLanding _ => none
  | .cellRelease _ => none
  | .hostWindowWrite _ _ _ => none
  | .launchForward _ _ => none
  | .launchMessage _ _ => none
  | .dispatchRetry _ => none
  | .gridDescriptor _ => none
  | .crewAdmission _ => none
  | .crewDone _ _ => none
  | .gridCompletion _ _ => none
  | .gridEnd _ => none
  | .forkChildStart _ => none
  | .stealRequest _ => none
  | .stealServe _ => none
  | .stealReply _ => none
  | .stealRound _ => none
  | .joinSwapOut _ => none
  | .joinReadmit _ _ => none
  | .retainTimeout _ _ => none
  | .migrationArrival _ _ => none
  | .balancerToken _ => none
  | .balancerAntitoken _ => none
  | .exitToken _ => none
  | .exitAntitoken _ => none
  | .exitCancel _ => none
  | .generationClose _ _ => none
  | .pennantRaise _ _ => none
  | .nredContribution _ => none
  | .crewSwapOut _ _ => none
  | .idleCrewSwap _ => none
  | .crewReadmission _ => none
  | .commandActivation _ _ => none
  | .engineCredit _ _ _ => none
  | .commandCompletion _ _ => none
  | .tierMissEvent _ => none
  | .gvtRound _ _ => none
  | .gvtPublication _ _ => none
  | .lpEventStart _ _ => none
  | .checkpointSnapshot _ _ => none
  | .stragglerRollback _ _ => none
  | .antiMessageArrival _ _ _ => none
  | .lateMessage _ _ => none
  | .lpUnbind _ _ => none
  | .eviction _ => none
  | .evictRoutineTimeout _ => none
  | .evictedMessage _ => none
  | .retryResend _ => none
  | .restore _ => none
  | .partitionReset _ => none
  | .journalReplay _ => none
  | .arrayError _ _ _ _ _ _ => none
  | .machineCheck _ _ _ _ _ => none
  | .halyardHalt _ _ => none
  | .halyardResume _ => none
  | .monitorSample _ _ _ => none
  | .monitorClear _ _ => none
  | .tencntFlush _ _ => none
  | .tcsyncFlush _ => none
  | .jfenceMark _ => none
  | .gvtperWrite _ _ => none
  | .dispatchRegisterWrite _ _ _ => none
  | .dramceClear _ => none
  | .mcrecClear _ _ => none
  | .ftestStart _ => none
  | .ftestComplete _ _ => none
  | .marginMeasurement _ _ => none
  | .portRecordClear _ => none
  | .registerWrite _ _ _ => none
  | .securityAlarm _ => none
  | .partitionForm _ _ _ _ _ => none
  | .partitionResize _ _ _ _ => none
  | .partitionRelease _ => none
  | .selfTestCommand _ => none
  | .statusHealth => none
  | .attest _ => none
  | .firmwareUpdate _ _ => none
  | .replaceRequest => none
  | .powerOn _ _ => none
  | .islandClockChange _ _ => none
  | .thermalThrottle _ => none
  | .thermalShutdown => none
  | .portFailure _ => none
  | .cxlDeviceFailure _ => none
  | .msixDoorbell _ _ => none
  | .fabricReply _ => none
  | .hostMemoryAccess _ _ _ _ _ => none
  | .packageReset => none
  | .loggedHostDelivery _ => none

end Sys2Proof
end

