-- ==== Sys2Proof/Config.lean ====
section
/-! DEFINITION. What an implementation fixes, and the values the manual leaves open. An opaque constant
has no body: nothing proved about the machine can rest on a value of it. -/

namespace Sys2Proof.Config

/-- How many cycles beyond one the n-th step takes. The manual promises only that CYCLE never goes back
(R63) and gives typical latencies, so the number is free (log entry 2). -/
opaque freeCycles : Nat → Nat

/-- SHA3-256 of some bytes, 32 bytes long: the manual names it, and no claim needs more of it than that the same bytes have the same
digest (R379, R387; log entry 3). -/
opaque digest : List Byte → List Byte

/-- The boot firmware of a package, the Fjoruec firmware that it runs before any update, and its device identity public key (R379, R387;
log entry 3). -/
opaque freeBoot : Nat → List Byte
opaque freeFirmware : Nat → List Byte
opaque freeKey : Nat → List Byte

/-- The signature that a package puts, with the key of its identity, under the bytes of its n-th report (R379; log entry 3). -/
opaque freeSignature : Nat → Nat → List Byte → List Byte

/-- Whether a firmware image needs no device key: the manual leaves that to the image (R378; log entry 129). -/
opaque freeKeyless : List Byte → Bool

/-- What the n-th read of the host through a window of BAR4 returns where nothing is mapped (R380; log entry 52). -/
opaque freeHost : Nat → List Byte

/-- What a register reads whose contents the manual leaves to the firmware: the CXL segment map and the
route tables of a link die (R383; log entry 6). -/
opaque freeRegister : Nat → Word

/-- Whether a router marks the request of a number with a spate mark: that depends on how full its buffers are
(R196; log entry 8). -/
opaque freeSpate : Nat → Bool

/-- The ports at both ends that the route table of a package gives a sending core for a home package, the first one whose ports work
being the route: the route tables are the firmware's (R307, R385; log entry 51). -/
opaque freeRoute : Nat → Nat → List (Nat × Nat)

/-- How long the request of a number is under way to the weir of its home, in cycles of 1.6 GHz: that is left open (R228, R353;
log entry 7). -/
opaque freeArrival : Nat → Nat

/-- What a flush finds in the n-th step of the tenant counters that depend on routes and cycles: flits forwarded, waits for
outputs and at weirs, and flits sent on ports (R354; log entry 21). -/
opaque freeTraffic : Nat → Nat → Word

/-- The 32 bytes of a captured command in a commit ring, by the command's number: the manual gives their size and not their
layout (R317; log entry 85). -/
opaque freeCommand : Nat → List Byte

/-- The firmware's limits of the predictive counters: the count of a vault bank, and whether a port's record lies past its
limit (R376, R377; log entry 80). -/
opaque freeLimit : Nat
opaque freeMargin : List Byte → Bool

/-- Contexts per core (R1, R65). -/
abbrev contexts : Nat := 24
/-- Compute cores of a package (R1). -/
abbrev cores : Nat := 2560
/-- Compute cores of a domain of 64 packages: the numbers by which the model names cores (R1). -/
abbrev coreNumbers : Nat := 163840
/-- Entries of the coprocessor ring (R209). -/
abbrev ringEntries : Nat := 32
/-- Entries of a send queue (R195). -/
abbrev sendEntries : Nat := 32
/-- Messages in an ejection queue (R189). -/
abbrev ejectEntries : Nat := 16
/-- Messages in the spill area (R190). -/
abbrev spillEntries : Nat := 1024
/-- Arrival slots of bank 14 (R142). -/
abbrev arrivalSlots : Nat := 16
/-- Reply cells of a core (R194). -/
abbrev replyCells : Nat := 64
/-- Entries of a command queue (R272). -/
abbrev queueEntries : Nat := 8
/-- Deque entries held in the core, and in its oxbow spill (R86). -/
abbrev dequeCore : Nat := 64
abbrev dequeSpill : Nat := 8192
/-- Entries of a cluster's fault buffer (R252). -/
abbrev faultEntries : Nat := 8
/-- Balancer-table entries of a router (R158, R183). -/
abbrev routerEntries : Nat := 512
/-- LP slots of a core (R316). -/
abbrev lpSlots : Nat := 16
/-- The boundary of DRAM that programs may use, and the end of the vault (R225). -/
abbrev vaultUser : Nat := 0xBE00000
abbrev vaultEnd : Nat := 0xC000000

end Sys2Proof.Config
end

