-- ==== Sys2Proof/Machine/State.lean ====
section
/-! DEFINITION. The state of the machine: every package of one Bammen domain, its cores and their 24 contexts,
the memory, the network, the fabric, the partitions, as plain data. A physical core p of chip h has the
number g = 2560 h + p (R1, R224). Sparse tables list only what differs from its reset value; they are
sorted by key. -/

namespace Sys2Proof.Machine

/-- A sparse table: keys strictly rising; a key that is absent has its reset value. -/
abbrev Tab (α : Type) := List (Nat × α)

/-- Bytes by address, one canonical form: addresses strictly rising, no byte equal to 0, which is what an
unlisted address reads as (R375, R387; log entry 4). -/
abbrev Memory := List Host.Cell

/-- The 64 lanes of a vector register (R121, R122). -/
abbrev VReg := Vector Lane 64

/-- A register of 64 zero lanes. -/
abbrev VReg.zero : VReg := Vector.replicate 64 0

/-! ### A context (R65, R66, R81, R122, R209) -/

/-- One entry of the hardware loop stack (R81). -/
structure LoopEntry where
  start : Word
  stop : Word
  count : Word
  deriving DecidableEq, Repr

/-- What a context in use runs (R65, R70, R204). -/
inductive Role where
  | free
  | strand (crew k : Nat)
  | child
  | handler (ch : BitVec 6)
  | migrated
  | routine
  deriving DecidableEq, Repr

/-- What a waiting context awaits (R66); `over` is a wait on a pennant that has risen, of a counter that has been freed since (R179). -/
inductive Wait where
  | barrier
  | join (va : Word)
  | channel (ch : BitVec 6)
  | phase (bar : Nat) (p : BitVec 16)
  | pennant (key : Nat) (gen : BitVec 16)
  | load (rs : List XReg)
  | commands (q : Queue) (ids : List Nat)
  | matrix (ids : List Nat)
  | round (slot : Nat) (d : XReg)
  | over
  | settle
  deriving DecidableEq, Repr

/-- What a blocked context needs (R66); `gathers` names the gather commands that took the block map cache entries which a BMCINV has
removed (R339), and `turn` is that of a chunk end in a replay (R373). -/
inductive Block where
  | scoreboard
  | ring
  | quiet
  | drain
  | loads
  | sendQueue
  | replyQueue
  | cell
  | command (q : Queue)
  | fabric (id : Nat)
  | free (key : Nat)
  | deque
  | commit
  | tlbsync
  | unbind (ch : BitVec 6)
  | gathers (ids : List Nat)
  | turn
  deriving DecidableEq, Repr

/-- The state of a context in use (R66). A swapped context is held in its image. -/
inductive CtxState where
  | ready
  | blocked (b : Block)
  | waiting (w : Wait)
  | parked
  deriving DecidableEq, Repr

/-- How far a ring entry has come (R209, R210, R254). -/
inductive EntryState where
  | done
  | running
  | held
  | faulted
  | parked
  deriving DecidableEq, Repr

/-- An entry of the coprocessor dispatch ring with the scalar values it captured at issue (R209, R213). `cause` is the late
cause that is taken and `more` the mask of every cause raised (R208); `records` holds the outlier records that a narrowing
has still to append, and `raised` the flags its lanes raised (R135, R140); `kept` says that what a store of a speculative
event holds has been appended (R320). -/
structure RingEntry where
  seq : Byte
  addr : Word
  instr : Instr
  xs : Vector Word 16
  unit : BitVec 3
  st : EntryState
  finished : Bool
  cause : Byte
  fault : Word
  comparator : Option Nat
  lanes : BitVec 64
  pieces : List Nat
  records : List (List Byte)
  raised : BitVec 6
  more : BitVec 23
  kept : Bool
  deriving DecidableEq, Repr

/-- A trap that has been raised and not yet entered (R205, R208, R210). -/
structure TrapInfo where
  cause : Byte
  late : Bool
  resume : Word
  fault : Word
  source : Word
  mask : BitVec 23
  code : BitVec 10
  dbg : Bool
  seq : Byte
  deriving DecidableEq, Repr

/-- A message: its head flit, its payload, the physical core it goes to and the core and context that
sent it (R187); which 32-B pieces of the payload are poisoned (R363), its number in the order of arrivals, and the count of its
receiver's clock when it entered the network (R374). -/
structure Msg where
  d0 : Word
  d1 : Word
  d2 : Word
  d3 : Word
  payload : List Byte
  dst : Nat
  src : Nat
  sctx : Nat
  bad : List Nat
  stamp : Nat
  born : Nat
  deriving DecidableEq, Repr

/-- A context's current message, its arrival slot, whether it has been answered, and the reply cell it
holds when it is a reply (R192, R194, R199). -/
structure CurMsg where
  msg : Msg
  slot : Option Nat
  answered : Bool
  cell : Option Nat
  deriving DecidableEq, Repr

/-- The scratchpad access or global access that parked, to be performed again on replay (R254). -/
inductive Parked where
  | none
  | instr
  | entry (seq : Byte)
  deriving DecidableEq, Repr

/-- One hardware context. `xw` holds what has been written through its debug window, by offset, which takes effect at the
resume (R40, R370); `frame` the live trap frame of a context that is written out, empty while it stands in the scratchpad (R212,
R264). -/
structure Ctx where
  role : Role
  st : CtxState
  pc : Word
  ibuf : Option (Word × List Byte)
  arrived : Option Word
  x : Vector Word 16
  v : Vector VReg 22
  p : Vector (BitVec 64) 8
  fpflags : BitVec 14
  rnd : BitVec 3
  rng : BitVec 32
  vt : Word
  mbox : Vector Word 8
  cause : BitVec 9
  tseq : Byte
  loops : List LoopEntry
  sup : Bool
  settling : Nat
  stepArm : Bool
  watchOff : Bool
  ring : List RingEntry
  framed : List RingEntry
  nextSeq : Byte
  acks : List Nat
  owed : List (Nat × XReg)
  amos : List Nat
  trap : Option TrapInfo
  parked : Parked
  replay : Bool
  since : Nat
  parkedAt : Nat
  cur : Option CurMsg
  slot : Option Nat
  domain : BitVec 2
  join : Word
  banks : Option (Nat × Nat)
  resumedWait : Bool
  bump : Nat
  age : Nat
  watch : Nat
  watchTrap : Bool
  event : Option (Nat × Nat)
  chunk : Nat
  rolled : Bool
  inv : Nat
  xw : List (Nat × Word)
  frame : List Byte
  deriving DecidableEq, Repr

/-- A context on the free list: every register 0 (R41, R122; log entry 1). -/
def Ctx.reset : Ctx where
  role := .free
  st := .ready
  pc := 0
  ibuf := none
  arrived := none
  x := Vector.replicate 16 0
  v := Vector.replicate 22 VReg.zero
  p := Vector.replicate 8 0
  fpflags := 0
  rnd := 0
  rng := 0
  vt := 0
  mbox := Vector.replicate 8 0
  cause := 0
  tseq := 0
  loops := []
  sup := false
  settling := 0
  stepArm := false
  watchOff := false
  ring := []
  framed := []
  nextSeq := 1
  acks := []
  owed := []
  amos := []
  trap := none
  parked := .none
  replay := false
  since := 0
  parkedAt := 0
  cur := none
  slot := none
  domain := 0
  join := 0
  banks := none
  resumedWait := false
  bump := 0
  age := 0
  watch := 0
  watchTrap := false
  event := none
  chunk := 0
  rolled := false
  inv := 0
  xw := []
  frame := []

/-! ### Global accesses and the network (R195, R196, R228) -/

/-- What a request asks of its home (R229 to R232). The lanes of one vector piece are performed
together. -/
inductive MemOp where
  | load (size : Nat) (signed : Bool)
  | store (data : List Byte)
  | amo (f : BitVec 4) (size : Nat) (b c : Nat)
  | vload (parts : List (Nat × Nat))
  | vstore (parts : List (Nat × List Byte))
  | contribution
  deriving DecidableEq, Repr

/-- One request to a home: its number, the core and context that wait for it, the physical address, the
operation, and what its answer settles: a scalar register, or a ring entry, or a count (R229, R230). `late` holds
the bytes, by place in the answer, that the event's own held stores cover (R320); `born` is the count of the core's clock at the issue, and
`sent` the time when it last entered the network (R353, R374). -/
structure MemReq where
  id : Nat
  g : Nat
  c : Nat
  pa : Nat
  op : MemOp
  dest : Option XReg
  seq : Byte
  addr : Word
  spate : Bool
  event : Option (Nat × Nat)
  late : List (Nat × Byte)
  born : Nat
  sent : Nat
  deriving DecidableEq, Repr

/-- An answer on the reply network (R229, R233, R363, R364). -/
structure MemReply where
  req : MemReq
  data : List Byte
  ok : Bool
  poison : Bool
  deriving DecidableEq, Repr

/-- A contribution to an in-network reduction (R237). -/
structure Contribution where
  id : Nat
  root : Nat
  slot : Nat
  n : Nat
  v : VReg
  g : Nat
  c : Nat
  deriving DecidableEq, Repr

/-! ### Fabric operations (R162, R170) -/

/-- The kinds of fabric operation that travel (R162, R175 to R178). -/
inductive FabricKind where
  | token
  | anti
  | cancel (v : Int)
  deriving DecidableEq, Repr

/-- Where a fabric operation stands: on a wire of the network, or with its answer on the way back. -/
inductive FabricPos where
  | wire (w : Nat)
  | back (ok : Bool) (v : Word)
  deriving DecidableEq, Repr

/-- Who issued a fabric operation: an instruction that writes a register, a narrowing for its next record, by its ring
entry, a crew dispatcher for its next crew, or one that sends a done token (R74, R75, R135, R175). -/
inductive FabricUse where
  | reg (d : XReg)
  | append (seq : Byte)
  | crew
  | done
  deriving DecidableEq, Repr

/-- A fabric operation in flight: whose it is, the counter, its generation, its place, the accesses that preceded it, which its
exit report waits for (R167, R170), and the count of the core's clock at its issue (R374). -/
structure FabricOp where
  g : Nat
  c : Nat
  tag : Nat
  key : Nat
  kind : FabricKind
  gen : BitVec 16
  pos : FabricPos
  waits : List Nat
  use : FabricUse
  born : Nat
  deriving DecidableEq, Repr

/-- What a send-queue entry holds (R195). -/
inductive SendItem where
  | msg (m : Msg)
  | mem (rs : List MemReq)
  | nred (k : Contribution)
  | op (o : FabricOp)
  | steal (victim : Nat)
  | release (tag dst cell : Nat)
  deriving DecidableEq, Repr

/-- An entry of a send queue: whose it is, and the acknowledgements it awaits before it leaves (R193). -/
structure SendEntry where
  item : SendItem
  ctx : Nat
  waits : List Nat
  deriving DecidableEq, Repr

/-- One outstanding-request window (R196). -/
structure Window where
  size : Nat
  used : Nat
  run : Nat
  deriving DecidableEq, Repr

/-- A reserved reply cell, with the class of the window place it holds, and its reply once it has
landed (R194, R196). -/
structure Cell where
  cls : Nat
  injected : Bool
  reply : Option Msg
  deriving DecidableEq, Repr

/-! ### Crews, grids and work (R71 to R75, R86) -/

/-- A launch record as read, and its number in the launch journal (R71, R362). -/
structure Launch where
  addr : Word
  entry : Word
  n : Nat
  s : Nat
  domain : BitVec 2
  banks : Nat
  target : Word
  cookie : Word
  mbox : Vector Word 8
  jid : Nat
  deriving DecidableEq, Repr

/-- A grid that a core knows (R72, R74). -/
structure Grid where
  launch : Launch
  counter : Nat
  done : Nat
  exhausted : Bool
  deriving DecidableEq, Repr

/-- A resident crew: its index, its grid's record and counter, its allotment, and which strands have
halted or arrived at BAR (R68, R91, R92). -/
structure Crew where
  index : Word
  grid : Grid
  n : Nat
  ctxs : List Nat
  halted : List Nat
  arrived : List Nat
  bank : Nat
  keep : Option (BitVec 6)
  deriving DecidableEq, Repr

/-- What a crew dispatcher has under way for its next crew: a CTAKE whose answer is out, or the value that it answered (R74). -/
inductive Claim where
  | asked (gr : Grid)
  | got (v : Nat) (gr : Grid)
  deriving DecidableEq, Repr

/-- A retained allotment, and whether a message of its channel has arrived since (R93). -/
structure Retained where
  ch : BitVec 6
  bank : Nat
  n : Nat
  since : Nat
  met : Bool
  deriving DecidableEq, Repr

/-- An entry of the deque, with the 32-B pieces of it that came poisoned from the oxbow region or in a steal reply (R86, R363). -/
structure DequeEntry where
  entry : Word
  x1 : Word
  x2 : Word
  x3 : Word
  domain : BitVec 2
  rnd : BitVec 3
  en : BitVec 6
  rng : BitVec 32
  mbox : Vector Word 8
  bad : List Nat
  deriving DecidableEq, Repr

/-! ### Counters (R157 to R170) -/

/-- The counts of one generation (R166, R167). -/
structure GenCount where
  entered : Nat
  left : Nat
  net : Int
  deriving DecidableEq, Repr

/-- The pennant machine's state (R167). -/
inductive Pennant where
  | opened
  | armed
  | closing
  deriving DecidableEq, Repr

/-- A counter: its width, the routers of its entries, the balancers' bits, the exits' counts and hole
stacks, and its pennant machine (R158 to R167). -/
structure Counter where
  w : Nat
  routers : List Nat
  bal : List Bool
  c : List Int
  holes : List (List Int)
  gen : BitVec 16
  p : BitVec 16
  pennant : Pennant
  target : Nat
  rep : Bool
  exhausted : Bool
  gens : Tab GenCount
  deriving DecidableEq, Repr

/-- An exit report that is held back until the accesses before its token are complete: it counts 1 for a token and −1 for an
antitoken (R167, R170). -/
structure ExitReport where
  g : Nat
  c : Nat
  tag : Nat
  key : Nat
  gen : BitVec 16
  waits : List Nat
  net : Int
  deriving DecidableEq, Repr

/-! ### Reductions (R236, R237) -/

/-- One lane of a reduction round (R236). -/
structure SumLane where
  a : Int
  pinf : Bool
  ninf : Bool
  nan : Bool
  z : Bool
  deriving DecidableEq, Repr

/-- One round of a reduction slot (R236, R237). -/
structure Round where
  c : Nat
  n : Nat
  lanes : Vector SumLane 64
  deriving DecidableEq, Repr

/-! ### Translation (R248, R252) -/

/-- A cached translation: its partition, the page's base and size (the logarithm in base 2), the stage-1
output, the physical base, and the permissions both stages grant (R245, R248). -/
structure TlbEntry where
  tag : Nat
  va : Nat
  bits : Nat
  ia : Nat
  bits2 : Nat
  pa : Nat
  r : Bool
  w : Bool
  x : Bool
  u : Bool
  deriving DecidableEq, Repr

/-- An entry of a cluster's fault buffer (R252). -/
structure FaultEntry where
  va : Word
  tag : Nat
  kind : BitVec 2
  stage2 : Bool
  perm : Bool
  level : BitVec 3
  count : Nat
  engine : Bool
  ia : Word
  deriving DecidableEq, Repr

/-! ### Engines (R272 to R304) -/

/-- What a command captured at issue (R273, R280, R286, R287, R295 to R301). -/
inductive CmdBody where
  | copy (origin dst bar : Word) (entry : List Byte) (kind : BitVec 2) (feed : Bool)
  | pagein (a b bar : Word)
  | gather (record bar : Word)
  | mloadb (a : Word) (shape fb : BitVec 3)
  | mma (shape fa fb : BitVec 3) (masked : Bool) (feeders : List Nat)
  | sacc (a b : Word) (shape : BitVec 3)
  | aswap
  | aread (a b : Word)
  | azero (visible : Bool)
  | ofix (a n b : Word)
  | fence (mask : BitVec 4)
  deriving DecidableEq, Repr

/-- Bytes that engines move, and which of them came with poison (R363). -/
structure Moved where
  bytes : List Byte
  bad : List Bool
  deriving DecidableEq, Repr

/-- Where a piece of a command's bytes comes from: bytes the command makes, global memory, a scratchpad (R282, R285). -/
inductive Src where
  | made (d : Moved)
  | phys (pa n : Nat)
  | spad (g off n : Nat)
  deriving DecidableEq, Repr

/-- Where a piece goes: global memory, a scratchpad, the row buffer, the macros with the bytes of a row of B (R281, R285,
R295). -/
inductive Dst where
  | phys (pa : Nat)
  | spad (g off : Nat)
  | row (at_ : Nat)
  | cell (at_ row : Nat)
  deriving DecidableEq, Repr

/-- Source pieces that no destination piece crosses at either end: the sources not fetched yet, the bytes fetched, and the
destination pieces not written yet, with their places in the bytes and their lengths. The bytes before place `counts` are credited
(R284, R285). -/
structure Transfer where
  srcs : List Src
  got : Moved
  dsts : List (Nat × Nat × Dst)
  counts : Nat
  deriving DecidableEq, Repr

/-- What a command does once its last piece is written: the mask bits of the row buffer (R282), the compare-and-swap of a
block-table entry, with its virtual address and its place (R286), Loaded (R295). -/
inductive After where
  | rowMask (set clear : BitVec 8)
  | entry (va : Word) (pa old new : Nat)
  | loaded (shape fmt : BitVec 3)
  deriving DecidableEq, Repr

/-- How far an active command has come: the transfers and the actions that remain, what it still owes its barrier, the lines of memory
that it writes whole, without poison so far, the number that was next when it translated, and the block-table entries it took from the
block map cache (R260, R284, R285, R339, R363). -/
structure Progress where
  moves : List Transfer
  after : List After
  owes : Nat
  lines : List Nat
  began : Nat
  cached : List Nat
  deriving DecidableEq, Repr

/-- A gather record (R287). -/
structure Gather where
  table : Word
  len : Nat
  first : Nat
  maxb : Nat
  bsz : Nat
  ch : Nat
  dst : Word
  mdst : Word
  deriving DecidableEq, Repr

/-- A walk: the record, the core and offset of the tile and of the masks, the entries that it has read so far, and the addresses of
those that came from the block map cache (R338, R339, R340). -/
structure Walk where
  record : Gather
  tile : Nat × Nat
  masks : Nat × Nat
  entries : List Nat
  cached : List Nat
  deriving DecidableEq, Repr

/-- How far a command has come (R274, R275, R284, R288, R340, R357): it waits in its queue; it is an engine's shadow set; it
walks; it runs; it was stopped at a piece by an eviction; it is parked, faulted or held. -/
inductive CmdState where
  | queued
  | shadow
  | walking (w : Walk)
  | active (p : Progress)
  | paused (p : Progress)
  | parked
  | faulted
  | held
  deriving DecidableEq, Repr

/-- A command in a queue: its number (one number in every queue that an EFENCE names), the context and ring
entry that issued it, whether it is detached, the crew or event it belongs to, and the accesses of its context that preceded it
(R209, R211, R243, R272, R310). -/
structure Cmd where
  id : Nat
  c : Nat
  seq : Byte
  addr : Word
  body : CmdBody
  st : CmdState
  attached : Bool
  lateIssue : Bool
  sup : Bool
  watchOff : Bool
  crew : Option Nat
  event : Option (Nat × Nat)
  waits : List Nat
  deriving DecidableEq, Repr

/-- The matrix engine: the macros' cells, Loaded, the row buffer with its mask, the partial bank with its
status, the two accumulator banks and the flags (R289, R290, R302). Arrays are bytes by position. `badCells` names the
rows of B, and `badRows` the 32-B pieces of the row buffer, that poison was moved into (R363). -/
structure Matrix where
  cells : Memory
  shape : BitVec 3
  fmt : BitVec 3
  rows : Memory
  rowMask : BitVec 8
  partials : Memory
  full : Bool
  pshape : BitVec 3
  pvalid : BitVec 8
  working : Memory
  visible : Memory
  flags : BitVec 5
  badCells : List Nat
  badRows : List Nat
  deriving DecidableEq, Repr

/-- The matrix engine after reset (log entry 1). -/
def Matrix.reset : Matrix where
  cells := []
  shape := 0
  fmt := 1
  rows := []
  rowMask := 0
  partials := []
  full := false
  pshape := 0
  pvalid := 0
  working := []
  visible := []
  flags := 0
  badCells := []
  badRows := []

/-! ### Virtual time (R313 to R330) -/

/-- A ring of a descriptor: its place, its capacity, and the byte counts appended and freed since binding
(R315, R317). -/
structure Ring where
  base : Nat
  cap : Nat
  head : Nat
  tail : Nat
  deriving DecidableEq, Repr

/-- A region of a logical process (R318). -/
structure Region where
  base : Nat
  len : Nat
  kind : Nat
  slots : Nat
  global : Bool
  aux : Word
  deriving DecidableEq, Repr

/-- How an event stands: running, processed, or being run again after a restored checkpoint (R324, R326). -/
inductive EventState where
  | running
  | processed
  | coasting
  deriving DecidableEq, Repr

/-- An event that has started: its number, its message, its context, its state, whether it is safe, the input
ring bytes it holds, and the output-log entry its next send is compared with while it coasts (R319, R324). -/
structure LpEvent where
  id : Nat
  vt : Word
  msg : Msg
  ctx : Nat
  st : EventState
  safe : Bool
  sup : Bool
  input : Nat
  next : Nat
  owes : Bool
  deriving DecidableEq, Repr

/-- An eddy-log entry: a granule's bytes before an event's first store to it (R321). -/
structure EddyEntry where
  event : Nat
  addr : Nat
  old : List Byte
  deriving DecidableEq, Repr

/-- An output-log entry (R317). -/
structure OutEntry where
  event : Nat
  msg : Msg
  deriving DecidableEq, Repr

/-- A held item (R317, R320, R329). -/
inductive HeldItem where
  | store (va : Word) (data : List Byte)
  | irrev (record : List Byte)
  | command (q : Queue) (i : Instr) (c : Cmd)
  | send (m : Msg) (reply : Bool)
  | scratch (a : Word) (data : List Byte)
  deriving DecidableEq, Repr

/-- A commit entry: its event, its item, the bytes it takes in the ring, the number that was next when it was held, and the accesses
of its context that preceded it (R193, R310, R317). -/
structure Held where
  event : Nat
  item : HeldItem
  bytes : Nat
  at_ : Nat
  waits : List Nat
  deriving DecidableEq, Repr

/-- A logical process: its descriptor as bound, its rings with what they hold, its events in the order in which
they started, its snapshots by slot, the waiting anti-messages, the channels that are to be unbound, the rollback
that waits, the events that coast, and the virtual times of the IRREV actions of a publication under way (R315 to R332). -/
structure Lp where
  desc : Nat
  domain : Nat
  stream : Bool
  mismatch : Bool
  cint : Nat
  since : Nat
  channels : List Nat
  bound : Word
  lvt : Word
  play : Word
  eddyR : Ring
  outR : Ring
  inR : Ring
  commitR : Ring
  regions : List Region
  events : List LpEvent
  eddy : List EddyEntry
  outlog : List OutEntry
  commits : List Held
  snaps : List (Nat × Word)
  mark : Bool
  ready : Bool
  antis : List Msg
  unbind : List Nat
  rolling : Option Word
  coast : List Nat
  irrevs : List Word
  deriving DecidableEq, Repr

/-- A time domain: its published GVT, its watermark, the result of a round that has not been published, and when
its last round began (R314, R327). -/
structure Domain where
  gvt : Word
  water : Word
  next : Option Word
  began : Nat
  deriving DecidableEq, Repr

/-! ### Swapped work (R90, R264) -/

/-- What the device's own areas of a crew image hold: the crew's number and record, its strands' contexts, those that were written
out in JOIN with 32 added to their numbers, the poison of its banks, its queued commands, when it was written, and whether it
may return (R264, R265). The header and the allotment stand in memory, in the image's slot. -/
structure SwapImage where
  number : Nat
  crew : Crew
  ctxs : List (Nat × Ctx)
  poison : List Nat
  cmds : List (Queue × Cmd)
  feeders : List (Nat × Nat)
  since : Nat
  ready : Bool
  deriving DecidableEq, Repr

/-- A core's search for work to steal: the victim that has been asked, whether that was before the round began anew, how many have
answered empty in this round, and when the next round may begin (R88). -/
structure Steal where
  asked : Option Nat
  stale : Bool
  tried : Nat
  notBefore : Nat
  deriving DecidableEq, Repr

/-! ### Cores, clusters, partitions, packages -/

/-- One entry of the handler table (R185). -/
structure Handler where
  entry : Word
  ctl : Word
  deriving DecidableEq, Repr

/-- The part of a core that pre-emption saves and restores: its contexts, its scratchpad with the banks
that are powered, its registers and tables, its queues, and what its units hold (R52, R357, R358). `flits` are cell-release
flits and anti-messages that wait for an entry of their send queue (R195, R323); `spill` holds the spilled messages with their places in the spill area (R190, R263); `deque` holds the entries in the core, and `spilled` older ones lie
in the oxbow region from place `spillTop` on (R86, R263); `claim` is the crew dispatcher's next crew (R74); `redeliver` names the
messages of a restored image, by number, that arrive before any other (R360). -/
structure Work where
  ctxs : Tab Ctx
  spad : Memory
  power : BitVec 14
  olcnt : BitVec 32
  olbase : BitVec 19
  trapvec : Word
  pswap : BitVec 32
  s1root : Word
  oxbow : Word
  wdlimit : BitVec 32
  handlers : Tab Handler
  ejection : List Msg
  spill : List (Nat × Msg)
  slots : List Nat
  cells : Tab Cell
  requests : List SendEntry
  replies : List SendEntry
  flits : List SendEntry
  deque : List DequeEntry
  spilled : Nat
  spillTop : Nat
  claim : Option Claim
  crews : Tab Crew
  grids : List Grid
  retained : List Retained
  queues : Tab (List Cmd)
  feeders : List (Nat × Nat)
  misses : List Msg
  matrix : Matrix
  tables : Memory
  poison : List Nat
  lps : Tab Lp
  orphans : BitVec 14
  swapped : Tab SwapImage
  joinOut : Tab Ctx
  steal : Steal
  windows : Vector Window 5
  redeliver : List Nat
  deriving DecidableEq, Repr

/-- The reset value of a core's work (R45, R136, R185, R196, R246; log entry 1). -/
def Work.reset : Work where
  ctxs := []
  spad := []
  power := 0
  olcnt := 0
  olbase := 0
  trapvec := 0
  pswap := 0
  s1root := 0
  oxbow := 0
  wdlimit := 0
  handlers := []
  ejection := []
  spill := []
  slots := []
  cells := []
  requests := []
  replies := []
  flits := []
  deque := []
  spilled := 0
  spillTop := 0
  claim := none
  crews := []
  grids := []
  retained := []
  queues := []
  feeders := []
  misses := []
  matrix := Matrix.reset
  tables := []
  poison := []
  lps := []
  orphans := 0
  swapped := []
  joinOut := []
  steal := ⟨none, false, 0, 0⟩
  windows := Vector.replicate 5 ⟨16, 0, 0⟩
  redeliver := []

/-- One monitor: its control, least and greatest samples, and its bins (R365, R374). -/
structure Monitor where
  ctl : Word
  least : Word
  most : Word
  bins : Tab Nat
  deriving DecidableEq, Repr

/-- A sample that a monitor has still to record: which monitor, what value, how many times (R374). -/
structure Sample where
  mon : Nat
  val : Word
  times : Nat
  deriving DecidableEq, Repr

/-- The debug, trace and health registers of a core (R365 to R377): how many records the state log has put into its ring (R371); the
contexts whose chunk end waits in a replay, and the record whose host message has been delivered again (R373); the samples that the
monitors have still to record (R374); it is fenced; it has machine-checked, and whether a self-test has passed it since (R367,
R376). -/
structure Debug where
  addr : Tab Word
  ctl : Tab Word
  stlog : Word
  sthead : Word
  stState : BitVec 2
  stSince : Nat
  rlctl : Word
  rlhead : Word
  mons : Tab Monitor
  mcrec : Tab Word
  dramce : Tab Word
  ftstat : Word
  fenced : Bool
  checked : Bool
  passed : Bool
  discards : BitVec 16
  stCount : Nat
  stalls : List Nat
  again : Option Nat
  due : List Sample
  deriving DecidableEq, Repr

/-- The reset values of R365 (log entry 1 for the logged state). -/
def Debug.reset : Debug where
  addr := []
  ctl := []
  stlog := 0
  sthead := 0
  stState := 3
  stSince := 0
  rlctl := 0
  rlhead := 0
  mons := []
  mcrec := []
  dramce := []
  ftstat := 0
  fenced := false
  checked := false
  passed := false
  discards := 0
  stCount := 0
  stalls := []
  again := none
  due := []

/-- What a core's shadow region holds of an evicted partition: its tag, the saved work, the context of an abandoned
evict routine, CYCLE at the eviction, the messages that arrived since, by number in the order of arrival, the bytes that the request
messages of the message area take, whether a REPLAYALL has reached it, and the tenant counters that a dispatch core saved (R355 to
R359). -/
structure Image where
  tag : BitVec 6
  work : Work
  routine : Option Ctx
  cycle : Nat
  msgs : List (Nat × Msg)
  bytes : Nat
  replay : Bool
  counters : Option (Tab Word)
  deriving DecidableEq, Repr

/-- How far an eviction has come: issue has stopped, or the evict routine runs in context 0 since a time, with the
saved work aside (R357). -/
inductive Evicting where
  | stopping
  | routine (since : Nat) (saved : Work)
  deriving DecidableEq, Repr

/-- A weir of a memory agent or a CXL home agent: each partition's tokens in this period, and the tag last served without a
token (R352, R353). -/
structure Weir where
  tokens : Tab Nat
  last : Nat
  deriving DecidableEq, Repr

/-- A core. -/
structure Core where
  work : Work
  ptag : BitVec 6
  errlog : Word
  s2root : Word
  itlb : List TlbEntry
  dtlb : List TlbEntry
  nred : Tab (List Round)
  dbg : Debug
  image : Option Image
  evicting : Option Evicting
  weir : Weir
  deriving DecidableEq, Repr

/-- A core after reset (R45). -/
def Core.reset : Core where
  work := Work.reset
  ptag := 0
  errlog := 0
  s2root := 0
  itlb := []
  dtlb := []
  nred := []
  dbg := Debug.reset
  image := none
  evicting := none
  weir := ⟨[], 0⟩

/-- A cluster: its fault buffer, the dropped and notice flags by partition, and its L2 TLB (R248, R252,
R253); the halyard with the core that pulled it (R191, R369); FTEST with bit 3 for a start that has been asked for (R375). -/
structure Cluster where
  faults : List FaultEntry
  dropped : List Nat
  notice : List Nat
  tlb : List TlbEntry
  rotor : Nat × Nat
  haltDue : Option Word
  puller : Nat
  halted : Bool
  notify : Word
  ftest : BitVec 4
  blockMap : List (Nat × Nat × Nat)
  deriving DecidableEq, Repr

/-- A cluster after reset. -/
def Cluster.reset : Cluster where
  faults := []
  dropped := []
  notice := []
  tlb := []
  rotor := (0, 0)
  haltDue := none
  puller := 0
  halted := false
  notify := 0
  ftest := 0
  blockMap := []

/-- A grid in progress at the dispatcher: its launch, its grid counter, its done counter, and the pennant it
waits for (R72, R75). -/
structure GridRun where
  launch : Launch
  counter : Nat
  done : Nat
  deriving DecidableEq, Repr

/-- A fence mark of the launch journal: its number among the journal's entries, and the launches journaled before it
whose completion messages have not been sent (R362). -/
structure Fence where
  index : Nat
  grids : List Nat
  deriving DecidableEq, Repr

/-- A partition: its physical cores by chip, in the order of their logical numbers; H; the balancer-entry
limit (R183); its floor at every agent, which QOSFLOOR reports (R52, R352); JOURNAL, JFENCE's count, EVICTVEC and GVTPER, which every core block shows (R314, R349); the BAR2
discards (R381); its counters; the tenant counters with
the deltas that units hold and the counters that a flush has still to reach (R354); its time domains (R314); the launch that waits for counters and the grids in
progress (R72, R75); the pending fence marks, the place of the newest completed one, and where the entries of the journal as it is placed now begin
(R362). -/
structure Partition where
  cores : Tab (List Nat)
  hyper : Bool
  limit : Nat
  floor : BitVec 16
  journal : Word
  jfence : Nat
  evictvec : Word
  gvtper : BitVec 16
  discards : Nat
  counters : Tab Counter
  tencnt : Tab Word
  deltas : Tab Nat
  flushing : List Nat
  resetDue : Bool
  domains : Tab Domain
  waiting : Option Launch
  runs : List GridRun
  fences : List Fence
  lastFence : Nat
  jcount : Nat
  jstart : Nat
  replayDue : Bool
  deriving DecidableEq, Repr

/-- The clock of an island: its frequency in steps of 0.1 GHz, the time and the sixteenths of a cycle that it had counted when that was
set, and until when a change keeps the island from issuing. Time runs in cycles of 1.6 GHz (R388). -/
structure Clock where
  f : Nat
  since : Nat
  base : Nat
  busy : Option Nat
  deriving DecidableEq, Repr

/-- A package: the capacity recorded for each CXL segment in bytes, and the segments whose device has failed
(R227, R384); its port records and failed ports (R377, R385); the health bits, and the firmware's policy bit for an alarm (R365,
R378); whether bring-up has reached step 5 (R387); the partition and the intermediate base of each window of BAR4 (R380); the
doorbells that have been stored to (R382); whether the status command has read the replace request, the firmware that runs, and an
image to apply at the next reset (R386); the clocks of its islands, and whether its compute dies are powered off (R388); when its
cores left reset (R52); the weirs of its CXL segments (R352). -/
structure Chip where
  cxl : Tab Nat
  lost : List Nat
  ports : Tab (List Byte)
  portsDown : List Nat
  replace : Bool
  told : Bool
  alarm : Bool
  erased : Bool
  policy : Bool
  ready : Bool
  apertures : Tab (Nat × Nat)
  doorbells : List (Nat × Nat)
  image : List Byte
  firmware : Option (List Byte)
  clocks : Tab Clock
  off : Bool
  resetAt : Nat
  weirs : Tab Weir
  deriving DecidableEq, Repr

/-- A package after reset: no CXL device recorded, and its host link not yet enabled (R387; log entry 67). -/
def Chip.reset : Chip where
  cxl := []
  lost := []
  ports := []
  portsDown := []
  replace := false
  told := false
  alarm := false
  erased := false
  policy := false
  ready := false
  apertures := []
  doorbells := []
  image := []
  firmware := none
  clocks := []
  off := false
  resetAt := 0
  weirs := []

/-- A tag whose partition is not formed. -/
def Partition.reset : Partition where
  cores := []
  hyper := false
  limit := 0
  floor := 0
  journal := 0
  jfence := 0
  evictvec := 0
  gvtper := 50
  discards := 0
  counters := []
  tencnt := []
  deltas := []
  flushing := []
  resetDue := false
  domains := []
  waiting := none
  runs := []
  fences := []
  lastFence := 0
  jcount := 0
  jstart := 0
  replayDue := false

/-- What is in flight between agents, by number (R187, R195, R228). -/
structure Net where
  reqs : Tab MemReq
  replies : Tab MemReply
  msgs : Tab Msg
  answers : Tab Msg
  releases : Tab (Nat × Nat × Nat)
  nreds : Tab Contribution
  ops : Tab FabricOp
  reports : List ExitReport
  retries : Tab (Nat × SendItem)
  steals : Tab (Nat × Nat)
  descs : Tab (Nat × Grid)
  ends : Tab (Nat × Nat)
  deriving DecidableEq, Repr

/-- An empty network. -/
def Net.reset : Net where
  reqs := []
  replies := []
  msgs := []
  answers := []
  releases := []
  nreds := []
  ops := []
  reports := []
  retries := []
  steals := []
  descs := []
  ends := []

/-- What moves next: a context of a core issues, or a device step takes place. -/
inductive Choice where
  | issue (g c : Nat)
  | event (e : Instr)
  deriving DecidableEq, Repr

/-- What leaves the machine: an MSI-X vector that the function of a package raises (R382), bytes a host read returned (R380), an attestation
or status report (R379, R386), a replace request (R386). -/
inductive Output where
  | msix (chip vector : Nat)
  | hostRead (bytes : List Byte)
  | report (bytes : List Byte)
  | replace
  deriving DecidableEq, Repr

/-- The whole machine. -/
structure State where
  mem : Memory
  poison : List Nat
  cores : Tab Core
  clusters : Tab Cluster
  parts : Tab Partition
  chips : Tab Chip
  net : Net
  cur : Nat × Nat
  now : Nat
  stepNo : Nat
  nextId : Nat
  schedule : List Choice
  outputs : List Output
  deriving DecidableEq, Repr

/-- The machine right after reset (R387): memory clear, no partition formed, every core at its reset
values, nothing in flight. -/
def State.reset : State where
  mem := []
  poison := []
  cores := []
  clusters := []
  parts := []
  chips := []
  net := Net.reset
  cur := (0, 0)
  now := 0
  stepNo := 0
  nextId := 1
  schedule := []
  outputs := []

/-- Why a step stops: for no reason. The manual gives every instruction and every device step an effect, and a machine whose
packages are powered off only lets time pass (R388). -/
inductive Fault where
  deriving DecidableEq, Repr

/-- Why a step is refused. -/
inductive Refusal where
  /-- The instruction has no meaning yet; raised by `exec`. Safe: nothing is claimed of it. -/
  | notModelled (mnemonic : String)
  deriving DecidableEq, Repr

end Sys2Proof.Machine
end

