-- ==== Sys2Proof/Machine/Uses.lean ====
section
/-! DEFINITION. Which registers an instruction reads and writes, and which instructions the V-slot issues
(R19, R43, R123). A vector register is named by its number 0 to 21, predicate pn by 21 + n, and FPFLAGS by
29, the bits of the frame's scoreboard word (R212). -/

namespace Sys2Proof.Machine

/-- x5 to x(5 + n): the payload registers of a SEND or REPLY of n + 1 doublewords (R197, R199). -/
def payloadRegs (n : BitVec 2) : List XReg := (List.range (n.toNat + 1)).map fun i => BitVec.ofNat 4 (5 + i)

/-- Every scalar register. -/
def allRegs : List XReg := (List.range 16).map fun i => BitVec.ofNat 4 i

/-- The scalar register a source specifier broadcasts (R21). -/
def srcX (a : BitVec 6) : List XReg :=
  if 16 ≤ a.toNat ∧ a.toNat < 32 then [BitVec.ofNat 4 (a.toNat - 16)] else []

/-- The vector register a source specifier names (R21). -/
def srcV (a : BitVec 6) : List Nat :=
  if a.toNat < 16 then [a.toNat] else if 32 ≤ a.toNat ∧ a.toNat < 38 then [a.toNat - 16] else []

/-- The scoreboard number of a predicate; p0 has none. -/
def predNo (p : BitVec 3) : List Nat := if p = 0 then [] else [21 + p.toNat]

/-- The scalar registers an instruction reads. -/
def xReads : Instr → List XReg
  | .movCompact _ a => [a]
  | .addCompact d a => [d, a]
  | .subCompact d a => [d, a]
  | .andCompact d a => [d, a]
  | .orCompact d a => [d, a]
  | .xorCompact d a => [d, a]
  | .addiCompact d _ => [d]
  | .shlCompact d _ => [d]
  | .shrCompact d _ => [d]
  | .sraCompact d _ => [d]
  | .bzCompact a _ => [a]
  | .bnzCompact a _ => [a]
  | .ldlDCompact _ _ a => [a]
  | .mulCompact d a => [d, a]
  | .minCompact d a => [d, a]
  | .maxCompact d a => [d, a]
  | .sltCompact d a => [d, a]
  | .seqCompact d a => [d, a]
  | .clzCompact _ a => [a]
  | .popcCompact _ a => [a]
  | .sltuCompact d a => [d, a]
  | .minuCompact d a => [d, a]
  | .maxuCompact d a => [d, a]
  | .jrCompact a => [a]
  | .add _ a b => [a, b]
  | .sub _ a b => [a, b]
  | .mul _ a b => [a, b]
  | .mulh _ a b => [a, b]
  | .mulhu _ a b => [a, b]
  | .div _ a b => [a, b]
  | .divu _ a b => [a, b]
  | .rem _ a b => [a, b]
  | .remu _ a b => [a, b]
  | .and _ a b => [a, b]
  | .or _ a b => [a, b]
  | .xor _ a b => [a, b]
  | .shl _ a b => [a, b]
  | .shr _ a b => [a, b]
  | .sra _ a b => [a, b]
  | .min _ a b => [a, b]
  | .max _ a b => [a, b]
  | .minu _ a b => [a, b]
  | .maxu _ a b => [a, b]
  | .slt _ a b => [a, b]
  | .sltu _ a b => [a, b]
  | .seq _ a b => [a, b]
  | .clz _ a => [a]
  | .popc _ a => [a]
  | .mov _ a => [a]
  | .sel _ a b c => [a, b, c]
  | .addsh _ a b _ => [a, b]
  | .addi _ a _ => [a]
  | .andi _ a _ => [a]
  | .ori _ a _ => [a]
  | .xori _ a _ => [a]
  | .shlImm _ a _ => [a]
  | .shrImm _ a _ => [a]
  | .sraImm _ a _ => [a]
  | .lih d _ _ => [d]
  | .bfx _ a _ _ => [a]
  | .bfi d a _ _ => [d, a]
  | .ldl _ _ a _ _ => [a]
  | .stl _ d a _ => [d, a]
  | .ldg _ _ a _ _ => [a]
  | .stg _ d a _ => [d, a]
  | .amoAdd _ _ a b => [a, b]
  | .amoMin _ _ a b => [a, b]
  | .amoMax _ _ a b => [a, b]
  | .amoAnd _ _ a b => [a, b]
  | .amoOr _ _ a b => [a, b]
  | .amoXor _ _ a b => [a, b]
  | .amoSwap z _ a b => [a, b] ++ (if z = 0 then [b + 1] else [])
  | .amoCas z _ a b c => [a, b, c] ++ (if z = 0 then [b + 1, c + 1] else [])
  | .amoFadd _ a b => [a, b]
  | .cwr a _ => [a]
  | .bCc _ a b _ => [a, b]
  | .bz a _ => [a]
  | .bnz a _ => [a]
  | .jr a => [a]
  | .loop a _ => [a]
  | .launch a => [a]
  | .fork a _ => [a, 2, 3]
  | .join a => [a]
  | .migrateHome _ _ => allRegs
  | .migrate _ _ => allRegs
  | .sendl a b _ _ x v _ => [a, b] ++ (if v = 1 then [x] else [])
  | .mloadb a _ _ => [a]
  | .sacc a b _ => [a, b]
  | .aread a b => [a, b]
  | .ofix a b c => [a, b, c]
  | .copy _ a b c _ _ _ => [a, b, c]
  | .gatherkv a c => [a, c]
  | .pagein _ a b c => [a, b, c]
  | .tmapset a _ => [a]
  | .binit a b => [a, b]
  | .bexpect a b => [a, b]
  | .barrive a => [a]
  | .bwait a b => [a, b]
  | .btest a b _ => [a, b]
  | .cfree a => [a]
  | .ctake _ a => [a]
  | .cgive _ a => [a]
  | .ccancel _ a b => [a, b]
  | .cread _ a => [a]
  | .carm a b => [a, b]
  | .cwait a b => [a, b]
  | .send a b n v _ _ => [a] ++ (if v = 1 then [b] else []) ++ payloadRegs n
  | .reply n => payloadRegs n
  | .msgrd _ a => [a]
  | .lpbind a _ => [a]
  | .vtset a => [a]
  | .irrev a => [a]
  | .ckpt a => [a]
  | .swater a _ => [a]
  | .strunc a b => [a, b]
  | .scursor _ a _ => [a]
  | .nred a _ => [a]
  | .nredw _ a => [a]
  | .resume a => [a]
  | .tlbinvPage a _ => [a]
  | .tlbinvPart a _ => [a]
  | .xlate _ a _ => [a]
  | .bmcinv a => [a]
  | .vadd _ a b _ _ => srcX a ++ srcX b
  | .vsub _ a b _ _ => srcX a ++ srcX b
  | .vmul _ a b _ _ => srcX a ++ srcX b
  | .vfma _ a b _ _ => srcX a ++ srcX b
  | .vfms _ a b _ _ => srcX a ++ srcX b
  | .vmin _ a b _ _ => srcX a ++ srcX b
  | .vmax _ a b _ _ => srcX a ++ srcX b
  | .vabs _ a _ _ => srcX a
  | .vneg _ a _ _ => srcX a
  | .vdiv _ a b _ _ => srcX a ++ srcX b
  | .vsqrt _ a _ _ => srcX a
  | .vredadd _ a _ => srcX a
  | .vredmax _ a _ => srcX a
  | .vfmaPrefixed _ a b c _ _ => srcX a ++ srcX b ++ srcX c
  | .vfmsPrefixed _ a b c _ _ => srcX a ++ srcX b ++ srcX c
  | .viadd _ a b _ _ => srcX a ++ srcX b
  | .vimul _ a b _ _ => srcX a ++ srcX b
  | .vand _ a b _ => srcX a ++ srcX b
  | .vor _ a b _ => srcX a ++ srcX b
  | .vxor _ a b _ => srcX a ++ srcX b
  | .vshl _ a b _ _ => srcX a ++ srcX b
  | .vshr _ a b _ _ => srcX a ++ srcX b
  | .vshrA _ a b _ _ => srcX a ++ srcX b
  | .vsel _ a b _ => srcX a ++ srcX b
  | .vcmpEq _ a b _ _ => srcX a ++ srcX b
  | .vcmpNe _ a b _ _ => srcX a ++ srcX b
  | .vcmpLt _ a b _ _ => srcX a ++ srcX b
  | .vcmpLe _ a b _ _ => srcX a ++ srcX b
  | .vcmpGt _ a b _ _ => srcX a ++ srcX b
  | .vcmpGe _ a b _ _ => srcX a ++ srcX b
  | .vmov _ a _ => srcX a
  | .vbcast _ a _ _ => srcX a
  | .vperm _ a b _ => srcX a ++ srcX b
  | .vldl _ a _ => srcX a
  | .vstl _ a _ => srcX a
  | .vgathl _ a b _ => srcX a ++ srcX b
  | .vscatl _ a b _ => srcX a ++ srcX b
  | .tblld _ a => srcX a
  | .vldg _ a _ => srcX a
  | .vstg _ a _ => srcX a
  | .vgathg _ a b _ => srcX a ++ srcX b
  | .vscatg _ a b _ => srcX a ++ srcX b
  | .vtlu _ a _ _ _ => srcX a
  | .vrope _ a b _ => srcX a ++ srcX b
  | .vcvt _ a _ _ _ _ => srcX a
  | .vcvtn _ a b _ _ => srcX a ++ srcX b ++ [0]
  | .vcvtnCounter _ a b _ _ _ => srcX a ++ srcX b ++ [0]
  | .vpack _ a b _ _ => srcX a ++ srcX b
  | .vunpack _ a _ _ _ => srcX a
  | _ => []

/-- The vector registers and predicates an instruction reads. -/
def vReads : Instr → List Nat
  | .vadd _ a b p _ => srcV a ++ srcV b ++ predNo p
  | .vsub _ a b p _ => srcV a ++ srcV b ++ predNo p
  | .vmul _ a b p _ => srcV a ++ srcV b ++ predNo p
  | .vfma d a b p _ => srcV a ++ srcV b ++ predNo p ++ [d.toNat]
  | .vfms d a b p _ => srcV a ++ srcV b ++ predNo p ++ [d.toNat]
  | .vmin _ a b p _ => srcV a ++ srcV b ++ predNo p
  | .vmax _ a b p _ => srcV a ++ srcV b ++ predNo p
  | .vabs _ a p _ => srcV a ++ predNo p
  | .vneg _ a p _ => srcV a ++ predNo p
  | .vdiv _ a b p _ => srcV a ++ srcV b ++ predNo p
  | .vsqrt _ a p _ => srcV a ++ predNo p
  | .vredadd _ a p => srcV a ++ predNo p
  | .vredmax _ a p => srcV a ++ predNo p
  | .vfmaPrefixed _ a b c p _ => srcV a ++ srcV b ++ srcV c ++ predNo p
  | .vfmsPrefixed _ a b c p _ => srcV a ++ srcV b ++ srcV c ++ predNo p
  | .viadd _ a b p _ => srcV a ++ srcV b ++ predNo p
  | .vimul _ a b p _ => srcV a ++ srcV b ++ predNo p
  | .vand _ a b p => srcV a ++ srcV b ++ predNo p
  | .vor _ a b p => srcV a ++ srcV b ++ predNo p
  | .vxor _ a b p => srcV a ++ srcV b ++ predNo p
  | .vshl _ a b p _ => srcV a ++ srcV b ++ predNo p
  | .vshr _ a b p _ => srcV a ++ srcV b ++ predNo p
  | .vshrA _ a b p _ => srcV a ++ srcV b ++ predNo p
  | .vsel _ a b p => srcV a ++ srcV b ++ predNo p
  | .vcmpEq _ a b p _ => srcV a ++ srcV b ++ predNo p
  | .vcmpNe _ a b p _ => srcV a ++ srcV b ++ predNo p
  | .vcmpLt _ a b p _ => srcV a ++ srcV b ++ predNo p
  | .vcmpLe _ a b p _ => srcV a ++ srcV b ++ predNo p
  | .vcmpGt _ a b p _ => srcV a ++ srcV b ++ predNo p
  | .vcmpGe _ a b p _ => srcV a ++ srcV b ++ predNo p
  | .vmov _ a p => srcV a ++ predNo p
  | .vbcast _ a _ p => srcV a ++ predNo p
  | .vperm _ a b p => srcV a ++ srcV b ++ predNo p
  | .vldl _ a p => srcV a ++ predNo p
  | .vstl d a p => srcV a ++ predNo p ++ [d.toNat]
  | .vgathl _ a b p => srcV a ++ srcV b ++ predNo p
  | .vscatl d a b p => srcV a ++ srcV b ++ predNo p ++ [d.toNat]
  | .tblld _ a => srcV a
  | .vldg _ a p => srcV a ++ predNo p
  | .vstg d a p => srcV a ++ predNo p ++ [d.toNat]
  | .vgathg _ a b p => srcV a ++ srcV b ++ predNo p
  | .vscatg d a b p => srcV a ++ srcV b ++ predNo p ++ [d.toNat]
  | .vtlu _ a _ p _ => srcV a ++ predNo p
  | .vrope _ a b p => srcV a ++ srcV b ++ predNo p
  | .vcvt _ a _ _ p _ => srcV a ++ predNo p
  | .vcvtn _ a b p _ => srcV a ++ srcV b ++ predNo p
  | .vcvtnCounter _ a b p _ _ => srcV a ++ srcV b ++ predNo p
  | .vpack d a b p _ => srcV a ++ srcV b ++ predNo p ++ [d.toNat]
  | .vunpack _ a _ p _ => srcV a ++ predNo p
  | .nred _ b => [b.toNat]
  | .migrate _ m => (List.range 16).filter fun i => m.getLsbD i
  | .migrateHome _ m => (List.range 16).filter fun i => m.getLsbD i
  | _ => []

/-- The vector registers, predicates and flags an instruction writes. -/
def vWrites : Instr → List Nat
  | .vadd d _ _ _ _ => [d.toNat, 29]
  | .vsub d _ _ _ _ => [d.toNat, 29]
  | .vmul d _ _ _ _ => [d.toNat, 29]
  | .vfma d _ _ _ _ => [d.toNat, 29]
  | .vfms d _ _ _ _ => [d.toNat, 29]
  | .vmin d _ _ _ _ => [d.toNat, 29]
  | .vmax d _ _ _ _ => [d.toNat, 29]
  | .vabs d _ _ _ => [d.toNat]
  | .vneg d _ _ _ => [d.toNat]
  | .vdiv d _ _ _ _ => [d.toNat, 29]
  | .vsqrt d _ _ _ => [d.toNat, 29]
  | .vredadd d _ _ => [d.toNat, 29]
  | .vredmax d _ _ => [d.toNat, 29]
  | .vfmaPrefixed d _ _ _ _ _ => [d.toNat, 29]
  | .vfmsPrefixed d _ _ _ _ _ => [d.toNat, 29]
  | .viadd d _ _ _ _ => [d.toNat]
  | .vimul d _ _ _ _ => [d.toNat]
  | .vand d _ _ _ => [d.toNat]
  | .vor d _ _ _ => [d.toNat]
  | .vxor d _ _ _ => [d.toNat]
  | .vshl d _ _ _ _ => [d.toNat]
  | .vshr d _ _ _ _ => [d.toNat]
  | .vshrA d _ _ _ _ => [d.toNat]
  | .vsel d _ _ _ => [d.toNat]
  | .vcmpEq d _ _ _ _ => [21 + d.toNat, 29]
  | .vcmpNe d _ _ _ _ => [21 + d.toNat, 29]
  | .vcmpLt d _ _ _ _ => [21 + d.toNat, 29]
  | .vcmpLe d _ _ _ _ => [21 + d.toNat, 29]
  | .vcmpGt d _ _ _ _ => [21 + d.toNat, 29]
  | .vcmpGe d _ _ _ _ => [21 + d.toNat, 29]
  | .vmov d _ _ => [d.toNat]
  | .vbcast d _ _ _ => [d.toNat]
  | .vperm d _ _ _ => [d.toNat]
  | .vldl d _ _ => [d.toNat]
  | .vgathl d _ _ _ => [d.toNat]
  | .vldg d _ _ => [d.toNat]
  | .vgathg d _ _ _ => [d.toNat]
  | .vtlu d _ _ _ _ => [d.toNat, 29]
  | .vrope d _ _ _ => [d.toNat, 29]
  | .vcvt d _ _ _ _ _ => [d.toNat, 29]
  | .vcvtn d _ _ _ _ => [d.toNat, 29]
  | .vcvtnCounter d _ _ _ _ _ => [d.toNat, 29]
  | .vpack d _ _ _ _ => [d.toNat]
  | .vunpack d _ _ _ _ => [d.toNat]
  | .nredw d _ => [d.toNat]
  | _ => []

/-- The instructions of the V-slot (R19). -/
def vSlot : Instr → Bool
  | .vadd _ _ _ _ _ => true
  | .vsub _ _ _ _ _ => true
  | .vmul _ _ _ _ _ => true
  | .vfma _ _ _ _ _ => true
  | .vfms _ _ _ _ _ => true
  | .vmin _ _ _ _ _ => true
  | .vmax _ _ _ _ _ => true
  | .vabs _ _ _ _ => true
  | .vneg _ _ _ _ => true
  | .vdiv _ _ _ _ _ => true
  | .vsqrt _ _ _ _ => true
  | .vredadd _ _ _ => true
  | .vredmax _ _ _ => true
  | .vfmaPrefixed _ _ _ _ _ _ => true
  | .vfmsPrefixed _ _ _ _ _ _ => true
  | .viadd _ _ _ _ _ => true
  | .vimul _ _ _ _ _ => true
  | .vand _ _ _ _ => true
  | .vor _ _ _ _ => true
  | .vxor _ _ _ _ => true
  | .vshl _ _ _ _ _ => true
  | .vshr _ _ _ _ _ => true
  | .vshrA _ _ _ _ _ => true
  | .vsel _ _ _ _ => true
  | .vcmpEq _ _ _ _ _ => true
  | .vcmpNe _ _ _ _ _ => true
  | .vcmpLt _ _ _ _ _ => true
  | .vcmpLe _ _ _ _ _ => true
  | .vcmpGt _ _ _ _ _ => true
  | .vcmpGe _ _ _ _ _ => true
  | .vmov _ _ _ => true
  | .vbcast _ _ _ _ => true
  | .vperm _ _ _ _ => true
  | .vldl _ _ _ => true
  | .vstl _ _ _ => true
  | .vgathl _ _ _ _ => true
  | .vscatl _ _ _ _ => true
  | .tblld _ _ => true
  | .vldg _ _ _ => true
  | .vstg _ _ _ => true
  | .vgathg _ _ _ _ => true
  | .vscatg _ _ _ _ => true
  | .vtlu _ _ _ _ _ => true
  | .vrope _ _ _ _ => true
  | .vcvt _ _ _ _ _ _ => true
  | .vcvtn _ _ _ _ _ => true
  | .vcvtnCounter _ _ _ _ _ _ => true
  | .vpack _ _ _ _ _ => true
  | .vunpack _ _ _ _ _ => true
  | _ => false

end Sys2Proof.Machine
end

