-- ==== Sys2Proof/Machine/Ops.lean ====
section
/-! DEFINITION. The named operations every meaning is written with: sparse tables, memory bytes, access to
cores, contexts and registers, sequential flow and transfers (R15, R17, R83), sending a device message, and
taking an exception (R205 to R213). -/

namespace Sys2Proof.Machine

/-! ### Sparse tables -/

/-- The entry of a key, if the table lists one. -/
def Tab.find {α : Type} : Tab α → Nat → Option α
  | [], _ => none
  | (j, a) :: r, k => if j = k then some a else Tab.find r k

/-- The entry of a key, or the reset value d. -/
def Tab.look {α : Type} (d : α) (t : Tab α) (k : Nat) : α := (Tab.find t k).getD d

/-- The table with the entry of k set to a. -/
def Tab.put {α : Type} : Tab α → Nat → α → Tab α
  | [], k, a => [(k, a)]
  | (j, b) :: r, k, a =>
    if k < j then (k, a) :: (j, b) :: r else if j = k then (k, a) :: r else (j, b) :: Tab.put r k a

/-- The table without the entry of k. -/
def Tab.drop {α : Type} : Tab α → Nat → Tab α
  | [], _ => []
  | (j, b) :: r, k => if j = k then Tab.drop r k else (j, b) :: Tab.drop r k

/-- Every entry of the table through f. -/
def Tab.each {α : Type} (f : Nat → α → α) : Tab α → Tab α
  | [] => []
  | (j, b) :: r => (j, f j b) :: Tab.each f r

/-- The first k-th element of a list replaced. -/
def listSet {α : Type} : List α → Nat → α → List α
  | [], _, _ => []
  | _ :: r, 0, a => a :: r
  | b :: r, k + 1, a => b :: listSet r k a

/-- A list without the first element that satisfies q. -/
def dropFirst {α : Type} (q : α → Bool) : List α → List α
  | [] => []
  | a :: r => if q a then r else a :: dropFirst q r

/-- The smallest number below n that q accepts. -/
def firstBelow (q : Nat → Bool) (n : Nat) : Option Nat := (List.range n).find? q

/-! ### Bytes (R3, R106) -/

/-- The byte at an address; an unlisted address reads 0. -/
def Memory.get : Memory → Nat → Byte
  | [], _ => 0
  | (k, v) :: r, a => if a < k then 0 else if a = k then v else Memory.get r a

/-- The memory with one byte written, in canonical form: a 0 is not listed. -/
def Memory.set : Memory → Nat → Byte → Memory
  | [], a, v => if v = 0 then [] else [(a, v)]
  | (k, w) :: r, a, v =>
    if a < k then (if v = 0 then (k, w) :: r else (a, v) :: (k, w) :: r)
    else if a = k then (if v = 0 then r else (a, v) :: r)
    else (k, w) :: Memory.set r a v

/-- Every listed address is at least lo, addresses rise strictly, and no listed byte is 0. -/
def Memory.wfFrom : Nat → Memory → Bool
  | _, [] => true
  | lo, (k, v) :: r => decide (lo ≤ k) && v != 0 && Memory.wfFrom (k + 1) r

/-- The canonical form of a memory. -/
def Memory.wf (m : Memory) : Bool := Memory.wfFrom 0 m

/-- n bytes from an address. -/
def Memory.bytes (m : Memory) (a : Nat) : Nat → List Byte
  | 0 => []
  | n + 1 => m.get a :: Memory.bytes m (a + 1) n

/-- The memory with bytes written from an address. -/
def Memory.store (m : Memory) (a : Nat) : List Byte → Memory
  | [] => m
  | b :: r => Memory.store (m.set a b) (a + 1) r

/-- The number that bytes hold, little-endian. -/
def natOfBytes : List Byte → Nat
  | [] => 0
  | b :: r => b.toNat + 256 * natOfBytes r

/-- The n low bytes of a number, little-endian. -/
def bytesOfNat : Nat → Nat → List Byte
  | 0, _ => []
  | n + 1, k => BitVec.ofNat 8 k :: bytesOfNat n (k / 256)

/-- A doubleword read from memory. -/
def Memory.word (m : Memory) (a : Nat) : Word := BitVec.ofNat 64 (natOfBytes (m.bytes a 8))

/-- A doubleword written to memory. -/
def Memory.putWord (m : Memory) (a : Nat) (w : Word) : Memory := m.store a (bytesOfNat 8 w.toNat)

/-- Doublewords written from an address. -/
def Memory.putWords (m : Memory) (a : Nat) : List Word → Memory
  | [] => m
  | w :: r => Memory.putWords (m.putWord a w) (a + 8) r

/-- n bytes from an address set to 0. -/
def Memory.clear (m : Memory) (a n : Nat) : Memory := m.filter fun c => c.1 < a || a + n ≤ c.1

/-- The bytes of a range that are not 0. -/
def Memory.cells (m : Memory) (a n : Nat) : Memory := m.filter fun e => decide (a ≤ e.1) && decide (e.1 < a + n)

/-- n bytes from address b of another memory put at address a. -/
def Memory.copyFrom (m : Memory) (a : Nat) (src : Memory) (b n : Nat) : Memory :=
  (src.cells b n).foldl (fun m e => m.set (a + (e.1 - b)) e.2) (m.clear a n)

/-- Bytes put at an address: the range is cleared, and the bytes that are not 0 are listed. -/
def Memory.lay (m : Memory) (a : Nat) (bs : List Byte) : Memory :=
  (bs.zipIdx.filter fun e => e.1 != 0).foldl (fun m e => m.set (a + e.2) e.1) (m.clear a bs.length)

/-- A field of a doubleword: n bits from bit p, as a number. -/
def field (w : Word) (p n : Nat) : Nat := w.toNat / 2 ^ p % 2 ^ n

/-- A doubleword built from fields: pairs of a bit position and a number. -/
def pack (fs : List (Nat × Nat)) : Word := fs.foldr (fun f w => w ||| BitVec.ofNat 64 (f.2 * 2 ^ f.1)) 0

/-- 1 for true. -/
def bitOf (b : Bool) : Nat := if b then 1 else 0

/-! ### Cores and contexts -/

/-- Core g. -/
def State.core (s : State) (g : Nat) : Core := Tab.look Core.reset s.cores g

/-- The state with core g replaced. -/
def State.setCore (s : State) (g : Nat) (k : Core) : State := { s with cores := Tab.put s.cores g k }

/-- The part of core g that pre-emption saves. -/
def State.work (s : State) (g : Nat) : Work := (s.core g).work

/-- The state with the work part of core g replaced. -/
def State.setWork (s : State) (g : Nat) (k : Work) : State := s.setCore g { s.core g with work := k }

/-- Context c of core g. -/
def State.ctx (s : State) (g c : Nat) : Ctx := Tab.look Ctx.reset (s.work g).ctxs c

/-- The state with context c of core g replaced. -/
def State.setCtx (s : State) (g c : Nat) (k : Ctx) : State :=
  s.setWork g { s.work g with ctxs := Tab.put (s.work g).ctxs c k }

/-- The executing context. -/
def State.me (s : State) : Ctx := s.ctx s.cur.1 s.cur.2

/-- The state with the executing context replaced. -/
def State.setMe (s : State) (k : Ctx) : State := s.setCtx s.cur.1 s.cur.2 k

/-- The cluster of core g (R1). -/
def State.cluster (s : State) (g : Nat) : Cluster := Tab.look Cluster.reset s.clusters (g / 16)

/-- The state with the cluster of core g replaced. -/
def State.setCluster (s : State) (g : Nat) (k : Cluster) : State :=
  { s with clusters := Tab.put s.clusters (g / 16) k }

/-- Partition t. -/
def State.part (s : State) (t : Nat) : Partition := Tab.look Partition.reset s.parts t

/-- The state with partition t replaced. -/
def State.setPart (s : State) (t : Nat) (k : Partition) : State := { s with parts := Tab.put s.parts t k }

/-- The tag of the partition that owns core g (PTAG, R349). -/
def State.tag (s : State) (g : Nat) : Nat := (s.core g).ptag.toNat

/-- The package of core g, and its physical number there (R1, R223). -/
def chipOf (g : Nat) : Nat := g / 2560
def physOf (g : Nat) : Nat := g % 2560

/-- The die of core g in its package, its cluster in the die, and its position there (R397). -/
def dieOf (g : Nat) : Nat := physOf g / 320
def clusterIn (g : Nat) : Nat := physOf g % 320 / 16
def positionOf (g : Nat) : Nat := physOf g % 16

/-- The mesh column and the mesh row of core g in its die (R397). -/
def meshColumn (g : Nat) : Nat := 4 * (clusterIn g % 4) + positionOf g % 4
def meshRow (g : Nat) : Nat := 4 * (clusterIn g / 4) + positionOf g / 4

/-- The island of core g, 16 to a die and 128 to a package: its mesh column (R388, R397). -/
def islandOf (g : Nat) : Nat := 128 * chipOf g + 16 * dieOf g + meshColumn g

/-- The package column and the package row of a die, and the link die that it lies beside, if any (R397). -/
def dieColumn (d : Nat) : Nat := d % 4
def dieRow (d : Nat) : Nat := d / 4
def linkBeside (d : Nat) : Option Nat := if dieColumn d = 0 then some 0 else if dieColumn d = 3 then some 1 else none

/-- The physical cores of partition t on a chip, in logical order (R349). -/
def State.logical (s : State) (t chip : Nat) : List Nat := Tab.look [] (s.part t).cores chip

/-- The core that a partition's logical number names on a chip, if the partition holds it (R186, R350). -/
def State.coreOf (s : State) (t chip l : Nat) : Option Nat :=
  ((s.logical t chip)[l]?).map fun p => chip * 2560 + p

/-- Package h. -/
def State.chip (s : State) (h : Nat) : Chip := Tab.look Chip.reset s.chips h

/-- The state with package h replaced. -/
def State.setChip (s : State) (h : Nat) (k : Chip) : State := { s with chips := Tab.put s.chips h k }

/-- The clock of an island of a package: 1.6 GHz from the package's reset on, where none has been set (R388; log entry 66). -/
def Chip.island (k : Chip) (i : Nat) : Clock := Tab.look ⟨16, k.resetAt, 0, none⟩ k.clocks i

/-- The sixteenths of a cycle that a clock has counted at a time (R388). -/
def Clock.sixteenths (q : Clock) (now : Nat) : Nat := q.base + (now - q.since) * q.f

/-- The clock of core g's island, which is its mesh column (R388, R397). -/
def State.islandClock (s : State) (g : Nat) : Clock := (s.chip (chipOf g)).island (islandOf g % 128)

/-- CYCLE at core g: the cycles of its own island's clock since it left reset. Every count in cycles at a core is of this clock (R52,
R388). -/
def State.cycle (s : State) (g : Nat) : Nat := (s.islandClock g).sixteenths s.now / 16

/-- Whether partition t holds core g. -/
def State.holds (s : State) (t g : Nat) : Bool := (s.logical t (chipOf g)).contains (physOf g)

/-- QOSFLOOR at core g: the floor of the partition that owns it (R52, R352). -/
def State.floorAt (s : State) (g : Nat) : BitVec 16 := if s.holds (s.tag g) g then (s.part (s.tag g)).floor else 0

/-- The logical number of core g in its partition (R96). -/
def State.logicalOf (s : State) (g : Nat) : Nat := (s.logical (s.tag g) (chipOf g)).idxOf (physOf g)

/-- Every core of partition t. -/
def State.partCores (s : State) (t : Nat) : List Nat :=
  (s.part t).cores.flatMap fun e => e.2.map fun p => e.1 * 2560 + p

/-- The identity of a sender: logical core, chip, context; 31 names no context (R191). -/
def State.ident (s : State) (g c : Nat) : Word := pack [(0, s.logicalOf g), (12, chipOf g), (18, c)]

/-- A number never used before, and the state that has used it. -/
def State.fresh (s : State) : State := { s with nextId := s.nextId + 1 }

/-! ### Registers (R20, R41, R43, R122) -/

/-- Scalar register r of the executing context. -/
def State.x (s : State) (r : XReg) : Word := s.me.x.get r.toFin

/-- A context that expects no answer in the registers that q accepts any more: what it had asked for is still under
way, but the later write wins (R43, R229, R235). -/
def Ctx.forget (k : Ctx) (q : XReg → Bool) : Ctx :=
  { k with
    owed := k.owed.filter fun o => !q o.2, amos := k.amos ++ (k.owed.filter fun o => q o.2).map fun o => o.1 }

/-- A context with scalar register r written; an owed load to r is forgotten (R43, R229). -/
def Ctx.setX (k : Ctx) (r : XReg) (v : Word) : Ctx :=
  { k.forget (fun d => d == r) with x := k.x.set r.toNat v r.isLt }

/-- The state with scalar register r of the executing context written. -/
def State.setX (s : State) (r : XReg) (v : Word) : State := s.setMe (s.me.setX r v)

/-- Vector register n of a context: v0 to v15, w0 to w3, y0 and y1 are 0 to 21 (R21, R23). -/
def Ctx.vreg (k : Ctx) (n : Nat) : VReg := k.v[n]?.getD VReg.zero

/-- A context with vector register n written. -/
def Ctx.setV (k : Ctx) (n : Nat) (r : VReg) : Ctx := { k with v := k.v.setIfInBounds n r }

/-- Predicate n of a context; p0 reads as all ones (R122). -/
def Ctx.pred (k : Ctx) (n : BitVec 3) : BitVec 64 := if n = 0 then BitVec.allOnes 64 else k.p.get n.toFin

/-- A context with predicate n written; p0 is never written (R23, R122). -/
def Ctx.setP (k : Ctx) (n : BitVec 3) (w : BitVec 64) : Ctx :=
  if n = 0 then k else { k with p := k.p.set n.toNat w n.isLt }

/-! ### Sequential flow and transfers (R15, R17, R83) -/

/-- The next sequential address of an instruction of `len` halfwords: past slot 55, slot 0 of the next
line (R15). -/
def nextSeq (pc : Word) (len : Nat) : Word :=
  let a := pc + BitVec.ofNat 64 (2 * len)
  if a.toNat % 128 = 0 then a + 16 else a

/-- The end check of the hardware loops after an instruction at `addr` with next address a; the top entry
stands first (R83). -/
def endCheck : List LoopEntry → Word → Word → Word × List LoopEntry
  | [], _, a => (a, [])
  | t :: r, addr, a =>
    if a = t.stop ∧ t.start ≤ addr ∧ addr < t.stop then
      if t.count - 1 = 0 then endCheck r addr a
      else (t.start, { t with count := t.count - 1 } :: r)
    else (a, t :: r)

/-- The instruction buffer after flow to a: kept within a line, empty when flow enters another (R13). -/
def Ctx.bufferAt (k : Ctx) (a : Word) : Option (Word × List Byte) :=
  if a >>> 7 = k.pc >>> 7 then k.ibuf else none

/-- The context after its instruction retires with next address a. `source` is the address of a checked
transfer that was taken (R17, R83). -/
def Ctx.flow (k : Ctx) (a : Word) (source : Option Word) : Ctx :=
  let e := endCheck k.loops k.pc a
  { k with
    pc := e.1, loops := e.2, ibuf := k.bufferAt e.1,
    arrived := if e.1 = a then source else none, watchOff := false }

/-- The context at a new address by an unchecked transfer other than sequential flow (R17). -/
def Ctx.resumeAt (k : Ctx) (a : Word) : Ctx :=
  { k with pc := a, ibuf := none, arrived := none, st := .ready }

/-- The context blocked or waiting at its instruction, which has had no effect (R66). -/
def State.hold (s : State) (st : CtxState) : State := s.setMe { s.me with st := st, since := s.cycle s.cur.1 }

/-! ### Messages that device hardware sends (R187, R191) -/

/-- An untimed message from context c (31: the unit itself) of core g to channel ch of core `dst`. -/
def State.deviceMsg (s : State) (g c dst : Nat) (ch : Nat) (ws : List Word) : Msg where
  d0 := pack [(0, s.logicalOf dst), (12, chipOf dst), (18, ch), (30, s.tag g), (36, 8 * ws.length)]
  d1 := s.ident g c
  d2 := 0
  d3 := 0
  payload := ws.flatMap fun w => bytesOfNat 8 w.toNat
  dst := dst
  src := g
  sctx := c
  bad := []
  stamp := 0
  born := 0

/-- A request message with the spate mark that a router may give it on its way, by its number (R196; log entry 8). -/
def Msg.marked (m : Msg) (n : Nat) : Msg := { m with d0 := m.d0 ||| BitVec.ofNat 64 (2 ^ 54 * bitOf (Config.freeSpate n)) }

/-- A message that enters the network now (R374). -/
def State.bearing (s : State) (m : Msg) : Msg := { m with born := s.cycle m.dst }

/-- The state with a message put into the request network. -/
def State.inject (s : State) (m : Msg) : State :=
  { s with net := { s.net with msgs := Tab.put s.net.msgs s.nextId (s.bearing (m.marked s.nextId)) } }.fresh

/-- A device message, sent. -/
def State.report (s : State) (g c dst : Nat) (ch : Nat) (ws : List Word) : State :=
  s.inject (s.deviceMsg g c dst ch ws)

/-! ### The handler table (R185) -/

/-- Handler-table entry ch of core g. -/
def State.handler (s : State) (g ch : Nat) : Handler := Tab.look ⟨0, 0⟩ (s.work g).handlers ch

/-- Whether an entry is valid: V, an even entry address, and banks other than 15. -/
def Handler.valid (h : Handler) : Bool := h.ctl.getLsbD 0 && !h.entry.getLsbD 0 && field h.ctl 5 4 != 15

/-- Whether an entry masks its channel. -/
def Handler.masked (h : Handler) : Bool := h.ctl.getLsbD 1

/-- Whether an entry's channel is optimistic. -/
def Handler.optimistic (h : Handler) : Bool := h.ctl.getLsbD 2

/-- The priority of an entry's channel. -/
def Handler.prio (h : Handler) : Nat := field h.ctl 3 2

/-! ### Taking an exception (R204 to R213) -/

/-- The address of context c's trap frame (R205). -/
def frameAddr (c : Nat) : Nat := 0x79000 + 0x400 * c

/-- Whether the frame at an address of core g's scratchpad is live (R212). -/
def State.frameLive (s : State) (g f : Nat) : Bool := ((s.work g).spad.word (f + 0x18)).getLsbD 15

/-- A trap of the instruction at the program counter, exactly (R207). -/
def State.trapInfo (s : State) (cause : Nat) (fault : Word) : TrapInfo where
  cause := BitVec.ofNat 8 cause
  late := false
  resume := s.me.pc
  fault := fault
  source := 0
  mask := BitVec.ofNat 23 (2 ^ cause)
  code := 0
  dbg := false
  seq := 0

/-- Whether no entry of the ring is executing (R210). -/
def Ctx.quiet (k : Ctx) : Bool := k.ring.all fun e => e.st != .running

/-- The entries that a frame records: held, faulted or parked (R210, R212). -/
def Ctx.incomplete (k : Ctx) : List RingEntry := k.ring.filter fun e => e.st != .done && e.st != .running

/-- The registers that the incomplete entries owe, as the frame's scoreboard word (R212). -/
def scoreWord (es : List RingEntry) : Word :=
  (es.flatMap fun e => vWrites e.instr).foldr (fun n w => w ||| BitVec.ofNat 64 (2 ^ n)) 0

/-- The record of an incomplete entry (R212, R213). -/
def recordOf (e : RingEntry) : List Word :=
  let faulted := e.st == .faulted
  [e.addr, pack [(0, e.seq.toNat), (8, if faulted then 2 else 1), (10, e.unit.toNat),
    (13, if faulted && e.finished then 2 else 0), (15, bitOf e.finished),
    (16, if faulted then e.cause.toNat else 0)]]

/-- The loop-stack words of a frame, bottom entry first, four entries (R212). -/
def loopWords (ls : List LoopEntry) : List Word :=
  let ws := ls.reverse.flatMap fun l => [l.start, l.stop, l.count]
  ws ++ List.replicate (12 - ws.length) 0

/-- The faulted entry with the lowest cause, the oldest among equals. -/
def lowestFault : List RingEntry → Option RingEntry
  | [] => none
  | e :: r =>
    match lowestFault r with
    | some f => if f.cause.toNat < e.cause.toNat then some f else some e
    | none => some e

/-- The mask bits of the causes that an entry has raised (R208). -/
def RingEntry.causes (e : RingEntry) : BitVec 23 := BitVec.ofNat 23 (2 ^ e.cause.toNat) ||| e.more

/-- Several causes at one boundary: the lower code is taken, and every one sets its bit in the mask. TRAPSEQ
names the entry whose cause is taken, and is 0 for an exact cause (R208; log entry 10). -/
def resolve (t : TrapInfo) (es : List RingEntry) : TrapInfo :=
  let fs := es.filter fun e => e.st == .faulted
  let m := fs.foldr (fun e m => m ||| e.causes) t.mask
  match lowestFault fs with
  | none => { t with mask := m }
  | some f =>
    if t.late || f.cause.toNat < t.cause.toNat then
      { t with cause := f.cause, late := true, seq := f.seq, fault := ((fs.head?).getD f).fault, mask := m,
               code := BitVec.ofNat 10 (f.comparator.getD 0), dbg := f.comparator.isSome }
    else { t with mask := m }

/-- An entry address that names a line, or its slot 0, names slot 0 (R39, R52, R71; log entry 5). -/
def entryPC (w : Word) : Word := if w.toNat % 128 = 0 then w + 16 else w

/-- Whether the low bits of the entry address of a launch record are legal (R71; log entry 5). -/
def entryAligned (w : Word) : Bool := decide (w.toNat % 128 = 0) || decide (w.toNat % 128 = 16)

/-- The doublewords of a trap frame from offset 0 to 0x120 (R212). -/
def frameWords (k : Ctx) (c : Nat) (t : TrapInfo) (sb : Word) (ch0 : Bool) : List Word :=
  [t.resume, t.fault, t.source,
   pack [(0, t.cause.toNat), (8, bitOf t.late), (9, bitOf k.sup), (10, c), (15, 1),
     (18, bitOf (t.cause == 0x08)), (19, bitOf ch0), (20, t.code.toNat), (30, bitOf t.dbg)],
   pack [(0, match k.incomplete.find? (fun e => e.st == .faulted) with
      | some e => e.seq.toNat
      | none => 0), (8, k.incomplete.length)],
   pack [(0, t.mask.toNat)], sb, 0] ++ k.x.toList ++ loopWords k.loops ++ [BitVec.ofNat 64 k.loops.length]

/-- The state in which the partition of core g must be reset (R361). -/
def State.resetPart (s : State) (g : Nat) : State :=
  s.setPart (s.tag g) { s.part (s.tag g) with resetDue := true }

/-- The message on channel 0 for a reported or double trap, or the reset of the partition where channel 0
has no valid handler (R205). -/
def State.reportTrap (s : State) (g c : Nat) (t : TrapInfo) (double : Bool) : State :=
  if (s.handler g 0).valid then
    s.report g c g 0 [BitVec.ofNat 64 (frameAddr c), pack [(0, c), (5, bitOf double)],
      pack [(0, t.cause.toNat), (8, bitOf t.late)], t.resume]
  else s.resetPart g

/-- Taking an exception: context c of core g, whose ring is quiet and whose stores are acknowledged, enters
the trap t. Three routes: in place, reported, double (R205, R206, R212, R219); a double trap of a handler of channel 0
resets the partition in place of its report (R361; log entry 57). The frame of a double trap is kept, so that its incomplete entries
have no record: they stay in the ring, and one that has faulted traps anew after the settling (DESIGN CHOICE, log entry 115). -/
def State.enterTrap (s : State) (g c : Nat) (t0 : TrapInfo) : State :=
  let k := s.ctx g c
  let t := resolve t0 k.incomplete
  let f := frameAddr c
  let code : BitVec 9 := (if t.late then 0x100 else 0) ||| t.cause.setWidth 9
  let marks : Ctx := { k with
    trap := none, cause := code, tseq := if t.late then t.seq else 0, since := s.cycle g, stepArm := false, settling := f }
  if s.frameLive g f then
    let s1 := s.setCtx g c { marks with st := .waiting .settle }
    if k.role == .handler 0 then s1.resetPart g else s1.reportTrap g c t true
  else
    let spad := ((s.work g).spad.clear f 0x400).putWords f
      (frameWords k c t (scoreWord k.incomplete) ((s.work g).trapvec == 0))
    let spad' := spad.putWords (f + 0x200) (k.incomplete.flatMap recordOf)
    let s1 := s.setWork g { s.work g with spad := spad' }
    let framed : Ctx := { marks with
      framed := k.framed ++ k.incomplete, ring := k.ring.filter fun e => e.st == .done || e.st == .running }
    if (s.work g).trapvec = 0 then
      (s1.setCtx g c { framed with st := .waiting .settle }).reportTrap g c t false
    else
      s1.setCtx g c { (framed.resumeAt (entryPC (s.work g).trapvec)) with
        sup := true, loops := [], age := s.cycle g, bump := 0,
        watch := if t.cause = 0x11 then 0 else k.watch, watchTrap := k.watchTrap || t.cause == 0x11 }

/-- Whether no V-slot entry of the ring is executing. -/
def Ctx.vquiet (k : Ctx) : Bool := k.ring.all fun e => e.unit != 0 || e.st != .running

/-- Whether every earlier load and AMO has returned its data (R235). -/
def Ctx.loadsDone (k : Ctx) : Bool := k.owed.isEmpty && k.amos.isEmpty && k.vquiet

/-- Whether what a release waits for is complete: every earlier load, AMO, store and V-slot memory instruction; no release
waits for an engine command (R193, R235, R310). -/
def Ctx.drained (k : Ctx) : Bool := k.loadsDone && k.acks.isEmpty

/-- Whether a raised trap can be entered: no entry executes, no store is unacknowledged, no load or AMO is under way
(R210, R233; log entry 9). -/
def Ctx.settled (k : Ctx) : Bool := k.quiet && k.acks.isEmpty && k.owed.isEmpty && k.amos.isEmpty

/-- Context c of core g takes the trap t: at once where it can, else once it can (TRAP_ENTRY); entries that are to run again run first,
so that those among them that are independent complete (R210, R213). -/
def State.takeTrap (s : State) (g c : Nat) (t : TrapInfo) : State :=
  if (s.ctx g c).settled && !(s.ctx g c).replay then s.enterTrap g c t
  else s.setCtx g c { s.ctx g c with trap := some t, st := .ready }

/-- The executing context's instruction traps, with nothing of it done (R207). -/
def State.trap (s : State) (cause : Nat) (fault : Word := 0) : State :=
  s.takeTrap s.cur.1 s.cur.2 (s.trapInfo cause fault)

/-- The cause taken of those that an instruction's operand checks raise, with its fault field: the lower code, and of equal
codes the first. -/
def lowestCause : List (Nat × Word) → Option (Nat × Word)
  | [] => none
  | x :: r =>
    match lowestCause r with
    | some y => if y.1 < x.1 then some y else some x
    | none => some x

/-- Several operand checks fail at once: the lower code is taken, and every one sets its bit in the mask (R208). -/
def State.trapAll (s : State) (cs : List (Nat × Word)) : State :=
  match lowestCause cs with
  | none => s
  | some (c, a) =>
    let t := s.trapInfo c a
    s.takeTrap s.cur.1 s.cur.2 { t with mask := cs.foldl (fun m e => m ||| BitVec.ofNat 23 (2 ^ e.1)) t.mask }

/-- The illegal-instruction trap (R18). -/
def State.illegal (s : State) : State := s.trap 0x04

/-- The privileged-instruction trap (R18). -/
def State.privTrap (s : State) : State := s.trap 0x05

/-- The instruction of `len` halfwords retires and goes on at address a, by a checked transfer when `taken`
(R17, R83); under single step, cause 0x12 follows with the next address as resume address (R218). -/
def State.retireTo (s : State) (a : Word) (taken : Bool) : State :=
  let k := s.me.flow a (if taken then some s.me.pc else none)
  let s1 := s.setMe { k with chunk := k.chunk + 1 }
  if s.me.stepArm then s1.takeTrap s.cur.1 s.cur.2 (s1.trapInfo 0x12 0) else s1

/-- The instruction of `len` halfwords retires and flow goes on in sequence (R15). -/
def State.retire (s : State) (len : Nat) : State := s.retireTo (nextSeq s.me.pc len) false

end Sys2Proof.Machine
end

