-- ==== Sys2Proof/Machine/Flags.lean ====
section
/-! DEFINITION. The sticky flags of FPFLAGS and their trap enables (R47, R49, R112), and the rounding modes
(R47, R48). -/

namespace Sys2Proof.Machine

/-- The flags in the order of FPFLAGS[5:0]: NV, DZ, OF, UF, NX, OL (R47). -/
abbrev Flags := BitVec 6

def flagNV : Flags := 0x01
def flagDZ : Flags := 0x02
def flagOF : Flags := 0x04
def flagUF : Flags := 0x08
def flagNX : Flags := 0x10
def flagOL : Flags := 0x20

/-- A flag when a condition holds. -/
def Flags.when (b : Bool) (f : Flags) : Flags := if b then f else 0

/-- FPFLAGS with flags raised: they are ORed in (R49). -/
def raiseIn (w : BitVec 14) (f : Flags) : BitVec 14 := w ||| f.setWidth 14

/-- The trap enables of FPFLAGS, one bit per flag (R47). -/
def enables (w : BitVec 14) : Flags := (w >>> 8).setWidth 6

/-- The late cause that raised flags give: FP exception for NV to NX, outlier overflow for OL, the lower
code when both are enabled, 0 for none (R112, R208). -/
def flagCause (w : BitVec 14) (f : Flags) : Nat :=
  let on := f &&& enables w
  if on &&& 0x1F != 0 then 0x0C else if on &&& flagOL != 0 then 0x0D else 0

/-- The mask bits of every late cause that raised flags give (R112, R208). -/
def flagCauses (w : BitVec 14) (f : Flags) : BitVec 23 :=
  let on := f &&& enables w
  (if on &&& 0x1F != 0 then BitVec.ofNat 23 (2 ^ 0x0C) else 0) ||| (if on &&& flagOL != 0 then BitVec.ofNat 23 (2 ^ 0x0D) else 0)

/-- The rounding modes of RNDMODE (R47, R107, R108). -/
inductive RMode where
  | rne
  | rtz
  | rup
  | rdn
  | stoch
  deriving DecidableEq, Repr

/-- The mode that RNDMODE holds (R47); its values 5 to 7 are never written, and the one way to them that the manual does not close,
the debug window, leaves the register as it was (DESIGN CHOICE, log entry 89). -/
def RMode.ofReg (r : BitVec 3) : RMode :=
  if r = 1 then .rtz else if r = 2 then .rup else if r = 3 then .rdn else if r = 4 then .stoch else .rne

/-- The mode that VCVT's rounding field selects: 0 is RNDMODE (R34, R132). -/
def RMode.ofField (f rnd : BitVec 3) : RMode :=
  if f = 0 then RMode.ofReg rnd
  else if f = 2 then .rtz else if f = 3 then .rup else if f = 4 then .rdn else if f = 5 then .stoch else .rne

end Sys2Proof.Machine
end

