-- ==== Sys2Proof/Machine/Float.lean ====
section
/-! DEFINITION. Exact values of the element formats and the single rounding that carries them back
(R101 to R119). A finite value is a sign and a fraction of natural numbers, so nothing is rounded before
the one rounding that a rule names. -/

namespace Sys2Proof.Machine

/-! ### Formats (R101, R103, R121) -/

/-- The width of an element (R121). -/
def fmtWidth (f : Fmt) : Nat := 32 / elemsPerLane f

/-- Whether a code is an integer format. -/
abbrev fmtIsInt (f : Fmt) : Bool := fmtInt f

/-- Mantissa bits: one less than the precision P (R101). -/
def fmtMant (f : Fmt) : Nat :=
  if f = 0 then 23 else if f = 1 then 7 else if f = 2 then 3 else if f = 3 then 2 else 1

/-- The exponent bias (R101). -/
def fmtBias (f : Fmt) : Nat :=
  if f = 0 ∨ f = 1 then 127 else if f = 2 then 7 else if f = 3 then 15 else 1

/-- Exponent bits (R101). -/
def fmtExp (f : Fmt) : Nat :=
  if f = 0 ∨ f = 1 then 8 else if f = 2 then 4 else if f = 3 then 5 else 2

/-- Emin, the exponent of the smallest normal (R101). -/
def fmtEmin (f : Fmt) : Int := 1 - (fmtBias f : Int)

/-- Emax (R101). -/
def fmtEmax (f : Fmt) : Int :=
  if f = 0 ∨ f = 1 then 127 else if f = 2 then 8 else if f = 3 then 15 else 2

/-- The significand of the largest finite value, in units of its last place (R103). -/
def fmtMaxSig (f : Fmt) : Nat := if f = 2 then 14 else 2 ^ (fmtMant f + 1) - 1

/-- Whether the format holds infinities, and NaNs (R103). -/
def fmtHasInf (f : Fmt) : Bool := f = 0 || f = 1 || f = 3
def fmtHasNaN (f : Fmt) : Bool := f != 4

/-- The canonical NaN (R103). -/
def canonNaN (f : Fmt) : Nat :=
  if f = 0 then 0x7FC00000 else if f = 1 then 0x7FC0 else if f = 2 then 0x7F else if f = 3 then 0x7E else 0

/-! ### Exact values -/

/-- An exact value: a NaN, an infinity with its sign, or a signed fraction n / d. -/
inductive Val where
  | nan
  | inf (neg : Bool)
  | num (neg : Bool) (n d : Nat)
  deriving DecidableEq, Repr

/-- Powers of two as fractions: n · 2^e. -/
def Val.dyadic (neg : Bool) (n : Nat) (e : Int) : Val :=
  match e with
  | .ofNat k => .num neg (n * 2 ^ k) 1
  | .negSucc k => .num neg n (2 ^ (k + 1))

/-- The integer v. -/
def Val.int (v : Int) : Val := .num (decide (v < 0)) v.natAbs 1

/-- The sign, the exponent field and the mantissa of an element. -/
def signBit (f : Fmt) (b : Nat) : Bool := b / 2 ^ (fmtWidth f - 1) % 2 == 1
def expField (f : Fmt) (b : Nat) : Nat := b / 2 ^ fmtMant f % 2 ^ fmtExp f
def mantField (f : Fmt) (b : Nat) : Nat := b % 2 ^ fmtMant f

/-- Whether a pattern is a NaN (R103). -/
def isNaN (f : Fmt) (b : Nat) : Bool :=
  if f = 4 then false
  else if f = 2 then b % 128 == 127
  else expField f b == 2 ^ fmtExp f - 1 && mantField f b != 0

/-- Whether a pattern is an infinity (R103). -/
def isInf (f : Fmt) (b : Nat) : Bool :=
  fmtHasInf f && expField f b == 2 ^ fmtExp f - 1 && mantField f b == 0

/-- Whether a pattern is a signalling NaN: its top mantissa bit is 0; the E4M3 NaN is quiet (R104). -/
def isSignalling (f : Fmt) (b : Nat) : Bool :=
  isNaN f b && f != 2 && b / 2 ^ (fmtMant f - 1) % 2 == 0

/-- A two's-complement number of w bits. -/
def toSigned (w b : Nat) : Int :=
  if b % 2 ^ w < 2 ^ (w - 1) then (b % 2 ^ w : Nat) else (b % 2 ^ w : Nat) - (2 ^ w : Nat)

/-- A number as w bits of two's complement. -/
def ofSigned (w : Nat) (v : Int) : Nat := (v % (2 ^ w : Nat)).toNat

/-- Value(b, f): what a pattern stands for (R101 to R106). -/
def value (f : Fmt) (b : Nat) : Val :=
  if fmtIsInt f then Val.int (toSigned (fmtWidth f) b)
  else if isNaN f b then .nan
  else if isInf f b then .inf (signBit f b)
  else if expField f b = 0 then Val.dyadic (signBit f b) (mantField f b) (fmtEmin f - fmtMant f)
  else Val.dyadic (signBit f b) (2 ^ fmtMant f + mantField f b)
    ((expField f b : Int) - fmtBias f - fmtMant f)

/-! ### Rounding (R107, R108, R113) -/

/-- A pattern and the flags its making raised. -/
abbrev Rounded := Nat × Flags

/-- A pattern with a sign. -/
def withSign (f : Fmt) (neg : Bool) (b : Nat) : Nat := if neg then b + 2 ^ (fmtWidth f - 1) else b

/-- MaxFinite(f, sign) (R103). -/
def maxFinite (f : Fmt) (neg : Bool) : Nat :=
  withSign f neg ((fmtEmax f - fmtEmin f).toNat * 2 ^ fmtMant f + fmtMaxSig f)

/-- Inf(f, sign). -/
def infPattern (f : Fmt) (neg : Bool) : Nat := withSign f neg ((2 ^ fmtExp f - 1) * 2 ^ fmtMant f)

/-- Floor(Log2(n / d)) for a positive fraction. -/
def floorLog2 (n d : Nat) : Int :=
  let e : Int := (Nat.log2 n : Int) - (Nat.log2 d : Int)
  if (match e with
    | .ofNat k => decide (d * 2 ^ k ≤ n)
    | .negSucc k => decide (d ≤ n * 2 ^ (k + 1))) then e else e - 1

/-- The fraction n / d divided by 2^u. -/
def scaleDown (n d : Nat) (u : Int) : Nat × Nat :=
  match u with
  | .ofNat k => (n, d * 2 ^ k)
  | .negSucc k => (n * 2 ^ (k + 1), d)

/-- Overflow(v, f, mode) (R107). -/
def overflow (f : Fmt) (neg : Bool) (m : RMode) : Rounded :=
  (if fmtHasInf f && (m = .rne || m = .stoch || (m = .rup && !neg) || (m = .rdn && neg))
    then infPattern f neg else maxFinite f neg, flagOF ||| flagNX)

/-- The integer that q = qn / qd rounds to under a mode, for a magnitude with a sign (R107). -/
def roundQuot (neg : Bool) (qn qd : Nat) (m : RMode) : Nat :=
  let fl := qn / qd
  let r := qn % qd
  match m with
  | .rtz => fl
  | .rup => if r = 0 || neg then fl else fl + 1
  | .rdn => if r = 0 || !neg then fl else fl + 1
  | _ => if 2 * r < qd || (2 * r = qd && fl % 2 = 0) then fl else fl + 1

/-- E of R107: the exponent that fixes the last place of a positive fraction. -/
def placeExp (f : Fmt) (n d : Nat) : Int := max (floorLog2 n d) (fmtEmin f)

/-- Whether k units of the last place at exponent E exceed MaxValue(f). -/
def tooLarge (f : Fmt) (e : Int) (k : Nat) : Bool :=
  decide (fmtEmax f < e) || (e == fmtEmax f && decide (fmtMaxSig f < k))

/-- The pattern of k units of the last place at exponent E, with the flags of R107. -/
def encodeSig (f : Fmt) (neg : Bool) (e : Int) (k : Nat) (inexact tiny : Bool) : Rounded :=
  (withSign f neg ((e - fmtEmin f).toNat * 2 ^ fmtMant f + k),
    Flags.when inexact flagNX ||| Flags.when (inexact && tiny) flagUF)

/-- A nonzero finite value into a floating-point format (R107, R108). `draw` is the 16-bit draw of
stochastic rounding. -/
def roundNum (f : Fmt) (m : RMode) (draw : Nat) (neg : Bool) (n d : Nat) : Rounded :=
  let e := placeExp f n d
  let q := scaleDown n d (e - fmtMant f)
  let tiny := decide (q.1 / q.2 < 2 ^ fmtMant f)
  match m with
  | .stoch =>
    if tooLarge f e (q.1 / q.2) || (e == fmtEmax f && q.1 / q.2 == fmtMaxSig f && q.1 % q.2 != 0) then
      overflow f neg .rne
    else
      let k := (q.1 * 2 ^ 16 / q.2 + draw) / 2 ^ 16
      if tooLarge f e k then overflow f neg .rne
      else encodeSig f neg e k (decide (k * q.2 ≠ q.1)) tiny
  | m =>
    let k := roundQuot neg q.1 q.2 m
    if tooLarge f e k then overflow f neg m
    else encodeSig f neg e k (decide (q.1 % q.2 ≠ 0)) tiny

/-- Round and RoundStoch into a floating-point format (R107, R108). -/
def roundFp (f : Fmt) (m : RMode) (draw : Nat) : Val → Rounded
  | .nan => if fmtHasNaN f then (canonNaN f, 0) else (0, flagNV)
  | .inf neg => if fmtHasInf f then (infPattern f neg, 0) else (maxFinite f neg, flagNV)
  | .num neg n d => if n = 0 then (withSign f neg 0, 0) else roundNum f m draw neg n d

/-- Conversion to an integer format (R108, R113). -/
def roundInt (f : Fmt) (m : RMode) (draw : Nat) : Val → Rounded
  | .nan => (0, flagNV)
  | .inf neg => (if neg then 2 ^ (fmtWidth f - 1) else 2 ^ (fmtWidth f - 1) - 1, flagNV)
  | .num neg n d =>
    let k := match m with
      | .stoch => if n = 0 then 0 else (n * 2 ^ 16 / d + draw) / 2 ^ 16
      | m => roundQuot neg n d m
    let v : Int := if neg then -(k : Int) else k
    let lo : Int := -((2 ^ (fmtWidth f - 1) : Nat) : Int)
    let hi : Int := ((2 ^ (fmtWidth f - 1) : Nat) : Int) - 1
    if v < lo then (2 ^ (fmtWidth f - 1), flagNV)
    else if hi < v then (2 ^ (fmtWidth f - 1) - 1, flagNV)
    else (ofSigned (fmtWidth f) v, Flags.when (decide (k * d ≠ n)) flagNX)

/-- Round into any format. -/
def roundVal (f : Fmt) (m : RMode) (draw : Nat) (v : Val) : Rounded :=
  if fmtIsInt f then roundInt f m draw v else roundFp f m draw v

/-- RoundRNE (R107). -/
def roundRNE (f : Fmt) (v : Val) : Rounded := roundFp f .rne 0 v

/-! ### Exact arithmetic (R107, R127) -/

/-- The negative of a value. -/
def Val.neg : Val → Val
  | .nan => .nan
  | .inf s => .inf !s
  | .num s n d => .num (!s) n d

/-- An exact value and the flags of an invalid operation or a division by zero. -/
abbrev Exact := Val × Flags

/-- The sum. An exact zero is +0, except −0 under RDN and where both are −0 (R107). -/
def Val.add (rdn : Bool) : Val → Val → Exact
  | .nan, _ => (.nan, 0)
  | _, .nan => (.nan, 0)
  | .inf s, .inf t => if s = t then (.inf s, 0) else (.nan, flagNV)
  | .inf s, _ => (.inf s, 0)
  | _, .inf t => (.inf t, 0)
  | .num s n d, .num t m e =>
    let a : Int := if s then -((n * e : Nat) : Int) else (n * e : Nat)
    let b : Int := if t then -((m * d : Nat) : Int) else (m * d : Nat)
    if a + b = 0 then (.num (if n = 0 ∧ m = 0 ∧ s = t then s else rdn) 0 1, 0)
    else (.num (decide (a + b < 0)) (a + b).natAbs (d * e), 0)

/-- The product. -/
def Val.mul : Val → Val → Exact
  | .nan, _ => (.nan, 0)
  | _, .nan => (.nan, 0)
  | .inf s, .inf t => (.inf (s != t), 0)
  | .inf s, .num t m _ => if m = 0 then (.nan, flagNV) else (.inf (s != t), 0)
  | .num s n _, .inf t => if n = 0 then (.nan, flagNV) else (.inf (s != t), 0)
  | .num s n d, .num t m e => (.num (s != t) (n * m) (d * e), 0)

/-- a × b + c, exactly (R127; log entry 12 on 0 × ∞ beside a NaN addend). -/
def Val.fma (rdn : Bool) (a b c : Val) : Exact :=
  let p := a.mul b
  let r := p.1.add rdn c
  (r.1, p.2 ||| r.2)

/-- The quotient. -/
def Val.div : Val → Val → Exact
  | .nan, _ => (.nan, 0)
  | _, .nan => (.nan, 0)
  | .inf _, .inf _ => (.nan, flagNV)
  | .inf s, .num t _ _ => (.inf (s != t), 0)
  | .num s _ _, .inf t => (.num (s != t) 0 1, 0)
  | .num s n d, .num t m e =>
    if m = 0 then (if n = 0 then (.nan, flagNV) else (.inf (s != t), flagDZ))
    else (.num (s != t) (n * e) (d * m), 0)

/-- The integer square root, bit by bit from bit b. -/
def isqrtFrom (n : Nat) : Nat → Nat → Nat
  | 0, r => r
  | b + 1, r =>
    let t := r + 2 ^ b
    isqrtFrom n b (if t * t ≤ n then t else r)

/-- The square root, exact where it is rational over the 2^120 d grid, else the middle of its grid cell,
which rounds as the exact root does: every rounding boundary of R107 and R108 is a grid point. -/
def Val.sqrt : Val → Exact
  | .nan => (.nan, 0)
  | .inf s => if s then (.nan, flagNV) else (.inf false, 0)
  | .num s n d =>
    if n = 0 then (.num s 0 1, 0)
    else if s then (.nan, flagNV)
    else
      let sq := n * d * 2 ^ 240
      let r := isqrtFrom sq (Nat.log2 sq / 2 + 1) 0
      if r * r = sq then (.num false r (d * 2 ^ 120), 0)
      else (.num false (2 * r + 1) (d * 2 ^ 121), 0)

/-- Comparison of numbers: whether a < b, with −0 equal to +0. -/
def Val.lt : Val → Val → Bool
  | .nan, _ => false
  | _, .nan => false
  | .inf s, .inf t => s && !t
  | .inf s, .num _ _ _ => s
  | .num _ _ _, .inf t => !t
  | .num s n d, .num t m e =>
    let a : Int := if s then -((n * e : Nat) : Int) else (n * e : Nat)
    let b : Int := if t then -((m * d : Nat) : Int) else (m * d : Nat)
    decide (a < b)

/-- Equality of numbers, with −0 equal to +0; a NaN equals nothing. -/
def Val.eqv (a b : Val) : Bool := a != .nan && b != .nan && !(a.lt b) && !(b.lt a)

/-- FMin and FMax of patterns: −0 below +0, a NaN gives the canonical NaN (R114). -/
def fMinMax (f : Fmt) (wantMax : Bool) (a b : Nat) : Rounded :=
  if isNaN f a || isNaN f b then
    (canonNaN f, Flags.when (isSignalling f a || isSignalling f b) flagNV)
  else
    let less := (value f a).lt (value f b) || ((value f a).eqv (value f b) && signBit f a && !signBit f b)
    (if wantMax then (if less then b else a) else (if less then a else b), 0)

/-! ### Stochastic draws (R109) -/

/-- One step of the generator. -/
def rngStep (s : BitVec 32) : BitVec 32 := if s.getLsbD 0 then (s >>> 1) ^^^ 0x80200003 else s >>> 1

/-- Mix(k) of R110. -/
def rngMix (k : Nat) : BitVec 32 := BitVec.ofNat 32 (k * 0x9E3779B9 + 0x6A09E667)

/-- A seed; 0 is replaced by 1 (R110). -/
def rngSeed (w : BitVec 32) : BitVec 32 := if w = 0 then 1 else w

/-- What an instruction's elements accumulate in order: its flags and the generator (R111, R112). -/
structure Acc where
  flags : Flags
  rng : BitVec 32
  deriving DecidableEq, Repr

/-- Round with the accumulator: under stochastic rounding one draw is taken first, whatever the value
(R108, R111). -/
def Acc.round (c : Acc) (f : Fmt) (m : RMode) (e : Exact) : Nat × Acc :=
  let g := if m = .stoch then rngStep c.rng else c.rng
  let r := roundVal f m (g.toNat % 2 ^ 16) e.1
  (r.1, ⟨c.flags ||| e.2 ||| r.2, g⟩)

/-- The accumulator with flags raised. -/
def Acc.raise (c : Acc) (f : Flags) : Acc := { c with flags := c.flags ||| f }

/-! ### Narrowing (R115) -/

/-- NarrowScaled(x, s, f): the pattern, whether the element is an outlier, and the flags. -/
def narrowScaled (x s : Nat) (f : Fmt) : Nat × Bool × Flags :=
  let sv := value 0 s
  let bad := match sv with
    | .num _ n _ => decide (n = 0)
    | _ => true
  if bad then ((roundRNE f .nan).1, false, flagNV)
  else
    let q := (value 0 x).div sv
    let sig := Flags.when (isSignalling 0 x) flagNV
    match q.1 with
    | .nan => ((roundRNE f .nan).1, false, (roundRNE f .nan).2 ||| sig)
    | .inf _ => (0, true, 0)
    | .num neg n d =>
      if n = 0 then (withSign f neg 0, false, 0)
      else
        let e := placeExp f n d
        let p := scaleDown n d (e - fmtMant f)
        if tooLarge f e (roundQuot neg p.1 p.2 .rne) then (0, true, 0)
        else let r := roundNum f .rne 0 neg n d; (r.1, false, r.2)

end Sys2Proof.Machine
end

