-- ==== Sys2Proof/Machine/Operands.lean ====
section
/-! DEFINITION. Vector operands: source specifiers and small constants (R21, R22), elements of lanes (R121),
and the lane-by-lane evaluation under a predicate (R123, R124, R127), with ring entries (R209, R112). -/

namespace Sys2Proof.Machine

/-! ### Small constants (R22) -/

/-- The FP32 patterns of constants 38 to 63, in order. -/
def constPatterns : List Nat :=
  [0x00000000, 0x3F800000, 0xBF800000, 0x3F000000, 0x40000000, 0xBF000000, 0xC0000000, 0x3E800000,
   0x40400000, 0x40800000, 0x40C00000, 0x41000000, 0x41800000, 0x42000000, 0x42800000, 0x437F0000,
   0x43E00000, 0x3E000000, 0x3F317218, 0x3FB8AA3B, 0x40490FDB, 0x3F3504F3, 0x3F4C422A, 0x3D372713,
   0x7F800000, 0x7F7FFFFF]

/-- The integer a constant stands for in an integer format: its FP32 value, where that is an integer. -/
def constInt (pat : Nat) : Int :=
  match value 0 pat with
  | .num neg n d => if neg then -((n / d : Nat) : Int) else ((n / d : Nat) : Int)
  | _ => 0

/-- The element pattern of a constant in a format: the FP32 pattern, the integer, or the value rounded RNE
(R22). -/
def constElem (k : Nat) (f : Fmt) : Nat :=
  let pat := constPatterns.getD (k - 38) 0
  if f = 0 then pat
  else if fmtIsInt f then ofSigned (fmtWidth f) (constInt pat)
  else (roundRNE f (value 0 pat)).1

/-- A pattern in every element of a lane. -/
def replicateElem (f : Fmt) (e : Nat) : Lane :=
  BitVec.ofNat 32 ((List.range (elemsPerLane f)).foldr (fun _ w => w * 2 ^ fmtWidth f + e) 0)

/-- The lanes a source specifier stands for, with the scalar registers captured at issue (R21, R22, R43). -/
def srcLanes (k : Ctx) (xs : Vector Word 16) (a : BitVec 6) (f : Fmt) : VReg :=
  let n := a.toNat
  if n < 16 then k.vreg n
  else if n < 32 then Vector.replicate 64 (((xs[n - 16]?).getD 0).setWidth 32)
  else if n < 38 then k.vreg (n - 16)
  else Vector.replicate 64 (replicateElem f (constElem n f))

/-! ### Elements (R121) -/

/-- Lane i of a register. -/
def lane (r : VReg) (i : Nat) : Lane := r[i]?.getD 0

/-- Element j of a lane in a format. -/
def elem (f : Fmt) (l : Lane) (j : Nat) : Nat := l.toNat / 2 ^ (fmtWidth f * j) % 2 ^ fmtWidth f

/-- The elements of a lane computed in ascending order, from element j on, n of them. -/
def elemsFrom (f : Fmt) (g : Nat → Acc → Nat × Acc) : Nat → Nat → Acc → Nat × Acc
  | 0, _, c => (0, c)
  | n + 1, j, c =>
    let r := g j c
    let t := elemsFrom f g n (j + 1) r.2
    (r.1 * 2 ^ (fmtWidth f * j) + t.1, t.2)

/-- A lane whose every element is computed (R127). -/
def laneOf (f : Fmt) (g : Nat → Acc → Nat × Acc) (c : Acc) : Lane × Acc :=
  let r := elemsFrom f g (elemsPerLane f) 0 c
  (BitVec.ofNat 32 r.1, r.2)

/-- Lanes in ascending order from lane i: an inactive lane keeps its value and does nothing (R124). -/
def lanesFrom (act : BitVec 64) (g : Nat → Acc → Lane × Acc) : List Lane → Nat → Acc → List Lane × Acc
  | [], _, c => ([], c)
  | l :: r, i, c =>
    let h := if act.getLsbD i then g i c else (l, c)
    let t := lanesFrom act g r (i + 1) h.2
    (h.1 :: t.1, t.2)

/-- A register from the list of its lanes. -/
def vregOf (ls : List Lane) : VReg := Vector.ofFn fun i : Fin 64 => ls.getD i.val 0

/-- The lanes of a destination under a predicate. -/
def mapLanes (act : BitVec 64) (old : VReg) (g : Nat → Acc → Lane × Acc) (c : Acc) : VReg × Acc :=
  let r := lanesFrom act g old.toList 0 c
  (vregOf r.1, r.2)

/-- A predicate from a test of each lane. -/
def predOf (g : Nat → Bool) : BitVec 64 :=
  BitVec.ofNat 64 ((List.range 64).foldr (fun i w => w * 2 + bitOf (g i)) 0)

/-! ### Ring entries (R209, R112) -/

/-- An entry for the instruction that issues, with the values it captures. -/
def Ctx.newEntry (k : Ctx) (i : Instr) (unit : BitVec 3) : RingEntry where
  seq := k.nextSeq
  addr := k.pc
  instr := i
  xs := k.x
  unit := unit
  st := .running
  finished := false
  cause := 0
  fault := 0
  comparator := none
  lanes := 0
  pieces := []
  records := []
  raised := 0
  more := 0
  kept := false

/-- The sequence number after n: 255 is followed by 1 (R209). -/
def seqAfter (n : Byte) : Byte := if n = 255 then 1 else n + 1

/-- The context with an entry added at the end of its ring. -/
def Ctx.push (k : Ctx) (e : RingEntry) : Ctx :=
  { k with ring := k.ring ++ [e], nextSeq := seqAfter k.nextSeq }

/-- The context with the ring entry of a sequence number changed. -/
def Ctx.setEntry (k : Ctx) (seq : Byte) (f : RingEntry → RingEntry) : Ctx :=
  { k with ring := k.ring.map fun e => if e.seq = seq then f e else e }

/-- The context with the entry complete. -/
def Ctx.doneEntry (k : Ctx) (seq : Byte) : Ctx :=
  k.setEntry seq fun e => { e with st := .done, finished := true }

/-- The context with the entry faulted: the late cause, the data address, and whether every effect of the
instruction has taken place (R210, R212). -/
def Ctx.faultEntry (k : Ctx) (seq : Byte) (cause : Nat) (fault : Word) (finished : Bool) : Ctx :=
  k.setEntry seq fun e =>
    { e with st := .faulted, cause := BitVec.ofNat 8 cause, fault := fault, finished := finished }

/-- The context with more causes that a faulted entry has raised at once (R208). -/
def Ctx.alsoCauses (k : Ctx) (seq : Byte) (cs : List Nat) : Ctx :=
  k.setEntry seq fun e => { e with more := cs.foldl (fun m c => m ||| BitVec.ofNat 23 (2 ^ c)) e.more }

/-- The context with the entry faulted by comparator n, which matched an access at an address: nothing of the entry has
been written (R217, R368). -/
def Ctx.watchEntry (k : Ctx) (seq : Byte) (n : Nat) (fault : Word) : Ctx :=
  (k.faultEntry seq 0x08 fault false).setEntry seq fun e => { e with comparator := some n }

/-- What a V-slot instruction does when it executes: from the machine, the core, the context and its entry
to the machine, with the entry complete, faulted, or running. -/
abbrev VBody := State → Nat → Nat → RingEntry → State

/-- The context with the entry of an instruction that has written everything and raised flags: complete, or faulted by an
enabled flag, whose causes all count (R112, R208). -/
def Ctx.flagEntry (k : Ctx) (seq : Byte) (f : Flags) : Ctx :=
  let cause := flagCause k.fpflags f
  if cause = 0 then k.doneEntry seq
  else (k.faultEntry seq cause 0 true).setEntry seq fun e => { e with more := e.more ||| flagCauses k.fpflags f }

/-- The end of an arithmetic instruction: registers are written, flags ORed in, and an enabled flag makes
a late fault with everything done (R112). -/
def finishFlags (s : State) (g c : Nat) (e : RingEntry) (k : Ctx) (a : Acc) : State :=
  let k1 := { k with fpflags := raiseIn k.fpflags a.flags, rng := a.rng }
  s.setCtx g c (k1.flagEntry e.seq a.flags)

/-- The accumulator at the start of an instruction. -/
def Ctx.acc (k : Ctx) : Acc := ⟨0, k.rng⟩

/-- An instruction issues to the V-slot: it takes a ring entry, executes, and flow goes on (R19, R209). -/
def State.issueV (s : State) (i : Instr) (len : Nat) (body : VBody) : State :=
  let e := s.me.newEntry i 0
  ((body (s.setMe (s.me.push e)) s.cur.1 s.cur.2 e)).retire len

end Sys2Proof.Machine
end

