-- ==== Sys2Proof/Machine/Scalar.lean ====
section
/-! DEFINITION. The scalar ALU instructions (R57 to R60) and their compact forms (R26): no traps, no flags
(R44). -/

namespace Sys2Proof.Machine

/-- What a meaning answers. -/
abbrev Res := Host.Outcome State Fault Refusal

/-- 1 for true, 0 for false. -/
def wordOf (b : Bool) : Word := if b then 1 else 0

/-- The high half of the signed product (MULH). -/
def mulHigh (a b : Word) : Word := BitVec.ofInt 64 (a.toInt * b.toInt / 2 ^ 64)

/-- The high half of the unsigned product (MULHU). -/
def mulHighU (a b : Word) : Word := BitVec.ofNat 64 (a.toNat * b.toNat / 2 ^ 64)

/-- DIV: the quotient truncated toward zero; by zero all ones; −2^63 / −1 is −2^63 (R58). -/
def divSigned (a b : Word) : Word := if b = 0 then BitVec.allOnes 64 else BitVec.ofInt 64 (a.toInt.tdiv b.toInt)

/-- DIVU (R58). -/
def divUnsigned (a b : Word) : Word := if b = 0 then BitVec.allOnes 64 else BitVec.ofNat 64 (a.toNat / b.toNat)

/-- REM: the remainder with the sign of a; by zero a; −2^63 / −1 leaves 0 (R58). -/
def remSigned (a b : Word) : Word := if b = 0 then a else BitVec.ofInt 64 (a.toInt.tmod b.toInt)

/-- REMU (R58). -/
def remUnsigned (a b : Word) : Word := if b = 0 then a else BitVec.ofNat 64 (a.toNat % b.toNat)

/-- Leading zero bits, 64 for 0 (CLZ). -/
def clzWord (a : Word) : Word := if a = 0 then 64 else BitVec.ofNat 64 (63 - Nat.log2 a.toNat)

/-- One bits (POPC). -/
def popcWord (a : Word) : Word :=
  BitVec.ofNat 64 ((List.range 64).foldr (fun i n => n + bitOf (a.getLsbD i)) 0)

/-- Bits [pos + len - 1 : pos] of a, zero-extended (BFX). -/
def bitField (a : Word) (pos len : Nat) : Word := BitVec.ofNat 64 (a.toNat / 2 ^ pos % 2 ^ len)

/-- d with bits [pos + len - 1 : pos] replaced by the low bits of a (BFI). -/
def insertField (d a : Word) (pos len : Nat) : Word :=
  let m := BitVec.ofNat 64 ((2 ^ len - 1) * 2 ^ pos)
  (d &&& ~~~m) ||| ((a <<< pos) &&& m)

/-- A result is written to a scalar register and the instruction of `len` halfwords retires. -/
def writeX (s : State) (len : Nat) (d : XReg) (v : Word) : State := (s.setX d v).retire len

def aluAdd (a b : Word) : Word := a + b
def aluSub (a b : Word) : Word := a - b
def aluMul (a b : Word) : Word := a * b
def aluMulh (a b : Word) : Word := mulHigh a b
def aluMulhu (a b : Word) : Word := mulHighU a b
def aluDiv (a b : Word) : Word := divSigned a b
def aluDivu (a b : Word) : Word := divUnsigned a b
def aluRem (a b : Word) : Word := remSigned a b
def aluRemu (a b : Word) : Word := remUnsigned a b
def aluAnd (a b : Word) : Word := a &&& b
def aluOr (a b : Word) : Word := a ||| b
def aluXor (a b : Word) : Word := a ^^^ b
def aluShl (a b : Word) : Word := a <<< (b.toNat % 64)
def aluShr (a b : Word) : Word := a >>> (b.toNat % 64)
def aluSra (a b : Word) : Word := a.sshiftRight (b.toNat % 64)
def aluMin (a b : Word) : Word := if a.slt b then a else b
def aluMax (a b : Word) : Word := if a.slt b then b else a
def aluMinu (a b : Word) : Word := if a.ult b then a else b
def aluMaxu (a b : Word) : Word := if a.ult b then b else a
def aluSlt (a b : Word) : Word := wordOf (a.slt b)
def aluSltu (a b : Word) : Word := wordOf (a.ult b)
def aluSeq (a b : Word) : Word := wordOf (a == b)

/-- `ADD` (R57). -/
def execAdd (d a b : XReg) (s : State) : Res := .next (writeX s 2 d (aluAdd (s.x a) (s.x b)))
/-- `SUB` (R57). -/
def execSub (d a b : XReg) (s : State) : Res := .next (writeX s 2 d (aluSub (s.x a) (s.x b)))
/-- `MUL` (R57). -/
def execMul (d a b : XReg) (s : State) : Res := .next (writeX s 2 d (aluMul (s.x a) (s.x b)))
/-- `MULH` (R57). -/
def execMulh (d a b : XReg) (s : State) : Res := .next (writeX s 2 d (aluMulh (s.x a) (s.x b)))
/-- `MULHU` (R57). -/
def execMulhu (d a b : XReg) (s : State) : Res := .next (writeX s 2 d (aluMulhu (s.x a) (s.x b)))
/-- `DIV` (R57, R58). -/
def execDiv (d a b : XReg) (s : State) : Res := .next (writeX s 2 d (aluDiv (s.x a) (s.x b)))
/-- `DIVU` (R57, R58). -/
def execDivu (d a b : XReg) (s : State) : Res := .next (writeX s 2 d (aluDivu (s.x a) (s.x b)))
/-- `REM` (R57, R58). -/
def execRem (d a b : XReg) (s : State) : Res := .next (writeX s 2 d (aluRem (s.x a) (s.x b)))
/-- `REMU` (R57, R58). -/
def execRemu (d a b : XReg) (s : State) : Res := .next (writeX s 2 d (aluRemu (s.x a) (s.x b)))
/-- `AND` (R57). -/
def execAnd (d a b : XReg) (s : State) : Res := .next (writeX s 2 d (aluAnd (s.x a) (s.x b)))
/-- `OR` (R57). -/
def execOr (d a b : XReg) (s : State) : Res := .next (writeX s 2 d (aluOr (s.x a) (s.x b)))
/-- `XOR` (R57). -/
def execXor (d a b : XReg) (s : State) : Res := .next (writeX s 2 d (aluXor (s.x a) (s.x b)))
/-- `SHL` (R57). -/
def execShl (d a b : XReg) (s : State) : Res := .next (writeX s 2 d (aluShl (s.x a) (s.x b)))
/-- `SHR` (R57). -/
def execShr (d a b : XReg) (s : State) : Res := .next (writeX s 2 d (aluShr (s.x a) (s.x b)))
/-- `SRA` (R57). -/
def execSra (d a b : XReg) (s : State) : Res := .next (writeX s 2 d (aluSra (s.x a) (s.x b)))
/-- `MIN` (R57). -/
def execMin (d a b : XReg) (s : State) : Res := .next (writeX s 2 d (aluMin (s.x a) (s.x b)))
/-- `MAX` (R57). -/
def execMax (d a b : XReg) (s : State) : Res := .next (writeX s 2 d (aluMax (s.x a) (s.x b)))
/-- `MINU` (R57). -/
def execMinu (d a b : XReg) (s : State) : Res := .next (writeX s 2 d (aluMinu (s.x a) (s.x b)))
/-- `MAXU` (R57). -/
def execMaxu (d a b : XReg) (s : State) : Res := .next (writeX s 2 d (aluMaxu (s.x a) (s.x b)))
/-- `SLT` (R57). -/
def execSlt (d a b : XReg) (s : State) : Res := .next (writeX s 2 d (aluSlt (s.x a) (s.x b)))
/-- `SLTU` (R57). -/
def execSltu (d a b : XReg) (s : State) : Res := .next (writeX s 2 d (aluSltu (s.x a) (s.x b)))
/-- `SEQ` (R57). -/
def execSeq (d a b : XReg) (s : State) : Res := .next (writeX s 2 d (aluSeq (s.x a) (s.x b)))
/-- `CLZ` (R57). -/
def execClz (d a : XReg) (s : State) : Res := .next (writeX s 2 d (clzWord (s.x a)))
/-- `POPC` (R57). -/
def execPopc (d a : XReg) (s : State) : Res := .next (writeX s 2 d (popcWord (s.x a)))
/-- `MOV` (R57). -/
def execMov (d a : XReg) (s : State) : Res := .next (writeX s 2 d (s.x a))
/-- `SEL` (R57). -/
def execSel (d a b c : XReg) (s : State) : Res := .next (writeX s 2 d (if s.x c = 0 then s.x b else s.x a))
/-- `ADDSH` (R57). -/
def execAddsh (d a b : XReg) (n : BitVec 6) (s : State) : Res := .next (writeX s 2 d (s.x a + s.x b <<< n.toNat))
/-- `ADDI` (R59). -/
def execAddi (d a : XReg) (i : BitVec 15) (s : State) : Res := .next (writeX s 2 d (s.x a + i.signExtend 64))
/-- `ANDI` (R59). -/
def execAndi (d a : XReg) (i : BitVec 15) (s : State) : Res := .next (writeX s 2 d (s.x a &&& i.setWidth 64))
/-- `ORI` (R59). -/
def execOri (d a : XReg) (i : BitVec 15) (s : State) : Res := .next (writeX s 2 d (s.x a ||| i.setWidth 64))
/-- `XORI` (R59). -/
def execXori (d a : XReg) (i : BitVec 15) (s : State) : Res := .next (writeX s 2 d (s.x a ^^^ i.setWidth 64))
/-- `SHL_IMM` (R59). -/
def execShlImm (d a : XReg) (n : BitVec 6) (s : State) : Res := .next (writeX s 2 d (s.x a <<< n.toNat))
/-- `SHR_IMM` (R59). -/
def execShrImm (d a : XReg) (n : BitVec 6) (s : State) : Res := .next (writeX s 2 d (s.x a >>> n.toNat))
/-- `SRA_IMM` (R59). -/
def execSraImm (d a : XReg) (n : BitVec 6) (s : State) : Res := .next (writeX s 2 d ((s.x a).sshiftRight n.toNat))
/-- `LI` (R59). -/
def execLi (d : XReg) (i : BitVec 19) (s : State) : Res := .next (writeX s 2 d (i.signExtend 64))
/-- `LIH`: one halfword of xd replaced (R59). -/
def execLih (d : XReg) (h : BitVec 2) (i : BitVec 16) (s : State) : Res :=
  .next (writeX s 2 d (insertField (s.x d) (i.setWidth 64) (16 * h.toNat) 16))
/-- `BFX` (R59). -/
def execBfx (d a : XReg) (l p : BitVec 6) (s : State) : Res :=
  .next (writeX s 2 d (bitField (s.x a) p.toNat (l.toNat + 1)))
/-- `BFI` (R59). -/
def execBfi (d a : XReg) (l p : BitVec 6) (s : State) : Res :=
  .next (writeX s 2 d (insertField (s.x d) (s.x a) p.toNat (l.toNat + 1)))
/-- `LI64` (R60). -/
def execLi64 (d : XReg) (i : BitVec 52) (s : State) : Res := .next (writeX s 4 d (i.signExtend 64))
/-- `NOP` (R18, R26). -/
def execNop (s : State) : Res := .next (s.retire 1)
/-- `HINT`: hint space executes as NOP (R18). -/
def execHint (_h : BitVec 8) (s : State) : Res := .next (s.retire 1)
/-- `MOV_COMPACT` (R26). -/
def execMovCompact (d a : XReg) (s : State) : Res := .next (writeX s 1 d (s.x a))
/-- `ADD_COMPACT` (R26): the destination is also the first source. -/
def execAddCompact (d a : XReg) (s : State) : Res := .next (writeX s 1 d (aluAdd (s.x d) (s.x a)))
/-- `SUB_COMPACT` (R26): the destination is also the first source. -/
def execSubCompact (d a : XReg) (s : State) : Res := .next (writeX s 1 d (aluSub (s.x d) (s.x a)))
/-- `AND_COMPACT` (R26): the destination is also the first source. -/
def execAndCompact (d a : XReg) (s : State) : Res := .next (writeX s 1 d (aluAnd (s.x d) (s.x a)))
/-- `OR_COMPACT` (R26): the destination is also the first source. -/
def execOrCompact (d a : XReg) (s : State) : Res := .next (writeX s 1 d (aluOr (s.x d) (s.x a)))
/-- `XOR_COMPACT` (R26): the destination is also the first source. -/
def execXorCompact (d a : XReg) (s : State) : Res := .next (writeX s 1 d (aluXor (s.x d) (s.x a)))
/-- `MUL_COMPACT` (R26): the destination is also the first source. -/
def execMulCompact (d a : XReg) (s : State) : Res := .next (writeX s 1 d (aluMul (s.x d) (s.x a)))
/-- `MIN_COMPACT` (R26): the destination is also the first source. -/
def execMinCompact (d a : XReg) (s : State) : Res := .next (writeX s 1 d (aluMin (s.x d) (s.x a)))
/-- `MAX_COMPACT` (R26): the destination is also the first source. -/
def execMaxCompact (d a : XReg) (s : State) : Res := .next (writeX s 1 d (aluMax (s.x d) (s.x a)))
/-- `SLT_COMPACT` (R26): the destination is also the first source. -/
def execSltCompact (d a : XReg) (s : State) : Res := .next (writeX s 1 d (aluSlt (s.x d) (s.x a)))
/-- `SEQ_COMPACT` (R26): the destination is also the first source. -/
def execSeqCompact (d a : XReg) (s : State) : Res := .next (writeX s 1 d (aluSeq (s.x d) (s.x a)))
/-- `SLTU_COMPACT` (R26): the destination is also the first source. -/
def execSltuCompact (d a : XReg) (s : State) : Res := .next (writeX s 1 d (aluSltu (s.x d) (s.x a)))
/-- `MINU_COMPACT` (R26): the destination is also the first source. -/
def execMinuCompact (d a : XReg) (s : State) : Res := .next (writeX s 1 d (aluMinu (s.x d) (s.x a)))
/-- `MAXU_COMPACT` (R26): the destination is also the first source. -/
def execMaxuCompact (d a : XReg) (s : State) : Res := .next (writeX s 1 d (aluMaxu (s.x d) (s.x a)))
/-- `CLZ_COMPACT` (R26). -/
def execClzCompact (d a : XReg) (s : State) : Res := .next (writeX s 1 d (clzWord (s.x a)))
/-- `POPC_COMPACT` (R26). -/
def execPopcCompact (d a : XReg) (s : State) : Res := .next (writeX s 1 d (popcWord (s.x a)))
/-- `ADDI_COMPACT` (R26). -/
def execAddiCompact (d : XReg) (i : BitVec 4) (s : State) : Res := .next (writeX s 1 d (s.x d + i.signExtend 64))
/-- `LI_COMPACT` (R26). -/
def execLiCompact (d : XReg) (i : BitVec 4) (s : State) : Res := .next (writeX s 1 d (i.signExtend 64))
/-- `SHL_COMPACT` (R26). -/
def execShlCompact (d : XReg) (i : BitVec 4) (s : State) : Res := .next (writeX s 1 d (s.x d <<< i.toNat))
/-- `SHR_COMPACT` (R26). -/
def execShrCompact (d : XReg) (i : BitVec 4) (s : State) : Res := .next (writeX s 1 d (s.x d >>> i.toNat))
/-- `SRA_COMPACT` (R26). -/
def execSraCompact (d : XReg) (i : BitVec 4) (s : State) : Res :=
  .next (writeX s 1 d ((s.x d).sshiftRight i.toNat))

end Sys2Proof.Machine
end

