-- ==== Sys2Proof/Machine/Contexts.lean ====
section
/-! DEFINITION. The life of a context: the free list (R65), starts (R41, R69, R191), allotments (R144),
current messages (R192, R194), detaching commands (R211), freeing, and termination (R363, R364). -/

namespace Sys2Proof.Machine

/-- Whether a command is its engine's active command (R274). -/
def CmdState.isActive : CmdState → Bool
  | .active _ => true
  | .walking _ => true
  | _ => false

/-- A command taken out of its engine: a shadow command waits in its queue again, and one that runs stops at a piece (R264,
R357). -/
def CmdState.stop : CmdState → CmdState
  | .shadow => .queued
  | .active p => .paused p
  | c => c

/-- The number of a command queue in a core's table (R272). -/
def queueNum : Queue → Nat
  | .qc0 => 0
  | .qc1 => 1
  | .qg => 2
  | .qm => 3

/-- A command queue of a core. -/
def Work.queue (w : Work) (q : Queue) : List Cmd := Tab.look [] w.queues (queueNum q)

/-- A core with a command queue replaced. -/
def Work.putQueue (w : Work) (q : Queue) (l : List Cmd) : Work := { w with queues := Tab.put w.queues (queueNum q) l }

/-! ### Free list and starts -/

/-- A context from the free list of core g (R65). The manual does not say which of several a start takes; the model takes the
lowest-numbered (DESIGN CHOICE, log entry 100). -/
def State.freeCtx (s : State) (g : Nat) : Option Nat := firstBelow (fun c => (s.ctx g c).role == .free) 24

/-- How many contexts of core g are free. -/
def State.freeCount (s : State) (g : Nat) : Nat :=
  ((List.range 24).filter fun c => (s.ctx g c).role == .free).length

/-- A context that starts at an entry address by a checked transfer, with everything else 0 (R17, R41,
R65). -/
def Ctx.begin (role : Role) (entry : Word) (now : Nat) : Ctx :=
  { Ctx.reset with role := role, pc := entry, arrived := some 0, age := now, since := now }

/-- A context with x registers written from a list, from register r on; an owed load to one of them is forgotten (R43,
R191). -/
def Ctx.setXs (k : Ctx) (r : Nat) : List Word → Ctx
  | [] => k
  | w :: ws => Ctx.setXs { k.forget (fun d => d.toNat == r) with x := k.x.setIfInBounds r w } (r + 1) ws

/-- The base class of a context: 0 supervisor, 1 handlers of priority 1 to 3, safe events and late messages (R333),
2 strands, children, migrated strands and contexts resumed from WAITCH, 3 speculative events, 4 handlers of priority 0
(R78). A handler's priority is what its entry of the table holds now, a change after its start included (DESIGN CHOICE, log entry 116).
`spec` says whether the context's event is speculative. -/
def State.baseClass (s : State) (g c : Nat) (spec : Bool) : Nat :=
  let k := s.ctx g c
  if k.sup then 0
  else if k.resumedWait then 2
  else match k.event with
    | some _ => if spec then 3 else 1
    | none =>
      match k.role with
      | .handler ch => if (s.handler g ch.toNat).prio = 0 && !(s.handler g ch.toNat).optimistic then 4 else 1
      | _ => 2

/-! ### Banks (R144) -/

/-- The lowest run of k contiguous powered-down banks (R144). -/
def bankRun (power : BitVec 14) (k : Nat) : Option Nat :=
  firstBelow (fun b => decide (b + k ≤ 14) && (List.range k).all fun i => !power.getLsbD (b + i)) 15

/-- Banks b to b + n - 1 as a mask. -/
def bankMask (b n : Nat) : BitVec 14 := BitVec.ofNat 14 ((2 ^ n - 1) * 2 ^ b)

/-- Banks powered up and cleared (R144). -/
def Work.powerUp (w : Work) (b n : Nat) : Work :=
  { w with
    power := w.power ||| bankMask b n, spad := w.spad.clear (0x8000 * b) (0x8000 * n),
    poison := w.poison.filter fun p => !(decide (0x400 * b ≤ p) && decide (p < 0x400 * (b + n))) }

/-- The banks that n bytes from an offset touch. -/
def banksOf (a n : Nat) : BitVec 14 :=
  if n = 0 then 0 else bankMask (a / 0x8000) ((a + n - 1) / 0x8000 + 1 - a / 0x8000)

/-- The banks that hold an LP's descriptor, rings and scratchpad regions (R316). -/
def Lp.banks (lp : Lp) : BitVec 14 :=
  let rs := [lp.eddyR, lp.outR, lp.inR, lp.commitR].foldl (fun m r => m ||| banksOf r.base r.cap) (banksOf lp.desc 256)
  lp.regions.foldl (fun m r => if r.global then m else m ||| banksOf r.base r.len) rs

/-- The banks that bound LPs of a core keep powered (R316). -/
def Work.lpBanks (w : Work) : BitVec 14 := w.lps.foldl (fun m e => m ||| e.2.banks) 0

/-- The contents of the banks of a mask cleared. -/
def clearBanks (m : Memory) (mask : BitVec 14) : Memory :=
  m.filter fun c => !(decide (c.1 < 0x70000) && mask.getLsbD (c.1 / 0x8000))

/-- The poison of the banks of a mask cleared: a bank that is powered down reads 0 (R225, R363). -/
def clearPoison (ps : List Nat) (mask : BitVec 14) : List Nat := ps.filter fun p => !(decide (p < 0x3800) && mask.getLsbD (p / 0x400))

/-- Banks powered down; their contents are lost, and their poison with them (R144, R225). Banks that a bound LP needs stay powered
until it is unbound (R316). -/
def Work.powerDown (w : Work) (b n : Nat) : Work :=
  let m := bankMask b n
  let keep := m &&& w.lpBanks
  { w with
    power := w.power &&& ~~~(m &&& ~~~keep), orphans := w.orphans ||| keep, spad := clearBanks w.spad (m &&& ~~~keep),
    poison := clearPoison w.poison (m &&& ~~~keep) }

/-- The oldest of some swap images (R265). -/
def oldestImage : List (Nat × SwapImage) → Option (Nat × SwapImage)
  | [] => none
  | a :: r =>
    match oldestImage r with
    | some b => if b.2.since < a.2.since then some b else some a
    | none => some a

/-- The banks that re-admittable crews wait for (R265). -/
def Work.awaited (w : Work) : BitVec 14 :=
  w.swapped.foldl (fun m e => if e.2.ready then m ||| bankMask e.2.crew.bank e.2.crew.n else m) 0

/-- An allotment of k banks: its first bank, and the core with the banks powered up; none while no run is
free, or while a re-admittable crew waits for one of them. An allotment of 0 banks takes none (R144, R265). -/
def Work.allot (w : Work) (k : Nat) : Option (Nat × Work) :=
  if k = 0 then some (0, w)
  else (bankRun w.power k).bind fun b => if bankMask b k &&& w.awaited = 0 then some (b, w.powerUp b k) else none

/-- The x4 and x5 of an allotment (R69, R144). -/
def allotAddr (b k : Nat) : Word := if k = 0 then 0 else BitVec.ofNat 64 (0x8000 * b)
def allotSize (k : Nat) : Word := BitVec.ofNat 64 (0x8000 * k)

/-! ### Current messages (R192, R194) -/

/-- The reply channel of a message, and the reply cell it reserved (R187). -/
def Msg.replyChannel (m : Msg) : Nat := field m.d0 24 6
def Msg.channel (m : Msg) : Nat := field m.d0 18 6
def Msg.cell (m : Msg) : Nat := field m.d3 0 6
def Msg.hasCell (m : Msg) : Bool := m.d3.getLsbD 6
def Msg.timed (m : Msg) : Bool := m.d0.getLsbD 49
def Msg.onReply (m : Msg) : Bool := m.d0.getLsbD 50
def Msg.anti (m : Msg) : Bool := m.d0.getLsbD 52
def Msg.poisoned (m : Msg) : Bool := m.d0.getLsbD 53
def Msg.tag (m : Msg) : Nat := field m.d0 30 6
def Msg.length (m : Msg) : Nat := field m.d0 36 12

/-- Whether a message holds an unanswered reservation of a reply cell (R194). -/
def CurMsg.owes (u : CurMsg) : Bool := u.msg.hasCell && !u.answered && !u.msg.onReply

/-- Whether a send-queue item travels on the reply network (R195). -/
def SendItem.onReply : SendItem → Bool
  | .msg m => m.onReply
  | .release _ _ _ => true
  | _ => false

/-- Whether a message came through the host window (R191, R202). -/
def Msg.fromHost (m : Msg) : Bool := m.d0.getLsbD 51

/-- The core that sent an item; a message of the host is no core's. -/
def SendItem.sender : SendItem → Nat
  | .msg m => if m.fromHost then 2 ^ 20 else m.src
  | .mem (r :: _) => r.g
  | .nred k => k.g
  | .op o => o.g
  | _ => 2 ^ 20

/-- How many entries of a send queue of core g wait to be sent again after a retry reply (R359). -/
def State.retried (s : State) (g : Nat) (reply : Bool) : Nat :=
  (s.net.retries.filter fun e => e.2.2.sender == g && e.2.2.onReply == reply).length

/-- Whether flits of the device wait for an entry of a send queue of a core; they go first (R195). -/
def Work.flitsWait (w : Work) (reply : Bool) : Bool := w.flits.any fun e => e.item.onReply == reply

/-- Whether the reply send queue of core g has room (R195). -/
def State.replyRoom (s : State) (g : Nat) : Bool :=
  !(s.work g).flitsWait true && decide ((s.work g).replies.length + s.retried g true < Config.sendEntries)

/-- Whether the request send queue of core g has room for n entries (R195, R359). -/
def State.roomFor (s : State) (g n : Nat) : Bool :=
  !(s.work g).flitsWait false && decide ((s.work g).requests.length + s.retried g false + n ≤ Config.sendEntries)

/-- Whether the request send queue of core g has room (R195, R359). -/
def State.requestRoom (s : State) (g : Nat) : Bool := s.roomFor g 1

/-- Flits of the device take entries of a send queue of core g as it has room, the oldest first (R195). -/
def State.fillFlits (s : State) (g : Nat) (reply : Bool) : State :=
  let w := s.work g
  let mine := w.flits.filter fun e => e.item.onReply == reply
  let n := Config.sendEntries - ((if reply then w.replies else w.requests).length + s.retried g reply)
  let left := mine.drop n ++ w.flits.filter fun e => e.item.onReply != reply
  s.setWork g (if reply then { w with replies := w.replies ++ mine.take n, flits := left }
    else { w with requests := w.requests ++ mine.take n, flits := left })

/-- A context's message stops being current: its arrival slot and its reply cell are freed, and an
unanswered reservation is released by a cell-release flit (R145, R192, R194). -/
def State.dropMsg (s : State) (g : Nat) (u : CurMsg) : State :=
  let w := s.work g
  let w1 := { w with
    slots := match u.slot with
      | some n => w.slots.erase n
      | none => w.slots
    cells := match u.cell with
      | some n => Tab.drop w.cells n
      | none => w.cells
    flits := if u.owes then w.flits ++ [⟨.release u.msg.tag u.msg.src u.msg.cell, 31, []⟩] else w.flits }
  s.setWork g w1

/-- The current message of context c of core g released. -/
def State.releaseCur (s : State) (g c : Nat) : State :=
  match (s.ctx g c).cur with
  | some u => (s.dropMsg g u).setCtx g c { s.ctx g c with cur := none }
  | none => s

/-! ### Accesses under way (R193, R242) -/

/-- Every access of the context that has not completed: stores to be acknowledged, loads and AMOs, the pieces of vector accesses. A
release, a command and a held item wait for those that preceded them (R193, R235, R242). -/
def Ctx.pending (k : Ctx) : List Nat :=
  k.acks ++ (k.owed.map fun o => o.1) ++ k.amos ++ (k.ring.flatMap fun e => e.pieces)

/-- The numbers of the accesses that a send-queue item holds. -/
def SendItem.ids : SendItem → List Nat
  | .mem rs => rs.map fun r => r.id
  | .nred k => [k.id]
  | _ => []

/-- What lies at core g: the core's own work, the work set aside while an evict routine runs, the work of its image (R356, R357). -/
def State.worksAt (s : State) (g : Nat) : List Work :=
  let k := s.core g
  k.work :: (match k.evicting with
    | some (.routine _ w) => [w]
    | _ => []) ++ (k.image.toList.map fun i => i.work)

/-- Whether access i, which core g sent, is under way: it waits in a send queue, or is in the network, on its way there or back, or
to be sent again. It stays so when the context that issued it has ended (R193, R228, R233). -/
def State.underWay (s : State) (g i : Nat) : Bool :=
  (Tab.find s.net.reqs i).isSome || (Tab.find s.net.replies i).isSome || (Tab.find s.net.retries i).isSome
    || (Tab.find s.net.nreds i).isSome
    || (s.worksAt g).any fun w => w.requests.any fun e => e.item.ids.contains i

/-- Whether all of some accesses of core g have completed. -/
def State.allDone (s : State) (g : Nat) (ids : List Nat) : Bool := ids.all fun i => !s.underWay g i

/-! ### Detaching and freeing (R92, R211) -/

/-- A command of context c detached: one that was held waits its turn again (R211). -/
def Cmd.detach (m : Cmd) (c : Nat) : Cmd :=
  if m.c = c ∧ m.attached then { m with attached := false, st := if m.st = .held then .queued else m.st } else m

/-- The commands of a context detached: they stay in their queues and belong to no context; one that had faulted is
discarded (R211). -/
def Work.detach (w : Work) (c : Nat) : Work :=
  { w with queues := Tab.each (fun _ q => (q.filter fun m => !(m.c == c && m.attached && m.st == .faulted)).map fun m => m.detach c) w.queues,
           feeders := w.feeders.filter fun f => f.1 != c }

/-- The frame at an address of a core's scratchpad is live no longer (R205, R212). -/
def Work.dropFrame (w : Work) (f : Nat) : Work :=
  { w with spad := w.spad.putWord (f + 0x18) (w.spad.word (f + 0x18) &&& ~~~0x8000) }

/-- The report of a detached command's fault (R211). -/
def State.reportDetached (s : State) (g : Nat) (q : Queue) (m : Cmd) (cause : Nat) (a : Word) : State :=
  s.report g m.c g 0 [4, pack [(0, cause), (8, queueNum q + 1), (11, m.c), (16, bitOf m.lateIssue)], a, m.addr]

/-- Context c of core g returned to the free list: its commands are detached, its message is released with the arrival slot
that it holds, and its frame is live no longer (R92, R145, R192; log entry 43). -/
def State.vacate (s : State) (g c : Nat) : State :=
  let s1 := s.releaseCur g c
  let w := (s1.work g).detach c
  let w1 := match (s1.ctx g c).slot with
    | some n => { w with slots := w.slots.erase n }
    | none => w
  let s2 := s1.setWork g (if s1.frameLive g (frameAddr c) then w1.dropFrame (frameAddr c) else w1)
  s2.setCtx g c Ctx.reset

/-- The commands of context c of a core that have faulted, with their queues and ring entries. -/
def Work.faultedOf (w : Work) (c : Nat) (k : Ctx) : List (Queue × Cmd × RingEntry) :=
  [Queue.qc0, .qc1, .qg, .qm].flatMap fun q => (w.queue q).filterMap fun m =>
    if m.c = c ∧ m.attached ∧ m.st = .faulted then ((k.ring ++ k.framed).find? fun e => e.seq == m.seq).map fun e => (q, m, e) else none

/-- The same, and the faults of its commands, which no trap will report any more, are reported (R211). -/
def State.free (s : State) (g c : Nat) : State :=
  ((s.work g).faultedOf c (s.ctx g c)).foldl (fun t e => t.reportDetached g e.1 e.2.1 e.2.2.cause.toNat e.2.2.fault) (s.vacate g c)

/-! ### Termination (R363, R364) -/

/-- The crew that context c of core g is a strand of. -/
def Ctx.crewOf (k : Ctx) : Option Nat :=
  match k.role with
  | .strand cr _ => some cr
  | _ => none

/-- The grid counter's ID that names a crew's grid (R75). -/
def Grid.id (gr : Grid) : Nat := gr.counter % 4096

/-- The banks a context holds of its own powered down (R92, R93). -/
def State.dropBanks (s : State) (g c : Nat) : State :=
  match (s.ctx g c).banks with
  | some (b, n) => s.setWork g ((s.work g).powerDown b n)
  | none => s

/-- Crew cr of core g terminated: its contexts freed, its queued commands discarded, its banks released. -/
def State.endCrew (s : State) (g cr : Nat) : State :=
  match Tab.find (s.work g).crews cr with
  | none => s
  | some k =>
    let live := (List.range 24).filter fun c => (s.ctx g c).crewOf == some cr
    let out := (s.work g).joinOut.filter fun e => e.2.crewOf == some cr
    let s0 := live.foldl (fun t c => t.free g c) s
    let s1 := (out.filterMap fun e => e.2.cur).foldl (fun t u => t.dropMsg g u) s0
    let w := s1.work g
    s1.setWork g { (w.powerDown k.bank k.n) with
      crews := Tab.drop w.crews cr, joinOut := w.joinOut.filter fun e => e.2.crewOf != some cr,
      queues := Tab.each (fun _ q => q.filter fun m => m.crew != some cr || m.st.isActive) w.queues }

/-- An event whose context has been terminated counts as processed (R326; log entry 41). -/
def Work.closeEvent (w : Work) (ev : Option (Nat × Nat)) : Work :=
  match ev with
  | none => w
  | some (slot, id) =>
    match Tab.find w.lps slot with
    | none => w
    | some lp =>
      let es := lp.events.map fun e => if e.id = id then { e with st := .processed } else e
      { w with lps := Tab.put w.lps slot { lp with events := es } }

/-- Context c of core g terminated, its whole crew with it, and reported to channel 0 of its core: kind 1
poison consumed, kind 2 store failed (R363, R364). -/
def State.terminate (s : State) (g c kind : Nat) (addr : Word) : State :=
  let k := s.ctx g c
  let crew := k.crewOf.bind fun cr => Tab.find (s.work g).crews cr
  let index : Nat := match crew with
    | some cr => cr.index.toNat
    | none => 2 ^ 56 - 1
  let grid : Word := match crew with
    | some cr => BitVec.ofNat 64 cr.grid.id
    | none => BitVec.allOnes 64
  let s1 := match k.crewOf with
    | some cr => s.endCrew g cr
    | none =>
      let t := (s.dropBanks g c).free g c
      t.setWork g ((t.work g).closeEvent k.event)
  s1.report g c g 0 [BitVec.ofNat 64 kind, pack [(0, c), (8, index)], addr, grid]

/-- A granule of 32 B of scratchpad that is poisoned lies under a byte range (R363). -/
def Work.poisonedAt (w : Work) (a n : Nat) : Bool := w.poison.any fun p => decide (p * 32 < a + n) && decide (a < p * 32 + 32)

/-! ### Whether a core runs (R357, R361) -/

/-- Whether core g works: it is not halted, checked, under self-test, awaiting a partition reset, or powered off (R361, R367, R369,
R375, R388). -/
def State.works (s : State) (g : Nat) : Bool :=
  !(s.cluster g).halted && !(s.core g).dbg.checked && !(s.cluster g).ftest.getLsbD 0
    && !(s.part (s.tag g)).resetDue && !(s.chip (chipOf g)).off

/-- Whether the contexts and engines of core g run: it works, and it is not stopped for an eviction (R357). -/
def State.runs (s : State) (g : Nat) : Bool := (s.core g).evicting != some .stopping && s.works g

/-- Whether the active command of a queue of core g goes on: one of qm runs to its end while the core stops for an eviction,
and one of the others stops at a piece (R357). -/
def State.engineRuns (s : State) (g : Nat) (q : Queue) : Bool := if q = .qm then s.works g else s.runs g

/-- Whether core g takes on work: it runs, and it is not being evicted (R357). -/
def State.serves (s : State) (g : Nat) : Bool := (s.core g).evicting.isNone && s.runs g

/-! ### Watchpoints (R217, R368) -/

/-- Whether comparator i of a core matches an access by context c: bytes [a, a + n), of a kind mask (bit 0
fetch, bit 1 read, bit 2 write). -/
def Debug.hit (d : Debug) (c a n : Nat) (kinds : BitVec 3) (i : Nat) : Bool :=
  let ctl := Tab.look 0 d.ctl i
  let kind := field ctl 1 2
  let lg := let z := field ctl 3 5; if z = 0 then 1 else if z > 20 then 20 else z
  let lo := (Tab.look 0 d.addr i).toNat / 2 ^ lg * 2 ^ lg
  let wants : BitVec 3 := if kind = 0 then 1 else if kind = 1 then 2 else if kind = 2 then 4 else 6
  ctl.getLsbD 0 && ctl.getLsbD (9 + c) && (wants &&& kinds) != 0 && decide (a < lo + 2 ^ lg) && decide (lo < a + n)

/-- The lowest comparator that matches an access by context c of core g; supervisor contexts never match,
nor does the first instruction after an ERET that suppresses watchpoints (R217, R368). -/
def State.watchHit (s : State) (g c a n : Nat) (kinds : BitVec 3) : Option Nat :=
  if (s.ctx g c).sup || ((s.ctx g c).watchOff && kinds != 1) then none
  else firstBelow ((s.core g).dbg.hit c a n kinds) 8

/-- Whether partition t may halt the cluster of core g: the hypervisor partition, or one that holds all its
16 cores (R365, R369). -/
def State.halyardRight (s : State) (t g : Nat) : Bool :=
  (s.part t).hyper || (List.range 16).all fun i => s.holds t (g / 16 * 16 + i)

/-- A halt of the cluster of core g asked for by that core, with the number of its message; while a halt is in progress it has no
effect (R369). -/
def State.askHalt (s : State) (g : Nat) (cmp : Word) : State :=
  let q := s.cluster g
  if q.halted || q.haltDue.isSome then s else s.setCluster g { q with haltDue := some cmp, puller := g }

/-- A comparator with H set that matched asks for a halyard halt, where its partition has the right (R369). -/
def State.pull (s : State) (g i : Nat) : State :=
  if (Tab.look 0 (s.core g).dbg.ctl i).getLsbD 8 && s.halyardRight (s.tag g) g then s.askHalt g (BitVec.ofNat 64 i) else s

/-- The executing context's access matches comparator i: the watchpoint or breakpoint cause, exactly, with
the comparator's number in the code field (R212, R217, R368). -/
def State.watchTrap (s : State) (cause i : Nat) (fault : Word) : State :=
  let s1 := s.pull s.cur.1 i
  s1.takeTrap s.cur.1 s.cur.2 { s1.trapInfo cause fault with code := BitVec.ofNat 10 i, dbg := true }

/-- The executing context's access fails checks, with causes at an address, or matches a comparator: every cause sets its bit in
the mask, and the lowest is taken (R208, R217). -/
def State.accessTrap (s : State) (cs : List Nat) (w : Option Nat) (a : Word) : State :=
  match cs, w with
  | [], none => s
  | [], some i => s.watchTrap 0x08 i a
  | _, none => s.trapAll (cs.map fun c => (c, a))
  | _, some i => (s.pull s.cur.1 i).trapAll ((cs ++ [0x08]).map fun c => (c, a))

end Sys2Proof.Machine
end

