-- ==== Sys2Proof/Machine/Event.lean ====
section
/-! DEFINITION. Scratchpad addresses and their checks (R141 to R143), and the stores and loads of events: what a
speculative event logs, performs and holds (R317 to R321), and what it does while it coasts (R324). -/

namespace Sys2Proof.Machine

/-! ### Addresses and checks (R141 to R143) -/

/-- The core and offset a scratchpad address names for core g: its own with W = 0, a core of its cluster
that its partition holds, that is not fenced, and that no other partition runs on with W = 1 (R141, R143; log entry 42). -/
def State.localTarget (s : State) (g : Nat) (a : Word) : Option (Nat × Nat) :=
  let off := field a 0 19
  if a.toNat ≥ 2 ^ 24 then none
  else if !a.getLsbD 23 then (if field a 19 4 = 0 then some (g, off) else none)
  else
    let h := g / 16 * 16 + field a 19 4
    if (s.core h).dbg.fenced || !s.holds (s.tag g) h || s.tag h != s.tag g then none else some (h, off)

/-- Whether a region admits an access: powered banks, the arrival buffers, the tensor-map table for reads,
frames and supervisor scratch with supervisor privilege (R142, R143). -/
def regionOk (sup : Bool) (power : BitVec 14) (off : Nat) (write : Bool) : Bool :=
  if off < 0x70000 then power.getLsbD (off / 0x8000)
  else if off < 0x78000 then true
  else if off < 0x79000 then !write
  else sup

/-- Every cause that the checks of a scratchpad access raise, ascending (R141, R143, R147, R208). -/
def State.localCauses (s : State) (g : Nat) (sup : Bool) (a : Word) (size : Nat) (write : Bool) : List Nat :=
  (if a.toNat % size ≠ 0 then [0x06] else []) ++ (match s.localTarget g a with
    | none => [0x07]
    | some (h, off) => if regionOk sup (s.work h).power off write then [] else [0x07])

/-- A scratchpad access that the checks allow: the core and offset; else the cause (R141, R143, R147). -/
def State.localAccess (s : State) (g : Nat) (sup : Bool) (a : Word) (size : Nat) (write : Bool) :
    Except Nat (Nat × Nat) :=
  if a.toNat % size ≠ 0 then .error 0x06
  else match s.localTarget g a with
    | none => .error 0x07
    | some (h, off) => if regionOk sup (s.work h).power off write then .ok (h, off) else .error 0x07

/-- The state with bytes stored in core h's scratchpad; a granule that is stored whole is clean again, and
poison that the bytes do not cover stays (R363; log entry 20). -/
def State.localStore (s : State) (h off : Nat) (bs : List Byte) : State :=
  let w := s.work h
  s.setWork h { w with
    spad := w.spad.store off bs,
    poison := w.poison.filter fun p => !(decide (off ≤ p * 32) && decide (p * 32 + 32 ≤ off + bs.length)) }

/-! ### Order with the context's own window accesses (R225, R240) -/

/-- The core and offset whose scratchpad window holds a physical address (R225). -/
def windowAt (pa : Nat) : Option (Nat × Nat) :=
  let core := pa / 2 ^ 38 % 4096
  let off := pa % 2 ^ 38
  if pa < 2 ^ 56 ∧ core < 2560 ∧ 0x3F00000000 ≤ off ∧ off < 0x3F00070000 then
    some (pa / 2 ^ 50 % 64 * 2560 + core, off - 0x3F00000000)
  else none

/-- The bytes that a request reads or writes: addresses and lengths. -/
def MemReq.spans (r : MemReq) : List (Nat × Nat) :=
  match r.op with
  | .load n _ => [(r.pa, n)]
  | .store bs => [(r.pa, bs.length)]
  | .amo _ n _ _ => [(r.pa, n)]
  | .vload ps => ps.map fun p => (p.1, 4)
  | .vstore ps => ps.map fun p => (p.1, p.2.length)
  | .contribution => []

/-- Whether a request touches n bytes of core h's scratchpad from an offset. -/
def MemReq.touches (r : MemReq) (h off n : Nat) : Bool :=
  r.spans.any fun p => match windowAt p.1 with
    | some (k, o) => k == h && decide (o < off + n) && decide (off < o + p.2)
    | none => false

/-- The requests of a send-queue item. -/
def SendItem.reqs : SendItem → List MemReq
  | .mem rs => rs
  | _ => []

/-- The requests of context c of core g that have not been performed at their homes: queued, in the network, or to be sent again. -/
def State.ownReqs (s : State) (g c : Nat) : List MemReq :=
  (((s.work g).requests.flatMap fun e => e.item.reqs) ++ (s.net.reqs.map fun e => e.2) ++ s.net.retries.flatMap fun e => e.2.2.reqs).filter
    fun r => r.g == g && r.c == c

/-- Whether scratchpad bytes, by core, offset and length, are still to be accessed by an earlier request of the context through a
window: a later access of the context to them waits, since its accesses to one byte are performed in program order (R240). -/
def State.clashes (s : State) (g c : Nat) (ts : List (Nat × Nat × Nat)) : Bool :=
  (s.ownReqs g c).any fun r => ts.any fun t => r.touches t.1 t.2.1 t.2.2

/-! ### Logical processes (R315, R316) -/

/-- The LP in a slot of core g. -/
def State.lp (s : State) (g slot : Nat) : Option Lp := Tab.find (s.work g).lps slot

/-- The D fields of a ring in the descriptor: head and tail as byte places in the ring (R315; log entry 30). -/
def Ring.words (r : Ring) : List Byte := bytesOfNat 4 (r.head % r.cap) ++ bytesOfNat 4 (r.tail % r.cap)

/-- The fields of a descriptor that the device writes (R315). -/
def Lp.store (lp : Lp) (slot : Nat) (m : Memory) : Memory :=
  let m1 := (m.putWord lp.desc lp.lvt).set (lp.desc + 9) (BitVec.ofNat 8 (bitOf lp.stream + 2 * bitOf lp.mismatch))
  let m2 := (m1.store (lp.desc + 12) (bytesOfNat 2 lp.since)).set (lp.desc + 14) (BitVec.ofNat 8 slot)
  let m3 := (m2.store (lp.desc + 24) lp.eddyR.words).store (lp.desc + 40) lp.outR.words
  let m4 := (m3.store (lp.desc + 56) lp.inR.words).store (lp.desc + 72) lp.commitR.words
  m4.putWord (lp.desc + 224) lp.play

/-- The state with the LP in a slot replaced, and its descriptor brought up to date. -/
def State.setLp (s : State) (g slot : Nat) (lp : Lp) : State :=
  let w := s.work g
  s.setWork g { w with lps := Tab.put w.lps slot lp, spad := lp.store slot w.spad }

/-- The slot and the LP to which channel ch of a core's work is bound (R316). -/
def Work.lpOf (w : Work) (ch : Nat) : Option (Nat × Lp) := w.lps.find? fun e => e.2.channels.contains ch
def State.lpOf (s : State) (g ch : Nat) : Option (Nat × Lp) := (s.work g).lpOf ch

/-- The LP number (R316). -/
def State.lpNumber (s : State) (g slot : Nat) : Nat := chipOf g * 2 ^ 16 + s.logicalOf g * 16 + slot

/-- Time domain d of a partition (R314). -/
def Partition.domain (p : Partition) (d : Nat) : Domain := Tab.look ⟨0, 0, none, 0⟩ p.domains d

/-- The published GVT of a domain of partition t, and the one that core g sees (R328). -/
def State.gvtOf (s : State) (t d : Nat) : Word := ((s.part t).domain d).gvt
def State.gvt (s : State) (g d : Nat) : Word := s.gvtOf (s.tag g) d

/-- An event of an LP by its number. -/
def Lp.event (lp : Lp) (id : Nat) : Option LpEvent := lp.events.find? fun e => e.id == id

/-- An LP with one of its events changed. -/
def Lp.setEvent (lp : Lp) (id : Nat) (f : LpEvent → LpEvent) : Lp :=
  { lp with events := lp.events.map fun e => if e.id = id then f e else e }

/-- The event that context c of core g runs: the slot, the LP, the event (R319). -/
def State.eventOf (s : State) (g c : Nat) : Option (Nat × Lp × LpEvent) :=
  match (s.ctx g c).event with
  | none => none
  | some (slot, id) =>
    match s.lp g slot with
    | none => none
    | some lp => (lp.event id).map fun e => (slot, lp, e)

/-- The speculative or coasting event that context c of core g runs (R319, R324). -/
def State.ahead (s : State) (g c : Nat) : Option (Nat × Lp × LpEvent) :=
  match s.eventOf g c with
  | some (slot, lp, e) => if e.safe && e.st != .coasting then none else some (slot, lp, e)
  | none => none

/-- Whether context c of core g runs a speculative event (R319). -/
def State.speculative (s : State) (g c : Nat) : Bool :=
  match s.eventOf g c with
  | some (_, _, e) => !e.safe
  | none => false

/-- An instruction that waits, blocked, in a speculative event until the event is safe (R320). -/
def State.whenSafe (s : State) (t : State) : State :=
  if s.speculative s.cur.1 s.cur.2 then s.hold (.blocked .commit) else t

/-! ### Rings (R317, R321) -/

/-- Whether a ring has room for n more bytes. -/
def Ring.room (r : Ring) (n : Nat) : Bool := decide (r.head - r.tail + n ≤ r.cap)

/-- Bytes written into a ring at its head, from place k on. -/
def Ring.write (r : Ring) (k : Nat) (m : Memory) : List Byte → Memory
  | [] => m
  | b :: bs => r.write (k + 1) (m.set (r.base + (r.head + k) % r.cap) b) bs

/-- A ring after n bytes were appended, and after n were freed. -/
def Ring.append (r : Ring) (n : Nat) : Ring := { r with head := r.head + n }
def Ring.free (r : Ring) (n : Nat) : Ring := { r with tail := r.tail + n }

/-- A list of bytes padded with zeros to n bytes. -/
def padTo (n : Nat) (bs : List Byte) : List Byte := bs ++ List.replicate (n - bs.length) 0

/-- A word as bytes. -/
def wordBytes (w : Word) : List Byte := bytesOfNat 8 w.toNat

/-- The head flit of a message (R187). -/
def Msg.headBytes (m : Msg) : List Byte := wordBytes m.d0 ++ wordBytes m.d1 ++ wordBytes m.d2 ++ wordBytes m.d3

/-! ### Regions and stores (R318, R320, R321) -/

/-- The kind of the region that holds a byte: 0 for none (R318). -/
def Lp.kindAt (lp : Lp) (global : Bool) (a : Nat) : Nat :=
  match lp.regions.find? fun r => r.global == global && decide (r.base ≤ a) && decide (a < r.base + r.len) with
  | some r => r.kind
  | none => 0

/-- A part of a store: the kind of region it lies in, its address, its bytes. -/
structure Part where
  kind : Nat
  addr : Nat
  bytes : List Byte
  deriving DecidableEq, Repr

/-- Bytes from an address as parts of one kind each; a part in no region ends at a multiple of 32 (R320). -/
def partsOf (kind : Nat → Nat) (a : Nat) : List Byte → List Part
  | [] => []
  | b :: r =>
    match partsOf kind (a + 1) r with
    | p :: ps =>
      if kind a = p.kind ∧ (p.kind ≠ 0 ∨ (a + 1) % 32 ≠ 0) then { p with addr := a, bytes := b :: p.bytes } :: ps
      else ⟨kind a, a, [b]⟩ :: p :: ps
    | [] => [⟨kind a, a, [b]⟩]

/-- Writes of addresses and bytes joined where one follows the other within a 32-B piece (R231, R320). -/
def joinPieces : List (Nat × List Byte) → List (Nat × List Byte)
  | [] => []
  | (a, bs) :: r =>
    match joinPieces r with
    | (b, cs) :: q => if a + bs.length = b ∧ a / 32 = b / 32 then (a, bs ++ cs) :: q else (a, bs) :: (b, cs) :: q
    | [] => [(a, bs)]

/-- The granules of logged parts that an event has not logged, each once (R321). `off` is the scratchpad offset
of an address. -/
def Lp.newGranules (lp : Lp) (id : Nat) (off : Nat → Nat) (ps : List Part) : List Nat :=
  let gs := ps.flatMap fun p =>
    if p.kind = 1 then (List.range p.bytes.length).map fun i => (off (p.addr + i)) / 32 * 32 else []
  (gs.eraseDups).filter fun a => !(lp.eddy.any fun e => e.event == id && e.addr == a)

/-- The ring bytes of a held item: the head entry holds 40 B of it, each continuation 64 (R317). -/
def heldBytes (n : Nat) : Nat := 64 * (1 + (n - 40 + 63) / 64)

/-- Whether an LP has room for what a store of a speculative event appends (R321). -/
def Lp.storeRoom (lp : Lp) (id : Nat) (off : Nat → Nat) (ps : List Part) : Bool :=
  lp.eddyR.room (48 * (lp.newGranules id off ps).length)
    && lp.commitR.room (64 * (ps.filter fun p => p.kind == 0).length)

/-- The eddy log extended with the old bytes of granules, in the machine of core g (R321). -/
def State.logGranules (s : State) (g slot : Nat) (id : Nat) (vt : Word) : List Nat → State
  | [] => s
  | a :: r =>
    match s.lp g slot with
    | none => s
    | some lp =>
      let old := (s.work g).spad.bytes a 32
      let bs := wordBytes vt ++ bytesOfNat 8 a ++ old
      let w := s.work g
      let s1 := s.setWork g { w with spad := lp.eddyR.write 0 w.spad bs }
      (s1.setLp g slot { lp with eddyR := lp.eddyR.append 48, eddy := lp.eddy ++ [⟨id, a, old⟩] }).logGranules g slot id vt r

/-- The kind number of a held item (R317). -/
def HeldItem.code : HeldItem → Nat
  | .store _ _ => 1
  | .irrev _ => 2
  | .command _ _ _ => 3
  | .send _ _ => 4
  | .scratch _ _ => 5

/-- The address of a held item, and its bytes in the ring; the 32 B of a captured command are free, for the rule does not
lay them out (R317; log entry 85). -/
def HeldItem.address : HeldItem → Word
  | .store a _ => a
  | .scratch a _ => a
  | _ => 0
def HeldItem.content : HeldItem → List Byte
  | .store _ bs => bs
  | .scratch _ bs => bs
  | .irrev r => r
  | .send m _ => m.headBytes ++ m.payload
  | .command _ _ c =>
    (padTo 32 (Config.freeCommand c.id)).take 32 ++ (match c.body with
      | .copy _ _ _ e _ _ => padTo 64 e
      | _ => [])

/-- A commit entry appended to an LP of core g, with the accesses of its context that precede it (R193, R317). -/
def State.holdItem (s : State) (g slot : Nat) (e : LpEvent) (i : HeldItem) : State :=
  match s.lp g slot with
  | none => s
  | some lp =>
    let c := i.content
    let n := heldBytes c.length
    let bs := wordBytes e.vt ++ bytesOfNat 1 i.code ++ bytesOfNat 1 (n / 64 - 1) ++ bytesOfNat 2 c.length ++ [0, 0, 0, 0]
      ++ wordBytes i.address ++ c
    let w := s.work g
    let s1 := s.setWork g { w with spad := lp.commitR.write 0 w.spad (padTo n bs) }
    s1.setLp g slot { lp with commitR := lp.commitR.append n, commits := lp.commits ++ [⟨e.id, i, n, s.nextId, (s.ctx g e.ctx).pending⟩] }

/-- The offset in core g's scratchpad that an address names, if it is the core's own (R141). -/
def State.ownOffset (s : State) (g a : Nat) : Option Nat :=
  match s.localTarget g (BitVec.ofNat 64 a) with
  | some (h, off) => if h = g then some off else none
  | none => none

/-- The kind of region a scratchpad address of core g lies in. -/
def State.scratchKind (s : State) (g : Nat) (lp : Lp) (a : Nat) : Nat :=
  match s.ownOffset g a with
  | some off => lp.kindAt false off
  | none => 0

/-- The parts of scratchpad writes by an event of core g. -/
def State.scratchParts (s : State) (g : Nat) (lp : Lp) (ws : List (Nat × List Byte)) : List Part :=
  (joinPieces ws).flatMap fun w => partsOf (s.scratchKind g lp) w.1 w.2

/-- Whether scratchpad writes by context c of core g can go ahead: always but in a speculative event, where the
rings must have room (R321). -/
def State.scratchRoom (s : State) (g c : Nat) (ws : List (Nat × List Byte)) : Bool :=
  match s.ahead g c with
  | none => true
  | some (_, lp, e) =>
    e.st == .coasting || lp.storeRoom e.id (fun a => (s.ownOffset g a).getD 0) (s.scratchParts g lp ws)

/-- Scratchpad bytes written at an address of core g (R141). -/
def State.scratchStore (s : State) (g a : Nat) (bs : List Byte) : State :=
  match s.localTarget g (BitVec.ofNat 64 a) with
  | some (h, off) => s.localStore h off bs
  | none => s

/-- One part of a scratchpad write by an event (R320, R324). -/
def State.scratchPart (s : State) (g slot : Nat) (e : LpEvent) (p : Part) : State :=
  if e.st = .coasting then (if p.kind = 3 then s.scratchStore g p.addr p.bytes else s)
  else if p.kind = 0 then s.holdItem g slot e (.scratch (BitVec.ofNat 64 p.addr) p.bytes)
  else s.scratchStore g p.addr p.bytes

/-- Scratchpad writes by context c of core g, whose checks have passed and whose rings have room: performed, or
in a speculative event logged, performed or held part by part (R320, R321). -/
def State.scratchWrites (s : State) (g c : Nat) (ws : List (Nat × List Byte)) : State :=
  match s.ahead g c with
  | none => ws.foldl (fun t w => t.scratchStore g w.1 w.2) s
  | some (slot, lp, e) =>
    let ps := s.scratchParts g lp ws
    let s1 := if e.st = .coasting then s
      else s.logGranules g slot e.id e.vt (lp.newGranules e.id (fun a => (s.ownOffset g a).getD 0) ps)
    ps.foldl (fun t p => t.scratchPart g slot e p) s1

/-- One name for each byte of scratchpad: the W = 0 form for the core's own (R141). -/
def State.plainAddr (s : State) (g a : Nat) : Nat := (s.ownOffset g a).getD a

/-- What an event's held stores put at a byte: the newest (R320). `at` maps an address to its plain name. -/
def Lp.heldAt (lp : Lp) (id : Nat) (scratch : Bool) (plain : Nat → Nat) (a : Nat) : Option Byte :=
  lp.commits.foldl (fun old h =>
    if h.event = id then
      match h.item with
      | .scratch b bs => if scratch && decide (plain b.toNat ≤ plain a) then (bs[plain a - plain b.toNat]?).or old else old
      | .store b bs => if !scratch && decide (b.toNat ≤ a) then (bs[a - b.toNat]?).or old else old
      | _ => old
    else old) none

/-- The bytes of a load at addresses a, a + 1, … that the executing event's own held stores cover (R320). -/
def State.covered (s : State) (g c : Nat) (scratch : Bool) (a n : Nat) : List (Nat × Byte) :=
  match s.ahead g c with
  | none => []
  | some (_, lp, e) =>
    if e.st = .coasting then [] else (List.range n).filterMap fun i => (lp.heldAt e.id scratch (s.plainAddr g) (a + i)).map fun b => (i, b)

/-- Bytes with some of them replaced. -/
def overlay (bs : List Byte) (ov : List (Nat × Byte)) : List Byte := ov.foldl (fun l o => listSet l o.1 o.2) bs

end Sys2Proof.Machine
end

