-- ==== Sys2Proof/Machine/Branch.lean ====
section
/-! DEFINITION. Branches, jumps and hardware loops (R82 to R85), YIELD and GETID (R94, R96), the control
registers (R45 to R64), and the software traps (R214). -/

namespace Sys2Proof.Machine

/-! ### Branches and jumps (R85) -/

/-- The target of a displacement in halfwords (R85). -/
def target (s : State) {n : Nat} (d : BitVec n) : Word := s.me.pc + (d.signExtend 64) <<< 1

/-- A conditional transfer of `len` halfwords: checked when taken (R16, R17). -/
def State.branch (s : State) (len : Nat) (taken : Bool) (a : Word) : State :=
  if taken then s.retireTo a true else s.retire len

/-- The conditions of B.cc: EQ, NE, LT, GE, LTU, GEU (R31). -/
def condHolds (c : BitVec 4) (a b : Word) : Bool :=
  if c = 0 then a == b else if c = 1 then a != b else if c = 2 then a.slt b
  else if c = 3 then !a.slt b else if c = 4 then a.ult b else !a.ult b

/-- `B_CC` (R85). -/
def execBCc (c : BitVec 4) (a b : XReg) (d : BitVec 12) (s : State) : Res :=
  .next (s.branch 2 (condHolds c (s.x a) (s.x b)) (target s d))
/-- `BZ` (R85). -/
def execBz (a : XReg) (d : BitVec 16) (s : State) : Res := .next (s.branch 2 (s.x a == 0) (target s d))
/-- `BNZ` (R85). -/
def execBnz (a : XReg) (d : BitVec 16) (s : State) : Res := .next (s.branch 2 (s.x a != 0) (target s d))
/-- `BZ_COMPACT` (R85). -/
def execBzCompact (a : XReg) (d : BitVec 6) (s : State) : Res := .next (s.branch 1 (s.x a == 0) (target s d))
/-- `BNZ_COMPACT` (R85). -/
def execBnzCompact (a : XReg) (d : BitVec 6) (s : State) : Res := .next (s.branch 1 (s.x a != 0) (target s d))
/-- `J` (R85). -/
def execJ (d : BitVec 24) (s : State) : Res := .next (s.retireTo (target s d) true)
/-- `J_COMPACT` (R85). -/
def execJCompact (d : BitVec 10) (s : State) : Res := .next (s.retireTo (target s d) true)
/-- `JAL`: the link is the next sequential address (R15, R85). -/
def execJal (r : XReg) (d : BitVec 20) (s : State) : Res :=
  .next ((s.setX r (nextSeq s.me.pc 2)).retireTo (target s d) true)
/-- `JR` (R85). -/
def execJr (a : XReg) (s : State) : Res := .next (s.retireTo (s.x a) true)
/-- `JR_COMPACT` (R85). -/
def execJrCompact (a : XReg) (s : State) : Res := .next (s.retireTo (s.x a) true)

/-! ### Hardware loops (R82 to R84) -/

/-- LOOP and LOOPI with trip count n (R82). -/
def State.startLoop (s : State) (n : Word) (e : BitVec 12) : State :=
  let k := s.me
  let start := nextSeq k.pc 2
  let stop := k.pc + BitVec.ofNat 64 (2 * e.toNat)
  if n = 0 then s.retireTo stop false
  else if k.loops.length = 4 then s.trap 0x10
  else if (match k.loops with
    | t :: _ => decide (t.start ≤ k.pc) && decide (k.pc < t.stop) && decide (t.stop < stop)
    | [] => false) then s.illegal
  else (s.setMe { k with loops := ⟨start, stop, n⟩ :: k.loops }).retireTo start false

/-- `LOOP` (R82). -/
def execLoop (a : XReg) (e : BitVec 12) (s : State) : Res := .next (s.startLoop (s.x a) e)
/-- `LOOPI` (R82). -/
def execLoopi (n e : BitVec 12) (s : State) : Res := .next (s.startLoop (n.setWidth 64) e)
/-- `BREAKL`: the top entry is popped, and flow goes to its end (R84). -/
def execBreakl (s : State) : Res :=
  .next <| match s.me.loops with
    | [] => s.illegal
    | t :: r => (s.setMe { s.me with loops := r }).retireTo t.stop false

/-! ### YIELD and GETID (R79, R94, R96) -/

/-- YIELD sets the age to the current cycle; issue has returned the class to its base (R79, R94); it resets
the watchdog count (R219). -/
def State.doYield (s : State) (len : Nat) : State :=
  (s.setMe { s.me with age := s.cycle s.cur.1, bump := 0, watch := 0, since := s.cycle s.cur.1 }).retire len

/-- `YIELD` (R94). -/
def execYield (s : State) : Res := .next (s.doYield 2)
/-- `YIELD_COMPACT` (R94). -/
def execYieldCompact (s : State) : Res := .next (s.doYield 1)

/-- The values of GETID; all ones for selectors 2, 3 and 8 in a free strand (R70, R96). -/
def State.identity (s : State) (sel : BitVec 4) : Word :=
  let g := s.cur.1
  let n := sel.toNat
  let ones := BitVec.allOnes 64
  let crew := s.me.crewOf.bind fun cr => Tab.find (s.work g).crews cr
  let p := physOf g
  if n = 0 then BitVec.ofNat 64 (s.logicalOf g)
  else if n = 1 then BitVec.ofNat 64 s.cur.2
  else if n = 2 then (match crew with
    | some k => k.index
    | none => ones)
  else if n = 3 then (match s.me.role with
    | .strand _ k => BitVec.ofNat 64 k
    | _ => ones)
  else if n = 4 then BitVec.ofNat 64 (p % 320 / 16)
  else if n = 5 then BitVec.ofNat 64 (p / 320)
  else if n = 6 then BitVec.ofNat 64 (chipOf g)
  else if n = 7 then BitVec.ofNat 64 (s.tag g)
  else (match crew with
    | some k => BitVec.ofNat 64 k.grid.id
    | none => ones)

/-- `GETID` (R96). -/
def execGetid (d : XReg) (sel : BitVec 4) (s : State) : Res := .next (writeX s 2 d (s.identity sel))

/-! ### Control registers (R45 to R64) -/

/-- NETCAP: a device constant (R45, R52). -/
def netcap : Word := 0x0000002020404020

/-- Whether every V-slot entry of the ring has completed (R50, R92). -/
def Ctx.vectorsDone (k : Ctx) : Bool := k.ring.all fun e => e.unit != 0

/-- Whether a control register waits for earlier V-slot instructions (R50). -/
def crOrdered (r : BitVec 12) : Bool := decide (r.toNat ≤ 2)

/-- The value of a control register (R47, R52, R61). -/
def State.readCr (s : State) (r : BitVec 12) : Word :=
  let k := s.me
  let c := s.core s.cur.1
  let n := r.toNat
  if n = 0 then k.fpflags.setWidth 64 else if n = 1 then k.rnd.setWidth 64
  else if n = 2 then k.rng.setWidth 64 else if n = 3 then k.vt
  else if 8 ≤ n ∧ n < 16 then (k.mbox[n - 8]?).getD 0
  else if n = 0x10 then k.cause.setWidth 64 else if n = 0x11 then k.tseq.setWidth 64
  else if n = 0x100 then BitVec.ofNat 64 (s.cycle s.cur.1)
  else if n = 0x101 then c.work.olcnt.setWidth 64 else if n = 0x102 then c.work.olbase.setWidth 64
  else if n = 0x103 then c.errlog
  else if n = 0x200 then c.work.trapvec else if n = 0x201 then c.work.pswap.setWidth 64
  else if n = 0x202 then (s.floorAt s.cur.1).setWidth 64
  else netcap

/-- The fields of FPFLAGS that a write takes: flags and enables (R47). -/
def fpflagsMask : BitVec 14 := 0x3F3F

/-- The fields of PSWAP: n in [4:0], d in [31:8] (R52). -/
def pswapMask : BitVec 32 := 0xFFFFFF1F

/-- Whether a value is illegal in a register's field map (R47, R52). -/
def crIllegal (r : BitVec 12) (v : Word) : Bool :=
  let n := r.toNat
  if n = 1 then decide (field v 0 3 ≥ 5)
  else if n = 2 then decide (field v 0 32 = 0)
  else if n = 0x102 then decide (field v 0 4 ≠ 0)
  else if n = 0x200 then v.toNat % 128 != 0
  else if n = 0x201 then decide (field v 0 5 > 16)
  else false

/-- The context a CWR of TRAPCAUSE or TRAPSEQ writes: the one named in the frame being settled, else the
executing one (R64, R215). -/
def State.trapTarget (s : State) : Nat :=
  if s.me.sup && decide (frameAddr 0 ≤ s.me.settling) then (s.me.settling - frameAddr 0) / 0x400 else s.cur.2

/-- A control register written, field by field (R47, R52, R55, R64). -/
def State.writeCr (s : State) (r : BitVec 12) (v : Word) : State :=
  let k := s.me
  let g := s.cur.1
  let w := s.work g
  let n := r.toNat
  if n = 0 then s.setMe { k with fpflags := v.setWidth 14 &&& fpflagsMask }
  else if n = 1 then s.setMe { k with rnd := v.setWidth 3 }
  else if n = 2 then s.setMe { k with rng := v.setWidth 32 }
  else if 8 ≤ n ∧ n < 16 then s.setMe { k with mbox := k.mbox.setIfInBounds (n - 8) v }
  else if n = 0x10 then s.setCtx g s.trapTarget { s.ctx g s.trapTarget with cause := v.setWidth 9 }
  else if n = 0x11 then s.setCtx g s.trapTarget { s.ctx g s.trapTarget with tseq := v.setWidth 8 }
  else if n = 0x101 then s.setWork g { w with olcnt := v.setWidth 32 }
  else if n = 0x102 then s.setWork g { w with olbase := v.setWidth 19 }
  else if n = 0x103 then
    (if v.getLsbD 0 then s.setCore g { s.core g with errlog := (s.core g).errlog &&& ~~~3 } else s)
  else if n = 0x200 then s.setWork g { w with trapvec := v }
  else s.setWork g { w with pswap := v.setWidth 32 &&& pswapMask }

/-- `CRD` (R46, R50, R61). -/
def execCrd (d : XReg) (r : BitVec 12) (s : State) : Res :=
  .next <|
    if crReadPrivileged r && !s.me.sup then s.privTrap
    else if crOrdered r && !s.me.vectorsDone then s.hold (.blocked .quiet)
    else writeX s 2 d (s.readCr r)

/-- `CWR`: a value that the field map marks illegal raises the illegal-instruction trap (R46, R47); a per-core
register waits for a speculative event to be safe (R320). -/
def execCwr (a : XReg) (r : BitVec 12) (s : State) : Res :=
  .next <|
    if crWritePrivileged r && !s.me.sup then s.privTrap
    else if decide (0x100 ≤ r.toNat) && s.speculative s.cur.1 s.cur.2 then s.hold (.blocked .commit)
    else if crIllegal r (s.x a) then s.illegal
    else if crOrdered r && !s.me.vectorsDone then s.hold (.blocked .quiet)
    else (s.writeCr r (s.x a)).retire 2

/-! ### Software traps (R214) -/

/-- `TRAP`: retires, and raises code 0x14 with the next address; under single step the lower code 0x12 is
taken with both bits in the mask (R207, R208, R214, R218). -/
def execTrap (c : BitVec 10) (s : State) : Res :=
  let s1 := s.setMe { s.me.flow (nextSeq s.me.pc 2) none with chunk := s.me.chunk + 1 }
  let t1 : TrapInfo := { s1.trapInfo 0x14 0 with code := c }
  .next (s1.takeTrap s.cur.1 s.cur.2
    (if s.me.stepArm then { t1 with cause := 0x12, mask := t1.mask ||| BitVec.ofNat 23 (2 ^ 0x12) } else t1))

/-- `BRK`: does not retire, and raises code 0x13 (R214). -/
def execBrk (c : BitVec 10) (s : State) : Res :=
  .next (s.takeTrap s.cur.1 s.cur.2 { s.trapInfo 0x13 0 with code := c })

end Sys2Proof.Machine
end

