-- ==== Sys2Proof/Machine/Local.lean ====
section
/-! DEFINITION. Scratchpad (R141 to R149): its checks, scalar and vector access, table loads, and the
byte-counting barrier objects (R150 to R153). -/

namespace Sys2Proof.Machine

/-- A number of `size` bytes as a register value, sign- or zero-extended (R147). -/
def extendTo (size : Nat) (signed : Bool) (v : Nat) : Word :=
  if signed then BitVec.ofInt 64 (toSigned (8 * size) v) else BitVec.ofNat 64 v

/-! ### LDL and STL (R147) -/

/-- A scalar scratchpad load of the executing context into xd; the instruction has `len` halfwords. -/
def State.loadLocal (s : State) (len size : Nat) (signed : Bool) (d : XReg) (a : Word) : State :=
  let g := s.cur.1
  let c := s.cur.2
  match s.localAccess g s.me.sup a size false with
  | .error _ => s.accessTrap (s.localCauses g s.me.sup a size false) (s.watchHit g c a.toNat size 2) a
  | .ok (h, off) =>
    match s.watchHit g c a.toNat size 2 with
    | some i => s.watchTrap 0x08 i a
    | none =>
      if s.clashes g c [(h, off, size)] then s.hold (.blocked .drain)
      else if (s.work h).poisonedAt off size then s.terminate g c 1 a
      else
        let bs := overlay ((s.work h).spad.bytes off size) (s.covered g c true a.toNat size)
        writeX s len d (extendTo size signed (natOfBytes bs))

/-- A scalar scratchpad store of the executing context. -/
def State.storeLocal (s : State) (size : Nat) (v : Word) (a : Word) : State :=
  let g := s.cur.1
  let c := s.cur.2
  match s.localAccess g s.me.sup a size true with
  | .error _ => s.accessTrap (s.localCauses g s.me.sup a size true) (s.watchHit g c a.toNat size 4) a
  | .ok (h, off) =>
    match s.watchHit g c a.toNat size 4 with
    | some i => s.watchTrap 0x08 i a
    | none =>
      if s.clashes g c [(h, off, size)] then s.hold (.blocked .drain) else
      let w := [(a.toNat, bytesOfNat size v.toNat)]
      if s.scratchRoom g c w then (s.scratchWrites g c w).retire 2 else s.hold (.blocked .commit)

/-- `LDL` (R147). -/
def execLdl (z : BitVec 2) (d a : XReg) (sg : BitVec 1) (o : BitVec 13) (s : State) : Res :=
  .next (s.loadLocal 2 (2 ^ z.toNat) (sg == 1) d (s.x a + o.signExtend 64))

/-- `STL` (R147). -/
def execStl (z : BitVec 2) (d a : XReg) (o : BitVec 13) (s : State) : Res :=
  .next (s.storeLocal (2 ^ z.toNat) (s.x d) (s.x a + o.signExtend 64))

/-- `LDL_D_COMPACT`: LDL.D with offset 8 × off4 (R147). -/
def execLdlDCompact (o : BitVec 4) (d a : XReg) (s : State) : Res :=
  .next (s.loadLocal 1 8 false d (s.x a + BitVec.ofNat 64 (8 * o.toNat)))

/-! ### Vector access (R148) -/

/-- The checks of the active lanes in ascending order: the first failing lane's cause and address, or every
lane's core and offset (R148). -/
def State.laneAccess (s : State) (g : Nat) (sup : Bool) (write : Bool) (addr : Nat → Word) :
    List Nat → Except (Nat × Word) (List (Nat × Nat × Nat))
  | [] => .ok []
  | i :: r =>
    match s.localAccess g sup (addr i) 4 write with
    | .error cause => .error (cause, addr i)
    | .ok t => (s.laneAccess g sup write addr r).map fun rest => (i, t) :: rest

/-- The active lanes of a predicate. -/
def activeLanes (act : BitVec 64) : List Nat := (List.range 64).filter fun i => act.getLsbD i

/-- The first lane and comparator that match a watchpoint (R217). -/
def State.laneWatch (s : State) (g c : Nat) (kinds : BitVec 3) (addr : Nat → Word) : List Nat → Option (Nat × Word)
  | [] => none
  | i :: r =>
    match s.watchHit g c (addr i).toNat 4 kinds with
    | some n => some (n, addr i)
    | none => s.laneWatch g c kinds addr r

/-- The writes of lanes in ascending order: where two lanes name one address, the higher stays (R148). -/
def laneWrites (data : VReg) (addr : Nat → Word) (ls : List Nat) : List (Nat × List Byte) :=
  ls.map fun i => ((addr i).toNat, bytesOfNat 4 (lane data i).toNat)

/-- The body of a vector scratchpad access with its lanes' addresses (R148): a failing lane makes a late
fault and nothing is written. -/
def localBody (d : Nat) (p : BitVec 3) (write : Bool) (addr : Ctx → Vector Word 16 → Nat → Word) : VBody :=
  fun s g c e =>
    let k := s.ctx g c
    let act := k.pred p
    let ad := addr k e.xs
    match s.laneAccess g k.sup write ad (activeLanes act) with
    | .error (cause, a) =>
      let w := s.watchHit g c a.toNat 4 (if write then 4 else 2)
      let s1 := match w with
        | some n => s.pull g n
        | none => s
      s1.setCtx g c ((k.faultEntry e.seq cause a false).alsoCauses e.seq
        (s.localCauses g k.sup a 4 write ++ if w.isSome then [0x08] else []))
    | .ok ts =>
      match s.laneWatch g c (if write then 4 else 2) ad (activeLanes act) with
      | some (n, a) => (s.pull g n).setCtx g c (k.watchEntry e.seq n a)
      | none =>
        if write then
          let s1 := s.scratchWrites g c (laneWrites (k.vreg d) ad (activeLanes act))
          s1.setCtx g c ((s1.ctx g c).doneEntry e.seq)
        else
          let r := mapLanes act (k.vreg d) (fun i a =>
            match ts.find? (fun t => t.1 == i) with
            | some (_, h, off) =>
              (BitVec.ofNat 32 (natOfBytes (overlay ((s.work h).spad.bytes off 4) (s.covered g c true (ad i).toNat 4))), a)
            | none => (0, a)) k.acc
          s.setCtx g c ((k.setV d r.1).doneEntry e.seq)

/-- The scalar register a base specifier names, as captured (R34). -/
def baseReg (xs : Vector Word 16) (a : BitVec 6) : Word := (xs[a.toNat - 16]?).getD 0

/-- Lane addresses base + 4 i. -/
def linearAddr (a : BitVec 6) : Ctx → Vector Word 16 → Nat → Word :=
  fun _ xs i => baseReg xs a + BitVec.ofNat 64 (4 * i)

/-- Lane addresses base + the offset in lane i of b. -/
def indexedAddr (a b : BitVec 6) : Ctx → Vector Word 16 → Nat → Word :=
  fun k xs i => baseReg xs a + (lane (srcLanes k xs b 5) i).setWidth 64

/-- The address of the first active lane of a scratchpad load that would read poison, where every lane passes its checks and no
comparator matches (R148, R217, R363). -/
def State.lanePoison (s : State) (p : BitVec 3) (addr : Nat → Word) : Option Word :=
  let ls := activeLanes (s.me.pred p)
  match s.laneAccess s.cur.1 s.me.sup false addr ls with
  | .error _ => none
  | .ok ts =>
    if (s.laneWatch s.cur.1 s.cur.2 2 addr ls).isSome then none
    else ((ts.find? fun t => (s.work t.2.1).poisonedAt t.2.2 4).map fun t => t.1).map addr

/-- Whether an earlier access of context c of core g through a window is still to reach bytes of active lanes (R240). -/
def State.lanesClash (s : State) (g c : Nat) (sup write : Bool) (act : BitVec 64) (addr : Nat → Word) : Bool :=
  match s.laneAccess g sup write addr (activeLanes act) with
  | .error _ => false
  | .ok ts => s.clashes g c (ts.map fun t => (t.2.1, t.2.2, 4))

/-- A vector scratchpad load issues; consuming poison ends the context before it takes effect (R363). -/
def State.issueLoad (s : State) (i : Instr) (p : BitVec 3) (addr : Ctx → Vector Word 16 → Nat → Word) (b : VBody) : State :=
  if s.lanesClash s.cur.1 s.cur.2 s.me.sup false (s.me.pred p) (addr s.me s.me.x) then s.hold (.blocked .drain)
  else match s.lanePoison p (addr s.me s.me.x) with
    | some a => s.terminate s.cur.1 s.cur.2 1 a
    | none => s.issueV i 2 b

/-- A vector scratchpad store issues once the rings of a speculative event have room for it (R321). -/
def State.issueStore (s : State) (i : Instr) (d : Nat) (p : BitVec 3) (addr : Ctx → Vector Word 16 → Nat → Word) (b : VBody) :
    State :=
  if s.lanesClash s.cur.1 s.cur.2 s.me.sup true (s.me.pred p) (addr s.me s.me.x) then s.hold (.blocked .drain)
  else if s.scratchRoom s.cur.1 s.cur.2 (laneWrites (s.me.vreg d) (addr s.me s.me.x) (activeLanes (s.me.pred p))) then
    s.issueV i 2 b
  else s.hold (.blocked .commit)

def bodyVldl (d : BitVec 5) (a : BitVec 6) (p : BitVec 3) : VBody := localBody d.toNat p false (linearAddr a)
def bodyVstl (d : BitVec 5) (a : BitVec 6) (p : BitVec 3) : VBody := localBody d.toNat p true (linearAddr a)
def bodyVgathl (d : BitVec 5) (a b : BitVec 6) (p : BitVec 3) : VBody := localBody d.toNat p false (indexedAddr a b)
def bodyVscatl (d : BitVec 5) (a b : BitVec 6) (p : BitVec 3) : VBody := localBody d.toNat p true (indexedAddr a b)

/-- `VLDL` (R148). -/
def execVldl (d : BitVec 5) (a : BitVec 6) (p : BitVec 3) (s : State) : Res :=
  .next (s.issueLoad (.vldl d a p) p (linearAddr a) (bodyVldl d a p))
/-- `VSTL` (R148). -/
def execVstl (d : BitVec 5) (a : BitVec 6) (p : BitVec 3) (s : State) : Res :=
  .next (s.issueStore (.vstl d a p) d.toNat p (linearAddr a) (bodyVstl d a p))
/-- `VGATHL` (R148). -/
def execVgathl (d : BitVec 5) (a b : BitVec 6) (p : BitVec 3) (s : State) : Res :=
  .next (s.issueLoad (.vgathl d a b p) p (indexedAddr a b) (bodyVgathl d a b p))
/-- `VSCATL` (R148). -/
def execVscatl (d : BitVec 5) (a b : BitVec 6) (p : BitVec 3) (s : State) : Res :=
  .next (s.issueStore (.vscatl d a b p) d.toNat p (indexedAddr a b) (bodyVscatl d a b p))

/-! ### TBLLD (R136, R149) -/

/-- The position of table t's image in a core's tables: 1,040 bytes each. -/
def tableAt (t : Nat) : Nat := 2048 * t

/-- The byte checks of a table image, in ascending order. -/
def State.imageAccess (s : State) (g : Nat) (sup : Bool) (a : Word) : Nat → Nat → Except (Nat × Word) Unit
  | 0, _ => .ok ()
  | n + 1, i =>
    match s.localAccess g sup (a + BitVec.ofNat 64 i) 1 false with
    | .error cause => .error (cause, a + BitVec.ofNat 64 i)
    | .ok _ => s.imageAccess g sup a n (i + 16)

/-- The 16 bytes at a checked, 16-aligned scratchpad address: they lie in one core's scratchpad (R141). -/
def State.blockBytes (s : State) (g : Nat) (a : Word) : List Byte :=
  match s.localTarget g a with
  | some (h, off) => (s.work h).spad.bytes off 16
  | none => List.replicate 16 0

/-- The places of n 16-byte blocks from an address (R141). -/
def State.blockSpans (s : State) (g : Nat) (a : Word) (n : Nat) : List (Nat × Nat × Nat) :=
  (List.range n).filterMap fun i => (s.localTarget g (a + BitVec.ofNat 64 (16 * i))).map fun t => (t.1, t.2, 16)

/-- The body of TBLLD: the image replaces the whole table; a fault leaves it unchanged. A 16-aligned block
of 16 bytes lies in one region, so one check serves it. -/
def bodyTblld (t : BitVec 5) (a : BitVec 6) : VBody := fun s g c e =>
  let k := s.ctx g c
  let base := baseReg e.xs a
  let hit := s.watchHit g c base.toNat 1040 2
  match s.imageAccess g k.sup base 65 0 with
  | .error (cause, ad) =>
    let s1 := match hit with
      | some n => s.pull g n
      | none => s
    s1.setCtx g c ((k.faultEntry e.seq cause ad false).alsoCauses e.seq (cause :: if hit.isSome then [0x08] else []))
  | .ok _ =>
    match hit with
    | some n => (s.pull g n).setCtx g c (k.watchEntry e.seq n base)
    | none =>
      let img := (s.blockBytes g base).take 5 ++ List.replicate 11 0
        ++ (List.range 64).flatMap fun i => s.blockBytes g (base + BitVec.ofNat 64 (16 * (i + 1)))
      let w := s.work g
      let s1 := s.setWork g { w with tables := (w.tables.clear (tableAt t.toNat) 1040).store (tableAt t.toNat) img }
      s1.setCtx g c ((s1.ctx g c).doneEntry e.seq)

/-- `TBLLD`: a base that is not 16-aligned traps exactly (R149); it waits for a speculative event to be safe
(R320). -/
def execTblld (t : BitVec 5) (a : BitVec 6) (s : State) : Res :=
  let base := baseReg s.me.x a
  .next <| s.whenSafe <|
    if base.toNat % 16 ≠ 0 then s.trap 0x06 base
    else if s.clashes s.cur.1 s.cur.2 (s.blockSpans s.cur.1 base 65) then s.hold (.blocked .drain)
    else s.issueV (.tblld t a) 2 (bodyTblld t a)

/-! ### Byte-counting barriers (R150 to R153) -/

/-- A barrier object (R150). -/
structure BarObj where
  count : BitVec 16
  init : BitVec 16
  pending : BitVec 16
  ov : Bool
  te : Bool
  tx : Int
  deriving DecidableEq, Repr

/-- The object at an offset of a scratchpad. -/
def readBar (m : Memory) (a : Nat) : BarObj where
  count := BitVec.ofNat 16 (natOfBytes (m.bytes a 2))
  init := BitVec.ofNat 16 (natOfBytes (m.bytes (a + 2) 2))
  pending := BitVec.ofNat 16 (natOfBytes (m.bytes (a + 4) 2))
  ov := (m.get (a + 6)).getLsbD 0
  te := (m.get (a + 6)).getLsbD 1
  tx := toSigned 32 (natOfBytes (m.bytes (a + 8) 4))

/-- The 16 bytes of an object; reserved fields read 0 (R5, R150). -/
def BarObj.bytes (o : BarObj) : List Byte :=
  bytesOfNat 2 o.count.toNat ++ bytesOfNat 2 o.init.toNat ++ bytesOfNat 2 o.pending.toNat
    ++ [BitVec.ofNat 8 (bitOf o.ov + 2 * bitOf o.te), 0] ++ bytesOfNat 4 (ofSigned 32 o.tx) ++ [0, 0, 0, 0]

/-- Complete(o) (R151). -/
def BarObj.complete (o : BarObj) : BarObj := { o with count := o.count + 1, pending := o.init }

/-- The check after a BEXPECT or BARRIVE: with no arrivals pending and no bytes outstanding, the phase
completes (R151). -/
def BarObj.check (o : BarObj) : BarObj := if o.pending = 0 ∧ o.tx = 0 then o.complete else o

/-- Credit(o, n): the object, and whether the credit crossed zero (R151). -/
def BarObj.credit (o : BarObj) (n : Nat) : BarObj × Bool :=
  if 0 < o.tx ∧ o.tx - n < 0 ∧ o.pending = 0 then
    ({ { o with tx := 0 }.complete with tx := o.tx - n, ov := true }, true)
  else
    let o1 := if o.tx - n < -(2 ^ 31) then { o with tx := -(2 ^ 31), ov := true } else { o with tx := o.tx - n }
    (o1.check, false)

/-- Whether phase p has completed (R150). -/
def BarObj.phaseDone (o : BarObj) (p : BitVec 16) : Bool := decide ((o.count - 1 - p).toNat < 2 ^ 15)

/-- The address checks of a barrier instruction: 16-aligned, in the core's own scratchpad, W = 0 (R141,
R150, R152). A misaligned address is checked as the aligned one below it. -/
def State.barCauses (s : State) (a : Word) (write : Bool) : List (Nat × Word) :=
  (if a.toNat % 16 ≠ 0 then [(0x06, a)] else []) ++
    (if a.getLsbD 23 then [(0x07, a)]
    else match s.localAccess s.cur.1 s.me.sup (a &&& ~~~15) 16 write with
      | .error cause => [(cause, a)]
      | .ok _ => [])

/-- An object written by context c of core g: in a speculative event the change is logged where the object lies
in a logged region, and while an event coasts it is made in a checkpoint region alone (R320, R324). -/
def State.putBarFor (s : State) (g c off : Nat) (o : BarObj) : State :=
  match s.ahead g c with
  | none => s.localStore g off o.bytes
  | some (slot, lp, e) =>
    let kind := lp.kindAt false off
    if e.st = .coasting then (if kind = 3 then s.localStore g off o.bytes else s)
    else (s.logGranules g slot e.id e.vt (lp.newGranules e.id id [⟨kind, off, o.bytes⟩])).localStore g off o.bytes

/-- Whether a change to an object can be logged (R321). -/
def State.barRoom (s : State) (g c off : Nat) (o : BarObj) : Bool :=
  match s.ahead g c with
  | none => true
  | some (_, lp, e) =>
    e.st == .coasting || lp.eddyR.room (48 * (lp.newGranules e.id id [⟨lp.kindAt false off, off, o.bytes⟩]).length)

/-- The executing context writes an object and retires, once the change can be logged. -/
def State.putBar (s : State) (off : Nat) (o : BarObj) : State :=
  if s.barRoom s.cur.1 s.cur.2 off o then (s.putBarFor s.cur.1 s.cur.2 off o).retire 2 else s.hold (.blocked .commit)

/-- The object the executing context reads. -/
def State.bar (s : State) (off : Nat) : BarObj := readBar (s.work s.cur.1).spad off

/-- The checks of a barrier instruction, all of them, and the object's offset when they pass (R152, R208). -/
def State.barCheck (s : State) (a : Word) (write operandOk : Bool) : Except (List (Nat × Word)) Nat :=
  match (if operandOk then [] else [(0x04, a)]) ++ s.barCauses a write with
  | [] => (s.localAccess s.cur.1 s.me.sup a 16 write).map (fun t => t.2) |>.mapError fun cause => [(cause, a)]
  | cs => .error cs

/-- A barrier instruction once its checks pass and no comparator matches its access to the object (R152, R217, R368). -/
def State.withBar (s : State) (a : Word) (write operandOk : Bool) (kinds : BitVec 3) (f : Nat → State) : State :=
  match s.barCheck a write operandOk with
  | .error cs =>
    match s.watchHit s.cur.1 s.cur.2 a.toNat 16 kinds with
    | some i => (s.pull s.cur.1 i).trapAll (cs ++ [(0x08, a)])
    | none => s.trapAll cs
  | .ok off =>
    match s.watchHit s.cur.1 s.cur.2 a.toNat 16 kinds with
    | some i => s.watchTrap 0x08 i a
    | none => if s.clashes s.cur.1 s.cur.2 [(s.cur.1, off, 16)] then s.hold (.blocked .drain) else f off

/-- A barrier instruction that reads its object: poison in the object ends the context (R363). -/
def State.readsBar (s : State) (a : Word) (write operandOk : Bool) (kinds : BitVec 3) (f : Nat → State) : State :=
  s.withBar a write operandOk kinds fun off =>
    if (s.work s.cur.1).poisonedAt off 16 then s.terminate s.cur.1 s.cur.2 1 a else f off

/-- `BINIT` (R152). -/
def execBinit (a b : XReg) (s : State) : Res :=
  let n : BitVec 16 := (s.x b).setWidth 16
  .next <| s.withBar (s.x a) true (n != 0 && decide ((s.x b).toNat < 2 ^ 17)) 4 fun off =>
    s.putBar off ⟨0, n, n, false, (s.x b).getLsbD 16, 0⟩

/-- `BEXPECT` (R152). -/
def execBexpect (a b : XReg) (s : State) : Res :=
  .next <| s.readsBar (s.x a) true (decide ((s.x b).toNat < 2 ^ 31)) 6 fun off =>
    let o := s.bar off
    if o.tx + (s.x b).toNat ≥ 2 ^ 31 then s.trap 0x0B (s.x a)
    else s.putBar off { o with tx := o.tx + (s.x b).toNat }.check

/-- `BARRIVE`: a release at core scope, so earlier stores and loads are performed first (R152, R153). -/
def execBarrive (a : XReg) (s : State) : Res :=
  .next <| s.readsBar (s.x a) true true 6 fun off =>
    let o := s.bar off
    if o.pending = 0 then s.trap 0x0B (s.x a)
    else if s.me.drained then s.putBar off { o with pending := o.pending - 1 }.check
    else s.hold (.blocked .drain)

/-- `BWAIT`: waits until the phase has completed (R152). -/
def execBwait (a b : XReg) (s : State) : Res :=
  let p : BitVec 16 := (s.x b).setWidth 16
  .next <| s.readsBar (s.x a) false (decide ((s.x b).toNat < 2 ^ 16)) 2 fun off =>
    if (s.bar off).phaseDone p then s.retire 2 else s.hold (.waiting (.phase off p))

/-- `BTEST` (R152). -/
def execBtest (a b d : XReg) (s : State) : Res :=
  .next <| s.readsBar (s.x a) false (decide ((s.x b).toNat < 2 ^ 16)) 2 fun off =>
    let o := s.bar off
    writeX s 2 d (pack [(0, bitOf (o.phaseDone ((s.x b).setWidth 16))), (1, bitOf o.ov),
      (16, o.count.toNat), (32, ofSigned 32 o.tx)])

end Sys2Proof.Machine
end

