-- ==== Sys2Proof/Machine/Xlate.lean ====
section
/-! DEFINITION. Global physical addresses and their homes (R223 to R227), page tables and walks (R244 to
R247), TLBs (R248 to R250), parking (R251 to R253). -/

namespace Sys2Proof.Machine

/-! ### Homes (R223 to R226) -/

/-- Where a physical address lives. -/
inductive Home where
  | vault (g off : Nat)
  | shadow (g off : Nat)
  | window (g off : Nat)
  | cxl (chip seg off : Nat)
  | device (g off : Nat)
  | link (chip die off : Nat)
  | unassigned
  deriving DecidableEq, Repr

/-- The home of a physical address (R223 to R226). -/
def homeOf (pa : Nat) : Home :=
  let chip := pa / 2 ^ 50 % 64
  let core := pa / 2 ^ 38 % 4096
  let off := pa % 2 ^ 38
  if 2 ^ 56 ≤ pa then .unassigned
  else if core < 2560 then
    let g := chip * 2560 + core
    if off < Config.vaultUser then .vault g off
    else if off < Config.vaultEnd then .shadow g off
    else if 0x3F00000000 ≤ off ∧ off < 0x3F00070000 then .window g (off - 0x3F00000000)
    else .unassigned
  else if 0xC00 ≤ core ∧ core < 0xD00 then .cxl chip (core - 0xC00) off
  else if 0xF00 ≤ core ∧ core < 0xFA0 then
    (if off < 2 ^ 24 then .device (chip * 2560 + (core - 0xF00) * 16 + off / 2 ^ 20) (off % 2 ^ 20) else .unassigned)
  else if core = 0xFA0 ∨ core = 0xFA1 then .link chip (core - 0xFA0) off
  else .unassigned

/-- The physical address of an offset in core g's vault. -/
def vaultAddr (g off : Nat) : Nat := chipOf g * 2 ^ 50 + physOf g * 2 ^ 38 + off

/-- The home agent of an address, which orders the requests of one context to it (R228): the core, or a
number of its own for a CXL segment or a link die. -/
def homeKey (pa : Nat) : Nat := pa / 2 ^ 38

/-- Whether the agent of a physical address serves partition t: a scratchpad window and a shadow region only for their owner
(R143, R350, R356). -/
def State.reaches (s : State) (t pa : Nat) : Bool :=
  match homeOf pa with
  | .shadow h _ => (match (s.core h).image with
    | some i => t == i.tag.toNat
    | none => s.holds t h)
  | .window h _ => s.holds t h && !(s.core h).dbg.fenced
  | _ => true

/-- Whether a page table may lie at a physical address (R245). -/
def State.tableOk (s : State) (pa : Nat) : Bool :=
  match homeOf pa with
  | .vault _ _ => true
  | .shadow _ _ => true
  | .window _ _ => true
  | .cxl h seg off => decide (off < Tab.look 0 (s.chip h).cxl seg)
  | _ => false

/-- n bytes read at a physical address: memory, or a scratchpad window, which reads 0 where its bank is
powered down (R225). -/
def State.readPhys (s : State) (pa n : Nat) : List Byte :=
  match homeOf pa with
  | .window g off =>
    if (s.work g).power.getLsbD (off / 0x8000) then (s.work g).spad.bytes off n else List.replicate n 0
  | _ => s.mem.bytes pa n

/-- Bytes written at a physical address (R225). -/
def State.writePhys (s : State) (pa : Nat) (bs : List Byte) : State :=
  match homeOf pa with
  | .window g off => if (s.work g).power.getLsbD (off / 0x8000) then s.localStore g off bs else s
  | _ => { s with mem := s.mem.store pa bs }

/-! ### Tenant counters (R354) -/

/-- What a flush in step n adds to tenant counter i: the deltas of its events, or a free value for the counters of traffic
and cycles (R354; log entry 21). -/
def Partition.delta (p : Partition) (n i : Nat) : Word :=
  if i = 0 ∨ i = 1 ∨ i = 3 ∨ i = 4 then Config.freeTraffic n i else BitVec.ofNat 64 (Tab.look 0 p.deltas (8 + i))

/-- The deltas of one tenant counter added to it, in step n: deltas of counter i stand at key 8 + i (R354). -/
def Partition.flush (p : Partition) (n i : Nat) : Partition :=
  { p with tencnt := Tab.put p.tencnt i (Tab.look 0 p.tencnt i + p.delta n i),
           deltas := Tab.put p.deltas (8 + i) 0, flushing := p.flushing.filter fun j => j != i }

/-- Every delta flushed (R354). -/
def Partition.flushAll (p : Partition) (n : Nat) : Partition := (List.range 8).foldl (fun q i => q.flush n i) p

/-- An event of partition t counted: the unit's 16-bit delta is added to the counter when it would overflow
(R354). -/
def State.count (s : State) (t i n : Nat) : State :=
  let p := s.part t
  let p1 := if Tab.look 0 p.deltas (8 + i) + n ≥ 2 ^ 16 then p.flush s.stepNo i else p
  s.setPart t { p1 with deltas := Tab.put p1.deltas (8 + i) (Tab.look 0 p1.deltas (8 + i) + n) }

/-- Bytes that a copy or gather engine has moved for partition t counted, in units of 64 B; what is short of a unit stands at key 17 of
the deltas (R354). -/
def State.countBytes (s : State) (t n : Nat) : State :=
  let p := s.part t
  let k := Tab.look 0 p.deltas 17 + n
  (s.setPart t { p with deltas := Tab.put p.deltas 17 (k % 64) }).count t 7 (k / 64)

/-! ### Weirs (R352, R353) -/

/-- The weir of the agent that serves a physical address: a memory agent's, or that of a CXL segment's home agent (R352). -/
def State.weirAt (s : State) (pa : Nat) : Option Weir :=
  match homeOf pa with
  | .vault g _ => some (s.core g).weir
  | .shadow g _ => some (s.core g).weir
  | .window g _ => some (s.core g).weir
  | .cxl h seg _ => some (Tab.look ⟨[], 0⟩ (s.chip h).weirs seg)
  | _ => none

/-- The weir of an agent replaced. -/
def State.setWeir (s : State) (pa : Nat) (w : Weir) : State :=
  match homeOf pa with
  | .vault g _ => s.setCore g { s.core g with weir := w }
  | .shadow g _ => s.setCore g { s.core g with weir := w }
  | .window g _ => s.setCore g { s.core g with weir := w }
  | .cxl h seg _ => s.setChip h { s.chip h with weirs := Tab.put (s.chip h).weirs seg w }
  | _ => s

/-- Whether a partition holds the tokens of a request. -/
def Weir.pays (w : Weir) (t cost : Nat) : Bool := decide (cost ≤ Tab.look 0 w.tokens t)

/-- A weir after it served a request of a partition: tokens are spent where it holds enough, and else the tag is the one last
served without (R353). -/
def Weir.serve (w : Weir) (t cost : Nat) : Weir :=
  if w.pays t cost then { w with tokens := Tab.put w.tokens t (Tab.look 0 w.tokens t - cost) } else { w with last := t }

/-- A request of partition t served at the agent of a physical address: charged, and counted (R352 to R354). -/
def State.served (s : State) (pa t cost : Nat) : State :=
  match s.weirAt pa with
  | some w => (s.setWeir pa (w.serve t cost)).count t 2 1
  | none => s

/-! ### Walks (R244 to R247) -/

/-- The kinds of access: read, write, fetch, and AMO, which needs both R and W (R247). -/
inductive Access where
  | read
  | write
  | fetch
  | amo
  deriving DecidableEq, Repr

/-- The kind a fault buffer records (R252). -/
def Access.code : Access → BitVec 2
  | .read => 0
  | .write => 1
  | .fetch => 2
  | .amo => 1

/-- A refused translation: 0 invalid, 1 permission, 2 bad entry or non-canonical; whether it may park; the
stage, the level, and the intermediate address of a stage-2 fault (R251, R252, R262). -/
structure XFail where
  why : BitVec 2
  parks : Bool
  stage2 : Bool
  level : BitVec 3
  ia : Nat
  deriving DecidableEq, Repr

/-- A leaf found by a walk of one stage: the page's base, the logarithm of its size, the level, and its
permission bits and P. -/
structure Leaf where
  base : Nat
  bits : Nat
  level : Nat
  r : Bool
  w : Bool
  x : Bool
  u : Bool
  p : Bool
  deriving DecidableEq, Repr

/-- A stage that is off: the identity, every permission, counting as 64-MiB pages (R246, R248). -/
def Leaf.off (a : Nat) : Leaf := ⟨a / 2 ^ 26 * 2 ^ 26, 26, 0, true, true, true, true, false⟩

/-- The address a leaf gives for an address under it. -/
def Leaf.addr (l : Leaf) (a : Nat) : Nat := l.base + a % 2 ^ l.bits

/-- Whether a leaf grants a kind of access (R247). -/
def Leaf.grants (l : Leaf) (k : Access) (user : Bool) : Bool :=
  (match k with
  | .read => l.r
  | .write => l.w
  | .fetch => l.x
  | .amo => l.r && l.w) && (!user || l.u)

/-- The leaf size of an entry: 4 KiB or 64 KiB at L0, 2 MiB or 64 MiB at L1 (R244, R245). -/
def leafBits (level : Nat) (e : Word) : Nat :=
  if level = 0 then (if e.getLsbD 6 then 16 else 12) else (if e.getLsbD 6 then 26 else 21)

/-- Whether a valid entry is bad (R245). `direct` says that its addr is itself physical. -/
def State.badEntry (s : State) (level : Nat) (direct : Bool) (e : Word) : Bool :=
  field e 9 3 != 0 || field e 56 8 != 0
    || (!e.getLsbD 1 && decide (2 ≤ level)) || (e.getLsbD 1 && level == 0)
    || (!e.getLsbD 1 && decide ((field e 12 44 * 4096) % 2 ^ leafBits level e ≠ 0))
    || (e.getLsbD 1 && direct && !s.tableOk (field e 12 44 * 4096))

/-- A walk of one stage from a table at `table` down from `level`. `read` reads an entry of a level at a table address of
this stage, through stage 2 for stage 1 (R247). -/
def State.walkFrom (s : State) (read : Nat → Nat → Except XFail Word) (stage2 direct : Bool) (a : Nat) :
    Nat → Nat → Except XFail Leaf
  | level, table =>
    match read level (table + a / 2 ^ (12 + 9 * level) % 512 * 8) with
    | .error f => .error f
    | .ok e =>
      let ia := if stage2 then a / 4096 * 4096 else 0
      let lv := BitVec.ofNat 3 level
      if !e.getLsbD 0 then .error ⟨0, !e.getLsbD 8, stage2, lv, ia⟩
      else if s.badEntry level direct e then .error ⟨2, false, stage2, lv, ia⟩
      else if e.getLsbD 1 then
        match level with
        | 0 => .error ⟨2, false, stage2, lv, ia⟩
        | n + 1 => s.walkFrom read stage2 direct a n (field e 12 44 * 4096)
      else .ok ⟨field e 12 44 * 4096, leafBits level e, level, e.getLsbD 2, e.getLsbD 3, e.getLsbD 4,
        e.getLsbD 5, e.getLsbD 7⟩

/-- A doubleword read at a physical address. -/
def State.physWord (s : State) (pa : Nat) : Word := BitVec.ofNat 64 (natOfBytes (s.readPhys pa 8))

/-- A table entry read by a walker of core g at a physical address that its agent serves it (R247, R350, R356). A root, or a table address
of stage 1 that stage 2 gives, may lie where R227 refuses an access; the rule of a bad entry does not reach it, and the walk reads what
the model's memory holds there (DESIGN CHOICE, log entry 117). -/
def State.tableWord (s : State) (g : Nat) (stage2 : Bool) (level pa ia : Nat) : Except XFail Word :=
  if s.reaches (s.tag g) pa then .ok (s.physWord pa)
  else .error ⟨2, false, stage2, BitVec.ofNat 3 level, if stage2 then ia / 4096 * 4096 else 0⟩

/-- Stage 2 of core g: the leaf for an intermediate address (R244, R246). -/
def State.stage2 (s : State) (g ia : Nat) : Except XFail Leaf :=
  let root := (s.core g).s2root
  if !root.getLsbD 0 then .ok (Leaf.off ia)
  else s.walkFrom (fun l a => s.tableWord g true l a ia) true true ia 4 (field root 12 44 * 4096)

/-- Stage 2 of an access of a kind: a leaf that lacks the permission is a fault of its level (R247, R251). -/
def State.stage2For (s : State) (g ia : Nat) (k : Access) : Except XFail Leaf :=
  match s.stage2 g ia with
  | .error f => .error f
  | .ok l =>
    if l.grants k false then .ok l
    else .error ⟨1, l.p, true, BitVec.ofNat 3 l.level, ia / 4096 * 4096⟩

/-- Stage 1 of core g: each table address is translated through stage 2 before it is read (R247). -/
def State.stage1 (s : State) (g va : Nat) : Except XFail Leaf :=
  let root := (s.work g).s1root
  let direct := !(s.core g).s2root.getLsbD 0
  if !root.getLsbD 0 then .ok (Leaf.off (va % 2 ^ 56))
  else s.walkFrom (fun n a =>
      match s.stage2For g a .read with
      | .error f => .error f
      | .ok l => s.tableWord g false n (l.addr a) 0) false direct va 4 (field root 12 44 * 4096)

/-- Whether an address is a canonical 57-bit address (R244). -/
def canonical (va : Word) : Bool := decide ((va.setWidth 57).signExtend 64 = va)

/-- A whole walk for an access: the translation both stages grant (R247, R248). -/
def State.walk (s : State) (g : Nat) (user : Bool) (va : Word) (k : Access) : Except XFail TlbEntry :=
  if !canonical va then .error ⟨2, false, false, 0, 0⟩
  else
    let v := va.toNat % 2 ^ 57
    match s.stage1 g v with
    | .error f => .error f
    | .ok l1 =>
      if !l1.grants k user then .error ⟨1, l1.p, false, BitVec.ofNat 3 l1.level, 0⟩
      else
        let ia := l1.addr (if (s.work g).s1root.getLsbD 0 then v else v % 2 ^ 56)
        match s.stage2For g ia k with
        | .error f => .error f
        | .ok l2 =>
          let n := min l1.bits l2.bits
          .ok { tag := s.tag g, va := v / 2 ^ n * 2 ^ n, bits := n, ia := ia / 2 ^ l2.bits * 2 ^ l2.bits, bits2 := l2.bits,
                pa := l2.addr ia / 2 ^ n * 2 ^ n, r := l1.r && l2.r, w := l1.w && l2.w, x := l1.x && l2.x, u := l1.u }

/-- The addresses at which a walk of one stage reads its table entries; none is an entry that cannot be read (R247). -/
def walkPath (read : Nat → Option Word) (a : Nat) : Nat → Nat → List Nat
  | level, table =>
    let p := table + a / 2 ^ (12 + 9 * level) % 512 * 8
    p :: match level, read p with
      | n + 1, some e => if e.getLsbD 0 && e.getLsbD 1 then walkPath read a n (field e 12 44 * 4096) else []
      | _, _ => []

/-- The physical addresses that stage 2 of core g reads for an intermediate address. -/
def State.reads2 (s : State) (g ia : Nat) : List Nat :=
  let root := (s.core g).s2root
  if root.getLsbD 0 then walkPath (fun a => some (s.physWord a)) ia 4 (field root 12 44 * 4096) else []

/-- The physical addresses that a walk of core g for an address reads, stage 2 of each table address included (R247). -/
def State.walkReads (s : State) (g : Nat) (va : Word) : List Nat :=
  let v := va.toNat % 2 ^ 57
  let root := (s.work g).s1root
  let at_ := fun (a : Nat) => match s.stage2For g a .read with
    | .ok l => some (l.addr a)
    | .error _ => none
  let one := if root.getLsbD 0 then walkPath (fun a => (at_ a).map s.physWord) v 4 (field root 12 44 * 4096) else []
  let two := match s.stage1 g v with
    | .ok l => s.reads2 g (l.addr (if root.getLsbD 0 then v else v % 2 ^ 56))
    | .error _ => []
  if canonical va then (one.flatMap fun a => s.reads2 g a ++ (at_ a).toList) ++ two else []

/-- A walk of core g charged at the agents that it reads, and counted (R352, R354). -/
def State.chargeWalk (s : State) (g : Nat) (va : Word) : State :=
  (s.walkReads g va).foldl (fun u pa => u.served pa (s.tag g) 1) s

/-! ### TLBs (R248 to R250) -/

/-- Whether an entry serves an access: same partition, same page, and every permission granted. -/
def TlbEntry.serves (t : TlbEntry) (tag v : Nat) (user : Bool) (k : Access) : Bool :=
  t.tag == tag && v / 2 ^ t.bits * 2 ^ t.bits == t.va &&
    (match k with
    | .read => t.r
    | .write => t.w
    | .fetch => t.x
    | .amo => t.r && t.w) && (!user || t.u)

/-- A TLB of n entries with an entry added; the oldest leaves (log entry 22). -/
def tlbAdd (n : Nat) (l : List TlbEntry) (e : TlbEntry) : List TlbEntry :=
  let l1 := (l.filter fun t => !(t.tag == e.tag && t.va == e.va && t.bits == e.bits)) ++ [e]
  l1.drop (l1.length - n)

/-- The cached translation that serves an access of core g (R248). -/
def State.cached (s : State) (g v : Nat) (user : Bool) (k : Access) : Option TlbEntry :=
  let l1 := if k = .fetch then (s.core g).itlb else (s.core g).dtlb
  (l1 ++ (s.cluster g).tlb).find? fun t => t.serves (s.tag g) v user k

/-- The state with a translation filled into the TLBs that serve core g. -/
def State.fillTlb (s : State) (g : Nat) (k : Access) (e : TlbEntry) : State :=
  let c := s.core g
  let s1 := s.setCore g (if k = .fetch then { c with itlb := tlbAdd 32 c.itlb e } else { c with dtlb := tlbAdd 64 c.dtlb e })
  s1.setCluster g { s1.cluster g with tlb := tlbAdd 4096 (s1.cluster g).tlb e }

/-- A translation for an access: from the TLBs, else by a walk, which fills them. A permission that a cached
entry lacks is walked for again (R248 to R250). -/
def State.translate (s : State) (g : Nat) (user : Bool) (va : Word) (k : Access) : State × Except XFail Nat :=
  let v := va.toNat % 2 ^ 57
  match (if canonical va then s.cached g v user k else none) with
  | some e => (s, .ok (e.pa + v % 2 ^ e.bits))
  | none =>
    match s.walk g user va k with
    | .error f => (s.chargeWalk g va, .error f)
    | .ok e => ((s.chargeWalk g va).fillTlb g k e, .ok (e.pa + v % 2 ^ e.bits))

/-! ### Physical checks (R227, R356) -/

/-- What an access is, for the checks of R227. -/
structure AccessKind where
  size : Nat
  scalar : Bool
  amo : Bool
  write : Bool
  fadd : Bool
  deriving DecidableEq, Repr

/-- Whether an access to a link die's registers has the right of its region (R383). -/
def State.linkOk (s : State) (t die off : Nat) (write : Bool) : Bool :=
  if off < 0x40000 then (s.part t).hyper && !write
  else if off < 0x40400 then !write || (s.part t).hyper
  else if 0x100000 ≤ off ∧ off < 0x140000 ∧ die = 0 then off / 0x1000 % 64 == t
  else true

/-- Whether a register of a core block is written with the halyard right, in place of a core that the partition holds (R365). -/
def halyardReg (off : Nat) : Bool := off == 0x20100 || off == 0x20B00

/-- Whether the sending core lets a translated access leave (R143, R226, R227, R356, R383). -/
def State.physOk (s : State) (g : Nat) (sup : Bool) (pa : Nat) (a : AccessKind) : Bool :=
  match homeOf pa with
  | .vault _ _ => true
  | .shadow _ _ => sup && s.reaches (s.tag g) pa
  | .window _ _ => s.reaches (s.tag g) pa
  | .cxl h seg off => decide (off < Tab.look 0 (s.chip h).cxl seg) && !(a.amo && (a.size == 16 || a.fadd))
  | .device h off => sup && a.scalar && !a.amo && a.size == 8
      && (if a.write && halyardReg off then s.halyardRight (s.tag g) h else s.holds (s.tag g) h)
  | .link _ die off => sup && a.scalar && !a.amo && a.size == 8 && s.linkOk (s.tag g) die off a.write
  | .unassigned => false

/-! ### Parking (R251 to R253) -/

/-- The pager core of core g's cluster: its partition's lowest logical core there (R251). -/
def State.pager (s : State) (g : Nat) : Option Nat :=
  ((s.logical (s.tag g) (chipOf g)).find? fun p => p / 16 == physOf g / 16).map fun p => chipOf g * 2560 + p

/-- Whether a failed translation of core g parks a user access (R251). -/
def State.parks (s : State) (g : Nat) (sup : Bool) (f : XFail) : Bool :=
  !sup && f.parks && (match s.pager g with
    | some h => (s.handler h 2).valid
    | none => false)

/-- A fault notice on channel 2 of the pager core (R253; log entry 23). -/
def State.sendNotice (s : State) (g : Nat) : State :=
  match s.pager g with
  | none => s
  | some h =>
    let q := s.cluster g
    s.report h 31 h 2 [BitVec.ofNat 64 (physOf g / 16), BitVec.ofNat 64 (q.faults.filter fun e => e.tag == s.tag g).length,
      BitVec.ofNat 64 (bitOf (q.dropped.contains (s.tag g))), 0]

/-- A parking fault matched against the cluster's fault buffer (R252, R253). -/
def State.recordFault (s : State) (g : Nat) (va : Word) (k : Access) (f : XFail) (engine : Bool) : State :=
  let q := s.cluster g
  let t := s.tag g
  let page := va &&& ~~~0xFFF
  let same := fun (e : FaultEntry) => e.tag == t && e.va == page && e.kind == k.code
  let join := fun (e : FaultEntry) =>
    if same e = true then { e with count := min 255 (e.count + 1), engine := e.engine || engine } else e
  if q.faults.any same then s.setCluster g { q with faults := q.faults.map join }
  else if q.faults.length < Config.faultEntries then
    let e : FaultEntry := ⟨page, t, k.code, f.stage2, f.why == 1, f.level, 1, engine, BitVec.ofNat 64 f.ia⟩
    let s1 := s.setCluster g { q with faults := q.faults ++ [e], notice := if q.notice.contains t then q.notice else q.notice ++ [t] }
    if q.notice.contains t then s1 else s1.sendNotice g
  else
    s.setCluster g { q with dropped := if q.dropped.contains t then q.dropped else q.dropped ++ [t] }

/-- The executing context parks at its instruction, which has done nothing (R251, R254). -/
def State.parkHere (s : State) (va : Word) (k : Access) (f : XFail) : State :=
  let s1 := s.recordFault s.cur.1 va k f false
  s1.setMe { s1.me with st := .parked, parked := .instr, replay := false, parkedAt := s.cycle s.cur.1, since := s.cycle s.cur.1 }

end Sys2Proof.Machine
end

