-- ==== Sys2Proof/Machine/DevReg.lean ====
section
/-! DEFINITION. The device registers of cores (R185, R219, R226, R246, R314, R349, R365 to R377) and of link
dies (R382, R383): what a read returns and what a write does. -/

namespace Sys2Proof.Machine

/-- The dispatch core of partition t: logical core 0 of chip 0 (R72). -/
def State.dispatchCore (s : State) (t : Nat) : Option Nat := s.coreOf t 0 0

/-- Whether core g is its partition's dispatch core. -/
def State.isDispatch (s : State) (g : Nat) : Bool := s.dispatchCore (s.tag g) == some g

/-- HEALTH of a package (R365). -/
def State.health (s : State) (h : Nat) : Word :=
  let n := (s.cores.filter fun e => chipOf e.1 == h && e.2.dbg.fenced).length
  let k := s.chip h
  pack [(0, n), (12, bitOf (decide (0 < n))), (13, bitOf k.replace), (14, bitOf k.alarm), (15, bitOf k.erased)]

/-- Monitor m of a core (R365). -/
def Debug.mon (d : Debug) (m : Nat) : Monitor := Tab.look ⟨0, BitVec.allOnes 64, 0, []⟩ d.mons m

/-- The monitor's samples cleared (R365). -/
def Monitor.clear (k : Monitor) : Monitor := { k with least := BitVec.allOnes 64, most := 0, bins := [] }

/-- A monitor register (R365). -/
def Monitor.read (k : Monitor) (off : Nat) : Word :=
  if off = 0 then k.ctl else if off = 8 then k.least else if off = 0x10 then k.most
  else if 0x18 ≤ off ∧ off < 0x98 then BitVec.ofNat 64 (Tab.look 0 k.bins ((off - 0x18) / 8)) else 0

/-- The number of a context's state in the debug window; 7 is free (R66, R370). -/
def Ctx.stateCode (k : Ctx) : Nat :=
  if k.role == .free then 7
  else match k.st with
    | .ready => 0
    | .blocked _ => 1
    | .waiting _ => 2
    | .parked => 3

/-- Lanes 2 i and 2 i + 1 of a register as a doubleword. -/
def lanePair (v : VReg) (i : Nat) : Word := pack [(0, (lane v (2 * i)).toNat), (32, (lane v (2 * i + 1)).toNat)]

/-- The context window of a halted cluster (R370). -/
def Ctx.window (k : Ctx) (off : Nat) : Word :=
  let i := off / 8
  if off = 0 then k.pc
  else if off = 8 then pack [(0, k.stateCode), (3, bitOf k.sup)]
  else if off = 0x10 then k.vt else if off = 0x18 then k.fpflags.setWidth 64
  else if off = 0x20 then k.rnd.setWidth 64 else if off = 0x28 then k.rng.setWidth 64
  else if 0x40 ≤ off ∧ off < 0xC0 then (k.x[i - 8]?).getD 0
  else if 0xC0 ≤ off ∧ off < 0x100 then k.pred (BitVec.ofNat 3 (i - 0x18))
  else if 0x1000 ≤ off ∧ off < 0x2600 then lanePair (k.vreg ((off - 0x1000) / 256)) (off / 8 % 32)
  else 0

/-- Whether a doubleword of the context window is a value that a register's field map calls illegal: a rounding mode above 4,
or a generator state of 0 (R47, R109). The manual gives such a write no fate; the model's choice is that it fails and the register
keeps its value (DESIGN CHOICE, log entry 89). -/
def windowIllegal (off : Nat) (v : Word) : Bool := (off == 0x20 && decide (4 < field v 0 3)) || (off == 0x28 && field v 0 32 == 0)

/-- A context with the state and the supervisor bit that its window was written. Ready runs on from its next instruction, a free context
as a free strand (R70); blocked tries that instruction again; parked waits for a REPLAYALL; for waiting the manual names nothing to
wait for, and the context stays as it stands; free is left to the resume (R66, R370; DESIGN CHOICE, log entry 118). -/
def Ctx.putState (k : Ctx) (v : Word) : Ctx :=
  let n := field v 0 3
  let k1 := { k with sup := v.getLsbD 3 }
  if n = 0 then { k1 with st := .ready, role := if k.role = .free then .migrated else k.role }
  else if k.role = .free then k1
  else if n = 1 then { k1 with st := .blocked .scoreboard }
  else if n = 3 then { k1 with st := .parked, parked := .instr, replay := false }
  else k1

/-- What a doubleword written to the context window does at the resume; the answer of a load that the register still owes
is lost (R40, R370). A pc that is written is reached by no checked transfer: what was due at the old one lapses (R17; DESIGN CHOICE, log
entry 118). -/
def Ctx.putWindow (k : Ctx) (off : Nat) (v : Word) : Ctx :=
  let i := off / 8
  if off = 0 then { k with pc := v, ibuf := none, arrived := none }
  else if off = 8 then k.putState v
  else if off = 0x10 then { k with vt := v }
  else if off = 0x18 then { k with fpflags := v.setWidth 14 &&& 0x3F3F }
  else if off = 0x20 then { k with rnd := v.setWidth 3 } else if off = 0x28 then { k with rng := v.setWidth 32 }
  else if 0x40 ≤ off ∧ off < 0xC0 then k.setX (BitVec.ofNat 4 (i - 8)) v
  else if 0xC0 ≤ off ∧ off < 0x100 then k.setP (BitVec.ofNat 3 (i - 0x18)) v
  else if 0x1000 ≤ off ∧ off < 0x2600 then
    let n := (off - 0x1000) / 256
    let j := off / 8 % 32
    k.setV n (((k.vreg n).setIfInBounds (2 * j) (v.setWidth 32)).setIfInBounds (2 * j + 1) ((v >>> 32).setWidth 32))
  else k

/-- The context after the resume of its cluster: what its window was written takes effect, in order (R370). -/
def Ctx.putWindows (k : Ctx) : Ctx := { k.xw.foldl (fun m e => m.putWindow e.1 e.2) k with xw := [] }

/-- Whether the window of a context in use was last written the state free (R370). -/
def Ctx.freed (k : Ctx) : Bool :=
  k.role != .free && (((k.xw.filter fun e => e.1 == 8).getLast?).map fun e => field e.2 0 3) == some 7

/-- What the windows of core g's contexts were written takes effect; a context that was written free is freed (R65, R370). -/
def State.putWindows (s : State) (g : Nat) : State :=
  let out := ((s.work g).ctxs.filter fun e => e.2.freed).map fun e => e.1
  out.foldl (fun u c => u.free g c) (s.setWork g { s.work g with ctxs := Tab.each (fun _ k => k.putWindows) (s.work g).ctxs })

/-- The halted cluster of core g resumes (R369, R370). -/
def State.resumeCluster (s : State) (g : Nat) : State :=
  ((List.range 16).map fun i => g / 16 * 16 + i).foldl State.putWindows (s.setCluster g { s.cluster g with halted := false })

/-- Whether a flush of the tenant counters is under way on the package of core g (R354). -/
def State.flushes (s : State) (g : Nat) : Bool :=
  s.parts.any fun e => !(Tab.look [] e.2.cores (chipOf g)).isEmpty && !e.2.flushing.isEmpty

/-- A flush of every unit of the package of core g begins: each partition there has every counter to be flushed (R354). -/
def State.beginFlush (s : State) (g : Nat) : State :=
  let due := fun (_ : Nat) (p : Partition) => if (Tab.look [] p.cores (chipOf g)).isEmpty then p else { p with flushing := List.range 8 }
  { s with parts := Tab.each due s.parts }

/-- Whether core l of the partition of core g is evicted: its image is this partition's, and not that of another whose core it was
(R349, R356). -/
def State.evicted (s : State) (t g : Nat) : Bool :=
  match (s.core g).image with
  | some i => i.tag.toNat == t
  | none => false

/-- Whether the LMAP entry of core g of partition t is valid: a fenced core's is not, from then on, nor is that of a core which
machine-checked, from the partition's reset on (R367, R376). -/
def State.lmapValid (s : State) (t g : Nat) : Bool :=
  !(s.core g).dbg.fenced && !((s.core g).dbg.checked && !(s.part t).resetDue)

/-- A doubleword of core g's register block; an unassigned offset reads 0 (R226). -/
def State.readReg (s : State) (g off : Nat) : Word :=
  let k := s.core g
  let d := k.dbg
  let w := k.work
  let p := s.part (s.tag g)
  if 0x10000 ≤ off ∧ off < 0x10400 then
    let h := s.handler g ((off - 0x10000) / 16)
    if off % 16 = 0 then h.entry else h.ctl
  else if off = 0x10400 then w.wdlimit.setWidth 64
  else if off = 0x10800 then w.s1root else if off = 0x10808 then k.s2root else if off = 0x10810 then w.oxbow
  else if off = 0x10C00 then p.gvtper.setWidth 64
  else if off = 0x11000 then pack [(0, s.tag g), (6, bitOf p.hyper), (7, bitOf k.image.isSome)]
  else if off = 0x11008 then pack [(0, (s.logical (s.tag g) (chipOf g)).length), (12, p.limit)]
  else if off = 0x11010 then p.journal else if off = 0x11018 then BitVec.ofNat 64 (p.jfence % 2 ^ 32)
  else if off = 0x11020 then p.evictvec
  else if off = 0x11028 then BitVec.ofNat 64 (bitOf (s.flushes g))
  else if off = 0x11030 then d.discards.setWidth 64
  else if 0x11040 ≤ off ∧ off < 0x11080 then (if s.isDispatch g then Tab.look 0 p.tencnt ((off - 0x11040) / 8) else 0)
  else if 0x12000 ≤ off ∧ off < 0x1A000 then
    match (s.logical (s.tag g) (chipOf g))[(off - 0x12000) / 8]? with
    | some q => pack [(0, q), (62, bitOf (s.evicted (s.tag g) (chipOf g * 2560 + q))),
        (63, bitOf (s.lmapValid (s.tag g) (chipOf g * 2560 + q)))]
    | none => 0
  else if 0x20000 ≤ off ∧ off < 0x20080 then
    (if off % 16 = 0 then Tab.look 0 d.addr ((off - 0x20000) / 16) else Tab.look 0 d.ctl ((off - 0x20000) / 16))
  else if off = 0x20100 then
    let q := s.cluster g
    pack [(0, bitOf q.halted), (1, bitOf q.haltDue.isSome)] ||| q.notify
  else if off = 0x20200 then d.stlog else if off = 0x20208 then d.sthead
  else if off = 0x20300 then d.rlctl else if off = 0x20308 then d.rlhead
  else if 0x20400 ≤ off ∧ off < 0x20600 then (d.mon ((off - 0x20400) / 0x100)).read (off % 0x100)
  else if off = 0x20800 then s.health (chipOf g)
  else if 0x20900 ≤ off ∧ off < 0x20920 then Tab.look 0 d.mcrec ((off - 0x20900) / 8)
  else if 0x20A00 ≤ off ∧ off < 0x20A40 then Tab.look 0 d.dramce ((off - 0x20A00) / 8)
  else if off = 0x20B00 then ((s.cluster g).ftest.setWidth 3).setWidth 64 else if off = 0x20B08 then d.ftstat
  else if 0x40000 ≤ off ∧ off < 0xA0000 then
    (if (s.cluster g).halted then (s.ctx g ((off - 0x40000) / 0x4000)).window (off % 0x4000) else 0)
  else 0

/-- The core's debug registers replaced. -/
def State.setDebug (s : State) (g : Nat) (d : Debug) : State := s.setCore g { s.core g with dbg := d }

/-- A fence mark pending at the launch journal: JFENCE's marks stand at key 0 of the deltas (R362). -/
def Partition.markDue (p : Partition) : Nat := Tab.look 0 p.deltas 0

/-- The group of R66 that a context of a core falls in: 0 running, 1 waiting on message, 2 waiting on memory, 3
other waiting or free. -/
def Ctx.logGroup (k : Ctx) : BitVec 2 :=
  if k.role = .free then 3
  else match k.st with
    | .ready => 0
    | .blocked _ => 0
    | .waiting (.channel _) => 1
    | .waiting (.load _) => 2
    | .waiting _ => 3
    | .parked => 2

/-- The logged state of a core: the first group that some context is in (R371). -/
def Work.logState (w : Work) : BitVec 2 :=
  let gs := w.ctxs.map fun e => e.2.logGroup
  if gs.contains 0 then 0 else if gs.contains 1 then 1 else if gs.contains 2 then 2 else 3

/-- A write of STLOG: a log that is switched on starts from the state that holds then, and a ring that is placed anew holds no record
(R365, R371). A size code above 11, and a base that is not aligned to the size, are no illegal values of the field map: they are
stored, and the log takes the greatest size and the aligned base (DESIGN CHOICE, log entry 119). -/
def State.writeStlog (s : State) (g : Nat) (v : Word) : State :=
  let d := (s.core g).dbg
  let w := v &&& 0x3FFFFFF01F
  let d1 := { d with stlog := w, stCount := if w >>> 1 = d.stlog >>> 1 then d.stCount else 0 }
  s.setDebug g (if v.getLsbD 0 && !d.stlog.getLsbD 0 then { d1 with stState := (s.work g).logState, stSince := s.cycle g } else d1)

/-- A doubleword of a handler-table entry written: reserved fields read 0 (R185). -/
def State.writeHandler (s : State) (g ch : Nat) (second : Bool) (v : Word) : State :=
  let w := s.work g
  let h := s.handler g ch
  let h1 : Handler := if second then { h with ctl := v &&& 0xFF01FF } else { h with entry := v }
  s.setWork g { w with handlers := Tab.put w.handlers ch h1 }

/-- The mode of a core's replay log (R365). -/
def State.logMode (s : State) (g : Nat) : Nat := field (s.core g).dbg.rlctl 0 2

/-- The key of a counter of a partition (R157). -/
def counterKey (t chip id : Nat) : Nat := (t * 64 + chip) * 4096 + id

/-- The replay sequencer of partition t is a counter only while some core of it records or replays (R173, R372). -/
def State.dropSequencer (s : State) (t : Nat) : State :=
  if (s.partCores t).any fun g => s.logMode g != 0 then s
  else s.setPart t { s.part t with counters := Tab.drop (s.part t).counters (counterKey t 0 4095) }

/-- The device's bits of RLCTL that stay when the mode changes: overflow, until a recording begins anew, and stalled, while the core
replays (R365, R372, R373; DESIGN CHOICE, log entry 113). A log-size code above 7, and a base that is not aligned to the log's size, are
stored as written, and the log takes the greatest size at that base (DESIGN CHOICE, log entry 119). -/
def keptMarks (old new : Nat) : Word := (if new = 1 ∧ old ≠ 1 then 0 else 4) ||| (if new = 2 then 8 else 0)

/-- JOURNAL written: where that switches the journal on or places it anew, its entries begin there (R349, R362). -/
def Partition.placeJournal (p : Partition) (v : Word) : Partition :=
  let j := v &&& ~~~0xFFE
  { p with journal := j, jstart := if j = p.journal then p.jstart else p.jcount }

/-- A write to core g's register block: the state, and whether the home performed it; an illegal value leaves
the register unchanged and fails (R226). -/
def State.writeReg (s : State) (g off : Nat) (v : Word) : State × Bool :=
  let k := s.core g
  let d := k.dbg
  let w := k.work
  let t := s.tag g
  let p := s.part t
  let q := s.cluster g
  if 0x10000 ≤ off ∧ off < 0x10400 then (s.writeHandler g ((off - 0x10000) / 16) (off % 16 == 8) v, true)
  else if off = 0x10400 then (s.setWork g { w with wdlimit := v.setWidth 32 }, true)
  else if off = 0x10800 then (s.setWork g { w with s1root := v &&& 0x00FFFFFFFFFFF001 }, true)
  else if off = 0x10810 then
    (if field v 23 15 * 2 ^ 23 > 0xB000000 then (s, false) else (s.setWork g { w with oxbow := v &&& 0x3FFF800001 }, true))
  else if off = 0x10C00 then
    (if s.isDispatch g then (s.setPart t { p with gvtper := v.setWidth 16 }, true) else (s, true))
  else if off = 0x11010 then
    (if s.isDispatch g then (s.setPart t (p.placeJournal v), true) else (s, true))
  else if off = 0x11018 then
    (if s.isDispatch g then (s.setPart t { p with deltas := Tab.put p.deltas 0 (p.markDue + 1) }, true) else (s, true))
  else if off = 0x11020 then
    (if v.toNat % 128 ≠ 0 then (s, false)
     else if s.isDispatch g then (s.setPart t { p with evictvec := v }, true) else (s, true))
  else if off = 0x11028 then ((if v.getLsbD 0 then s.beginFlush g else s), true)
  else if 0x20000 ≤ off ∧ off < 0x20080 then
    let i := (off - 0x20000) / 16
    (s.setDebug g (if off % 16 = 0 then { d with addr := Tab.put d.addr i v }
      else { d with ctl := Tab.put d.ctl i (v &&& 0x1FFFFFFFF) }), true)
  else if off = 0x20100 then
    let q1 := { q with notify := v &&& 0x3FFFF0000 }
    (if v.getLsbD 0 && !q.halted && q.haltDue.isNone then
        s.setCluster g { q1 with haltDue := some (BitVec.allOnes 64), puller := g }
      else if v.getLsbD 1 && q.halted then (s.setCluster g q1).resumeCluster g
      else if v.getLsbD 0 || v.getLsbD 1 then s else s.setCluster g q1, true)
  else if off = 0x20200 then (s.writeStlog g v, true)
  else if off = 0x20300 then
    (if field v 0 2 = 3 ∨ (field v 0 2 = 2 ∧ d.rlctl.getLsbD 2 = true) then (s, false)
     else
      let s1 := s.setDebug g { d with rlctl := (v &&& 0xFFFFFFFF003) ||| (d.rlctl &&& keptMarks (s.logMode g) (field v 0 2)) }
      (if s.logMode g = 0 then s1 else s1.dropSequencer t, true))
  else if off = 0x20308 then (s.setDebug g { d with rlhead := v &&& 0xFFFFFFFF }, true)
  else if off = 0x20400 ∨ off = 0x20500 then
    let m := (off - 0x20400) / 0x100
    let c := { d.mon m with ctl := v &&& 0xF }
    (s.setDebug g { d with
      mons := Tab.put d.mons m (if v.getLsbD 4 then c.clear else c),
      due := if v.getLsbD 4 then d.due.filter fun x => x.mon != m else d.due }, true)
  else if off = 0x20900 then
    (if v.getLsbD 0 then (s.setDebug g { d with mcrec := Tab.put d.mcrec 0 (Tab.look 0 d.mcrec 0 &&& ~~~1) }, true) else (s, true))
  else if 0x20A00 ≤ off ∧ off < 0x20A40 then (s.setDebug g { d with dramce := [] }, true)
  else if off = 0x20B00 then
    (if v.getLsbD 0 then (s.setCluster g { q with ftest := q.ftest ||| 8 }, true) else (s, true))
  else if 0x40000 ≤ off ∧ off < 0xA0000 then
    let c := (off - 0x40000) / 0x4000
    (if !(q.halted && s.halyardRight t g) then (s, true)
     else if windowIllegal (off % 0x4000) v then (s, false)
     else (s.setCtx g c { s.ctx g c with xw := (s.ctx g c).xw ++ [(off % 0x4000, v)] }, true))
  else (s, true)

/-- A doubleword of a link die's registers: port records, doorbells, and the firmware's maps (R377, R383). -/
def State.readLink (s : State) (chip die off : Nat) : Word :=
  if off < 0x40000 then Config.freeRegister (off / 8)
  else if off < 0x40400 then
    let port := (off - 0x40000) / 16
    if die * 32 ≤ port ∧ port < die * 32 + 32 then
      BitVec.ofNat 64 (natOfBytes ((((Tab.look [] (s.chip chip).ports port) ++ List.replicate 16 0).drop (off % 16)).take 8))
    else 0
  else 0

/-- A write to a link die's registers: a port record is cleared; a doorbell, on link die 0 alone, has its vector to raise (R377, R382,
R383). -/
def State.writeLink (s : State) (chip die off : Nat) : State :=
  if 0x40000 ≤ off ∧ off < 0x40400 then
    let port := (off - 0x40000) / 16
    if die * 32 ≤ port ∧ port < die * 32 + 32 then
      s.setChip chip { s.chip chip with ports := Tab.drop (s.chip chip).ports port } else s
  else if die = 0 ∧ 0x100000 ≤ off ∧ off < 0x140000 ∧ 0x800 ≤ off % 0x1000 ∧ off % 0x1000 < 0x900 then
    let k := s.chip chip
    s.setChip chip { k with doorbells := k.doorbells ++ [(off / 0x1000 % 64, (off % 0x1000 - 0x800) / 8)] }
  else s

end Sys2Proof.Machine
end

