-- ==== Sys2Proof/Machine/Trace.lean ====
section
/-! DEFINITION. The state log (R371), the replay log with its sequencer (R372, R373), and the monitors (R374). -/

namespace Sys2Proof.Machine

/-! ### The state log (R66, R371) -/

/-- The bytes of a core's state-log ring, and its base as a physical address (R365). -/
def ringBytes (ctl : Word) : Nat := 4096 * 2 ^ min 11 (field ctl 1 4)
def ringBase (g : Nat) (ctl : Word) : Nat := vaultAddr g (field ctl 12 26 * 4096 / ringBytes ctl * ringBytes ctl)

/-- One record appended to the state log of core g; when the ring is full it overwrites the oldest one (R371). -/
def State.logRecord (s : State) (g : Nat) (st : BitVec 2) (n : Nat) : State :=
  let d := (s.core g).dbg
  let i := field d.sthead 0 32
  let lost := field d.sthead 32 32
  let cap := ringBytes d.stlog / 4
  let rec4 := bytesOfNat 4 (st.toNat + 4 * n)
  let s1 := { s with mem := s.mem.store (ringBase g d.stlog + 4 * (i % cap)) rec4 }
  s1.setDebug g { d with
    sthead := pack [(0, (i + 1) % 2 ^ 32), (32, if cap ≤ d.stCount then min (2 ^ 32 - 1) (lost + 1) else lost)],
    stCount := d.stCount + 1 }

/-- n records of the longest duration in the old state (R371). -/
def State.logLong (s : State) (g : Nat) (st : BitVec 2) : Nat → State
  | 0 => s
  | n + 1 => (s.logRecord g st (2 ^ 30 - 1)).logLong g st n

/-- The state log of core g brought up to date: a record where its logged state has changed (R371). -/
def State.logState (s : State) (g : Nat) : State :=
  let d := (s.core g).dbg
  let now := (s.work g).logState
  if !d.stlog.getLsbD 0 || now == d.stState then s
  else
    let n := s.cycle g - d.stSince
    let k := (n - 1) / (2 ^ 30 - 1)
    let s1 := (s.logLong g d.stState k).logRecord g now (n - k * (2 ^ 30 - 1))
    s1.setDebug g { (s1.core g).dbg with stState := now, stSince := s.cycle g }

/-- Every core's state log brought up to date. -/
def State.logStates (s : State) : State := s.cores.foldl (fun t e => t.logState e.1) s

/-! ### The replay log (R372, R373) -/

/-- A width-1 counter at its start. -/
def Counter.one (g : Nat) : Counter := ⟨1, [g], [], [0], [[]], 0, 0, .opened, 0, false, false, []⟩

/-- The replay sequencer of a partition: the width-1 counter of ID 4,095 (R372). -/
def Partition.sequencer (p : Partition) (t : Nat) : Counter :=
  Tab.look (Counter.one 0) p.counters (counterKey t 0 4095)

/-- The sequencer's next value, and the partition with it taken. -/
def Partition.sequence (p : Partition) (t : Nat) : Nat × Partition :=
  let q := p.sequencer t
  let v := (q.c[0]?).getD 0
  (v.toNat, { p with counters := Tab.put p.counters (counterKey t 0 4095) { q with c := [v + 1] } })

/-- The replay log of core g: its base as a physical address, and its size in 16-B units (R365). -/
def State.logBase (s : State) (g : Nat) : Nat := vaultAddr g (field (s.core g).dbg.rlctl 12 26 * 4096)
def State.logUnits (s : State) (g : Nat) : Nat := 4096 * 2 ^ min 7 (field (s.core g).dbg.rlctl 38 6)

/-- The mark of a host message in the second doubleword of its record: its channel, and its length in doublewords less one. The manual
leaves these bits open, and a log that is read again needs them; a record of any other chunk has 0 there (R372, R373; DESIGN CHOICE, log
entry 33). -/
def hostMark (host : Option Msg) : Nat :=
  match host with
  | some m => m.channel + 64 * ((m.payload.length / 8 - 1) % 64)
  | none => 0

/-- The second doubleword of a chunk record (R372). -/
def State.chunkWord (s : State) (g c kind : Nat) (host : Option Msg) : Word :=
  pack [(0, (s.ctx g c).chunk % 2 ^ 32), (32, c), (37, kind), (40, s.logicalOf g), (52, hostMark host)]

/-- A chunk of context c of core g recorded, with the payload of a host delivery; a full log sets overflow (R372). -/
def State.recordChunk (s : State) (g c kind : Nat) (host : Option Msg) : State :=
  let d := (s.core g).dbg
  let i := field d.rlhead 0 32
  let pay := match host with
    | some m => m.payload ++ List.replicate ((16 - m.payload.length % 16) % 16) 0
    | none => []
  let n := 1 + pay.length / 16
  let t := s.tag g
  let q := (s.part t).sequence t
  let s0 := s.setPart t q.2
  if d.rlctl.getLsbD 2 then s0
  else if s.logUnits g < i + n then s0.setDebug g { d with rlctl := d.rlctl ||| 4 }
  else
    let bs := bytesOfNat 8 q.1 ++ bytesOfNat 8 (s.chunkWord g c kind host).toNat ++ pay
    let s1 := { s0 with mem := s0.mem.store (s.logBase g + 16 * i) bs }
    s1.setDebug g { d with rlhead := BitVec.ofNat 64 (i + n) }

/-- The address of the next record of core g's log, and whether the sequencer has reached its value (R373). -/
def State.logNext (s : State) (g : Nat) : Nat := s.logBase g + 16 * field (s.core g).dbg.rlhead 0 32
def State.logReached (s : State) (g : Nat) : Bool :=
  s.mem.word (s.logNext g) == BitVec.ofNat 64 ((s.part (s.tag g)).sequence (s.tag g)).1

/-- The channel and the bytes of the host message that the next record of core g's log holds, as its mark says (R372, R373). -/
def State.hostRecord (s : State) (g : Nat) : Option (Nat × List Byte) :=
  let a := s.logNext g
  let w := s.mem.word (a + 8)
  if field w 37 3 = 0 ∧ field w 52 6 ≠ 0 then some (field w 52 6, s.mem.bytes (a + 16) (8 * (field w 58 6 + 1))) else none

/-- Whether the next record of core g's log is a chunk end of context c and a kind whose turn has come, in replay
(R373; log entry 33). -/
def State.chunkTurn (s : State) (g c kind : Nat) : Bool :=
  let w := s.mem.word (s.logNext g + 8)
  s.logReached g && field w 32 5 == c && field w 37 3 == kind

/-- What stands for a context whose chunk end waits: the context, or 32 for a delivery, which has no context yet. -/
def stallKey (c kind : Nat) : Nat := if kind = 0 then 32 else c

/-- The contexts whose chunk ends wait, and the bit of RLCTL that says whether there are any (R365, R373). -/
def Debug.setStalls (d : Debug) (l : List Nat) : Debug :=
  { d with stalls := l, rlctl := (d.rlctl &&& ~~~8) ||| (if l.isEmpty then 0 else 8) }

/-- The replay passes the record of a chunk of context c, with its payload: the sequencer and the head go on (R372, R373). -/
def State.passChunk (s : State) (g c kind : Nat) : State :=
  let d := (s.core g).dbg
  let n := match s.hostRecord g with
    | some q => 1 + (q.2.length + 15) / 16
    | none => 1
  let t := s.tag g
  let s1 := s.setPart t ((s.part t).sequence t).2
  s1.setDebug g { d.setStalls (d.stalls.filter fun k => k != stallKey c kind) with
    rlhead := BitVec.ofNat 64 (field d.rlhead 0 32 + n), again := none }

/-- A chunk of context c of core g ends: recorded in mode 1, in mode 2 only when its turn has come (R372, R373);
none where it must wait. -/
def State.chunkEnd (s : State) (g c kind : Nat) (host : Option Msg) : Option State :=
  let t := s.tag g
  let done := fun (s : State) => s.setCtx g c { s.ctx g c with chunk := 0 }
  if s.logMode g = 2 then (if s.chunkTurn g c kind then some (done (s.passChunk g c kind)) else none)
  else if s.logMode g = 1 ∧ (s.partCores t).all (fun h => s.logMode h == 1) then some (done (s.recordChunk g c kind host))
  else some s

/-- A chunk end of context c of core g waits for its turn (R365, R373). -/
def State.stalled (s : State) (g c kind : Nat) : State :=
  let d := (s.core g).dbg
  s.setDebug g (d.setStalls (if d.stalls.contains (stallKey c kind) then d.stalls else d.stalls ++ [stallKey c kind]))

/-- A step that is a chunk end: the record and then what follows, or a wait. -/
def State.atChunkEnd (s : State) (g c kind : Nat) (host : Option Msg) (go : State → State) : State :=
  match s.chunkEnd g c kind host with
  | some t => go t
  | none => s.stalled g c kind

/-! ### Monitors (R374) -/

/-- The bin of a sample (R374). -/
def binOf (v : Nat) : Nat := if v = 0 then 0 else min 15 (Nat.log2 v + 1)

/-- A monitor after it took a value n times (R374). -/
def Monitor.sample (k : Monitor) (v n : Nat) : Monitor :=
  { k with
    least := if v < k.least.toNat then BitVec.ofNat 64 v else k.least,
    most := if k.most.toNat < v then BitVec.ofNat 64 v else k.most,
    bins := Tab.put k.bins (binOf v) (min (2 ^ 32 - 1) (Tab.look 0 k.bins (binOf v) + n)) }

/-- The monitors of a core that are enabled and select a quantity (R365, R374). -/
def Debug.watching (d : Debug) (q : Nat) : List Nat :=
  (List.range 2).filter fun m => (d.mon m).ctl.getLsbD 0 && field (d.mon m).ctl 1 3 == q

/-- Samples of a quantity of core g come due: the monitors that select it have to take value v n times (R374). -/
def State.sampled (s : State) (g q v n : Nat) : State :=
  let d := (s.core g).dbg
  if (d.watching q).isEmpty || n == 0 then s
  else s.setDebug g { d with due := d.due ++ (d.watching q).map fun m => ⟨m, BitVec.ofNat 64 v, n⟩ }

/-- The GVT lag in VT time bits over the LPs bound on core g: the least (R374). -/
def State.lag (s : State) (g : Nat) : Nat :=
  let ls := (s.work g).lps.map fun e =>
    (e.2.lvt.toNat / 256) - (((s.part (s.tag g)).domains.find? fun d => d.1 == e.2.domain).map fun d => d.2.gvt.toNat / 256).getD 0
  ls.foldl min (ls.headD 0)

/-- The quantities that are sampled every 64 cycles: the occupied entries of the request send queue, where an entry that a retry reply
sent back keeps its place, of the ejection queue, and of the rings (R359, R374). -/
def State.quantity (s : State) (g q : Nat) : Nat :=
  let w := s.work g
  if q = 4 then w.requests.length + s.retried g false
  else if q = 5 then w.ejection.length
  else (w.ctxs.map fun e => e.2.ring.length).foldl (· + ·) 0

/-- The samples of core g that come due where its clock goes on from count a to count b: one of each quantity for each 64 cycles
(R374). -/
def State.periodic (s : State) (g a b : Nat) : State :=
  [4, 5, 6].foldl (fun t q => t.sampled g q (t.quantity g q) (b / 64 - a / 64)) s

/-- Whether a core has a monitor that is enabled (R365). -/
def Debug.monitors (d : Debug) : Bool := d.mons.any fun e => e.2.ctl.getLsbD 0

/-- `MONITOR_SAMPLE`: monitor m of core g takes a sample that has come due: a value of its quantity, which an event or the passing of 64
cycles gave (R374; log entry 112). -/
def execMonitorSample (g m : Nat) (v : Word) (s : State) : Host.Outcome State Fault Refusal :=
  let d := (s.core g).dbg
  .next <| match d.due.find? fun x => x.mon == m && x.val == v with
    | none => s
    | some x => s.setDebug g { d with
        mons := Tab.put d.mons m ((d.mon m).sample v.toNat x.times), due := dropFirst (fun y => y == x) d.due }

/-- `MONITOR_CLEAR`: a write of CTL[4] = 1 clears a monitor's samples, those that are due among them (R365). -/
def execMonitorClear (g m : Nat) (s : State) : Host.Outcome State Fault Refusal :=
  let d := (s.core g).dbg
  .next (if m < 2 then s.setDebug g { d with mons := Tab.put d.mons m (d.mon m).clear, due := d.due.filter fun x => x.mon != m } else s)

end Sys2Proof.Machine
end

