-- ==== Sys2Proof/Machine/Global.lean ====
section
/-! DEFINITION. Global memory: loads, stores and AMOs (R229 to R232), the request queue and its windows (R195,
R196), the access at its home (R228), replies and acknowledgements (R229, R233), DRAIN and FENCE (R234,
R235). -/

namespace Sys2Proof.Machine

/-! ### The request send queue (R195, R196) -/

/-- The destination class of a physical address for core g: same cluster, same die, other die, other package,
CXL (R196). -/
def windowClass (g pa : Nat) : Nat :=
  let core := pa / 2 ^ 38 % 4096
  if 0xC00 ≤ core ∧ core < 0xD00 then 4
  else if pa / 2 ^ 50 ≠ chipOf g then 3
  else
    let p := if core < 2560 then core else (core - 0xF00) * 16
    if p / 16 = physOf g / 16 then 0 else if p / 320 = physOf g / 320 then 1 else 2

/-- The state with an entry at the end of core g's request queue. -/
def State.enqueue (s : State) (g : Nat) (e : SendEntry) : State :=
  s.setWork g { s.work g with requests := (s.work g).requests ++ [e] }

/-- A request of the executing context. -/
def State.request (s : State) (pa : Nat) (op : MemOp) (dest : Option XReg) (seq : Byte) : MemReq where
  id := s.nextId
  g := s.cur.1
  c := s.cur.2
  pa := pa
  op := op
  dest := dest
  seq := seq
  addr := s.me.pc
  spate := false
  event := s.me.event
  late := []
  born := s.cycle s.cur.1
  sent := 0

/-- The state with one request queued as an entry of its own. -/
def State.send1 (s : State) (r : MemReq) : State :=
  s.fresh.enqueue s.cur.1 ⟨.mem [r], s.cur.2, []⟩

/-! ### Checks and translation of a scalar access (R227, R229, R251) -/

/-- Why a global access does not go ahead: causes that its checks raise and the comparator that it matches, with the address, or
a parking fault. -/
inductive Stop where
  | fail (cs : List Nat) (w : Option Nat) (a : Word)
  | park (a : Word) (k : Access) (f : XFail)
  deriving DecidableEq, Repr

/-- The watchpoint kinds of an access (R368). -/
def Access.kinds : Access → BitVec 3
  | .read => 2
  | .write => 4
  | .fetch => 1
  | .amo => 6

/-- The causes of an access of a size at an address that is not aligned to it (R227). -/
def unaligned (va : Word) (size : Nat) : List Nat := if va.toNat % size = 0 then [] else [0x06]

/-- The checks of one access of context c of core g: alignment, translation, R227 and watchpoints; every cause that they raise
counts, and an access that parks matches its watchpoint when it is replayed (R208, R217, R227, R229, R255). -/
def State.globalAccess (s : State) (g c : Nat) (va : Word) (k : Access) (size : Nat) (scalar fadd : Bool) :
    State × Except Stop Nat :=
  let sup := (s.ctx g c).sup
  let mis := unaligned va size
  let w := s.watchHit g c va.toNat size k.kinds
  let r := s.translate g (!sup) va k
  match r.2 with
  | .error f =>
    if s.parks g sup f then (r.1, .error (if mis.isEmpty then .park va k f else .fail mis w va))
    else (r.1, .error (.fail (mis ++ [0x07]) w va))
  | .ok pa =>
    let cs := mis ++ if s.physOk g sup pa ⟨size, scalar, k == .amo, k == .write || k == .amo, fadd⟩ then [] else [0x07]
    if cs.isEmpty && w.isNone then (r.1, .ok pa) else (r.1, .error (.fail cs w va))

/-- The executing context's instruction stopped (R229, R251). -/
def State.stop (s : State) : Stop → State
  | .fail cs w a => s.accessTrap cs w a
  | .park a k f => s.parkHere a k f

/-- A scalar global access of the executing context: it waits for a request-queue entry (R195), is checked
and translated, and goes on with the physical address. -/
def State.scalarGlobal (s : State) (va : Word) (k : Access) (size : Nat) (fadd : Bool) (go : State → Nat → State) : State :=
  let r := s.globalAccess s.cur.1 s.cur.2 va k size true fadd
  match r.2 with
  | .error e => r.1.stop e
  | .ok pa => if s.requestRoom s.cur.1 then go r.1 pa else s.hold (.blocked .sendQueue)

/-- The executing context owes register d to request n; an older owed load to d is forgotten (R43, R229). -/
def Ctx.owe (k : Ctx) (n : Nat) (ds : List XReg) : Ctx :=
  let k1 := k.forget fun d => ds.contains d
  { k1 with owed := k1.owed ++ ds.map fun d => (n, d) }

/-! ### LDG and STG (R229) -/

/-- `LDG`: sends a request and retires; xd is owed (R229). -/
def execLdg (z : BitVec 2) (d a : XReg) (sg : BitVec 1) (o : BitVec 13) (s : State) : Res :=
  let size := 2 ^ z.toNat
  let va := s.x a + o.signExtend 64
  .next <| s.scalarGlobal va .read size false fun t pa =>
    let r := { t.request pa (.load size (sg == 1)) (some d) 0 with late := t.covered t.cur.1 t.cur.2 false va.toNat size }
    let t1 := t.send1 r
    (t1.setMe (t1.me.owe r.id [d])).retire 2

/-- The requests of stores of the executing context, numbered from `id`. -/
def State.storeReqs (s : State) : Nat → List (Nat × List Byte) → List MemReq
  | _, [] => []
  | id, w :: r => { s.request w.1 (.store w.2) none 0 with id := id } :: s.storeReqs (id + 1) r

/-- Stores of one instruction of the executing context, sent in one queue entry; its store-acknowledge counter rises for each
(R195, R229, R233). -/
def State.sendStores (s : State) (ws : List (Nat × List Byte)) : State :=
  let rs := s.storeReqs s.nextId ws
  let s1 := { s with nextId := s.nextId + rs.length }
  (s1.setMe { s1.me with acks := s1.me.acks ++ rs.map fun r => r.id }).enqueue s.cur.1 ⟨.mem rs, s.cur.2, []⟩

/-- The parts of a global store that an event performs now: those in a region, and while it coasts those in a
checkpoint region alone (R320, R324). -/
def partNow (e : LpEvent) (p : Part) : Bool := if e.st = .coasting then p.kind == 3 else p.kind != 0

/-- The parts of a global store that an event holds (R320). -/
def partHeld (e : LpEvent) (p : Part) : Bool := e.st != .coasting && p.kind == 0

/-- A global store of the executing context: sent, or in a speculative event performed where it lies in a region
and held elsewhere (R229, R320). -/
def State.storeGlobal (s : State) (va : Word) (bs : List Byte) : State :=
  let g := s.cur.1
  let c := s.cur.2
  match s.ahead g c with
  | none => s.scalarGlobal va .write bs.length false fun t pa => (t.sendStores [(pa, bs)]).retire 2
  | some (slot, lp, e) =>
    let ps := partsOf (lp.kindAt true) va.toNat bs
    let now := ps.filter (partNow e)
    let hold := fun (t : State) => (ps.filter (partHeld e)).foldl (fun t p =>
      t.holdItem g slot e (.store (BitVec.ofNat 64 p.addr) p.bytes)) t
    if e.st != .coasting && !lp.storeRoom e.id id ps then s.hold (.blocked .commit)
    else if now.isEmpty then
      match unaligned va bs.length, s.watchHit g c va.toNat bs.length 4 with
      | [], none => (hold s).retire 2
      | cs, w => s.accessTrap cs w va
    else s.scalarGlobal va .write bs.length false fun t pa =>
      (hold (t.sendStores (now.map fun p => (pa + (p.addr - va.toNat), p.bytes)))).retire 2

/-- `STG` (R229, R320). -/
def execStg (z : BitVec 2) (d a : XReg) (o : BitVec 13) (s : State) : Res :=
  .next (s.storeGlobal (s.x a + o.signExtend 64) (bytesOfNat (2 ^ z.toNat) (s.x d).toNat))

/-! ### AMOs (R232) -/

/-- The operand of an AMO of a size: the low bytes of a register, or a pair for 16 B (R232). -/
def State.amoOperand (s : State) (size : Nat) (b : XReg) : Nat :=
  if size = 16 then (s.x b).toNat + 2 ^ 64 * (s.x (b + 1)).toNat else (s.x b).toNat % 2 ^ (8 * size)

/-- The size of an AMO: code 0 is 16 B (R29). -/
def amoBytes (z : BitVec 2) : Nat := if z = 0 then 16 else 2 ^ z.toNat

/-- The new value at the home (R232). -/
def amoResult (f : BitVec 4) (size old b c : Nat) : Nat :=
  let w := 8 * size
  let sg := toSigned w
  if f = 0 then (old + b) % 2 ^ w
  else if f = 1 then (if sg b < sg old then b else old)
  else if f = 2 then (if sg old < sg b then b else old)
  else if f = 3 then old &&& b else if f = 4 then old ||| b else if f = 5 then old ^^^ b
  else if f = 6 then b
  else if f = 7 then (if old = c then b else old)
  else (roundRNE 0 ((value 0 old).add false (value 0 b)).1).1

/-- The registers an AMO writes. -/
def amoDest (size : Nat) (d : XReg) : List XReg := if size = 16 then [d, d + 1] else [d]

/-- An AMO of the executing context sent: it uses the path of LDG, and xd is owed (R232); it waits for a
speculative event to be safe (R320). -/
def State.sendAmo (s : State) (f : BitVec 4) (size : Nat) (d a b c : XReg) : State :=
  s.whenSafe <| s.scalarGlobal (s.x a) .amo size (f == 8) fun t pa =>
    let r := t.request pa (.amo f size (t.amoOperand size b) (if f = 7 then t.amoOperand size c else 0)) (some d) 0
    let t1 := t.send1 r
    (t1.setMe (t1.me.owe r.id (amoDest size d))).retire 2

/-- `AMO_ADD` (R232). -/
def execAmoAdd (z : BitVec 2) (d a b : XReg) (s : State) : Res := .next (s.sendAmo 0 (amoBytes z) d a b 0)
/-- `AMO_MIN` (R232). -/
def execAmoMin (z : BitVec 2) (d a b : XReg) (s : State) : Res := .next (s.sendAmo 1 (amoBytes z) d a b 0)
/-- `AMO_MAX` (R232). -/
def execAmoMax (z : BitVec 2) (d a b : XReg) (s : State) : Res := .next (s.sendAmo 2 (amoBytes z) d a b 0)
/-- `AMO_AND` (R232). -/
def execAmoAnd (z : BitVec 2) (d a b : XReg) (s : State) : Res := .next (s.sendAmo 3 (amoBytes z) d a b 0)
/-- `AMO_OR` (R232). -/
def execAmoOr (z : BitVec 2) (d a b : XReg) (s : State) : Res := .next (s.sendAmo 4 (amoBytes z) d a b 0)
/-- `AMO_XOR` (R232). -/
def execAmoXor (z : BitVec 2) (d a b : XReg) (s : State) : Res := .next (s.sendAmo 5 (amoBytes z) d a b 0)
/-- `AMO_SWAP` (R232). -/
def execAmoSwap (z : BitVec 2) (d a b : XReg) (s : State) : Res := .next (s.sendAmo 6 (amoBytes z) d a b 0)
/-- `AMO_CAS` (R232). -/
def execAmoCas (z : BitVec 2) (d a b c : XReg) (s : State) : Res := .next (s.sendAmo 7 (amoBytes z) d a b c)
/-- `AMO_FADD`: 4 B, in FP32 (R30, R232). -/
def execAmoFadd (d a b : XReg) (s : State) : Res := .next (s.sendAmo 8 4 d a b 0)

/-! ### Vector global accesses (R230, R231) -/

/-- The checks of one lane: those of an access where it is performed now, and where an event only holds it those that need no
translation (R230, R320). -/
def State.laneGlobal (s : State) (g c : Nat) (k : Access) (a : Word) (now : Bool) : State × Except Stop (Option Nat) :=
  if now then
    let t := s.globalAccess g c a k 4 false false
    (t.1, t.2.map some)
  else
    match unaligned a 4, s.watchHit g c a.toNat 4 k.kinds with
    | [], none => (s, .ok none)
    | cs, w => (s, .error (.fail cs w a))

/-- The active lanes checked in ascending order: the machine, the lanes that are performed now with their physical addresses, and
those that fail. `now` says which lanes are performed now. -/
def State.lanesGlobal (s : State) (g c : Nat) (k : Access) (addr : Nat → Word) (now : Nat → Bool) :
    List Nat → State × List (Nat × Nat) × List (Nat × Stop)
  | [] => (s, [], [])
  | i :: r =>
    let t := s.laneGlobal g c k (addr i) (now i)
    let u := t.1.lanesGlobal g c k addr now r
    match t.2 with
    | .ok (some pa) => (u.1, (i, pa) :: u.2.1, u.2.2)
    | .ok none => u
    | .error e => (u.1, u.2.1, (i, e) :: u.2.2)

/-- Whether a lane fails for a cause of its own, and whether it parks. -/
def Stop.hard : Stop → Bool
  | .fail cs _ _ => !cs.isEmpty
  | .park _ _ _ => false
def Stop.isPark : Stop → Bool
  | .park _ _ _ => true
  | _ => false

/-- The lane whose stop a vector access takes: the lowest that fails for a cause, else the lowest that parks, else the lowest that
matches a watchpoint (R208, R217, R230, R255). -/
def stopTaken (ls : List (Nat × Stop)) : Option Stop :=
  match ls.find? fun q => q.2.hard with
  | some q => some q.2
  | none => match ls.find? fun q => q.2.isPark with
    | some q => some q.2
    | none => ls.head?.map fun q => q.2

/-- Lanes with addresses grouped into pieces: consecutive lanes in one block of n bytes go together (R231). -/
def groupLanes (n : Nat) : List (Nat × Nat) → List (List (Nat × Nat))
  | [] => []
  | (i, pa) :: r =>
    match groupLanes n r with
    | ((j, pb) :: q) :: ps => if pa / n = pb / n then ((i, pa) :: (j, pb) :: q) :: ps else [(i, pa)] :: ((j, pb) :: q) :: ps
    | ps => [(i, pa)] :: ps

/-- The requests of the pieces, numbered from `id`. A store gives the parts of each lane's bytes by offset; a load
the bytes that held stores cover. -/
def pieceRequests (g c : Nat) (e : RingEntry) (event : Option (Nat × Nat)) (born : Nat) (data : Option (Nat → List (Nat × List Byte)))
    (late : Nat → List (Nat × Byte)) : Nat → List (List (Nat × Nat)) → List MemReq
  | _, [] => []
  | id, p :: ps =>
    let op : MemOp := match data with
      | some v => .vstore (p.flatMap fun q => (v q.1).map fun w => (q.2 + w.1, w.2))
      | none => .vload (p.map fun q => (q.2, q.1))
    let cov := p.zipIdx.flatMap fun q => (late q.1.1).map fun o => (4 * q.2 + o.1, o.2)
    ⟨id, g, c, (p.headD (0, 0)).2, op, none, e.seq, e.addr, false, event, cov, born, 0⟩
      :: pieceRequests g c e event born data late (id + 1) ps

/-- The lanes of a list as a mask. -/
def laneMask (ls : List Nat) : BitVec 64 := predOf fun i => ls.contains i

/-- The parts of the stores of active lanes by an event, where it runs ahead (R320). -/
def State.globalParts (s : State) (g c : Nat) (data : VReg) (ad : Nat → Word) (ls : List Nat) : List Part :=
  match s.ahead g c with
  | none => []
  | some (_, lp, _) => (joinPieces (laneWrites data ad ls)).flatMap fun w => partsOf (lp.kindAt true) w.1 w.2

/-- What lane i of a store performs at once: all four bytes, or in a speculative event those in a region, by offset
(R320). -/
def State.laneNow (s : State) (g c : Nat) (data : VReg) (ad : Nat → Word) (i : Nat) : List (Nat × List Byte) :=
  let bs := bytesOfNat 4 (lane data i).toNat
  match s.ahead g c with
  | none => [(0, bs)]
  | some (_, lp, e) =>
    ((partsOf (lp.kindAt true) (ad i).toNat bs).filter (partNow e)).map fun p => (p.addr - (ad i).toNat, p.bytes)

/-- The held parts of a vector store appended (R320). -/
def State.holdParts (s : State) (g c : Nat) (ps : List Part) : State :=
  match s.ahead g c with
  | none => s
  | some (slot, _, e) => (ps.filter (partHeld e)).foldl (fun t p =>
      t.holdItem g slot e (.store (BitVec.ofNat 64 p.addr) p.bytes)) s

/-- A vector entry of context c of core g parked at lanes that park (R251, R254; log entry 24). -/
def State.parkEntry (s : State) (g c : Nat) (seq : Byte) (a : Word) (k : Access) (f : XFail) : State :=
  let s1 := s.recordFault g a k f false
  s1.setCtx g c { s1.ctx g c with st := .parked, parked := .entry seq, replay := false, parkedAt := s1.cycle g, since := s1.cycle g }

/-- The requests of a vector access sent: the entry awaits its pieces, and `late` lanes wait for their replay (R230, R233). -/
def State.sendLanes (s : State) (g c : Nat) (seq : Byte) (store : Bool) (rs : List MemReq) (late : BitVec 64) : State :=
  let ids := rs.map fun r => r.id
  let s1 := { s with nextId := s.nextId + rs.length }
  let s2 := if rs.isEmpty then s1 else s1.enqueue g ⟨.mem rs, c, []⟩
  let k := (s2.ctx g c).setEntry seq fun x => { x with
    lanes := late, pieces := ids, finished := ids.isEmpty && late == 0, kept := x.kept || store,
    st := if ids.isEmpty then (if late = 0 then .done else .parked) else .running }
  s2.setCtx g c (if store then { k with acks := k.acks ++ ids } else k)

/-- Vector global access on the lanes `todo`. A lane that fails for a cause makes a late fault with nothing sent. Else the lanes
that translate are sent at once and the others park; where a lane matches a watchpoint nothing is sent, and it faults, or
parks with every lane while another one parks (R217, R230, R251, R254, R255). `piece` is the size of an atomic piece. -/
def vectorGlobal (d : Nat) (store : Bool) (piece : Nat) (addr : Ctx → Vector Word 16 → Nat → Word)
    (todo : BitVec 64) : VBody := fun s g c e =>
  let k := s.ctx g c
  let ad := addr k e.xs
  let ls := activeLanes todo
  let t := s.lanesGlobal g c (if store then .write else .read) ad
    (fun i => !store || !(s.laneNow g c (k.vreg d) ad i).isEmpty) ls
  let rs := pieceRequests g c e k.event (s.cycle g) (if store then some (s.laneNow g c (k.vreg d) ad) else none)
    (fun i => if store then [] else s.covered g c false (ad i).toNat 4) t.1.nextId (groupLanes piece t.2.1)
  let sent := fun (late : BitVec 64) =>
    (if store && !e.kept then t.1.holdParts g c (s.globalParts g c (k.vreg d) ad ls) else t.1).sendLanes g c e.seq store rs late
  match stopTaken t.2.2 with
  | none => sent 0
  | some (.fail cs w a) =>
    let u := match w with
      | some n => t.1.pull g n
      | none => t.1
    match lowestCause (cs.map fun x => (x, a)), w with
    | some (x, _), _ => u.setCtx g c (((u.ctx g c).faultEntry e.seq x a false).alsoCauses e.seq (cs ++ if w.isSome then [0x08] else []))
    | none, some n => u.setCtx g c ((u.ctx g c).watchEntry e.seq n a)
    | none, none => u
  | some (.park a kk f) =>
    if t.2.2.all fun q => q.2.isPark then (sent (laneMask (t.2.2.map fun q => q.1))).parkEntry g c e.seq a kk f
    else (t.1.setCtx g c ((t.1.ctx g c).setEntry e.seq fun x => { x with lanes := todo, pieces := [], st := .parked })).parkEntry
      g c e.seq a kk f

/-- The body of a vector global access: the active lanes, or on replay the lanes that have not completed
(R230, R255). -/
def globalBody (d : BitVec 5) (p : BitVec 3) (store : Bool) (piece : Nat)
    (addr : Ctx → Vector Word 16 → Nat → Word) : VBody := fun s g c e =>
  vectorGlobal d.toNat store piece addr (if e.lanes = 0 then (s.ctx g c).pred p else e.lanes) s g c e

/-- A vector global instruction issues once the request queue has an entry (R195, R230). -/
def State.issueGlobal (s : State) (i : Instr) (b : VBody) : State :=
  if s.requestRoom s.cur.1 then s.issueV i 2 b else s.hold (.blocked .sendQueue)

/-- Whether the commit ring of a speculative event has room for a vector store of the executing context (R321). -/
def State.globalRoom (s : State) (d : Nat) (p : BitVec 3) (addr : Ctx → Vector Word 16 → Nat → Word) : Bool :=
  match s.ahead s.cur.1 s.cur.2 with
  | none => true
  | some (_, lp, e) =>
    e.st == .coasting || lp.storeRoom e.id id
      (s.globalParts s.cur.1 s.cur.2 (s.me.vreg d) (addr s.me s.me.x) (activeLanes (s.me.pred p)))

/-- A vector global store issues once a speculative event's rings have room (R321). -/
def State.issueGlobalStore (s : State) (i : Instr) (d : BitVec 5) (p : BitVec 3)
    (addr : Ctx → Vector Word 16 → Nat → Word) (b : VBody) : State :=
  if s.globalRoom d.toNat p addr then s.issueGlobal i b else s.hold (.blocked .commit)

def bodyVldg (d : BitVec 5) (a : BitVec 6) (p : BitVec 3) : VBody := globalBody d p false 64 (linearAddr a)
def bodyVstg (d : BitVec 5) (a : BitVec 6) (p : BitVec 3) : VBody := globalBody d p true 32 (linearAddr a)
def bodyVgathg (d : BitVec 5) (a b : BitVec 6) (p : BitVec 3) : VBody := globalBody d p false 4 (indexedAddr a b)
def bodyVscatg (d : BitVec 5) (a b : BitVec 6) (p : BitVec 3) : VBody := globalBody d p true 4 (indexedAddr a b)

/-- `VLDG` (R230). -/
def execVldg (d : BitVec 5) (a : BitVec 6) (p : BitVec 3) (s : State) : Res :=
  .next (s.issueGlobal (.vldg d a p) (bodyVldg d a p))
/-- `VGATHG` (R230). -/
def execVgathg (d : BitVec 5) (a b : BitVec 6) (p : BitVec 3) (s : State) : Res :=
  .next (s.issueGlobal (.vgathg d a b p) (bodyVgathg d a b p))
/-- `VSTG` (R230). -/
def execVstg (d : BitVec 5) (a : BitVec 6) (p : BitVec 3) (s : State) : Res :=
  .next (s.issueGlobalStore (.vstg d a p) d p (linearAddr a) (bodyVstg d a p))
/-- `VSCATG` (R230). -/
def execVscatg (d : BitVec 5) (a b : BitVec 6) (p : BitVec 3) (s : State) : Res :=
  .next (s.issueGlobalStore (.vscatg d a b p) d p (indexedAddr a b) (bodyVscatg d a b p))

/-! ### The access at its home (R228, R231, R232) -/

/-- Whether core g is evicted, or being evicted, for the partition t (R357). -/
def State.away (s : State) (t g : Nat) : Bool :=
  (s.core g).evicting.isSome || (match (s.core g).image with
    | some i => i.tag.toNat == t
    | none => false)

/-- Whether a home answers a request of partition t with a retry reply: its core is evicted, and the access is to
its scratchpad window or registers (R357). -/
def State.homeAwayFor (s : State) (t pa : Nat) : Bool :=
  match homeOf pa with
  | .window g _ => s.away t g
  | .device g _ => s.away t g
  | _ => false

/-- Whether the home of an access by core g answers with a retry reply; a core's accesses to itself are no remote requests
(R357). -/
def State.homeAway (s : State) (g pa : Nat) : Bool :=
  s.homeAwayFor (s.tag g) pa && (match homeOf pa with
    | .window h _ => h != g
    | .device h _ => h != g
    | _ => true)

/-- Whether a home answers with a retry reply for its cluster is under self-test or its core has machine-checked
(R367, R375). -/
def State.homeBusy (s : State) (pa : Nat) : Bool :=
  match homeOf pa with
  | .window g _ => (s.cluster g).ftest.getLsbD 0 || (s.core g).dbg.checked
  | .device g _ => (s.cluster g).ftest.getLsbD 0
  | _ => false

/-- Whether the bytes at a physical address are poisoned: a 64-B line of memory, a 32-B granule of scratchpad,
or a CXL segment whose device is lost; a bank that is powered down reads 0, and no poison (R225, R363, R384). -/
def State.physPoison (s : State) (pa n : Nat) : Bool :=
  match homeOf pa with
  | .window g off => (s.work g).power.getLsbD (off / 0x8000) && (s.work g).poisonedAt off n
  | .cxl h seg _ => (s.chip h).lost.contains seg || s.poison.contains (pa / 64)
  | _ => s.poison.contains (pa / 64) || s.poison.contains ((pa + n - 1) / 64)

/-- Whether the package of a home is powered off: its agents answer nothing (R388). -/
def State.homeOff (s : State) (pa : Nat) : Bool := (s.chip (pa / 2 ^ 50 % 64)).off

/-- Whether a home cannot perform a store (R364, R384). -/
def State.storeFails (s : State) (pa : Nat) : Bool :=
  match homeOf pa with
  | .cxl h seg _ => (s.chip h).lost.contains seg
  | _ => false

/-- A store at its home: memory, a window, or a device register; and whether it was performed (R225, R226,
R364). -/
def State.homeStore (s : State) (pa : Nat) (bs : List Byte) : State × Bool :=
  match homeOf pa with
  | .device g off => s.writeReg g off (BitVec.ofNat 64 (natOfBytes bs))
  | .link h die off => (s.writeLink h die off, true)
  | _ => if s.storeFails pa then (s, false) else (s.writePhys pa bs, true)

/-- Bytes read at a home (R225, R226). -/
def State.homeLoad (s : State) (pa n : Nat) : List Byte :=
  match homeOf pa with
  | .device g off => bytesOfNat n (s.readReg g off).toNat
  | .link h die off => bytesOfNat n (s.readLink h die off).toNat
  | _ => s.readPhys pa n

/-- The parts of a vector store, in ascending lane order. -/
def State.storeParts (s : State) : List (Nat × List Byte) → State
  | [] => s
  | (pa, bs) :: r => (s.writePhys pa bs).storeParts r

/-- A request performed at its home at one instant: the machine, and its answer (R228, R231, R232, R363,
R364). -/
def State.perform (s : State) (r : MemReq) : State × MemReply :=
  match r.op with
  | .load n _ => (s, ⟨r, s.homeLoad r.pa n, true, s.physPoison r.pa n⟩)
  | .store bs => let t := s.homeStore r.pa bs; (t.1, ⟨r, [], t.2, false⟩)
  | .amo f n b c =>
    let old := natOfBytes (s.homeLoad r.pa n)
    if s.physPoison r.pa n then (s, ⟨r, bytesOfNat n old, !s.storeFails r.pa, true⟩)
    else (s.writePhys r.pa (bytesOfNat n (amoResult f n old b c)), ⟨r, bytesOfNat n old, true, false⟩)
  | .vload ps => (s, ⟨r, ps.flatMap fun p => s.readPhys p.1 4, true, ps.any fun p => s.physPoison p.1 4⟩)
  | .vstore ps => if s.storeFails r.pa then (s, ⟨r, [], false, false⟩) else (s.storeParts ps, ⟨r, [], true, false⟩)
  | .contribution => (s, ⟨r, [], true, false⟩)

/-- Whether a physical address is a device register of a core or of a link die (R226, R383). -/
def isDevice (pa : Nat) : Bool :=
  match homeOf pa with
  | .device _ _ => true
  | .link _ _ _ => true
  | _ => false

/-- Whether a physical address lies in a doorbell page (R382, R383). -/
def isDoorbell (pa : Nat) : Bool :=
  match homeOf pa with
  | .link _ die off => die == 0 && decide (0x100000 ≤ off) && decide (off < 0x140000)
  | _ => false

/-- Whether a request is an earlier one, by number, of the same context that goes before it: one to the same home; one of two to device
registers, which are performed one at a time, in program order; any before one to a doorbell, which follows as a release does (R226,
R228, R382). -/
def MemReq.before (e : MemReq) (k : Nat) (r : MemReq) : Bool :=
  decide (e.id < k) && e.g == r.g && e.c == r.c
    && (homeKey e.pa == homeKey r.pa || (isDevice e.pa && isDevice r.pa) || isDoorbell r.pa)

/-- Whether request k is the oldest in flight from its context to its home (R228). -/
def State.firstToHome (s : State) (k : Nat) (r : MemReq) : Bool :=
  !(s.net.reqs.any fun e => e.2.before k r) && !(s.net.retries.any fun e => e.2.2.reqs.any fun q => q.before k r)

/-- The tokens that a request costs (R352). -/
def MemReq.cost (r : MemReq) : Nat :=
  match r.op with
  | .amo _ _ _ _ => 2
  | _ => 1

/-- What waits at an agent: its number, its partition and its tokens (R353). -/
structure Waiting where
  id : Nat
  tag : Nat
  cost : Nat
  deriving DecidableEq, Repr

/-- When a request that is in the network reaches its home (R228; log entry 7). -/
def MemReq.arrival (r : MemReq) : Nat := r.sent + Config.freeArrival r.id

/-- The requests that wait at the agent of a physical address, oldest first, request k among them: those that have arrived, each the
first of its context, and that the agent does not turn away (R228, R353, R357; log entry 7). -/
def State.atAgent (s : State) (pa k : Nat) : List Waiting :=
  (s.net.reqs.filter fun e => homeKey e.2.pa == homeKey pa && (e.1 == k || decide (e.2.arrival ≤ s.now))
    && s.firstToHome e.1 e.2 && !(s.homeAway e.2.g e.2.pa || s.homeBusy e.2.pa)).map fun e => ⟨e.1, s.tag e.2.g, e.2.cost⟩

/-- The oldest request of each tag. -/
def heads (l : List Waiting) : List Waiting :=
  l.filter fun e => (l.find? fun o => o.tag == e.tag).map (fun o => o.id) == some e.id

/-- The request that a weir serves next: the oldest of those whose partition holds tokens for its oldest, else the oldest of the
next tag in turn (R353). -/
def Weir.next (w : Weir) (l : List Waiting) : Option Nat :=
  match (heads l).find? fun e => w.pays e.tag e.cost with
  | some e => some e.id
  | none =>
    (firstBelow (fun i => (heads l).any fun e => e.tag == (w.last + 1 + i) % 64) 64).bind fun i =>
      ((heads l).find? fun e => e.tag == (w.last + 1 + i) % 64).map fun e => e.id

/-- Whether request k is the one that its agent serves next; device registers have no weir (R226, R353). -/
def State.itsTurn (s : State) (k : Nat) (r : MemReq) : Bool :=
  match s.weirAt r.pa with
  | some w => w.next (s.atAgent r.pa k) == some k
  | none => true

/-- Whether an access of partition t that waits at an agent beside the requests there, as the youngest, is the one that it serves next
(R353; log entry 107). -/
def State.turnAt (s : State) (pa t cost : Nat) : Bool :=
  match s.weirAt pa with
  | some w => w.next (s.atAgent pa s.nextId ++ [⟨s.nextId, t, cost⟩]) == some s.nextId
  | none => true

/-- The cycles that a request has waited at the weir of its home, by the clock of the home's island (R353, R374). -/
def State.weirWait (s : State) (g : Nat) (r : MemReq) : Nat := (s.now - r.arrival) * (s.islandClock g).f / 16

/-- The memory agent's core of a physical address, where it has one (R228). -/
def agentOf (pa : Nat) : Option Nat :=
  match homeOf pa with
  | .vault g _ => some g
  | .shadow g _ => some g
  | .window g _ => some g
  | _ => none

/-- The monitors of the home's core sample the wait of a request that is served (R374). -/
def State.waitSampled (s : State) (r : MemReq) : State :=
  match agentOf r.pa with
  | some g => s.sampled g 3 (s.weirWait g r) 1
  | none => s

/-- The failure reply to a request: a load returns poison, a store has failed (R350, R385; log entry 90). -/
def MemReq.failure (r : MemReq) : MemReply :=
  match r.op with
  | .load n _ => ⟨r, List.replicate n 0, true, true⟩
  | .vload ps => ⟨r, List.replicate (4 * ps.length) 0, true, true⟩
  | .amo _ n _ _ => ⟨r, List.replicate n 0, false, false⟩
  | _ => ⟨r, [], false, false⟩

/-- A request served at its home: performed at one instant, or refused where its partition does not own the window or the shadow
region any more (R143, R228, R350, R356). -/
def State.serveReq (s : State) (r : MemReq) : State × MemReply :=
  if s.reaches (s.tag r.g) r.pa then s.perform r else (s, r.failure)

/-- `MEMORY_ACCESS`: request k, when its turn has come, is performed at its home, charged at the weir, counted and sampled, and its answer
leaves; a home that is evicted, under self-test or machine-checked answers with a retry reply, and the sender sends the
request again 512 cycles later (R228, R353, R354, R357, R359, R367, R375). -/
def execMemoryAccess (k : Nat) (s : State) : Res :=
  .next <| match Tab.find s.net.reqs k with
    | none => s
    | some r =>
      if !s.firstToHome k r || s.homeOff r.pa then s
      else if s.homeAway r.g r.pa || s.homeBusy r.pa then
        { s with net := { s.net with
          reqs := Tab.drop s.net.reqs k, retries := Tab.put s.net.retries k (s.cycle r.g + 512, .mem [r]) } }
      else if !s.itsTurn k r then s
      else
        let t := s.serveReq r
        let t1 := { t.1 with net := { t.1.net with
          reqs := Tab.drop t.1.net.reqs k, replies := Tab.put t.1.net.replies k t.2 } }
        (t1.served r.pa (s.tag r.g) r.cost).waitSampled r

/-! ### Windows (R196) -/

/-- The window of a class. -/
def Work.window (k : Work) (cls : Nat) : Window := (k.windows[cls]?).getD ⟨16, 0, 0⟩

/-- A core's work with the window of a class replaced. -/
def Work.setWindow (k : Work) (cls : Nat) (w : Window) : Work := { k with windows := k.windows.setIfInBounds cls w }

/-- A place given back with a reply: a marked one halves the window, the sixteenth unmarked one in a row
grows it (R196). -/
def Window.back (w : Window) (spate : Bool) : Window :=
  if spate then ⟨max 1 (w.size / 2), w.used - 1, 0⟩
  else if w.run + 1 = 16 then ⟨min 64 (w.size + 1), w.used - 1, 0⟩
  else ⟨w.size, w.used - 1, w.run + 1⟩

/-- The place of a request in its class's window given back. -/
def State.windowBack (s : State) (g cls : Nat) (spate : Bool) : State :=
  s.setWork g ((s.work g).setWindow cls (((s.work g).window cls).back spate))

/-! ### Replies and acknowledgements (R229, R233, R363, R364) -/

/-- Lanes of a landed piece written into a register. -/
def putLanes (v : VReg) (ps : List (Nat × Nat)) (bs : List Byte) : VReg :=
  match ps with
  | [] => v
  | (_, i) :: r => putLanes (v.setIfInBounds i (BitVec.ofNat 32 (natOfBytes (bs.take 4)))) r (bs.drop 4)

/-- The vector register an entry loads (R230). -/
def loadDest : Instr → Nat
  | .vldg d _ _ => d.toNat
  | .vgathg d _ _ _ => d.toNat
  | _ => 0

/-- A piece of a vector entry has landed or been acknowledged: the entry completes with its last one, unless
lanes of it are parked (R230, R254). -/
def Ctx.pieceDone (k : Ctx) (seq : Byte) (id : Nat) : Ctx :=
  k.setEntry seq fun e =>
    let ps := e.pieces.filter fun n => n != id
    if ps.isEmpty && e.st == .running then
      { e with pieces := ps, finished := e.lanes == 0, st := if e.lanes = 0 then .done else .parked }
    else { e with pieces := ps }

/-- A context that waits for request id no longer. -/
def Ctx.answered (k : Ctx) (id : Nat) : Ctx :=
  { k with owed := k.owed.filter fun o => o.1 != id, amos := k.amos.filter fun i => i != id }

/-- The answer of a load written: xd, or a pair, where the context still owes it (R229, R232). -/
def Ctx.landScalar (k : Ctx) (id : Nat) (d : XReg) (size : Nat) (signed : Bool) (bs : List Byte) : Ctx :=
  let put := fun (k : Ctx) (r : XReg) (v : Word) =>
    if k.owed.contains (id, r) then { k with x := k.x.set r.toNat v r.isLt } else k
  (if size = 16 then
    put (put k d (BitVec.ofNat 64 (natOfBytes (bs.take 8)))) (d + 1) (BitVec.ofNat 64 (natOfBytes (bs.drop 8)))
  else put k d (extendTo size signed (natOfBytes bs))).answered id

/-- Whether context k still waits for request id. -/
def Ctx.awaits (k : Ctx) (r : MemReq) : Bool :=
  k.amos.contains r.id || k.acks.contains r.id || k.owed.any (fun o => o.1 == r.id)
    || k.ring.any (fun e => e.pieces.contains r.id)

/-- A reply to a load or AMO lands in its context (R229, R230, R232). -/
def Ctx.land (k : Ctx) (a : MemReply) : Ctx :=
  let r := a.req
  match r.op with
  | .load n sg => match r.dest with
    | some d => k.landScalar r.id d n sg (overlay a.data r.late)
    | none => k
  | .amo _ n _ _ => match r.dest with
    | some d => k.landScalar r.id d n false a.data
    | none => k.answered r.id
  | .vload ps =>
    match k.ring.find? fun e => e.seq == r.seq && e.pieces.contains r.id with
    | some e => (k.setV (loadDest e.instr) (putLanes (k.vreg (loadDest e.instr)) ps (overlay a.data r.late))).pieceDone r.seq r.id
    | none => k
  | _ => k

/-- Whether a request is answered by an acknowledgement. -/
def MemReq.isStore (r : MemReq) : Bool :=
  match r.op with
  | .store _ => true
  | .vstore _ => true
  | .contribution => true
  | _ => false

/-- Whether a request is a scalar load or AMO. -/
def MemReq.isScalar (r : MemReq) : Bool :=
  match r.op with
  | .load _ _ => true
  | .amo _ _ _ _ => true
  | _ => false

/-- The reply taken from the network, with its window place given back; a contribution to a reduction takes no place
(R196). -/
def State.takeReply (s : State) (k : Nat) (a : MemReply) : State :=
  let s1 := { s with net := { s.net with replies := Tab.drop s.net.replies k } }
  if a.req.op = .contribution then s1 else s1.windowBack a.req.g (windowClass a.req.g a.req.pa) a.req.spate

/-- `LOAD_REPLY`: a reply to a load or AMO lands; poisoned bytes end the context that would consume them
(R229, R363); a failed AMO ends it too (R364). The landing of a scalar reply ends a chunk (R372); each reply is sampled (R374). -/
def execLoadReply (k : Nat) (s : State) : Res :=
  .next <| match Tab.find s.net.replies k with
    | none => s
    | some a =>
      let r := a.req
      if r.isStore then s
      else
        let c := s.ctx r.g r.c
        let take := fun (t : State) => (t.takeReply k a).sampled r.g 0 (s.cycle r.g - r.born) 1
        let land := fun (t : State) => t.setCtx r.g r.c ((t.ctx r.g r.c).land a)
        if !c.awaits r then take s
        else if !a.ok then (take s).terminate r.g r.c 2 (BitVec.ofNat 64 r.pa)
        else if a.poison && !c.amos.contains r.id then (take s).terminate r.g r.c 1 (BitVec.ofNat 64 r.pa)
        else if r.isScalar then s.atChunkEnd r.g r.c 2 none fun t => land (take t)
        else land (take s)

/-- `STORE_ACK`: a store is acknowledged and the counter falls; a failure ends the issuing context (R233,
R364). -/
def execStoreAck (k : Nat) (s : State) : Res :=
  .next <| match Tab.find s.net.replies k with
    | none => s
    | some a =>
      let r := a.req
      if !r.isStore then s
      else
        let s1 := s.takeReply k a
        let c := s1.ctx r.g r.c
        let s2 := s1.setCtx r.g r.c (({ c with acks := c.acks.filter fun i => i != r.id } : Ctx).pieceDone r.seq r.id)
        if !c.acks.contains r.id then s1
        else if a.ok then s2 else s2.terminate r.g r.c 2 (BitVec.ofNat 64 r.pa)

/-! ### DRAIN and FENCE (R234, R235) -/

/-- `DRAIN`: blocks until the store-acknowledge counter is 0 (R234). -/
def execDrain (s : State) : Res := .next (if s.me.acks.isEmpty then s.retire 2 else s.hold (.blocked .drain))

/-- `FENCE`: with release, every earlier load, AMO, vector memory instruction and store is complete; with
acquire, every earlier load and AMO has returned (R235). Scopes need nothing more: an access performed at its
home is performed for every agent (R228). -/
def execFence (k : BitVec 2) (_sc : BitVec 3) (s : State) : Res :=
  .next (if k.getLsbD 1 && !s.me.drained then s.hold (.blocked .drain)
    else if k.getLsbD 0 && !s.me.loadsDone then s.hold (.blocked .loads)
    else s.retire 2)

/-- The floor of partition t: one number for every agent, which QOSFLOOR of its cores reports (R52, R352; log entry 91). -/
def State.floorOf (s : State) (t : Nat) : Nat := (s.part t).floor.toNat

/-- A weir at the start of a period: every partition holds its floor, and unused tokens are not carried over (R352). -/
def State.refill (s : State) (w : Weir) : Weir :=
  { w with tokens := s.parts.filterMap fun e => if s.floorOf e.1 = 0 then none else some (e.1, s.floorOf e.1) }

/-- `WEIR_PERIOD`: a period begins at a weir. Numbers below 2560 · 64 name the memory agent of a core, and above them 256 to a
package the home agents of CXL segments (R352). -/
def execWeirPeriod (h : Nat) (s : State) : Res :=
  .next <|
    if h < 163840 then s.setCore h { s.core h with weir := s.refill (s.core h).weir }
    else
      let chip := (h - 163840) / 256
      let seg := (h - 163840) % 256
      let k := s.chip chip
      s.setChip chip { k with weirs := Tab.put k.weirs seg (s.refill (Tab.look ⟨[], 0⟩ k.weirs seg)) }

/-- `PAGE_WALK`: a walker completes a walk for a TLB miss of core g: a translation that the walk finds is
filled, one that it finds invalid or bad is not (R247, R249). -/
def execPageWalk (g : Nat) (va : Word) (kind : BitVec 2) (s : State) : Res :=
  let k : Access := if kind = 0 then .read else if kind = 1 then .write else if kind = 2 then .fetch else .amo
  .next <| match s.walk g false va k with
    | .ok e => (s.chargeWalk g va).fillTlb g k e
    | .error _ => s.chargeWalk g va

end Sys2Proof.Machine
end

