-- ==== Sys2Proof/Machine/Send.lean ====
section
/-! DEFINITION. Messages: SEND, SENDL, REPLY, MSGRD, CHMASK and WAITCH (R95, R197 to R201), what a send does in a
speculative event (R320), the send queues (R195, R196), arrival, spill, landing and release (R189, R190, R194),
evicted receivers (R359), the host window (R202), and what a delivery sets (R191). -/

namespace Sys2Proof.Machine

/-! ### Heads and destinations (R186, R187) -/

/-- The core that a partition's logical number names, when its LMAP entry is valid (R186, R350, R376). -/
def State.reach (s : State) (t chip l : Nat) : Option Nat :=
  match s.coreOf t chip l with
  | some g => if s.lmapValid t g then some g else none
  | none => none

/-- The destination core of a send operand that is legal (R186). -/
def State.checkDest (s : State) (g : Nat) (d : Word) : Option Nat :=
  let r := field d 18 6
  if d.toNat ≥ 2 ^ 24 ∨ (1 ≤ r ∧ r ≤ 7) then none else s.reach (s.tag g) (field d 12 6) (field d 0 12)

/-- A message of context c of core g, without a reply cell. -/
def State.message (s : State) (g c dst : Nat) (d : Word) (ch : Nat) (payload : List Byte) (bad : List Nat)
    (rel timed : Bool) (vt : Word) : Msg where
  d0 := pack [(0, field d 0 18), (18, ch), (24, field d 18 6), (30, s.tag g), (36, payload.length),
    (48, bitOf rel), (49, bitOf timed), (53, bitOf (!bad.isEmpty))]
  d1 := s.ident g c
  d2 := if timed then vt else 0
  d3 := 0
  payload := payload
  dst := dst
  src := g
  sctx := c
  bad := bad
  stamp := 0
  born := 0

/-- A message with its reply cell recorded (R187, R194). -/
def Msg.withCell (m : Msg) (n : Nat) : Msg := { m with d3 := pack [(0, n), (6, 1)] }

/-- The lowest free reply cell (R194). -/
def Work.freeCell (w : Work) : Option Nat := firstBelow (fun n => (Tab.find w.cells n).isNone) Config.replyCells

/-- A message of context c of core g queued with the cell it needs; none where no cell or no entry is free. -/
def State.queueMsg (s : State) (g c : Nat) (m : Msg) (waits : List Nat) : Option State :=
  if !s.requestRoom g then none
  else if m.replyChannel = 0 then some (s.enqueue g ⟨.msg m, c, waits⟩)
  else match (s.work g).freeCell with
    | none => none
    | some n =>
      let w := s.work g
      some ((s.setWork g { w with cells := Tab.put w.cells n ⟨0, false, none⟩ }).enqueue g ⟨.msg (m.withCell n), c, waits⟩)

/-! ### The work of a partition (R356, R357) -/

/-- Partition t's work at core g: that of its image, else the work set aside while its evict routine runs, else the core's own
(R356, R357). -/
def State.workFor (s : State) (t g : Nat) : Work :=
  match (s.core g).image with
  | some i => if i.tag.toNat = t then i.work else s.work g
  | none =>
    match (s.core g).evicting with
    | some (.routine _ w) => w
    | _ => s.work g

/-- Partition t's work at core g changed (R356, R357). -/
def State.mapFor (s : State) (t g : Nat) (f : Work → Work) : State :=
  let k := s.core g
  match k.image with
  | some i => if i.tag.toNat = t then s.setCore g { k with image := some { i with work := f i.work } } else s.setWork g (f (s.work g))
  | none =>
    match k.evicting with
    | some (.routine n w) => s.setCore g { k with evicting := some (.routine n (f w)) }
    | _ => s.setWork g (f (s.work g))

/-- Whether core g's shadow region holds an image of partition t. -/
def State.imageOf (s : State) (t g : Nat) : Option Image := ((s.core g).image).filter fun i => i.tag.toNat == t

/-! ### SEND and SENDL (R197, R198) -/

/-- A send of the executing context outside a speculative event: it waits for a cell, traps while the queue is full,
and retires once queued (R194, R195, R197). -/
def State.sendNow (s : State) (len : Nat) (m : Msg) (rel : Bool) : State :=
  if m.replyChannel ≠ 0 ∧ (s.work s.cur.1).freeCell = none then s.hold (.blocked .cell)
  else match s.queueMsg s.cur.1 s.cur.2 m (if rel then s.me.pending else []) with
    | some t => t.retire len
    | none => s.trap 0x09

/-- Whether a message goes to an optimistic channel of a domain, by the handler table of its partition's work there (R320,
R357). -/
def State.toDomain (s : State) (m : Msg) (d : Nat) : Bool :=
  let h := Tab.look ⟨0, 0⟩ (s.workFor m.tag m.dst).handlers m.channel
  h.valid && h.optimistic && field h.ctl 16 8 == d

/-- The ring bytes of an output-log entry (R317). -/
def outBytes (vt : Word) (m : Msg) : List Byte :=
  wordBytes vt ++ wordBytes m.d0 ++ wordBytes m.d1 ++ wordBytes m.d2 ++ padTo 32 (m.payload.take 32)

/-- The output log of an LP with a message appended (R317, R320). -/
def State.logOutput (s : State) (g slot : Nat) (e : LpEvent) (m : Msg) : State :=
  match s.lp g slot with
  | none => s
  | some lp =>
    let w := s.work g
    let s1 := s.setWork g { w with spad := lp.outR.write 0 w.spad (outBytes e.vt m) }
    s1.setLp g slot { lp with outR := lp.outR.append 64, outlog := lp.outlog ++ [⟨e.id, m⟩] }

/-- A send of a coasting event compared with the output log; fossil collection has freed what a safe event logged, and there is
nothing to compare it with (R324, R328; log entry 93). -/
def State.coastSend (s : State) (g slot : Nat) (e : LpEvent) (m : Msg) : State :=
  match s.lp g slot with
  | none => s
  | some lp =>
    if e.safe then s else
    let same := match (lp.outlog.filter fun o => o.event == e.id)[e.next]? with
      | some o => o.msg.d0 == m.d0 && o.msg.d1 == m.d1 && o.msg.d2 == m.d2 && o.msg.payload.take 32 == m.payload.take 32
      | none => false
    s.setLp g slot { lp.setEvent e.id (fun x => { x with next := x.next + 1 }) with mismatch := lp.mismatch || !same }

/-- A checked send of the executing context: at once, or as a speculative or coasting event does it (R320, R324). -/
def State.sendMsg (s : State) (len : Nat) (m : Msg) (rel : Bool) : State :=
  let g := s.cur.1
  match s.ahead g s.cur.2 with
  | none => s.sendNow len m rel
  | some (slot, lp, e) =>
    let near := s.toDomain m lp.domain
    if e.st = .coasting then
      if near && m.timed && !m.d2.ult e.vt then (s.coastSend g slot e m).retire len else s.retire len
    else if near then
      if !m.timed || m.d2.ult e.vt then s.illegal
      else if !lp.outR.room 64 then s.hold (.blocked .commit)
      else if m.replyChannel ≠ 0 ∧ (s.work g).freeCell = none then s.hold (.blocked .cell)
      else match s.queueMsg g s.cur.2 m (if rel then s.me.pending else []) with
        | some t => (t.logOutput g slot e m).retire len
        | none => s.trap 0x09
    else if lp.commitR.room (heldBytes (32 + m.payload.length)) then (s.holdItem g slot e (.send m false)).retire len
    else s.hold (.blocked .commit)

/-- Whether a channel may be named by a send: 4 and 6 never (R184, R197). -/
def channelOpen (c : BitVec 6) : Bool := c != 4 && c != 6

/-- A send of the executing context to channel c, with the destination operand d (R186, R197). -/
def State.send (s : State) (len : Nat) (c : BitVec 6) (d : Word) (payload : List Byte) (bad : List Nat)
    (rel timed : Bool) (vt : Word) : State :=
  match s.checkDest s.cur.1 d with
  | none => s.illegal
  | some dst => s.sendMsg len (s.message s.cur.1 s.cur.2 dst d c.toNat payload bad rel timed vt) rel

/-- `SEND` (R197). -/
def execSend (a b : XReg) (n : BitVec 2) (v r : BitVec 1) (c : BitVec 6) (s : State) : Res :=
  .next <|
    if !channelOpen c then s.illegal
    else if channelPrivileged c && !s.me.sup then s.privTrap
    else s.send 2 c (s.x a) ((payloadRegs n).flatMap fun x => wordBytes (s.x x)) [] (r == 1) (v == 1) (s.x b)

/-- The checks of a payload's bytes in ascending order: the first cause and address, or each byte's place
(R198). -/
def State.payloadAccess (s : State) (a : Word) : Nat → Nat → Except (Nat × Word) (List (Nat × Nat))
  | 0, _ => .ok []
  | n + 1, i =>
    match s.localAccess s.cur.1 s.me.sup (a + BitVec.ofNat 64 i) 1 false with
    | .error cause => .error (cause, a + BitVec.ofNat 64 i)
    | .ok t => (s.payloadAccess a n (i + 1)).map fun r => t :: r

/-- The 32-B pieces of a payload that hold a poisoned byte (R363). -/
def State.payloadBad (s : State) (ps : List (Nat × Nat)) : List Nat :=
  ((ps.zipIdx.filter fun q => (s.work q.1.1).poisonedAt q.1.2 1).map fun q => q.2 / 32).eraseDups

/-- `SENDL`: the payload is read from the scratchpad with the checks of LDL at byte granularity (R198). -/
def execSendl (a b : XReg) (c : BitVec 6) (l : BitVec 12) (x : XReg) (v r : BitVec 1) (s : State) : Res :=
  let g := s.cur.1
  let base := s.x b
  .next <|
    if !channelOpen c || decide (2016 < l.toNat) then s.illegal
    else if channelPrivileged c && !s.me.sup then s.privTrap
    else if (s.checkDest g (s.x a)).isNone then s.illegal
    else
      let hit := if l = 0 then none else s.watchHit g s.cur.2 base.toNat l.toNat 2
      match s.payloadAccess base l.toNat 0, hit with
      | .error (cause, ad), _ => s.accessTrap [cause] hit ad
      | .ok _, some i => s.watchTrap 0x08 i base
      | .ok ps, none =>
        if s.clashes g s.cur.2 (ps.map fun q => (q.1, q.2, 1)) then s.hold (.blocked .drain)
        else
          let bs := overlay (ps.map fun q => (s.work q.1).spad.get q.2) (s.covered g s.cur.2 true base.toNat l.toNat)
          s.send 4 c (s.x a) bs (s.payloadBad ps) (r == 1) (v == 1) (s.x x)

/-! ### REPLY, MSGRD and CHMASK (R199 to R201) -/

/-- The reply to a context's current message (R199). -/
def State.replyMsg (s : State) (g c : Nat) (u : Msg) (payload : List Byte) : Msg where
  d0 := pack [(0, field u.d1 0 18), (18, u.replyChannel), (30, s.tag g), (36, payload.length), (48, 1),
    (49, bitOf u.timed), (50, 1), (54, bitOf (u.d0.getLsbD 54))]
  d1 := s.ident g c
  d2 := u.d2
  d3 := u.d3
  payload := payload
  dst := u.src
  src := g
  sctx := c
  bad := []
  stamp := 0
  born := 0

/-- A reply of context c of core g queued (R195, R199). -/
def State.queueReply (s : State) (g c : Nat) (m : Msg) (waits : List Nat) : State :=
  s.setWork g { s.work g with replies := (s.work g).replies ++ [⟨.msg m, c, waits⟩] }

/-- The executing context's current message has been answered. -/
def State.markAnswered (s : State) (u : CurMsg) : State := s.setMe { s.me with cur := some { u with answered := true } }

/-- `REPLY` (R199); a speculative event holds it, a coasting one drops it (R320, R324). -/
def execReply (n : BitVec 2) (s : State) : Res :=
  let g := s.cur.1
  .next <| match s.me.cur with
    | none => s.illegal
    | some u =>
      if u.msg.replyChannel = 0 ∨ u.answered then s.illegal
      else
        let m := s.replyMsg g s.cur.2 u.msg ((payloadRegs n).flatMap fun x => wordBytes (s.x x))
        match s.ahead g s.cur.2 with
        | none => if s.replyRoom g then ((s.queueReply g s.cur.2 m s.me.pending).markAnswered u).retire 2
          else s.hold (.blocked .replyQueue)
        | some (slot, lp, e) =>
          if e.st = .coasting then (s.markAnswered u).retire 2
          else if lp.commitR.room (heldBytes (32 + m.payload.length)) then
            ((s.holdItem g slot e (.send m true)).markAnswered u).retire 2
          else s.hold (.blocked .commit)

/-- A doubleword of a head flit (R187). -/
def Msg.head (m : Msg) (i : Nat) : Word := if i = 0 then m.d0 else if i = 1 then m.d1 else if i = 2 then m.d2 else m.d3

/-- `MSGRD` (R200). -/
def execMsgrd (d a : XReg) (s : State) : Res :=
  .next <| match s.me.cur with
    | none => s.illegal
    | some u => if (s.x a).toNat ≥ 4 then s.illegal else writeX s 2 d (u.msg.head (s.x a).toNat)

/-- The mask of a channel of core g set (R185, R201). -/
def State.setMask (s : State) (g ch : Nat) (m : Bool) : State :=
  let w := s.work g
  let h := s.handler g ch
  s.setWork g { w with handlers := Tab.put w.handlers ch { h with ctl := (h.ctl &&& ~~~2) ||| BitVec.ofNat 64 (2 * bitOf m) } }

/-- `CHMASK`: a channel below 8 is reserved to supervisor privilege (R201); it waits for a speculative event to be
safe (R320). -/
def execChmask (m : BitVec 1) (c : BitVec 6) (s : State) : Res :=
  .next <|
    if decide (c.toNat < 8) && !s.me.sup then s.privTrap
    else s.whenSafe ((s.setMask s.cur.1 c.toNat (m == 1)).retire 2)

/-! ### WAITCH (R95, R192) -/

/-- `WAITCH`: the current message is released, its arrival slot kept for the delivery, and the context waits
(R95, R189, R192). A release flit waits for its queue entry (R195). -/
def execWaitch (c : BitVec 6) (s : State) : Res :=
  let g := s.cur.1
  .next <| s.whenSafe <|
    if c.toNat < 8 then s.illegal
    else match s.me.cur with
      | none => s.hold (.waiting (.channel c))
      | some u =>
        if u.owes && !s.replyRoom g then s.hold (.blocked .replyQueue)
        else
          let s1 := s.dropMsg g { u with slot := none }
          (s1.setMe { s1.me with cur := none, slot := u.slot }).hold (.waiting (.channel c))

/-! ### Deliveries (R145, R191, R363) -/

/-- The lowest free arrival slot (R145). -/
def Work.freeSlot (w : Work) : Option Nat := firstBelow (fun n => !w.slots.contains n) Config.arrivalSlots

/-- The address of arrival slot n. -/
def slotAddr (n : Nat) : Nat := 0x70000 + 0x800 * n

/-- A payload written into an arrival slot of core g; its poisoned pieces poison the granules (R145, R363). -/
def State.fillSlot (s : State) (g n : Nat) (m : Msg) : State :=
  let s1 := s.localStore g (slotAddr n) m.payload
  let w := s1.work g
  s1.setWork g { w with poison := (w.poison ++ m.bad.map fun i => slotAddr n / 32 + i).eraseDups }

/-- The x2 of a delivery (R191). -/
def Msg.flags (m : Msg) : Word :=
  pack [(0, m.channel), (6, m.replyChannel), (12, field m.d0 48 4), (16, bitOf m.poisoned)]

/-- Payload bytes 8 i to 8 i + 7 (R191). -/
def Msg.word (m : Msg) (i : Nat) : Word := BitVec.ofNat 64 (natOfBytes ((m.payload.drop (8 * i)).take 8))

/-- A context with the registers of a delivery, in arrival slot n (R191). -/
def Ctx.deliver (k : Ctx) (m : Msg) (n : Nat) (cell : Option Nat) : Ctx :=
  { k.setXs 1 [m.d1 &&& 0xFFFFFF, m.flags, BitVec.ofNat 64 (slotAddr n), BitVec.ofNat 64 m.length,
      m.word 0, m.word 1, m.word 2, m.word 3] with
    vt := m.d2, cur := some ⟨m, some n, false, cell⟩, slot := none }

/-- A message delivered to context c of core g in slot n; the time since it was injected is sampled (R191, R374). -/
def State.deliver (s : State) (g c n : Nat) (m : Msg) (cell : Option Nat) : State :=
  let s1 := s.fillSlot g n m
  let w := s1.work g
  let s2 := s1.setWork g { w with slots := if w.slots.contains n then w.slots else w.slots ++ [n] }
  (s2.setCtx g c ((s2.ctx g c).deliver m n cell)).sampled g 2 (s.cycle g - m.born) 1

/-! ### Injection (R195, R196, R359) -/

/-- Whether what a queue entry awaits has completed, be its context still there or not (R193). -/
def State.entryReady (s : State) (g : Nat) (e : SendEntry) : Bool := s.allDone g e.waits

/-- A place taken in a class's window, if there is one (R196). -/
def State.takePlace (s : State) (g cls : Nat) : Option State :=
  let w := (s.work g).window cls
  if w.used < w.size then some (s.setWork g ((s.work g).setWindow cls { w with used := w.used + 1 })) else none

/-- The network changed. -/
def State.withNet (s : State) (f : Net → Net) : State := { s with net := f s.net }

/-- The input wire of a core for a counter of width w (R161). -/
def inputWire (g w : Nat) : Nat := (physOf g % 16 + 7 * (physOf g / 16)) % w

/-- A message put into its network (R196). -/
def State.putMsg (s : State) (m : Msg) : State :=
  if m.onReply then (s.withNet fun n => { n with answers := Tab.put n.answers s.nextId (s.bearing m) }).fresh else s.inject m

/-- A fabric operation of a core's own unit sent: it enters its counter at the core's input wire, stamped with the open
generation; a counter that is not allocated or is exhausted refuses it (R161, R163, R167). -/
def State.putOp (s : State) (o : FabricOp) : State :=
  match Tab.find (s.part o.tag).counters o.key with
  | none => (s.withNet fun n => { n with ops := Tab.put n.ops s.nextId { o with pos := .back false 0 } }).fresh
  | some k =>
    if k.exhausted then (s.withNet fun n => { n with ops := Tab.put n.ops s.nextId { o with pos := .back false 0 } }).fresh
    else
      let x := Tab.look ⟨0, 0, 0⟩ k.gens k.gen.toNat
      let k1 := { k with gens := Tab.put k.gens k.gen.toNat { x with entered := x.entered + 1 } }
      let s1 := s.setPart o.tag { s.part o.tag with counters := Tab.put (s.part o.tag).counters o.key k1 }
      (s1.withNet fun n => { n with
        ops := Tab.put n.ops s.nextId { o with gen := k.gen, pos := .wire (inputWire o.g k.w) } }).fresh

/-- The head of a send queue enters the network: the state, and what is left of the entry; none while a window has
no place (R195, R196). -/
def State.injectItem (s : State) (g : Nat) : SendItem → Option (State × Option SendItem)
  | .msg m =>
    if m.hasCell && !m.onReply then
      let cls := windowClass g (vaultAddr m.dst 0)
      (s.takePlace g cls).map fun t =>
        let w := t.work g
        ((t.setWork g { w with cells := Tab.put w.cells m.cell ⟨cls, true, none⟩ }).putMsg m, none)
    else some (s.putMsg m, none)
  | .mem [] => some (s, none)
  | .mem (r :: rs) =>
    (s.takePlace g (windowClass g r.pa)).map fun t =>
      (t.withNet fun n => { n with reqs := Tab.put n.reqs r.id { r with spate := Config.freeSpate r.id, sent := s.now } },
        if rs.isEmpty then none else some (.mem rs))
  | .nred k => some (s.withNet fun n => { n with nreds := Tab.put n.nreds k.id k }, none)
  | .op o => some (s.putOp o, none)
  | .steal v => some ((s.withNet fun n => { n with steals := Tab.put n.steals s.nextId (g, v) }).fresh, none)
  | .release t dst cell => some ((s.withNet fun n => { n with releases := Tab.put n.releases s.nextId (t, dst, cell) }).fresh, none)

/-- A send queue of core g, and the core with it replaced. -/
def Work.sendQueue (w : Work) (reply : Bool) : List SendEntry := if reply then w.replies else w.requests
def Work.setQueue (w : Work) (reply : Bool) (q : List SendEntry) : Work :=
  if reply then { w with replies := q } else { w with requests := q }

/-- `SEND_INJECTION`: the oldest entry of a send queue leaves, in order, once what it awaits has completed and no
earlier entry is to be sent again (R193, R195, R196, R359; log entry 31). -/
def execSendInjection (g : Nat) (reply : Bool) (s0 : State) : Res :=
  let s := if (s0.work g).flitsWait reply then s0.fillFlits g reply else s0
  .next <| match (s.work g).sendQueue reply with
    | [] => s
    | e :: r =>
      if !s.entryReady g e || s.retried g reply != 0 then s
      else match s.injectItem g e.item with
        | none => s
        | some (t, rest) =>
          t.setWork g ((t.work g).setQueue reply (match rest with
            | some i => { e with item := i } :: r
            | none => r))

/-- The core by whose clock the 512 cycles of a retry count: the sender, and for a message of the host the core that turned it away
(R359, R388; log entry 66). -/
def SendItem.clocked : SendItem → Nat
  | .msg m => m.src
  | i => i.sender

/-- `RETRY_RESEND`: entry k, which a retry reply sent back, is sent again after 512 cycles (R359). -/
def execRetryResend (k : Nat) (s : State) : Res :=
  .next <| match Tab.find s.net.retries k with
    | none => s
    | some (t, i) =>
      if s.cycle i.clocked < t then s
      else
        let s1 := s.withNet fun n => { n with retries := Tab.drop n.retries k }
        match i with
        | .msg m => s1.withNet fun n => { n with msgs := Tab.put n.msgs k m }
        | .mem (r :: _) => s1.withNet fun n => { n with reqs := Tab.put n.reqs k { r with sent := s.now } }
        | _ => s1

/-! ### Arrival (R188 to R190, R194, R350) -/

/-- Whether a message is an earlier one of the same sender to the same core (R193). -/
def Msg.sameWay (a b : Msg) : Bool := a.src == b.src && a.sctx == b.sctx && a.dst == b.dst

/-- Whether message k is the oldest in flight of its sender to its core on its network (R193, R202). -/
def State.firstOfWay (s : State) (k : Nat) (m : Msg) : Bool :=
  !((if m.onReply then s.net.answers else s.net.msgs).any fun e => decide (e.1 < k) && e.2.sameWay m)
    && !(s.net.retries.any fun e => decide (e.1 < k) && (match e.2.2 with
      | .msg q => q.sameWay m
      | _ => false))

/-- A message in flight, on either network. -/
def State.flying (s : State) (k : Nat) : Option Msg :=
  match Tab.find s.net.msgs k with
  | some m => some m
  | none => Tab.find s.net.answers k

/-- Whether message k may arrive at its core as far as a restored image goes: the messages that it redelivers on the same network come
first, in the order in which they had arrived (R193, R360; log entry 46). -/
def State.itsArrival (s : State) (k : Nat) (m : Msg) : Bool :=
  match (s.workFor m.tag m.dst).redeliver.find? fun j => (if m.onReply then Tab.find s.net.answers j else Tab.find s.net.msgs j).isSome with
  | some j => j == k
  | none => true

/-- A message taken out of the network. -/
def State.landed (s : State) (k : Nat) : State :=
  s.withNet fun n => { n with msgs := Tab.drop n.msgs k, answers := Tab.drop n.answers k }

/-- A cell-release flit queued at core g for a message whose reservation will not be answered (R194). -/
def State.releaseFor (s : State) (g : Nat) (m : Msg) : State :=
  if m.hasCell && !m.onReply then
    s.setWork g { s.work g with flits := (s.work g).flits ++ [⟨.release m.tag m.src m.cell, 31, []⟩] }
  else s

/-- A message whose tag does not match the core: discarded and counted (R188, R350). -/
def State.discardMsg (s : State) (k : Nat) (m : Msg) : State :=
  let s1 := (s.landed k).releaseFor m.dst m
  let d := (s1.core m.dst).dbg
  s1.setDebug m.dst { d with discards := if d.discards = 0xFFFF then d.discards else d.discards + 1 }

/-- Whether a timed message for an LP is late (R333). -/
def Lp.isLate (lp : Lp) (gvt : Word) (m : Msg) : Bool := m.d2.ult gvt || (lp.stream && !lp.play.ult m.d2)
def State.isLate (s : State) (g : Nat) (lp : Lp) (m : Msg) : Bool := lp.isLate (s.gvt g lp.domain) m

/-- The events of U: speculative, processed or running, with VT at or above s (R323). -/
def Lp.undone (lp : Lp) (from_ : Word) : List LpEvent := lp.events.filter fun e => !e.safe && !e.vt.ult from_

/-- Whether a message for an LP must first roll it back: it is not late, it is below lvt, and there is an event to roll back; with
none it joins at once (R323). -/
def Lp.isStraggler (lp : Lp) (gvt : Word) (m : Msg) : Bool :=
  !lp.isLate gvt m && m.d2.ult lp.lvt && !(lp.undone m.d2).isEmpty
def State.isStraggler (s : State) (g : Nat) (lp : Lp) (m : Msg) : Bool := lp.isStraggler (s.gvt g lp.domain) m

/-- Whether an anti-message and a message match (R325). -/
def Msg.matchesAnti (a m : Msg) : Bool :=
  a.dst == m.dst && a.channel == m.channel && (a.d1 &&& 0xFFFFFF) == (m.d1 &&& 0xFFFFFF) && a.d2 == m.d2
    && a.length == m.length && a.payload.take 32 == (m.payload.take 32).take a.payload.length

/-- Whether a message to the work of its partition waits for a step of virtual time before it joins it: an anti-message for an
LP, a straggler, or one that a waiting anti-message annihilates (R323, R325, R331). -/
def State.needsVt (s : State) (m : Msg) : Bool :=
  match (s.workFor m.tag m.dst).lpOf m.channel with
  | none => false
  | some (_, lp) => m.anti || lp.isStraggler (s.gvtOf m.tag lp.domain) m || lp.antis.any fun a => a.matchesAnti m

/-- Whether core g takes messages for partition t: it is not evicted. -/
def State.takes (s : State) (g t : Nat) : Bool := !s.away t g

/-- Whether a message's tag is not that of the partition that holds the core where it arrives (R188, R350). -/
def State.mismatched (s : State) (g : Nat) (m : Msg) : Bool := m.tag != s.tag g || !s.holds m.tag g

/-- A retained allotment whose channel a message has reached is kept for its handler (R93). A message that a WAITCH takes, so that no
handler starts, counts too (DESIGN CHOICE, log entry 121). -/
def Retained.meet (r : Retained) (ch : Nat) : Retained := if r.ch.toNat = ch then { r with met := true } else r

/-- A core's work whose retained allotments a message on a channel has reached (R93). -/
def Work.meet (w : Work) (ch : Nat) : Work := { w with retained := w.retained.map fun r => r.meet ch }

/-- `MESSAGE_ARRIVAL`: message k enters the ejection queue of its core, if an entry is free; one whose tag does
not match is discarded (R93, R188, R189, R193). -/
def execMessageArrival (k : Nat) (s : State) : Res :=
  .next <| match Tab.find s.net.msgs k with
    | none => s
    | some m =>
      let g := m.dst
      if !s.firstOfWay k m || !s.takes g m.tag || !s.itsArrival k m then s
      else if s.mismatched g m then s.discardMsg k m
      else if s.needsVt m || Config.ejectEntries ≤ (s.work g).ejection.length then s
      else
        let s1 := (s.landed k).fresh
        let w := s1.work g
        s1.setWork g (({ w with ejection := w.ejection ++ [{ m with stamp := s.nextId }] } : Work).meet m.channel)

/-- Whether a context of core g waits in WAITCH on a channel (R95). -/
def State.waiters (s : State) (g ch : Nat) : List Nat :=
  (List.range 24).filter fun c =>
    let k := s.ctx g c
    k.role != .free && (match k.st with
      | .waiting (.channel h) => h.toNat == ch
      | _ => false)

/-- Whether messages on a channel of core g are held back from handlers: masked, invalid, or optimistic (R190,
R316, R319). -/
def State.heldBack (s : State) (g ch : Nat) : Bool :=
  let h := s.handler g ch
  ch != 1 && ch != 4 && ch != 5 && ch != 6 && (!h.valid || h.masked || h.optimistic)

/-- The physical address of an offset of the oxbow region of core g (R246, R263). -/
def State.oxbowAddr (s : State) (g off : Nat) : Nat := vaultAddr g (field (s.work g).oxbow 23 15 * 2 ^ 23 + off)

/-- A message put into the spill area of core g, in its lowest free place (R190, R263; log entry 94). -/
def State.spillMsg (s : State) (g : Nat) (m : Msg) : State :=
  let w := s.work g
  let n := (firstBelow (fun n => !(w.spill.any fun e => e.1 == n)) (w.spill.length + 1)).getD 0
  let s1 := s.setWork g { w with spill := w.spill ++ [(n, m)] }
  if w.oxbow.getLsbD 0 && decide (n < Config.spillEntries) then
    { s1 with mem := s1.mem.store (s.oxbowAddr g (0x160000 + 2048 * n)) (m.headBytes ++ m.payload) }
  else s1

/-- `MESSAGE_SPILL`: the head of the ejection queue moves to the spill area, when its channel is masked, invalid,
or an LP's, and no WAITCH waits for it; the area needs OXBOW.E (R190, R263, R319; log entry 32). -/
def execMessageSpill (g : Nat) (s : State) : Res :=
  let w := s.work g
  .next <| match w.ejection with
    | [] => s
    | m :: r =>
      if s.heldBack g m.channel && (s.waiters g m.channel).isEmpty && w.oxbow.getLsbD 0
          && decide (w.spill.length < Config.spillEntries) then
        (s.setWork g { w with ejection := r }).spillMsg g m
      else s

/-- The window place of the cell of a reply given back, where it has not been (R196). -/
def Work.replyPlace (w : Work) (m : Msg) : Work :=
  match Tab.find w.cells m.cell with
  | some c =>
    if c.injected then
      { w.setWindow c.cls ((w.window c.cls).back (m.d0.getLsbD 54)) with cells := Tab.put w.cells m.cell { c with injected := false } }
    else w
  | none => w

/-- A reply landed in its cell, where that is still reserved (R194). -/
def Work.landReply (w : Work) (m : Msg) : Work :=
  let w1 := w.replyPlace m
  match Tab.find w1.cells m.cell with
  | some c => { w1 with cells := Tab.put w1.cells m.cell { c with reply := some m } }
  | none => w1

/-- A reply cell freed by a cell-release flit, with the window place that it held; that is no reply (R194, R196). -/
def Work.releaseCell (w : Work) (n : Nat) : Work :=
  match Tab.find w.cells n with
  | some c =>
    let w1 := if c.injected then w.setWindow c.cls { w.window c.cls with used := (w.window c.cls).used - 1 } else w
    { w1 with cells := Tab.drop w1.cells n }
  | none => w

/-- `REPLY_LANDING`: reply k lands in its reserved cell, and its request's window place is free (R93, R194, R196). -/
def execReplyLanding (k : Nat) (s : State) : Res :=
  .next <| match Tab.find s.net.answers k with
    | none => s
    | some m =>
      let g := m.dst
      if !s.firstOfWay k m || !s.takes g m.tag || !s.itsArrival k m then s
      else if s.mismatched g m then s.discardMsg k m
      else if s.needsVt m then s
      else
        let s1 := (s.landed k).fresh
        s1.setWork g (((s1.work g).landReply { m with stamp := s.nextId }).meet m.channel)

/-- `CELL_RELEASE`: a cell-release flit frees a cell at the sender (R194, R196). -/
def execCellRelease (k : Nat) (s : State) : Res :=
  .next <| match Tab.find s.net.releases k with
    | none => s
    | some (t, g, n) =>
      let s1 := s.withNet fun z => { z with releases := Tab.drop z.releases k }
      if (s.imageOf t g).isSome then s1.mapFor t g fun w => w.releaseCell n
      else if s.tag g = t then s1.setWork g ((s1.work g).releaseCell n)
      else s1

/-- The bytes a message takes in the message area of an image (R359). -/
def Msg.areaBytes (m : Msg) : Nat := 32 + m.payload.length

/-- A message stored at a place of the message area of core g's shadow region (R358, R359). -/
def State.areaStore (s : State) (g n : Nat) (m : Msg) : State :=
  { s with mem := s.mem.lay (vaultAddr g (Config.vaultUser + 0x140000 + n)) (m.headBytes ++ m.payload) }

/-- Whether a message waits in the network for an evicted core: it is a straggler for an LP there (R331). -/
def State.waitsOut (s : State) (m : Msg) : Bool :=
  match (s.workFor m.tag m.dst).lpOf m.channel with
  | none => false
  | some (_, lp) => !m.anti && lp.isStraggler (s.gvtOf m.tag lp.domain) m

/-- The least of two virtual times. -/
def leastVt (a b : Word) : Word := if b.ult a then b else a

/-- The header of an image after a message arrived that is work of a time domain: the domain's saved minimum, and the number of domains
with work (R358). -/
def State.headerTakes (s : State) (m : Msg) : State :=
  let h := Tab.look ⟨0, 0⟩ (s.workFor m.tag m.dst).handlers m.channel
  if m.timed && h.valid && h.optimistic then
    let at_ := fun (n : Nat) => vaultAddr m.dst (Config.vaultUser + n)
    let d := field h.ctl 16 8
    let old := s.mem.word (at_ (0x800 + 8 * d))
    let n := s.mem.word (at_ 16)
    { s with mem := (s.mem.putWord (at_ (0x800 + 8 * d)) (leastVt old m.d2)).putWord (at_ 16) (if old = BitVec.allOnes 64 then n + 1 else n) }
  else s

/-- `EVICTED_MESSAGE`: message k reaches the router of an evicted core: a reply lands in the place of its cell, and its window place is
free; a request is kept in the order of arrival while the area has room, and is otherwise sent again later (R196, R358, R359). A
straggler waits in the network (R331). -/
def execEvictedMessage (k : Nat) (s : State) : Res :=
  .next <| match s.flying k with
    | none => s
    | some m =>
      match (s.core m.dst).image with
      | none => s
      | some i =>
        if i.tag.toNat ≠ m.tag ∨ !s.firstOfWay k m ∨ !s.itsArrival k m then s
        else
          let put := fun (n : Nat) (i : Image) =>
            (((s.landed k).headerTakes m).setCore m.dst { s.core m.dst with image := some i }).areaStore m.dst n m
          if s.waitsOut m then s
          else if m.onReply then put (128 * m.cell) { i with msgs := i.msgs ++ [(k, m)], work := i.work.replyPlace m }
          else if i.bytes + m.areaBytes ≤ 57344 then
            put (8192 + i.bytes) { i with msgs := i.msgs ++ [(k, m)], bytes := i.bytes + m.areaBytes }
          else (s.landed k).withNet fun n => { n with retries := Tab.put n.retries k (s.cycle (SendItem.msg m).clocked + 512, .msg m) }

/-! ### The host window (R202, R381) -/

/-- A write discarded by the host window is counted (R381). -/
def State.discardHost (s : State) (t : Nat) : State := s.setPart t { s.part t with discards := min (2 ^ 32 - 1) ((s.part t).discards + 1) }

/-- The message of a host write (R191, R202). -/
def hostMsg (t chip l ch dst : Nat) (bs : List Byte) : Msg where
  d0 := pack [(0, l), (12, chip), (18, ch), (30, t), (36, bs.length), (51, 1)]
  d1 := 0x800000
  d2 := 0
  d3 := 0
  payload := bs
  dst := dst
  src := dst
  sctx := 32 + ch
  bad := []
  stamp := 0
  born := 0

/-- What a host read of n bytes of the message window returns (R202). -/
def hostWindowRead (n : Nat) : List Byte := List.replicate n 0

/-- `HOST_WINDOW_WRITE`: a posted host write to the message window of a partition sends one message; any other
write, one of a length that is no multiple of 8 from 8 to 512 among them, is discarded and counted (R202), and so is every
write while a core of the partition replays (R373). Before bring-up has enabled the link, writes are dropped (R387). w is the
partition's number and, above it, that of the package whose BAR2 is written; the window names a logical core there (DESIGN CHOICE, log
entry 120). -/
def execHostWindowWrite (w off : Nat) (data : List Byte) (s : State) : Res :=
  let t := w % 64
  let h := w / 64
  let l := off / 2 ^ 15
  let ch := off / 512 % 64
  .next <|
    if !(s.chip h).ready then s
    else if data.isEmpty || data.length % 8 != 0 || decide (512 < data.length) || off % 512 != 0 || decide (2 ^ 27 ≤ off)
        || !(ch == 1 || decide (8 ≤ ch)) || (s.partCores t).any (fun g => s.logMode g == 2) then s.discardHost t
    else match s.reach t h l with
      | none => s.discardHost t
      | some g => s.putMsg (hostMsg t h l ch g data)

end Sys2Proof.Machine
end

