-- ==== Sys2Proof/Machine/Vector.lean ====
section
/-! DEFINITION. The vector arithmetic, integer, move, conversion, packing, narrowing, table and rotary
instructions (R127 to R139). -/

namespace Sys2Proof.Machine

/-! ### Elementwise floating point (R127) -/

/-- NV for a signalling operand (R104). -/
def sigFlag (f : Fmt) (xs : List Nat) : Flags := Flags.when (xs.any (isSignalling f)) flagNV

/-- An elementwise FP instruction of n operands: the exact result is rounded once under RNDMODE (R48,
R127). The third operand is the destination's old value unless a specifier is given. -/
def fpBody (f : Fmt) (d : BitVec 5) (a b : BitVec 6) (c : Option (BitVec 6)) (p : BitVec 3) (n : Nat)
    (op : Bool → Val → Val → Val → Exact) : VBody := fun s g cx e =>
  let k := s.ctx g cx
  let m := RMode.ofReg k.rnd
  let va := srcLanes k e.xs a f
  let vb := srcLanes k e.xs b f
  let vc := match c with
    | some r => srcLanes k e.xs r f
    | none => k.vreg d.toNat
  let r := mapLanes (k.pred p) (k.vreg d.toNat) (fun i acc => laneOf f (fun j acc =>
      let x := elem f (lane va i) j
      let y := elem f (lane vb i) j
      let z := elem f (lane vc i) j
      (acc.raise (sigFlag f ([x, y, z].take n))).round f m (op (m == .rdn) (value f x) (value f y) (value f z))) acc) k.acc
  finishFlags s g cx e (k.setV d.toNat r.1) r.2

/-- An elementwise instruction that copies or selects patterns of elements, with the flags it names. -/
def elemBody (f : Fmt) (d : BitVec 5) (a b : BitVec 6) (p : BitVec 3) (op : Nat → Nat → Rounded) : VBody :=
  fun s g cx e =>
  let k := s.ctx g cx
  let va := srcLanes k e.xs a f
  let vb := srcLanes k e.xs b f
  let r := mapLanes (k.pred p) (k.vreg d.toNat) (fun i acc => laneOf f (fun j acc =>
      let o := op (elem f (lane va i) j) (elem f (lane vb i) j)
      (o.1 % 2 ^ fmtWidth f, acc.raise o.2)) acc) k.acc
  finishFlags s g cx e (k.setV d.toNat r.1) r.2

def bodyVadd (d : BitVec 5) (a : BitVec 6) (b : BitVec 6) (p : BitVec 3) (f : BitVec 3) : VBody := fpBody f d a b none p 2 fun n x y _ => x.add n y
/-- `VADD` (R127). -/
def execVadd (d : BitVec 5) (a : BitVec 6) (b : BitVec 6) (p : BitVec 3) (f : BitVec 3) (s : State) : Res := .next (s.issueV (.vadd d a b p f) 2 (bodyVadd d a b p f))

def bodyVsub (d : BitVec 5) (a : BitVec 6) (b : BitVec 6) (p : BitVec 3) (f : BitVec 3) : VBody := fpBody f d a b none p 2 fun n x y _ => x.add n y.neg
/-- `VSUB` (R127). -/
def execVsub (d : BitVec 5) (a : BitVec 6) (b : BitVec 6) (p : BitVec 3) (f : BitVec 3) (s : State) : Res := .next (s.issueV (.vsub d a b p f) 2 (bodyVsub d a b p f))

def bodyVmul (d : BitVec 5) (a : BitVec 6) (b : BitVec 6) (p : BitVec 3) (f : BitVec 3) : VBody := fpBody f d a b none p 2 fun _ x y _ => x.mul y
/-- `VMUL` (R127). -/
def execVmul (d : BitVec 5) (a : BitVec 6) (b : BitVec 6) (p : BitVec 3) (f : BitVec 3) (s : State) : Res := .next (s.issueV (.vmul d a b p f) 2 (bodyVmul d a b p f))

def bodyVfma (d : BitVec 5) (a : BitVec 6) (b : BitVec 6) (p : BitVec 3) (f : BitVec 3) : VBody := fpBody f d a b none p 3 fun n x y z => Val.fma n x y z
/-- `VFMA` (R127). -/
def execVfma (d : BitVec 5) (a : BitVec 6) (b : BitVec 6) (p : BitVec 3) (f : BitVec 3) (s : State) : Res := .next (s.issueV (.vfma d a b p f) 2 (bodyVfma d a b p f))

def bodyVfms (d : BitVec 5) (a : BitVec 6) (b : BitVec 6) (p : BitVec 3) (f : BitVec 3) : VBody := fpBody f d a b none p 3 fun n x y z => Val.fma n x y z.neg
/-- `VFMS` (R127). -/
def execVfms (d : BitVec 5) (a : BitVec 6) (b : BitVec 6) (p : BitVec 3) (f : BitVec 3) (s : State) : Res := .next (s.issueV (.vfms d a b p f) 2 (bodyVfms d a b p f))

def bodyVfmaPrefixed (d : BitVec 5) (a : BitVec 6) (b : BitVec 6) (c : BitVec 6) (p : BitVec 3) (f : BitVec 3) : VBody := fpBody f d a b (some c) p 3 fun n x y z => Val.fma n x y z
/-- `VFMA_PREFIXED` (R35, R127). -/
def execVfmaPrefixed (d : BitVec 5) (a : BitVec 6) (b : BitVec 6) (c : BitVec 6) (p : BitVec 3) (f : BitVec 3) (s : State) : Res := .next (s.issueV (.vfmaPrefixed d a b c p f) 4 (bodyVfmaPrefixed d a b c p f))

def bodyVfmsPrefixed (d : BitVec 5) (a : BitVec 6) (b : BitVec 6) (c : BitVec 6) (p : BitVec 3) (f : BitVec 3) : VBody := fpBody f d a b (some c) p 3 fun n x y z => Val.fma n x y z.neg
/-- `VFMS_PREFIXED` (R35, R127). -/
def execVfmsPrefixed (d : BitVec 5) (a : BitVec 6) (b : BitVec 6) (c : BitVec 6) (p : BitVec 3) (f : BitVec 3) (s : State) : Res := .next (s.issueV (.vfmsPrefixed d a b c p f) 4 (bodyVfmsPrefixed d a b c p f))

def bodyVdiv (d : BitVec 5) (a : BitVec 6) (b : BitVec 6) (p : BitVec 3) (f : BitVec 3) : VBody := fpBody f d a b none p 2 fun _ x y _ => x.div y
/-- `VDIV` (R127). -/
def execVdiv (d : BitVec 5) (a : BitVec 6) (b : BitVec 6) (p : BitVec 3) (f : BitVec 3) (s : State) : Res := .next (s.issueV (.vdiv d a b p f) 2 (bodyVdiv d a b p f))

def bodyVsqrt (d : BitVec 5) (a : BitVec 6) (p : BitVec 3) (f : BitVec 3) : VBody := fpBody f d a 0 none p 1 fun _ x _ _ => x.sqrt
/-- `VSQRT` (R127). -/
def execVsqrt (d : BitVec 5) (a : BitVec 6) (p : BitVec 3) (f : BitVec 3) (s : State) : Res := .next (s.issueV (.vsqrt d a p f) 2 (bodyVsqrt d a p f))

def bodyVmin (d : BitVec 5) (a : BitVec 6) (b : BitVec 6) (p : BitVec 3) (f : BitVec 3) : VBody := elemBody f d a b p fun x y => fMinMax f false x y
/-- `VMIN` (R114, R127). -/
def execVmin (d : BitVec 5) (a : BitVec 6) (b : BitVec 6) (p : BitVec 3) (f : BitVec 3) (s : State) : Res := .next (s.issueV (.vmin d a b p f) 2 (bodyVmin d a b p f))

def bodyVmax (d : BitVec 5) (a : BitVec 6) (b : BitVec 6) (p : BitVec 3) (f : BitVec 3) : VBody := elemBody f d a b p fun x y => fMinMax f true x y
/-- `VMAX` (R114, R127). -/
def execVmax (d : BitVec 5) (a : BitVec 6) (b : BitVec 6) (p : BitVec 3) (f : BitVec 3) (s : State) : Res := .next (s.issueV (.vmax d a b p f) 2 (bodyVmax d a b p f))

def bodyVabs (d : BitVec 5) (a : BitVec 6) (p : BitVec 3) (f : BitVec 3) : VBody := elemBody f d a 0 p fun x _ => (x % 2 ^ (fmtWidth f - 1), 0)
/-- `VABS` (R127). -/
def execVabs (d : BitVec 5) (a : BitVec 6) (p : BitVec 3) (f : BitVec 3) (s : State) : Res := .next (s.issueV (.vabs d a p f) 2 (bodyVabs d a p f))

def bodyVneg (d : BitVec 5) (a : BitVec 6) (p : BitVec 3) (f : BitVec 3) : VBody := elemBody f d a 0 p fun x _ => (x ^^^ 2 ^ (fmtWidth f - 1), 0)
/-- `VNEG` (R127). -/
def execVneg (d : BitVec 5) (a : BitVec 6) (p : BitVec 3) (f : BitVec 3) (s : State) : Res := .next (s.issueV (.vneg d a p f) 2 (bodyVneg d a p f))

/-! ### Reductions (R118, R128) -/

/-- One level of the fixed pairwise tree, in ascending order. -/
def treeLevel (op : Nat → Nat → Acc → Nat × Acc) : List Nat → List Nat → Acc → List Nat × Acc
  | x :: xs, y :: ys, c =>
    let r := op x y c
    let t := treeLevel op xs ys r.2
    (r.1 :: t.1, t.2)
  | _, _, c => ([], c)

/-- n levels of the tree, each halving the list (R118). -/
def treeFrom (op : Nat → Nat → Acc → Nat × Acc) : Nat → List Nat → Acc → List Nat × Acc
  | 0, xs, c => (xs, c)
  | n + 1, xs, c =>
    let r := treeLevel op (xs.take (2 ^ n)) (xs.drop (2 ^ n)) c
    treeFrom op n r.1 r.2

/-- A reduction of the 64 lanes of a, inactive lanes replaced by `unit`, into every lane of d (R128). -/
def reduceBody (d : BitVec 5) (a : BitVec 6) (p : BitVec 3) (unit : Nat)
    (op : RMode → Nat → Nat → Acc → Nat × Acc) : VBody := fun s g cx e =>
  let k := s.ctx g cx
  let va := srcLanes k e.xs a 0
  let act := k.pred p
  let xs := (List.range 64).map fun i => if act.getLsbD i then (lane va i).toNat else unit
  let r := treeFrom (op (RMode.ofReg k.rnd)) 6 xs k.acc
  finishFlags s g cx e (k.setV d.toNat (Vector.replicate 64 (BitVec.ofNat 32 (r.1.headD 0)))) r.2

def bodyVredadd (d : BitVec 5) (a : BitVec 6) (p : BitVec 3) : VBody := reduceBody d a p 0x80000000 fun m x y c =>
  (c.raise (sigFlag 0 [x, y])).round 0 m ((value 0 x).add (m == .rdn) (value 0 y))
/-- `VREDADD` (R118, R128). -/
def execVredadd (d : BitVec 5) (a : BitVec 6) (p : BitVec 3) (s : State) : Res := .next (s.issueV (.vredadd d a p) 2 (bodyVredadd d a p))

def bodyVredmax (d : BitVec 5) (a : BitVec 6) (p : BitVec 3) : VBody := reduceBody d a p 0xFF800000 fun _ x y c =>
  let r := fMinMax 0 true x y; (r.1, c.raise r.2)
/-- `VREDMAX` (R114, R128). -/
def execVredmax (d : BitVec 5) (a : BitVec 6) (p : BitVec 3) (s : State) : Res := .next (s.issueV (.vredmax d a p) 2 (bodyVredmax d a p))

/-! ### Integer, logic and compare (R129, R130) -/

def bodyViadd (d : BitVec 5) (a : BitVec 6) (b : BitVec 6) (p : BitVec 3) (f : BitVec 3) : VBody := elemBody f d a b p fun x y => (x + y, 0)
/-- `VIADD` (R129). -/
def execViadd (d : BitVec 5) (a : BitVec 6) (b : BitVec 6) (p : BitVec 3) (f : BitVec 3) (s : State) : Res := .next (s.issueV (.viadd d a b p f) 2 (bodyViadd d a b p f))

def bodyVimul (d : BitVec 5) (a : BitVec 6) (b : BitVec 6) (p : BitVec 3) (f : BitVec 3) : VBody := elemBody f d a b p fun x y => (x * y, 0)
/-- `VIMUL` (R129). -/
def execVimul (d : BitVec 5) (a : BitVec 6) (b : BitVec 6) (p : BitVec 3) (f : BitVec 3) (s : State) : Res := .next (s.issueV (.vimul d a b p f) 2 (bodyVimul d a b p f))

def bodyVand (d : BitVec 5) (a : BitVec 6) (b : BitVec 6) (p : BitVec 3) : VBody := elemBody 5 d a b p fun x y => (x &&& y, 0)
/-- `VAND` (R129). -/
def execVand (d : BitVec 5) (a : BitVec 6) (b : BitVec 6) (p : BitVec 3) (s : State) : Res := .next (s.issueV (.vand d a b p) 2 (bodyVand d a b p))

def bodyVor (d : BitVec 5) (a : BitVec 6) (b : BitVec 6) (p : BitVec 3) : VBody := elemBody 5 d a b p fun x y => (x ||| y, 0)
/-- `VOR` (R129). -/
def execVor (d : BitVec 5) (a : BitVec 6) (b : BitVec 6) (p : BitVec 3) (s : State) : Res := .next (s.issueV (.vor d a b p) 2 (bodyVor d a b p))

def bodyVxor (d : BitVec 5) (a : BitVec 6) (b : BitVec 6) (p : BitVec 3) : VBody := elemBody 5 d a b p fun x y => (x ^^^ y, 0)
/-- `VXOR` (R129). -/
def execVxor (d : BitVec 5) (a : BitVec 6) (b : BitVec 6) (p : BitVec 3) (s : State) : Res := .next (s.issueV (.vxor d a b p) 2 (bodyVxor d a b p))

def bodyVshl (d : BitVec 5) (a : BitVec 6) (b : BitVec 6) (p : BitVec 3) (f : BitVec 3) : VBody := elemBody f d a b p fun x y => (x * 2 ^ (y % fmtWidth f), 0)
/-- `VSHL` (R129). -/
def execVshl (d : BitVec 5) (a : BitVec 6) (b : BitVec 6) (p : BitVec 3) (f : BitVec 3) (s : State) : Res := .next (s.issueV (.vshl d a b p f) 2 (bodyVshl d a b p f))

def bodyVshr (d : BitVec 5) (a : BitVec 6) (b : BitVec 6) (p : BitVec 3) (f : BitVec 3) : VBody := elemBody f d a b p fun x y => (x / 2 ^ (y % fmtWidth f), 0)
/-- `VSHR` (R129). -/
def execVshr (d : BitVec 5) (a : BitVec 6) (b : BitVec 6) (p : BitVec 3) (f : BitVec 3) (s : State) : Res := .next (s.issueV (.vshr d a b p f) 2 (bodyVshr d a b p f))

def bodyVshrA (d : BitVec 5) (a : BitVec 6) (b : BitVec 6) (p : BitVec 3) (f : BitVec 3) : VBody := elemBody f d a b p fun x y =>
  (ofSigned (fmtWidth f) (toSigned (fmtWidth f) x / (2 ^ (y % fmtWidth f) : Nat)), 0)
/-- `VSHR_A` (R129). -/
def execVshrA (d : BitVec 5) (a : BitVec 6) (b : BitVec 6) (p : BitVec 3) (f : BitVec 3) (s : State) : Res := .next (s.issueV (.vshrA d a b p f) 2 (bodyVshrA d a b p f))

/-- The comparisons of VCMP (R130). -/
inductive Cmp where
  | eq
  | ne
  | lt
  | le
  | gt
  | ge
  deriving DecidableEq, Repr

/-- One element comparison: whether it holds, and NV (R130). -/
def cmpElem (f : Fmt) (c : Cmp) (x y : Nat) : Bool × Flags :=
  let nan := !fmtIsInt f && (isNaN f x || isNaN f y)
  let a := value f x
  let b := value f y
  let sig := !fmtIsInt f && (isSignalling f x || isSignalling f y)
  match c with
  | .eq => (!nan && a.eqv b, Flags.when sig flagNV)
  | .ne => (nan || !(a.eqv b), Flags.when sig flagNV)
  | .lt => (!nan && a.lt b, Flags.when nan flagNV)
  | .le => (!nan && !(b.lt a), Flags.when nan flagNV)
  | .gt => (!nan && b.lt a, Flags.when nan flagNV)
  | .ge => (!nan && !(a.lt b), Flags.when nan flagNV)

/-- VCMP: all 64 bits of the predicate are written; a lane's bit is set when the lane is active and the
comparison holds for its every element (R130). -/
def cmpBody (cc : Cmp) (f : Fmt) (d : BitVec 5) (a b : BitVec 6) (p : BitVec 3) : VBody := fun s g cx e =>
  let k := s.ctx g cx
  let va := srcLanes k e.xs a f
  let vb := srcLanes k e.xs b f
  let act := k.pred p
  let at_ := fun i j => cmpElem f cc (elem f (lane va i) j) (elem f (lane vb i) j)
  let js := List.range (elemsPerLane f)
  let w := predOf fun i => act.getLsbD i && js.all fun j => (at_ i j).1
  let fl := (activeLanes act).foldr (fun i z => js.foldr (fun j z => z ||| (at_ i j).2) z) (0 : Flags)
  finishFlags s g cx e (k.setP (d.setWidth 3) w) ⟨fl, k.rng⟩

def bodyVcmpEq (d : BitVec 5) (a : BitVec 6) (b : BitVec 6) (p : BitVec 3) (f : BitVec 3) : VBody := cmpBody .eq f d a b p
/-- `VCMP_EQ` (R130). -/
def execVcmpEq (d : BitVec 5) (a : BitVec 6) (b : BitVec 6) (p : BitVec 3) (f : BitVec 3) (s : State) : Res := .next (s.issueV (.vcmpEq d a b p f) 2 (bodyVcmpEq d a b p f))

def bodyVcmpNe (d : BitVec 5) (a : BitVec 6) (b : BitVec 6) (p : BitVec 3) (f : BitVec 3) : VBody := cmpBody .ne f d a b p
/-- `VCMP_NE` (R130). -/
def execVcmpNe (d : BitVec 5) (a : BitVec 6) (b : BitVec 6) (p : BitVec 3) (f : BitVec 3) (s : State) : Res := .next (s.issueV (.vcmpNe d a b p f) 2 (bodyVcmpNe d a b p f))

def bodyVcmpLt (d : BitVec 5) (a : BitVec 6) (b : BitVec 6) (p : BitVec 3) (f : BitVec 3) : VBody := cmpBody .lt f d a b p
/-- `VCMP_LT` (R130). -/
def execVcmpLt (d : BitVec 5) (a : BitVec 6) (b : BitVec 6) (p : BitVec 3) (f : BitVec 3) (s : State) : Res := .next (s.issueV (.vcmpLt d a b p f) 2 (bodyVcmpLt d a b p f))

def bodyVcmpLe (d : BitVec 5) (a : BitVec 6) (b : BitVec 6) (p : BitVec 3) (f : BitVec 3) : VBody := cmpBody .le f d a b p
/-- `VCMP_LE` (R130). -/
def execVcmpLe (d : BitVec 5) (a : BitVec 6) (b : BitVec 6) (p : BitVec 3) (f : BitVec 3) (s : State) : Res := .next (s.issueV (.vcmpLe d a b p f) 2 (bodyVcmpLe d a b p f))

def bodyVcmpGt (d : BitVec 5) (a : BitVec 6) (b : BitVec 6) (p : BitVec 3) (f : BitVec 3) : VBody := cmpBody .gt f d a b p
/-- `VCMP_GT` (R130). -/
def execVcmpGt (d : BitVec 5) (a : BitVec 6) (b : BitVec 6) (p : BitVec 3) (f : BitVec 3) (s : State) : Res := .next (s.issueV (.vcmpGt d a b p f) 2 (bodyVcmpGt d a b p f))

def bodyVcmpGe (d : BitVec 5) (a : BitVec 6) (b : BitVec 6) (p : BitVec 3) (f : BitVec 3) : VBody := cmpBody .ge f d a b p
/-- `VCMP_GE` (R130). -/
def execVcmpGe (d : BitVec 5) (a : BitVec 6) (b : BitVec 6) (p : BitVec 3) (f : BitVec 3) (s : State) : Res := .next (s.issueV (.vcmpGe d a b p f) 2 (bodyVcmpGe d a b p f))

/-! ### Moves, selects and permutes (R131) -/

/-- A lane-by-lane move of raw bits. -/
def moveBody (d : BitVec 5) (p : BitVec 3) (src : Ctx → Vector Word 16 → Nat → Lane) : VBody := fun s g cx e =>
  let k := s.ctx g cx
  let r := mapLanes (k.pred p) (k.vreg d.toNat) (fun i c => (src k e.xs i, c)) k.acc
  s.setCtx g cx ((k.setV d.toNat r.1).doneEntry e.seq)

def bodyVmov (d : BitVec 5) (a : BitVec 6) (p : BitVec 3) : VBody := moveBody d p fun k xs i => lane (srcLanes k xs a 5) i
/-- `VMOV` (R131). -/
def execVmov (d : BitVec 5) (a : BitVec 6) (p : BitVec 3) (s : State) : Res := .next (s.issueV (.vmov d a p) 2 (bodyVmov d a p))

def bodyVbcast (d : BitVec 5) (a : BitVec 6) (l : BitVec 6) (p : BitVec 3) : VBody := moveBody d p fun k xs _ => lane (srcLanes k xs a 5) l.toNat
/-- `VBCAST` (R131). -/
def execVbcast (d : BitVec 5) (a : BitVec 6) (l : BitVec 6) (p : BitVec 3) (s : State) : Res := .next (s.issueV (.vbcast d a l p) 2 (bodyVbcast d a l p))

def bodyVperm (d : BitVec 5) (a : BitVec 6) (b : BitVec 6) (p : BitVec 3) : VBody := moveBody d p fun k xs i =>
  lane (srcLanes k xs a 5) ((lane (srcLanes k xs b 5) i).toNat % 64)
/-- `VPERM` (R131). -/
def execVperm (d : BitVec 5) (a : BitVec 6) (b : BitVec 6) (p : BitVec 3) (s : State) : Res := .next (s.issueV (.vperm d a b p) 2 (bodyVperm d a b p))

def bodyVsel (d : BitVec 5) (a : BitVec 6) (b : BitVec 6) (p : BitVec 3) : VBody := moveBody d 0 fun k xs i =>
  if (k.pred p).getLsbD i then lane (srcLanes k xs a 5) i else lane (srcLanes k xs b 5) i
/-- `VSEL` (R131: the predicate selects, and masks nothing). -/
def execVsel (d : BitVec 5) (a : BitVec 6) (b : BitVec 6) (p : BitVec 3) (s : State) : Res := .next (s.issueV (.vsel d a b p) 2 (bodyVsel d a b p))

/-! ### Conversions and packing (R132, R133) -/

/-- VCVT of one element: source format fs, destination format f (R113, R132). -/
def cvtElem (fs f : Fmt) (m : RMode) (x : Nat) (c : Acc) : Nat × Acc :=
  let r := c.round f m (value fs x, if fmtIsInt fs then 0 else sigFlag fs [x])
  if fmtIsInt fs && fmtIsInt f then (r.1, { r.2 with flags := c.flags }) else r

/-- VCVT: every element where the widths agree, else element 0, with the rest of the lane 0 (R132). -/
def cvtBody (d : BitVec 5) (a : BitVec 6) (r fs p f : BitVec 3) : VBody := fun s g cx e =>
  let k := s.ctx g cx
  let m := RMode.ofField r k.rnd
  let va := srcLanes k e.xs a fs
  let t := mapLanes (k.pred p) (k.vreg d.toNat) (fun i c =>
    if fmtWidth f = fmtWidth fs then laneOf f (fun j c => cvtElem fs f m (elem fs (lane va i) j) c) c
    else let q := cvtElem fs f m (elem fs (lane va i) 0) c; (BitVec.ofNat 32 q.1, q.2)) k.acc
  finishFlags s g cx e (k.setV d.toNat t.1) t.2

def bodyVcvt (d : BitVec 5) (a : BitVec 6) (r : BitVec 3) (fs : BitVec 3) (p : BitVec 3) (f : BitVec 3) : VBody := cvtBody d a r fs p f
/-- `VCVT` (R132). -/
def execVcvt (d : BitVec 5) (a : BitVec 6) (r : BitVec 3) (fs : BitVec 3) (p : BitVec 3) (f : BitVec 3) (s : State) : Res := .next (s.issueV (.vcvt d a r fs p f) 2 (bodyVcvt d a r fs p f))

/-- VPACK of one lane: two elements in at the top (R133). -/
def packLane (f : Fmt) (old x y : Lane) : Lane :=
  let w := fmtWidth f
  BitVec.ofNat 32 (old.toNat / 2 ^ (2 * w) + elem f x 0 * 2 ^ (32 - 2 * w) + elem f y 0 * 2 ^ (32 - w))

def bodyVpack (d : BitVec 5) (a : BitVec 6) (b : BitVec 6) (p : BitVec 3) (f : BitVec 3) : VBody := moveBody d p fun k xs i =>
  packLane f (lane (k.vreg d.toNat) i) (lane (srcLanes k xs a f) i) (lane (srcLanes k xs b f) i)
/-- `VPACK` (R133). -/
def execVpack (d : BitVec 5) (a : BitVec 6) (b : BitVec 6) (p : BitVec 3) (f : BitVec 3) (s : State) : Res := .next (s.issueV (.vpack d a b p f) 2 (bodyVpack d a b p f))

def bodyVunpack (d : BitVec 5) (a : BitVec 6) (j : BitVec 6) (p : BitVec 3) (f : BitVec 3) : VBody := moveBody d p fun k xs i =>
  let x := elem f (lane (srcLanes k xs a f) i) j.toNat
  if fmtIsInt f then BitVec.ofInt 32 (toSigned (fmtWidth f) x) else BitVec.ofNat 32 x
/-- `VUNPACK` (R133). -/
def execVunpack (d : BitVec 5) (a : BitVec 6) (j : BitVec 6) (p : BitVec 3) (f : BitVec 3) (s : State) : Res := .next (s.issueV (.vunpack d a j p f) 2 (bodyVunpack d a j p f))

/-! ### Narrowing with outliers (R115 to R117, R134) -/

/-- The lanes of a narrowing: patterns, the outlier lanes in ascending order, and the flags. -/
def narrowLanes (f : Fmt) (va vb : VReg) : List Nat → List (Nat × Nat) × List Nat × Flags
  | [] => ([], [], 0)
  | i :: r =>
    let q := narrowScaled (lane va i).toNat (lane vb i).toNat f
    let t := narrowLanes f va vb r
    ((i, q.1) :: t.1, (if q.2.1 then i :: t.2.1 else t.2.1), q.2.2 ||| t.2.2)

/-- The outlier record of lane i: element and row from x0, and the FP32 input (R116, R134). -/
def outlierRecord (x0 : Word) (va : VReg) (i : Nat) : List Byte :=
  bytesOfNat 4 (field x0 0 32 + i) ++ bytesOfNat 4 (field x0 32 32) ++ bytesOfNat 4 (lane va i).toNat ++ [0, 0, 0, 0]

/-- The address of outlier record n (R117, R135). -/
def State.recordAddr (s : State) (g n : Nat) : Word := BitVec.ofNat 64 ((s.work g).olbase.toNat + 16 * n)

/-- One record stored at slot n of the list, under the checks of R141 to R143. -/
def State.storeRecord (s : State) (g : Nat) (sup : Bool) (n : Nat) (r : List Byte) : Except (Nat × Word) State :=
  match s.localAccess g sup (s.recordAddr g n) 16 true with
  | .error cause => .error (cause, s.recordAddr g n)
  | .ok (h, off) => .ok (s.localStore h off r)

/-- The end of a narrowing, with every element written and no record left to append: a record store or a CTAKE that failed is
the late cause, with everything done, and an enabled flag is one too (R112, R117, R135, R208). -/
def State.endNarrow (s : State) (g c : Nat) (seq : Byte) : State :=
  let k := s.ctx g c
  match k.ring.find? fun e => e.seq == seq with
  | none => s
  | some e =>
    if e.cause = 0 then s.setCtx g c (k.flagEntry seq e.raised)
    else s.setCtx g c (k.setEntry seq fun x => { x with
      st := .faulted, finished := true, more := x.more ||| flagCauses k.fpflags e.raised })

/-- A narrowing goes on to its next record: the entry without its first one, and the end after the last. -/
def State.recordDone (s : State) (g c : Nat) (seq : Byte) : State :=
  let s1 := s.setCtx g c ((s.ctx g c).setEntry seq fun e => { e with records := e.records.drop 1, pieces := [] })
  if ((s1.ctx g c).ring.find? fun e => e.seq == seq && !e.records.isEmpty).isSome then s1 else s1.endNarrow g c seq

/-- A narrowing stops appending: its record store or its CTAKE has failed with a cause, at an address (R117, R135). -/
def State.recordFails (s : State) (g c : Nat) (seq : Byte) (cause : Nat) (a : Word) : State :=
  (s.setCtx g c ((s.ctx g c).setEntry seq fun e =>
    { e with records := [], pieces := [], cause := BitVec.ofNat 8 cause, fault := a })).endNarrow g c seq

/-- An outlier that finds no slot: OL is set and its record dropped (R117, R135). -/
def State.recordDropped (s : State) (g c : Nat) (seq : Byte) : State :=
  let k := s.ctx g c
  (s.setCtx g c (({ k with fpflags := raiseIn k.fpflags flagOL } : Ctx).setEntry seq fun e =>
    { e with raised := e.raised ||| flagOL })).recordDone g c seq

/-- A narrowing whose checks and sums are done: elements are written and flags ORed in; the records of its outliers are to be
appended, one by one (R54, R134, R140). -/
def beginNarrow (g c : Nat) (e : RingEntry) (d : BitVec 5) (ps : List (Nat × Nat)) (fl : Flags) (rs : List (List Byte))
    (s : State) : State :=
  let k := s.ctx g c
  let old := k.vreg d.toNat
  let new := vregOf ((List.range 64).map fun i =>
    match ps.find? fun q => q.1 == i with
    | some q => BitVec.ofNat 32 q.2
    | none => lane old i)
  let k1 := { (k.setV d.toNat new) with fpflags := raiseIn k.fpflags fl }
  let s1 := s.setCtx g c (k1.setEntry e.seq fun x => { x with records := rs, raised := fl })
  if rs.isEmpty then s1.endNarrow g c e.seq else s1

/-- The next record of a narrowing appended through OLCNT, as one indivisible step (R54, R117). -/
def State.appendRecord (s : State) (g c : Nat) (e : RingEntry) (r : List Byte) : State :=
  let w := s.work g
  let next := field (w.olcnt.setWidth 64) 0 16
  let cap := field (w.olcnt.setWidth 64) 16 16
  if next < cap then
    match s.storeRecord g (s.ctx g c).sup next r with
    | .error (cause, a) => s.recordFails g c e.seq cause a
    | .ok s1 =>
      let w1 := s1.work g
      (s1.setWork g { w1 with olcnt := w1.olcnt + 1 }).recordDone g c e.seq
  else s.recordDropped g c e.seq

/-- The first record of n that a narrowing is to append through OLCNT which is allowed and matches a comparator, with its address (R117,
R217, R368; log entry 13). -/
def State.recordWatched (s : State) (g c n : Nat) : Option (Nat × Word) :=
  let w := (s.work g).olcnt.setWidth 64
  (List.range n).findSome? fun i =>
    let a := s.recordAddr g (field w 0 16 + i)
    match s.localAccess g (s.ctx g c).sup a 16 true with
    | .ok _ => if field w 0 16 + i < field w 16 16 then (s.watchHit g c a.toNat 16 4).map fun k => (k, a) else none
    | .error _ => none

/-- VCVTN through OLCNT (R117, R134); where a record matches a watchpoint nothing is written (R217). -/
def narrowBody (d : BitVec 5) (a b : BitVec 6) (p f : BitVec 3) : VBody := fun s g c e =>
  let k := s.ctx g c
  let va := srcLanes k e.xs a 0
  let q := narrowLanes f va (srcLanes k e.xs b 0) (activeLanes (k.pred p))
  match s.recordWatched g c q.2.1.length with
  | some (i, a) => (s.pull g i).setCtx g c (k.watchEntry e.seq i a)
  | none => beginNarrow g c e d q.1 q.2.2 (q.2.1.map (outlierRecord e.xs[0] va)) s

def bodyVcvtn (d : BitVec 5) (a : BitVec 6) (b : BitVec 6) (p : BitVec 3) (f : BitVec 3) : VBody := narrowBody d a b p f
/-- `VCVTN` (R115, R117, R134). -/
def execVcvtn (d : BitVec 5) (a : BitVec 6) (b : BitVec 6) (p : BitVec 3) (f : BitVec 3) (s : State) : Res := .next (s.whenSafe (s.issueV (.vcvtn d a b p f) 2 (bodyVcvtn d a b p f)))

/-! ### The interpolation tables (R136, R137) -/

/-- An operation rounded RNE into FP32, with its flags added. -/
def rne32 (c : Acc) (e : Exact) : Nat × Acc := c.round 0 .rne e

/-- T[i] of table t. -/
def tableEntry (m : Memory) (t i : Nat) : Nat := natOfBytes (m.bytes (tableAt t + 16 + 4 * i) 4)

/-- VTLU of one FP32 pattern. An entry T[255] that the rule returns as "the entry itself" is returned as it stands, without NV, also
where it is a NaN, for which R104 would give the canonical one (R137; DESIGN CHOICE, log entry 103). -/
def lookup32 (m : Memory) (t x : Nat) (c : Acc) : Nat × Acc :=
  if isNaN 0 x then (canonNaN 0, c.raise (sigFlag 0 [x]))
  else
    let base := natOfBytes (m.bytes (tableAt t) 4)
    let kexp := toSigned 8 (m.get (tableAt t + 4)).toNat
    let r1 := rne32 (c.raise (sigFlag 0 [base])) ((value 0 x).add false (value 0 base).neg)
    let r2 := rne32 r1.2 ((value 0 r1.1).mul (Val.dyadic false 1 (-kexp)))
    match value 0 r2.1 with
    | .nan => (canonNaN 0, r2.2)
    | .inf neg => if neg then go r2.2 0 1 else (tableEntry m t 255, r2.2)
    | .num neg n d =>
      if neg then go r2.2 0 1
      else if 255 * d ≤ n then (tableEntry m t 255, r2.2)
      else go r2.2 n d
where
  /-- The interpolation at tc = n / d below 255. -/
  go (c : Acc) (n d : Nat) : Nat × Acc :=
    let i := n / d
    let lo := tableEntry m t i
    let hi := tableEntry m t (i + 1)
    let dl := rne32 (c.raise (sigFlag 0 [lo, hi])) ((value 0 hi).add false (value 0 lo).neg)
    rne32 dl.2 (Val.fma false (.num false (n % d) d) (value 0 dl.1) (value 0 lo))

/-- VTLU: a BF16 element is widened exactly, and the FP32 result rounded again (R137). -/
def lookupBody (d : BitVec 5) (a : BitVec 6) (t p f : BitVec 3) : VBody := fun s g cx e =>
  let k := s.ctx g cx
  let m := (s.work g).tables
  let va := srcLanes k e.xs a f
  let r := mapLanes (k.pred p) (k.vreg d.toNat) (fun i c => laneOf f (fun j c =>
    let x := elem f (lane va i) j
    if f = 0 then lookup32 m t.toNat x c
    else
      let y := lookup32 m t.toNat (x * 2 ^ 16) c
      y.2.round 1 .rne (value 0 y.1, 0)) c) k.acc
  finishFlags s g cx e (k.setV d.toNat r.1) r.2

def bodyVtlu (d : BitVec 5) (a : BitVec 6) (t : BitVec 3) (p : BitVec 3) (f : BitVec 3) : VBody := lookupBody d a t p f
/-- `VTLU` (R137). -/
def execVtlu (d : BitVec 5) (a : BitVec 6) (t : BitVec 3) (p : BitVec 3) (f : BitVec 3) (s : State) : Res := .next (s.issueV (.vtlu d a t p f) 2 (bodyVtlu d a t p f))

/-! ### Rotary positions (R138, R139) -/

/-- The first quarter of the sine table: the FP32 patterns of sin(2 pi n / 1024), n = 0 to 256 (R138), part 0. -/
def sineQuarter0 : List Nat :=
  [0x00000000, 0x3BC90F88, 0x3C490E90, 0x3C96C9B6, 0x3CC90AB0, 0x3CFB49BA, 0x3D16C32C, 0x3D2FE007,
   0x3D48FB30, 0x3D621469, 0x3D7B2B74, 0x3D8A200A, 0x3D96A905, 0x3DA3308C, 0x3DAFB680, 0x3DBC3AC3,
   0x3DC8BD36, 0x3DD53DB9, 0x3DE1BC2E, 0x3DEE3876, 0x3DFAB273, 0x3E039502, 0x3E09CF86, 0x3E1008B7,
   0x3E164083, 0x3E1C76DE, 0x3E22ABB6, 0x3E28DEFC, 0x3E2F10A2, 0x3E354098, 0x3E3B6ECF, 0x3E419B37,
   0x3E47C5C2, 0x3E4DEE60, 0x3E541501, 0x3E5A3997, 0x3E605C13, 0x3E667C66, 0x3E6C9A7F, 0x3E72B651,
   0x3E78CFCC, 0x3E7EE6E1, 0x3E827DC0, 0x3E8586CE, 0x3E888E93, 0x3E8B9507, 0x3E8E9A22, 0x3E919DDD,
   0x3E94A031, 0x3E97A117, 0x3E9AA086, 0x3E9D9E78, 0x3EA09AE5, 0x3EA395C5, 0x3EA68F12, 0x3EA986C4,
   0x3EAC7CD4, 0x3EAF713A, 0x3EB263EF, 0x3EB554EC, 0x3EB8442A, 0x3EBB31A0, 0x3EBE1D4A, 0x3EC1071E]

/-- The first quarter of the sine table: the FP32 patterns of sin(2 pi n / 1024), n = 0 to 256 (R138), part 1. -/
def sineQuarter1 : List Nat :=
  [0x3EC3EF15, 0x3EC6D529, 0x3EC9B953, 0x3ECC9B8B, 0x3ECF7BCA, 0x3ED25A09, 0x3ED53641, 0x3ED8106B,
   0x3EDAE880, 0x3EDDBE79, 0x3EE0924F, 0x3EE363FA, 0x3EE63375, 0x3EE900B7, 0x3EEBCBBB, 0x3EEE9479,
   0x3EF15AEA, 0x3EF41F07, 0x3EF6E0CB, 0x3EF9A02D, 0x3EFC5D27, 0x3EFF17B2, 0x3F00E7E4, 0x3F0242B1,
   0x3F039C3D, 0x3F04F484, 0x3F064B82, 0x3F07A136, 0x3F08F59B, 0x3F0A48AD, 0x3F0B9A6B, 0x3F0CEAD0,
   0x3F0E39DA, 0x3F0F8784, 0x3F10D3CD, 0x3F121EB0, 0x3F13682A, 0x3F14B039, 0x3F15F6D9, 0x3F173C07,
   0x3F187FC0, 0x3F19C200, 0x3F1B02C6, 0x3F1C420C, 0x3F1D7FD1, 0x3F1EBC12, 0x3F1FF6CB, 0x3F212FF9,
   0x3F226799, 0x3F239DA9, 0x3F24D225, 0x3F26050A, 0x3F273656, 0x3F286605, 0x3F299415, 0x3F2AC082,
   0x3F2BEB4A, 0x3F2D1469, 0x3F2E3BDE, 0x3F2F61A5, 0x3F3085BB, 0x3F31A81D, 0x3F32C8C9, 0x3F33E7BC]

/-- The first quarter of the sine table: the FP32 patterns of sin(2 pi n / 1024), n = 0 to 256 (R138), part 2. -/
def sineQuarter2 : List Nat :=
  [0x3F3504F3, 0x3F36206C, 0x3F373A23, 0x3F385216, 0x3F396842, 0x3F3A7CA4, 0x3F3B8F3B, 0x3F3CA003,
   0x3F3DAEF9, 0x3F3EBC1B, 0x3F3FC767, 0x3F40D0DA, 0x3F41D870, 0x3F42DE29, 0x3F43E200, 0x3F44E3F5,
   0x3F45E403, 0x3F46E22A, 0x3F47DE65, 0x3F48D8B3, 0x3F49D112, 0x3F4AC77F, 0x3F4BBBF8, 0x3F4CAE79,
   0x3F4D9F02, 0x3F4E8D90, 0x3F4F7A1F, 0x3F5064AF, 0x3F514D3D, 0x3F5233C6, 0x3F531849, 0x3F53FAC3,
   0x3F54DB31, 0x3F55B993, 0x3F5695E5, 0x3F577026, 0x3F584853, 0x3F591E6A, 0x3F59F26A, 0x3F5AC450,
   0x3F5B941A, 0x3F5C61C7, 0x3F5D2D53, 0x3F5DF6BE, 0x3F5EBE05, 0x3F5F8327, 0x3F604621, 0x3F6106F2,
   0x3F61C598, 0x3F628210, 0x3F633C5A, 0x3F63F473, 0x3F64AA59, 0x3F655E0B, 0x3F660F88, 0x3F66BECC,
   0x3F676BD8, 0x3F6816A8, 0x3F68BF3C, 0x3F696591, 0x3F6A09A7, 0x3F6AAB7B, 0x3F6B4B0C, 0x3F6BE858]

/-- The first quarter of the sine table: the FP32 patterns of sin(2 pi n / 1024), n = 0 to 256 (R138), part 3. -/
def sineQuarter3 : List Nat :=
  [0x3F6C835E, 0x3F6D1C1D, 0x3F6DB293, 0x3F6E46BE, 0x3F6ED89E, 0x3F6F6830, 0x3F6FF573, 0x3F708066,
   0x3F710908, 0x3F718F57, 0x3F721352, 0x3F7294F8, 0x3F731447, 0x3F73913F, 0x3F740BDD, 0x3F748422,
   0x3F74FA0B, 0x3F756D97, 0x3F75DEC6, 0x3F764D97, 0x3F76BA07, 0x3F772417, 0x3F778BC5, 0x3F77F110,
   0x3F7853F8, 0x3F78B47B, 0x3F791298, 0x3F796E4E, 0x3F79C79D, 0x3F7A1E84, 0x3F7A7302, 0x3F7AC516,
   0x3F7B14BE, 0x3F7B61FC, 0x3F7BACCD, 0x3F7BF531, 0x3F7C3B28, 0x3F7C7EB0, 0x3F7CBFC9, 0x3F7CFE73,
   0x3F7D3AAC, 0x3F7D7474, 0x3F7DABCC, 0x3F7DE0B1, 0x3F7E1324, 0x3F7E4323, 0x3F7E70B0, 0x3F7E9BC9,
   0x3F7EC46D, 0x3F7EEA9D, 0x3F7F0E58, 0x3F7F2F9D, 0x3F7F4E6D, 0x3F7F6AC7, 0x3F7F84AB, 0x3F7F9C18,
   0x3F7FB10F, 0x3F7FC38F, 0x3F7FD397, 0x3F7FE129, 0x3F7FEC43, 0x3F7FF4E6, 0x3F7FFB11, 0x3F7FFEC4]

/-- The first quarter of the sine table: the FP32 patterns of sin(2 pi n / 1024), n = 0 to 256 (R138), part 4. -/
def sineQuarter4 : List Nat :=
  [0x3F800000]

/-- The first quarter of the sine table: the FP32 patterns of sin(2 pi n / 1024), n = 0 to 256 (R138). -/
def sineQuarter : List Nat := sineQuarter0 ++ sineQuarter1 ++ sineQuarter2 ++ sineQuarter3 ++ sineQuarter4

/-- The frequencies W_j, 48-bit fractions of a turn (R138). -/
def ropeFreq : List Nat :=
  [44798133900177, 31677064265318, 22399066950088, 15838532132659,
   11199533475044, 7919266066329, 5599766737522, 3959633033164,
   2799883368761, 1979816516582, 1399941684380, 989908258291,
   699970842190, 494954129145, 349985421095, 247477064572,
   174992710547, 123738532286, 87496355273, 61869266143,
   43748177636, 30934633071, 21874088818, 15467316535,
   10937044409, 7733658267, 5468522204, 3866829133,
   2734261102, 1933414566, 1367130551, 966707283]

/-- S[n] (R138): the other quarters by the symmetries of the sine. -/
def sineEntry (n : Nat) : Nat :=
  let m := n % 1024
  let h := m % 512
  let q := sineQuarter.getD (if h ≤ 256 then h else 512 - h) 0
  if m < 512 ∨ q = 0 then q else q + 0x80000000

/-- Interp(n) of R138, with f = fr / 2^24. -/
def ropeInterp (n fr : Nat) (c : Acc) : Nat × Acc :=
  let dl := rne32 c ((value 0 (sineEntry (n + 1))).add false (value 0 (sineEntry n)).neg)
  rne32 dl.2 (Val.fma false (.num false fr (2 ^ 24)) (value 0 dl.1) (value 0 (sineEntry n)))

/-- u x + v y, exactly, rounded once (R138). -/
def ropeSum (x u y w : Val) (c : Acc) : Nat × Acc :=
  let a := x.mul u
  let b := y.mul w
  let t := a.1.add false b.1
  rne32 c (t.1, a.2 ||| b.2 ||| t.2)

/-- One pair: both results (R138). -/
def ropePair (x y pos j : Nat) (c : Acc) : (Nat × Nat) × Acc :=
  let th := pos * ropeFreq.getD j 0 % 2 ^ 48
  let i := th / 2 ^ 38
  let fr := th / 2 ^ 14 % 2 ^ 24
  let sn := ropeInterp i fr (c.raise (sigFlag 0 [x, y]))
  let cs := ropeInterp (i + 256) fr sn.2
  let vs := value 0 sn.1
  let vc := value 0 cs.1
  let r0 := ropeSum (value 0 x) vc (value 0 y) vs.neg cs.2
  let r1 := ropeSum (value 0 x) vs (value 0 y) vc r0.2
  ((r0.1, r1.1), r1.2)

/-- The active pairs in ascending order: lanes with their results. -/
def ropePairs (va vb : VReg) : List Nat → Acc → List (Nat × Lane) × Acc
  | [], c => ([], c)
  | j :: r, c =>
    let q := ropePair (lane va (2 * j)).toNat (lane va (2 * j + 1)).toNat (lane vb (2 * j)).toNat j c
    let t := ropePairs va vb r q.2
    ((2 * j, BitVec.ofNat 32 q.1.1) :: (2 * j + 1, BitVec.ofNat 32 q.1.2) :: t.1, t.2)

/-- VROPE: every active pair's position is checked before anything is written (R139). -/
def ropeBody (d : BitVec 5) (a b : BitVec 6) (p : BitVec 3) : VBody := fun s g cx e =>
  let k := s.ctx g cx
  let va := srcLanes k e.xs a 0
  let vb := srcLanes k e.xs b 5
  let pairs := (List.range 32).filter fun j => (k.pred p).getLsbD (2 * j)
  if pairs.any fun j => decide ((lane vb (2 * j)).toNat ≥ 2 ^ 24) then
    s.setCtx g cx (k.faultEntry e.seq 0x0E 0 false)
  else
    let r := ropePairs va vb pairs k.acc
    let old := k.vreg d.toNat
    let new := vregOf ((List.range 64).map fun i =>
      match r.1.find? fun q => q.1 == i with
      | some q => q.2
      | none => lane old i)
    finishFlags s g cx e (k.setV d.toNat new) r.2

def bodyVrope (d : BitVec 5) (a : BitVec 6) (b : BitVec 6) (p : BitVec 3) : VBody := ropeBody d a b p
/-- `VROPE` (R138, R139). -/
def execVrope (d : BitVec 5) (a : BitVec 6) (b : BitVec 6) (p : BitVec 3) (s : State) : Res := .next (s.issueV (.vrope d a b p) 2 (bodyVrope d a b p))

end Sys2Proof.Machine
end

