-- ==== Sys2Proof/Machine/Fabric.lean ====
section
/-! DEFINITION. Counters and the balancer fabric (R157 to R179): the bitonic network, placement, the steps of
tokens, antitokens and cancels, generations and pennants, the counter instructions, and the prefixed VCVTN
(R135). -/

namespace Sys2Proof.Machine

/-! ### The network (R159) -/

/-- A balancer: its layer and its input wires. Balancer i has outputs W + 2 i and W + 2 i + 1. -/
structure Bal where
  layer : Nat
  u : Nat
  v : Nat
  deriving DecidableEq, Repr

/-- Elements 0, 2, 4, … of a list, and elements 1, 3, 5, …. -/
def evens : List Nat → List Nat
  | [] => []
  | [a] => [a]
  | a :: _ :: r => a :: evens r
def odds : List Nat → List Nat
  | [] => []
  | [_] => []
  | _ :: b :: r => b :: odds r

/-- A balancer added: its outputs, and the list with it. -/
def addBal (w l u v : Nat) (bs : List Bal) : (Nat × Nat) × List Bal :=
  ((w + 2 * bs.length, w + 2 * bs.length + 1), bs ++ [⟨l, u, v⟩])

/-- The last row of a merger: one balancer for each pair of wires. -/
def mergeRow (w l : Nat) : List Nat → List Nat → List Bal → List Nat × List Bal
  | c :: cs, d :: ds, bs =>
    let r := addBal w l c d bs
    let t := mergeRow w l cs ds r.2
    (r.1.1 :: r.1.2 :: t.1, t.2)
  | _, _, bs => ([], bs)

/-- Merger(a, b, l) for lists of 2^n wires each (R159). -/
def merger (w : Nat) : Nat → List Nat → List Nat → Nat → List Bal → List Nat × List Bal
  | 0, a, b, l, bs =>
    let r := addBal w l (a.headD 0) (b.headD 0) bs
    ([r.1.1, r.1.2], r.2)
  | n + 1, a, b, l, bs =>
    let c := merger w n (evens a) (odds b) l bs
    let d := merger w n (odds a) (evens b) l c.2
    mergeRow w (l + n + 1) c.1 d.1 d.2

/-- Bitonic(x, l) for 2^n wires (R159). -/
def bitonic (w : Nat) : Nat → List Nat → Nat → List Bal → List Nat × List Bal
  | 0, x, _, bs => (x, bs)
  | n + 1, x, l, bs =>
    let a := bitonic w n (x.take (2 ^ n)) l bs
    let b := bitonic w n (x.drop (2 ^ n)) l a.2
    merger w n a.1 b.1 (l + n * (n + 1) / 2) b.2

/-- The counting network of width w: the wire of each exit, and the balancers (R159). -/
def network (w : Nat) : List Nat × List Bal := bitonic w (Nat.log2 w) (List.range w) 0 []

/-- The entries that a counter of width w takes: its balancers and its exits (R158). -/
def entryCount (w : Nat) : Nat := (network w).2.length + w

/-- The balancer that a wire feeds. -/
def feeds (w wire : Nat) : Option Nat :=
  let i := ((network w).2.findIdx fun b => b.u == wire || b.v == wire)
  if i < (network w).2.length then some i else none

/-- The exit that a wire is. -/
def exitOf (w wire : Nat) : Nat := (network w).1.idxOf wire

/-! ### Placement (R158, R160, R183) -/

/-- The routers of a placement region, in ascending physical order (R160). -/
def State.regionRouters (s : State) (t g region : Nat) : List Nat :=
  let base := chipOf g * 2560
  if region = 0 then (List.range 16).map fun i => g / 16 * 16 + i
  else if region = 1 then (List.range 320).map fun i => base + 320 * dieOf g + i
  else ((List.range 2560).filter fun p => (s.logical t (chipOf g)).contains p).map fun p => base + p

/-- How many entries of a router a partition's counters hold. -/
def Partition.entriesAt (p : Partition) (r : Nat) : Nat :=
  (p.counters.map fun e => e.2.routers.count r).foldl (· + ·) 0

/-- How many entries of a router every partition's counters hold. -/
def State.entriesAt (s : State) (r : Nat) : Nat := (s.parts.map fun e => e.2.entriesAt r).foldl (· + ·) 0

/-- n entries placed from entry k on, beside those already placed; none where some entry finds no room (R160,
R183). -/
def State.placeFrom (s : State) (t : Nat) (rs : List Nat) : Nat → Nat → List Nat → Option (List Nat)
  | 0, _, acc => some acc
  | n + 1, k, acc =>
    let free := fun r => decide (s.entriesAt r + acc.count r < Config.routerEntries)
      && decide ((s.part t).entriesAt r + acc.count r < (s.part t).limit)
    let m := k % rs.length
    match (rs.drop m ++ rs.take m).find? free with
    | some r => s.placeFrom t rs n (k + 1) (acc ++ [r])
    | none => none

/-- Whether some core of a partition records or replays, which withholds ID 4,095 (R173, R372). -/
def State.sequencing (s : State) (t : Nat) : Bool := (s.partCores t).any fun g => s.logMode g == 1 || s.logMode g == 2

/-- A counter of width w created for partition t from core g: its key, and the state; none where no ID or no
entries are free (R173). -/
def State.newCounter (s : State) (t g region w : Nat) : Option (Nat × State) :=
  let rs := s.regionRouters t g region
  let free := fun id => (Tab.find (s.part t).counters (counterKey t (chipOf g) id)).isNone && !(id == 4095 && s.sequencing t)
  match firstBelow free 4096, (if rs.isEmpty then none else s.placeFrom t rs (entryCount w) 0 []) with
  | some id, some pl =>
    let key := counterKey t (chipOf g) id
    let k : Counter := ⟨w, pl, List.replicate (network w).2.length false, List.replicate w 0, List.replicate w [], 0, 0,
      .opened, 0, false, false, []⟩
    some (key, s.setPart t { s.part t with counters := Tab.put (s.part t).counters key k })
  | _, _ => none

/-! ### Steps at balancers and exits (R162, R163) -/

/-- A counter of a partition. -/
def State.counter (s : State) (t key : Nat) : Option Counter := Tab.find (s.part t).counters key

/-- A counter replaced. -/
def State.setCounter (s : State) (t key : Nat) (k : Counter) : State :=
  s.setPart t { s.part t with counters := Tab.put (s.part t).counters key k }

/-- The wire a token leaves balancer i on, and the counter with the balancer stepped (R162). -/
def Counter.tokenAt (k : Counter) (i : Nat) : Nat × Counter :=
  let b := (k.bal[i]?).getD false
  (k.w + 2 * i + bitOf b, { k with bal := listSet k.bal i !b })

/-- The same for an antitoken: the state changes first (R162). -/
def Counter.antiAt (k : Counter) (i : Nat) : Nat × Counter :=
  let b := !(k.bal[i]?).getD false
  (k.w + 2 * i + bitOf b, { k with bal := listSet k.bal i b })

/-- Whether a value lies in the range of R163. -/
def valueOk (v : Int) : Bool := decide (-(2 ^ 47) ≤ v) && decide (v < 2 ^ 47)

/-- A token at exit j: the value, and the counter; no value where it would leave the range (R162, R163). -/
def Counter.exitToken (k : Counter) (j : Nat) : Option Int × Counter :=
  match (k.holes[j]?).getD [] with
  | h :: r => (some h, { k with holes := listSet k.holes j r })
  | [] =>
    let c := (k.c[j]?).getD 0
    let v := (j : Int) + k.w * c
    if valueOk v then (some v, { k with c := listSet k.c j (c + 1) }) else (none, { k with exhausted := true })

/-- An antitoken at exit j (R162, R163). -/
def Counter.exitAnti (k : Counter) (j : Nat) : Option Int × Counter :=
  let c := (k.c[j]?).getD 0 - 1
  let u := (j : Int) + k.w * c
  if valueOk u then
    (some u, { k with c := listSet k.c j c, holes := listSet k.holes j (((k.holes[j]?).getD []).erase u) })
  else (none, { k with exhausted := true })

/-- The exit of a value. -/
def Counter.exitFor (k : Counter) (v : Int) : Nat := (v % (k.w : Int)).toNat

/-- A cancel of v at its exit: the status, and the counter (R162). The top of a hole stack stands first. -/
def Counter.exitCancel (k : Counter) (v : Int) : Nat × Counter :=
  let j := k.exitFor v
  let hs := (k.holes[j]?).getD []
  if v < 0 ∨ v ≥ (j : Int) + k.w * (k.c[j]?).getD 0 ∨ hs.contains v then (2, k)
  else if hs.length = 4 then (1, k)
  else (0, { k with holes := listSet k.holes j (v :: hs) })

/-! ### Generations (R166, R167) -/

/-- The counts of a generation. -/
def Counter.genCount (k : Counter) (g : BitVec 16) : GenCount := Tab.look ⟨0, 0, 0⟩ k.gens g.toNat

/-- A counter with the counts of a generation changed. -/
def Counter.mapGen (k : Counter) (g : BitVec 16) (f : GenCount → GenCount) : Counter :=
  { k with gens := Tab.put k.gens g.toNat (f (k.genCount g)) }

/-- An operation of a generation enters, and one leaves with its count (R167). -/
def Counter.enter (k : Counter) : Counter := k.mapGen k.gen fun x => { x with entered := x.entered + 1 }
def Counter.leave (k : Counter) (g : BitVec 16) (n : Int) : Counter :=
  k.mapGen g fun x => { x with left := x.left + 1, net := x.net + n }

/-- An exit report: counted at once, or held back until the accesses before its operation are complete (R170). -/
def State.exitReport (s : State) (r : ExitReport) : State :=
  if s.allDone r.g r.waits then
    match s.counter r.tag r.key with
    | some k => s.setCounter r.tag r.key (k.leave r.gen r.net)
    | none => s
  else s.withNet fun n => { n with reports := n.reports ++ [r] }

/-- Held exit reports counted where the accesses that they await are now complete (R170). -/
def State.settleReports (s : State) : State :=
  s.net.reports.foldl State.exitReport (s.withNet fun n => { n with reports := [] })

/-! ### Operations in flight (R162, R170) -/

/-- The operation of a number with its place replaced. -/
def State.moveOp (s : State) (k : Nat) (o : FabricOp) (p : FabricPos) : State :=
  s.withNet fun n => { n with ops := Tab.put n.ops k { o with pos := p } }

/-- A value as a register holds it (R163, R175). -/
def valueWord (v : Int) : Word := BitVec.ofInt 64 v

/-- An operation at a balancer (R162). -/
def State.atBalancer (s : State) (k : Nat) (anti : Bool) : State :=
  match Tab.find s.net.ops k with
  | none => s
  | some o =>
    match o.pos, s.counter o.tag o.key with
    | .wire w, some q =>
      if (o.kind == .anti) != anti ∨ (o.kind != .anti && o.kind != .token) then s
      else match feeds q.w w with
        | none => s
        | some i =>
          let r := if anti then q.antiAt i else q.tokenAt i
          ((s.setCounter o.tag o.key r.2).moveOp k o (.wire r.1)).count o.tag 5 1
    | _, _ => s

/-- An operation at its exit: what it answers, the counter, and what it counts (R162, R163, R167). -/
def State.atExit (s : State) (k : Nat) (kind : FabricKind → Bool) : State :=
  match Tab.find s.net.ops k with
  | none => s
  | some o =>
    match o.pos, s.counter o.tag o.key with
    | .wire w, some q =>
      if !kind o.kind ∨ (feeds q.w w).isSome then s
      else
        let j := exitOf q.w w
        let s1 := s.count o.tag 5 1
        match o.kind with
        | .cancel v =>
          let r := q.exitCancel v
          (s1.setCounter o.tag o.key r.2).moveOp k o (.back true (BitVec.ofNat 64 r.1))
        | kd =>
          let r := if kd = .anti then q.exitAnti j else q.exitToken j
          match r.1 with
          | some v => ((s1.setCounter o.tag o.key r.2).moveOp k o (.back true (valueWord v))).exitReport
              ⟨o.g, o.c, o.tag, o.key, o.gen, o.waits, if kd = .anti then -1 else 1⟩
          | none => ((s1.setCounter o.tag o.key r.2).moveOp k o (.back false 0)).exitReport
              ⟨o.g, o.c, o.tag, o.key, o.gen, o.waits, 0⟩
    | _, _ => s

/-- `BALANCER_TOKEN` (R162). -/
def execBalancerToken (k : Nat) (s : State) : Res := .next (s.atBalancer k false)
/-- `BALANCER_ANTITOKEN` (R162). -/
def execBalancerAntitoken (k : Nat) (s : State) : Res := .next (s.atBalancer k true)
/-- `EXIT_TOKEN` (R162, R163). -/
def execExitToken (k : Nat) (s : State) : Res := .next (s.atExit k fun x => x == .token)
/-- `EXIT_ANTITOKEN` (R162, R163). -/
def execExitAntitoken (k : Nat) (s : State) : Res := .next (s.atExit k fun x => x == .anti)
/-- `EXIT_CANCEL` (R162). -/
def execExitCancel (k : Nat) (s : State) : Res := .next (s.atExit k fun x => match x with
  | .cancel _ => true
  | _ => false)

/-- The next record of a prefixed narrowing asks a counter for its slot: a CTAKE of the core on the outlier's behalf; a counter
that is not the partition's, or is exhausted, ends the appends with the counter-error cause (R135, R161, R163). -/
def State.askSlot (s : State) (g c key : Nat) (seq : Byte) : State :=
  match s.counter (s.tag g) key with
  | none => s.recordFails g c seq 0x0A 0
  | some k =>
    if k.exhausted then s.recordFails g c seq 0x0A 0
    else
      let o : FabricOp := ⟨g, c, s.tag g, key, .token, k.gen, .wire (inputWire g k.w), (s.ctx g c).pending, .append seq, s.cycle g⟩
      let s1 := (s.setCounter (s.tag g) key k.enter).withNet fun n => { n with ops := Tab.put n.ops s.nextId o }
      s1.fresh.setCtx g c ((s1.ctx g c).setEntry seq fun e => { e with pieces := [s.nextId] })

/-- The counter's answer for the first record of a narrowing: the record is stored at its slot, or dropped; where its store matches a
watchpoint it fails, with the elements written (R135, R217; log entry 13). -/
def State.slotAnswer (s : State) (g c : Nat) (seq : Byte) (ok : Bool) (v : Word) : State :=
  match (s.ctx g c).ring.find? fun e => e.seq == seq with
  | none => s
  | some e => match e.records with
    | [] => s
    | r :: _ =>
      if !ok then s.recordFails g c seq 0x0A 0
      else if 0 ≤ v.toInt ∧ v.toInt < field ((s.work g).olcnt.setWidth 64) 16 16 then
        match s.storeRecord g (s.ctx g c).sup v.toNat r, s.watchHit g c (s.recordAddr g v.toNat).toNat 16 4 with
        | .error (cause, a), w =>
          let s1 := match w with
            | some n => s.pull g n
            | none => s
          (s1.setCtx g c ((s1.ctx g c).alsoCauses seq (if w.isSome then [0x08] else []))).recordFails g c seq cause a
        | .ok _, some n =>
          let s1 := s.pull g n
          (s1.setCtx g c ((s1.ctx g c).setEntry seq fun x => { x with comparator := some n })).recordFails g c seq 0x08 (s.recordAddr g v.toNat)
        | .ok s1, none => s1.recordDone g c seq
      else s.recordDropped g c seq

/-- The state seen with another context as the executing one (R40). -/
def State.as (s : State) (g c : Nat) (f : State → State) : State := { f { s with cur := (g, c) } with cur := s.cur }

/-- A crew dispatcher has its answer: a value below n starts its crew next, any other answer marks the grid exhausted at the
core. The manual gives a counter error on this CTAKE no fate; the model marks the grid exhausted for it too (R74; DESIGN CHOICE,
log entry 88). -/
def Work.claimed (w : Work) (key : Nat) (ok : Bool) (v : Word) : Work :=
  match w.claim with
  | some (.asked gr) =>
    if gr.counter ≠ key then w
    else if ok && decide (0 ≤ v.toInt) && decide (v.toInt < gr.launch.n) then { w with claim := some (.got v.toNat gr) }
    else { w with
      claim := none, grids := w.grids.map fun q => if q.counter = key then { q with exhausted := true } else q }
  | _ => w

/-- `FABRIC_REPLY`: the answer of operation k returns: its context writes xd and goes on, or takes the counter-error cause with
xd unchanged (R172, R175); a narrowing stores its record (R135); a crew dispatcher has its value (R74). The return to a
context ends a chunk (R372), and that of a CTAKE is sampled (R374). -/
def execFabricReply (k : Nat) (s : State) : Res :=
  .next <| match Tab.find s.net.ops k with
    | none => s
    | some o =>
      match o.pos with
      | .wire _ => s
      | .back ok v =>
        let gone := s.withNet fun n => { n with ops := Tab.drop n.ops k }
        match o.use with
        | .done => gone
        | .crew => gone.mapFor o.tag o.g fun w => w.claimed o.key ok v
        | .append seq =>
          if (s.ctx o.g o.c).ring.any fun e => e.seq == seq && e.pieces.contains k then gone.slotAnswer o.g o.c seq ok v else gone
        | .reg d =>
          if (s.ctx o.g o.c).st ≠ .blocked (.fabric k) then gone
          else s.atChunkEnd o.g o.c 1 none fun t =>
            let t1 := t.withNet fun n => { n with ops := Tab.drop n.ops k }
            let t2 := t1.setCtx o.g o.c { t1.ctx o.g o.c with st := .ready, since := t1.cycle o.g, age := t1.cycle o.g, bump := 0 }
            let t3 := if o.kind = .token then t2.sampled o.g 1 (s.cycle o.g - o.born) 1 else t2
            t3.as o.g o.c fun u => if ok then writeX u 2 d v else u.trap 0x0A

/-! ### The counter instructions (R172 to R179) -/

/-- The checks of a counter reference: reserved bits, then the allocation (R157); CREAD and CFREE work on an
exhausted counter (R163). `mask` holds the bits that must be 0. -/
def State.withCounter (s : State) (x : Word) (mask : Word) (worn : Bool) (go : Nat → Counter → State) : State :=
  let key := counterKey (s.tag s.cur.1) (field x 12 6) (field x 0 12)
  if x &&& mask ≠ 0 then s.illegal
  else match s.counter (s.tag s.cur.1) key with
    | none => s.trap 0x0A
    | some k => if k.exhausted && !worn then s.trap 0x0A else go key k

/-- A fabric instruction of the executing context returns at once, which ends a chunk: in a replay it waits for its turn (R372, R373). -/
def State.returns (s : State) (go : State → State) : State :=
  match s.chunkEnd s.cur.1 s.cur.2 1 none with
  | some t => go t
  | none => (s.stalled s.cur.1 s.cur.2 1).hold (.blocked .turn)

/-- The bits of a reference that must be 0 (R157). -/
def refMask : Word := ~~~0x3FFFF

/-- `CNEW` (R173); every fabric instruction waits for a speculative event to be safe (R320). -/
def execCnew (d : XReg) (p : BitVec 2) (w : BitVec 3) (s : State) : Res :=
  let g := s.cur.1
  .next <| s.whenSafe <| s.returns fun s => match s.newCounter (s.tag g) g p.toNat (2 ^ w.toNat) with
    | some (key, t) => writeX t 2 d (pack [(0, key % 4096), (12, chipOf g)])
    | none => writeX s 2 d (BitVec.allOnes 64)

/-- Whether a core's send queue holds an operation of a counter (R74, R75, R195). -/
def Work.opQueued (w : Work) (t key : Nat) : Bool :=
  w.requests.any fun e => match e.item with
    | .op o => o.tag == t && o.key == key
    | _ => false

/-- Whether no operation of a counter is in flight, nor waits to be sent (R164). -/
def State.quiescent (s : State) (t key : Nat) : Bool :=
  s.net.ops.all (fun e => !(e.2.tag == t && e.2.key == key && (match e.2.pos with
    | .wire _ => true
    | .back _ _ => false))) && (s.partCores t).all fun g => !(s.workFor t g).opQueued t key && !(s.work g).opQueued t key

/-- Whether the pennant of a generation has been raised (R166). -/
def Counter.raised (k : Counter) (g : BitVec 16) : Bool := decide ((k.p - 1 - g).toNat < 2 ^ 15)

/-- A context that waits on the pennant of a counter that is freed: it takes the counter-error cause at its CWAIT, or where the pennant
has been raised its wait is over, as it was before (R174, R179). -/
def Ctx.failWait (key : Nat) (n : Counter) (k : Ctx) : Ctx :=
  match k.st with
  | .waiting (.pennant q gen) =>
    if q = key ∧ k.role ≠ .free then
      if n.raised gen then { k with st := .waiting .over }
      else { k with st := .ready, trap := some ⟨0x0A, false, k.pc, 0, 0, BitVec.ofNat 23 (2 ^ 0x0A), 0, false, 0⟩ }
    else k
  | _ => k

/-- The same for every context that a core's work holds or has written out (R174). -/
def Work.failWaits (w : Work) (key : Nat) (n : Counter) : Work :=
  { w with
    ctxs := Tab.each (fun _ k => k.failWait key n) w.ctxs,
    swapped := Tab.each (fun _ i => { i with ctxs := i.ctxs.map fun e => (e.1, e.2.failWait key n) }) w.swapped }

/-- Every context of a partition that waits on a counter's pennant: those in their cores, those of swapped crews, and those of evicted
cores (R174). -/
def State.failWaiters (s : State) (t key : Nat) (n : Counter) : State :=
  (s.partCores t).foldl (fun u g =>
    let v := u.mapFor t g fun w => w.failWaits key n
    if u.tag g = t ∧ (u.core g).evicting.isSome then v.setWork g ((v.work g).failWaits key n) else v) s

/-- A counter freed (R174). -/
def State.freeCounter (s : State) (t key : Nat) : State :=
  let s1 := s.setPart t { s.part t with counters := Tab.drop (s.part t).counters key }
  let s2 := s1.withNet fun n => { n with reports := n.reports.filter fun r => !(r.tag == t && r.key == key) }
  match s.counter t key with
  | some n => s2.failWaiters t key n
  | none => s2

/-- `CFREE` (R174). -/
def execCfree (a : XReg) (s : State) : Res :=
  let t := s.tag s.cur.1
  .next <| s.whenSafe <| s.withCounter (s.x a) refMask true fun key _ =>
    if s.quiescent t key then s.returns fun u => (u.freeCounter t key).retire 2 else s.hold (.blocked (.free key))

/-- A fabric operation of the executing context sent: stamped with the open generation, and the context blocked until
the answer returns (R161, R170, R175). -/
def State.sendOp (s : State) (key : Nat) (k : Counter) (kind : FabricKind) (wire : Nat) (d : XReg) : State :=
  let g := s.cur.1
  let o : FabricOp := ⟨g, s.cur.2, s.tag g, key, kind, k.gen, .wire wire, s.me.pending, .reg d, s.cycle g⟩
  let k1 := match kind with
    | .cancel _ => k
    | _ => k.enter
  let s1 := (s.setCounter (s.tag g) key k1).withNet fun n => { n with ops := Tab.put n.ops s.nextId o }
  s1.fresh.hold (.blocked (.fabric s.nextId))

/-- `CTAKE` (R175). -/
def execCtake (d a : XReg) (s : State) : Res :=
  .next <| s.whenSafe <| s.withCounter (s.x a) refMask false fun key k =>
    s.sendOp key k .token (inputWire s.cur.1 k.w) d
/-- `CGIVE` (R175). -/
def execCgive (d a : XReg) (s : State) : Res :=
  .next <| s.whenSafe <| s.withCounter (s.x a) refMask false fun key k =>
    s.sendOp key k .anti (inputWire s.cur.1 k.w) d
/-- `CCANCEL`: a value outside the range gets status 2 at once (R176). -/
def execCcancel (d a b : XReg) (s : State) : Res :=
  .next <| s.whenSafe <| s.withCounter (s.x a) refMask false fun key k =>
    let v := (s.x b).toInt
    if valueOk v then s.sendOp key k (.cancel v) (((network k.w).1[k.exitFor v]?).getD 0) d else s.returns fun u => writeX u 2 d 2

/-- The state number of a pennant machine (R177). -/
def Pennant.code : Pennant → Nat
  | .opened => 0
  | .armed => 1
  | .closing => 2

/-- `CREAD` (R177). The rule lets operations leave between the reads of the exits; the model reads them all in one step (DESIGN
CHOICE, log entry 105). -/
def execCread (d a : XReg) (s : State) : Res :=
  .next <| s.whenSafe <| s.withCounter (s.x a) (refMask &&& ~~~0x40000) true fun _ k =>
    s.returns fun u => writeX u 2 d (if (s.x a).getLsbD 18 then
        pack [(0, k.p.toNat), (16, k.pennant.code), (18, bitOf k.rep), (19, bitOf k.exhausted)]
      else valueWord (k.c.foldl (· + ·) 0))

/-- A counter after CARM with target n and the repeat bit; none where it is refused (R167, R178). -/
def Counter.arm (k : Counter) (n : Nat) (rep : Bool) : Option Counter :=
  match k.pennant with
  | .opened => some (if n = 0 then k else { k with pennant := .armed, target := n, rep := rep })
  | .armed => if n = 0 then some { k with pennant := .opened, target := 0 } else none
  | .closing => none

/-- `CARM` (R178). -/
def execCarm (a b : XReg) (s : State) : Res :=
  .next <| s.whenSafe <|
    if field (s.x b) 47 16 ≠ 0 then s.illegal
    else s.withCounter (s.x a) refMask false fun key k =>
      match k.arm (field (s.x b) 0 47) ((s.x b).getLsbD 63) with
      | some k1 => s.returns fun u => (u.setCounter (s.tag s.cur.1) key k1).retire 2
      | none => s.trap 0x0A

/-- `CWAIT` (R179). -/
def execCwait (a b : XReg) (s : State) : Res :=
  let gen : BitVec 16 := (s.x b).setWidth 16
  .next <| s.whenSafe <|
    if field (s.x b) 16 48 ≠ 0 then s.illegal
    else s.withCounter (s.x a) refMask false fun key k =>
      if k.raised gen then s.returns fun u => u.retire 2 else s.hold (.waiting (.pennant key gen))

/-! ### Pennants (R167) -/

/-- `GENERATION_CLOSE`: an armed counter whose net count has reached the target opens the next generation. The rule lets the inputs
learn of it at different times; the model switches them all in this step (R167; DESIGN CHOICE, log entry 104). -/
def execGenerationClose (t key : Nat) (s : State) : Res :=
  let s1 := s.settleReports
  .next <| match s1.counter t key with
    | none => s1
    | some k =>
      if k.pennant = .armed ∧ (k.target : Int) ≤ (k.genCount k.p).net then
        s1.setCounter t key { k with gen := k.p + 1, pennant := .closing }
      else s1

/-- `PENNANT_RAISE`: every operation of the closing generation has left (R167). -/
def execPennantRaise (t key : Nat) (s : State) : Res :=
  let s1 := s.settleReports
  .next <| match s1.counter t key with
    | none => s1
    | some k =>
      let c := k.genCount k.p
      if k.pennant = .closing ∧ c.entered = c.left then
        s1.setCounter t key { k with
          p := k.p + 1, pennant := if k.rep then .armed else .opened,
          target := if k.rep then k.target else 0, gens := Tab.drop k.gens k.p.toNat }
      else s1

/-! ### Narrowing through a counter (R135) -/

/-- The prefixed VCVTN: outliers take their slots from a counter. With no outlier the counter is not looked at (R135; DESIGN CHOICE, log entry
87). -/
def bodyVcvtnCounter (d : BitVec 5) (a b : BitVec 6) (p f : BitVec 3) (_n : BitVec 12) : VBody := fun s g c e =>
  let k := s.ctx g c
  let va := srcLanes k e.xs a 0
  let q := narrowLanes f va (srcLanes k e.xs b 0) (activeLanes (k.pred p))
  beginNarrow g c e d q.1 q.2.2 (q.2.1.map (outlierRecord e.xs[0] va)) s

/-- The next step of a narrowing that has records to append: one record appended, or one slot asked for (R54, R135, R140). -/
def State.narrowOn (s : State) (g c : Nat) (e : RingEntry) : State :=
  match e.records, e.instr with
  | [], _ => s
  | _, .vcvtnCounter _ _ _ _ _ n =>
    if e.pieces.isEmpty then s.askSlot g c (counterKey (s.tag g) (chipOf g) n.toNat) e.seq else s
  | r :: _, _ => s.appendRecord g c e r

/-- `VCVTN_COUNTER` (R135); it waits for a speculative event to be safe (R320). -/
def execVcvtnCounter (d : BitVec 5) (a b : BitVec 6) (p f : BitVec 3) (n : BitVec 12) (s : State) : Res :=
  .next (s.whenSafe (s.issueV (.vcvtnCounter d a b p f n) 4 (bodyVcvtnCounter d a b p f n)))

end Sys2Proof.Machine
end

