-- ==== Sys2Proof/Machine/Bulk.lean ====
section
/-! DEFINITION. Accesses of more than one word at a virtual address, for units of the device: pieces, their
translation and checks (R227, R231, R285), and poison that moves with data (R363). -/

namespace Sys2Proof.Machine

/-- The pieces of n bytes from an address: each within a block of b bytes. The first argument bounds their
number. -/
def piecesOf (b : Nat) : Nat → Nat → Nat → List (Nat × Nat)
  | 0, _, _ => []
  | f + 1, a, n =>
    if n = 0 then []
    else
      let m := min n (b - a % b)
      (a, m) :: piecesOf b f (a + m) (n - m)

/-- The 64-B-aligned pieces of n bytes from an address (R285). -/
def pieces64 (a n : Nat) : List (Nat × Nat) := piecesOf 64 (n / 64 + 2) a n

/-- Pieces translated in order for an access of core g, with the checks of R227: where each lies, or the failure and
its address. -/
def State.mapPieces (s : State) (g : Nat) (sup : Bool) (k : Access) :
    List (Nat × Nat) → State × Except (XFail × Word) (List (Nat × Nat))
  | [] => (s, .ok [])
  | (a, n) :: r =>
    let va := BitVec.ofNat 64 a
    let t := s.translate g (!sup) va k
    match t.2 with
    | .error f => (t.1, .error (f, va))
    | .ok pa =>
      if !t.1.physOk g sup pa ⟨n, false, k == .amo, k == .write || k == .amo, false⟩ then
        (t.1, .error (⟨1, false, false, 0, 0⟩, va))
      else
        let u := t.1.mapPieces g sup k r
        (u.1, u.2.map fun l => (pa, n) :: l)

/-- n bytes at a virtual address of core g translated (R227). -/
def State.mapVirt (s : State) (g : Nat) (sup : Bool) (k : Access) (va : Word) (n : Nat) :
    State × Except (XFail × Word) (List (Nat × Nat)) :=
  s.mapPieces g sup k (pieces64 va.toNat n)

/-- The bytes of translated pieces. -/
def State.readPieces (s : State) (ps : List (Nat × Nat)) : List Byte := ps.flatMap fun p => s.readPhys p.1 p.2

/-- Whether a translated piece is poisoned (R363). -/
def State.badPieces (s : State) (ps : List (Nat × Nat)) : Bool := ps.any fun p => s.physPoison p.1 p.2

/-- Bytes written to translated pieces. -/
def State.writePieces (s : State) : List (Nat × Nat) → List Byte → State
  | [], _ => s
  | (pa, n) :: r, bs => (s.writePhys pa (bs.take n)).writePieces r (bs.drop n)

/-- Whether a home cannot perform a write to one of the pieces (R364). -/
def State.failPieces (s : State) (ps : List (Nat × Nat)) : Bool := ps.any fun p => s.storeFails p.1

/-- The poison of bytes at a physical address set or cleared: a vault line of 64 B, or the granules of a window
(R363). -/
def State.markPoison (s : State) (pa n : Nat) (bad : Bool) : State :=
  match homeOf pa with
  | .window g off =>
    let w := s.work g
    let gs := (List.range (n / 32 + 2)).map (fun i => off / 32 + i) |>.filter fun p => decide (p * 32 < off + n)
    s.setWork g { w with poison := if bad then (w.poison ++ gs).eraseDups else w.poison }
  | _ =>
    let ls := if pa / 64 = (pa + n - 1) / 64 then [pa / 64] else [pa / 64, (pa + n - 1) / 64]
    if bad then { s with poison := (s.poison ++ ls).eraseDups }
    else if n = 64 then { s with poison := s.poison.filter fun l => !ls.contains l } else s

/-- The poison of every translated piece set or cleared. -/
def State.markPieces (s : State) (ps : List (Nat × Nat)) (bad : Bool) : State :=
  ps.foldl (fun t p => t.markPoison p.1 p.2 bad) s

/-- The tokens that a piece of up to 64 B costs: one to read it, one for each 32 B to write it (R352). -/
def pieceCost (write : Bool) (p : Nat × Nat) : Nat := if write && decide (p.1 / 32 ≠ (p.1 + p.2 - 1) / 32) then 2 else 1

/-- Pieces of an access of partition t charged at their agents, and counted (R352, R354). -/
def State.chargePieces (s : State) (t : Nat) (write : Bool) (ps : List (Nat × Nat)) : State :=
  ps.foldl (fun u p => (List.replicate (pieceCost write p) 1).foldl (fun v c => v.served p.1 t c) u) s

/-- Bytes read at a virtual address of core g, charged at their homes (R227, R352). -/
def State.readVirt (s : State) (g : Nat) (sup : Bool) (va : Word) (n : Nat) : State × Except (XFail × Word) (List Byte) :=
  let t := s.mapVirt g sup .read va n
  match t.2 with
  | .ok ps => (t.1.chargePieces (s.tag g) false ps, .ok (t.1.readPieces ps))
  | .error f => (t.1, .error f)

/-- Bytes written at a virtual address of core g, charged at their homes (R227, R352). -/
def State.writeVirt (s : State) (g : Nat) (sup : Bool) (va : Word) (bs : List Byte) : Except (XFail × Word) State :=
  let t := s.mapVirt g sup .write va bs.length
  t.2.map fun ps => (t.1.writePieces ps bs).chargePieces (s.tag g) true ps

/-- A doubleword of a list of bytes. -/
def wordAt (bs : List Byte) (i : Nat) : Word := BitVec.ofNat 64 (natOfBytes ((bs.drop i).take 8))

/-- n bytes of a list as a number. -/
def numAt (bs : List Byte) (i n : Nat) : Nat := natOfBytes ((bs.drop i).take n)

end Sys2Proof.Machine
end

