-- ==== Sys2Proof/Machine/Lp.lean ====
section
/-! DEFINITION. Logical processes: binding (R315, R316, R318, R335), checkpoints and coasting (R324), rollback (R323),
anti-messages (R325), unbinding (R316), and the instructions VTSET, VTGET, GVTRD, SWATER, CKPT, STRUNC, SCURSOR and
IRREV (R329, R335, R336). -/

namespace Sys2Proof.Machine

/-! ### Pending messages (R319, R326) -/

/-- The messages of core g that wait, with where each stands: spilled, in the ejection queue, in reply cells. -/
def Work.waiting (w : Work) : List (Source × Nat × Msg) :=
  (w.spill.zipIdx.map fun e => (Source.spill, e.2, e.1.2)) ++ (w.ejection.zipIdx.map fun e => (Source.ejection, e.2, e.1))
    ++ w.cells.filterMap fun e => e.2.reply.map fun m => (Source.cell, e.1, m)

/-- A waiting message taken from its place; a reply keeps its cell (R194). -/
def Work.take (w : Work) (src : Source) (k : Nat) : Work :=
  match src with
  | .spill => { w with spill := w.spill.eraseIdx k }
  | .ejection => { w with ejection := w.ejection.eraseIdx k }
  | .cell => { w with cells := match Tab.find w.cells k with
      | some c => Tab.put w.cells k { c with reply := none }
      | none => w.cells }

/-- The pending messages of an LP (R319); an anti-message is no event (R325). -/
def Work.pendingOf (w : Work) (lp : Lp) : List (Source × Nat × Msg) :=
  w.waiting.filter fun e => lp.channels.contains e.2.2.channel && !e.2.2.anti

/-- The pending message with the lowest VT; among equals the first that arrived (R319; log entry 34). -/
def earliest : List (Source × Nat × Msg) → Option (Source × Nat × Msg)
  | [] => none
  | e :: r =>
    match earliest r with
    | none => some e
    | some f =>
      if f.2.2.d2.ult e.2.2.d2 || (f.2.2.d2 == e.2.2.d2 && decide (f.2.2.stamp < e.2.2.stamp)) then some f else some e

/-! ### Checkpoints (R318, R324) -/

/-- The checkpoint regions of an LP. -/
def Lp.checkpoints (lp : Lp) : List Region := lp.regions.filter fun r => r.kind == 3

/-- The size of a snapshot slot of a region (R318). -/
def Region.slotBytes (r : Region) : Nat := 64 + (r.len + 63) / 64 * 64

/-- The address of a snapshot slot. -/
def Region.slotAddr (r : Region) (n : Nat) : Word := r.aux + BitVec.ofNat 64 (n % r.slots * r.slotBytes)

/-- The bytes of a region. -/
def State.readRegion (s : State) (g : Nat) (r : Region) : State × Except (XFail × Word) (List Byte) :=
  if r.global then s.readVirt g false (BitVec.ofNat 64 r.base) r.len
  else (s, .ok ((s.work g).spad.bytes r.base r.len))

/-- A region's bytes replaced. -/
def State.writeRegion (s : State) (g : Nat) (r : Region) (bs : List Byte) : Except (XFail × Word) State :=
  if r.global then s.writeVirt g false (BitVec.ofNat 64 r.base) bs else .ok (s.localStore g r.base bs)

/-- Every region copied into its snapshot slot n, tagged with a VT (R318, R324). -/
def State.saveRegions (s : State) (g n : Nat) (vt : Word) : List Region → Except (XFail × Word) State
  | [] => .ok s
  | r :: rs =>
    let t := s.readRegion g r
    match t.2 with
    | .error f => .error f
    | .ok bs =>
      match t.1.writeVirt g false (r.slotAddr n) (padTo 64 (wordBytes vt ++ wordBytes 1) ++ bs) with
      | .error f => .error f
      | .ok u => u.saveRegions g n vt rs

/-- Every region copied back from snapshot slot n (R324). -/
def State.loadRegions (s : State) (g n : Nat) : List Region → Except (XFail × Word) State
  | [] => .ok s
  | r :: rs =>
    let t := s.readVirt g false (r.slotAddr n + 64) r.len
    match t.2 with
    | .error f => .error f
    | .ok bs =>
      match t.1.writeRegion g r bs with
      | .error f => .error f
      | .ok u => u.loadRegions g n rs

/-- The number of the next snapshot, and whether every ring has a free slot for it (R324). -/
def Lp.nextSnap (lp : Lp) : Nat := match lp.snaps.getLast? with
  | some e => e.1 + 1
  | none => 0
def Lp.snapRoom (lp : Lp) : Bool := lp.checkpoints.all fun r => decide (lp.snaps.length < r.slots)

/-- A snapshot of the LP in a slot of core g, tagged with a VT (R324). -/
def State.snapshot (s : State) (g slot : Nat) (vt : Word) : Except (XFail × Word) State :=
  match s.lp g slot with
  | none => .ok s
  | some lp => (s.saveRegions g lp.nextSnap vt lp.checkpoints).map fun t =>
      t.setLp g slot { lp with snaps := lp.snaps ++ [(lp.nextSnap, vt)], since := 0, mark := false, ready := true }

/-- Whether an LP's next speculative event starts with a snapshot (R324). -/
def Lp.snapDue (lp : Lp) : Bool := lp.mark || (decide (0 < lp.cint) && decide (lp.cint ≤ lp.since))

/-- Whether an LP is idle: nothing runs, coasts or rolls back. -/
def Lp.idle (lp : Lp) : Bool :=
  lp.rolling.isNone && lp.coast.isEmpty && lp.events.all fun e => e.st == .processed

/-- `CHECKPOINT_SNAPSHOT`: before a speculative event starts, when one is due; the copy runs on qc1 of the core, and a
slot must be free (R324; log entry 35). -/
def execCheckpointSnapshot (g slot : Nat) (s : State) : Res :=
  .next <| match s.lp g slot with
    | none => s
    | some lp =>
      match earliest ((s.work g).pendingOf lp) with
      | none => s
      | some (_, _, m) =>
        if !s.runs g || !lp.idle || !lp.snapDue || !lp.snapRoom || !(s.gvt g lp.domain).ult m.d2
            || !(Tab.look [] (s.work g).queues 1).isEmpty then s
        else match s.snapshot g slot m.d2 with
          | .ok t => t
          | .error _ => s

/-! ### LPBIND (R315, R316, R318, R335) -/

/-- A ring of a descriptor at an offset, when it is legal: capacity a multiple of its entry size, head and tail 0,
inside banks 0 to 13 (R315). -/
def readRing (bs : List Byte) (off size least : Nat) : Option Ring :=
  let base := numAt bs off 4 % 2 ^ 19
  let cap := numAt bs (off + 4) 4
  if cap % size = 0 ∧ least ≤ cap ∧ numAt bs (off + 8) 8 = 0 ∧ base + cap ≤ 0x70000 then some ⟨base, cap, 0, 0⟩ else none

/-- A region entry of a descriptor (R318). -/
def readRegionEntry (bs : List Byte) (off : Nat) : Region where
  base := numAt bs off 8
  len := numAt bs (off + 8) 4
  kind := numAt bs (off + 12) 1
  slots := numAt bs (off + 13) 1
  global := numAt bs (off + 14) 1 % 2 == 1
  aux := wordAt bs (off + 16)

/-- Whether a region is legal (R318). -/
def Region.legal (r : Region) : Bool :=
  decide (r.kind ≤ 3)
    && (r.global || decide (r.base + r.len ≤ 0x70000))
    && (r.kind != 1 || (!r.global && r.base % 32 == 0 && r.len % 32 == 0))
    && (r.kind != 2 || (decide (r.aux.toNat + 8 ≤ 0x70000) && r.aux.toNat % 8 == 0))
    && (r.kind != 3 || (decide (2 ≤ r.slots) && decide (r.slots ≤ 16) && r.aux.toNat % 64 == 0))

/-- Whether two regions have a byte in common. -/
def Region.meets (a b : Region) : Bool :=
  a.global == b.global && decide (a.base < b.base + b.len) && decide (b.base < a.base + a.len)

/-- Whether the regions of a list are apart (R318). -/
def apart : List Region → Bool
  | [] => true
  | r :: rs => rs.all (fun q => !r.meets q) && apart rs

/-- The LP that the 256 bytes of a descriptor at an offset describe, for a channel's domain; none where they break
R315 or R318. -/
def readDescriptor (bs : List Byte) (off ch domain : Nat) : Option Lp :=
  let rs := ((List.range 4).map fun i => readRegionEntry bs (96 + 32 * i)).filter fun r => r.kind != 0
  if numAt bs 8 1 ≠ domain ∨ !rs.all Region.legal ∨ !apart rs then none
  else match readRing bs 16 48 0, readRing bs 32 64 0, readRing bs 48 32 2048, readRing bs 64 64 0 with
    | some e, some o, some i, some c => some {
        desc := off, domain := domain, stream := numAt bs 9 1 % 2 == 1, mismatch := false, cint := numAt bs 10 2,
        since := 0, channels := [ch], bound := wordAt bs 0, lvt := wordAt bs 0, play := 0, eddyR := e, outR := o, inR := i,
        commitR := c, regions := rs, events := [], eddy := [], outlog := [], commits := [], snaps := [], mark := false,
        ready := false, antis := [], unbind := [], rolling := none, coast := [], irrevs := [] }
    | _, _, _, _ => none

/-- The LP bound at a descriptor offset of core g, with its slot. -/
def State.lpAt (s : State) (g off : Nat) : Option (Nat × Lp) := (s.work g).lps.find? fun e => e.2.desc == off

/-- A pending message annihilated: its slot in the queue is free and its reservation is released (R325; log entry
39). -/
def State.annihilate (s : State) (g : Nat) (e : Source × Nat × Msg) : State :=
  let s1 := s.setWork g ((s.work g).take e.1 e.2.1)
  let s2 := match e.1 with
    | .cell => s1.setWork g { s1.work g with cells := Tab.drop (s1.work g).cells e.2.1 }
    | _ => s1
  s2.releaseFor g e.2.2

/-- The first anti-message that waits on a channel of core g meets the LP in a slot, which has just been bound to it: it vanishes
with a pending message that it matches, or waits among them (R325). -/
def State.meetAnti (s : State) (g slot ch : Nat) : State :=
  match (s.work g).waiting.find? fun e => e.2.2.channel == ch && e.2.2.anti, s.lp g slot with
  | some a, some lp =>
    let s1 := s.setWork g ((s.work g).take a.1 a.2.1)
    match ((s1.work g).pendingOf lp).find? fun e => a.2.2.matchesAnti e.2.2 with
    | some e => s1.annihilate g e
    | none => s1.setLp g slot { lp with antis := lp.antis ++ [a.2.2] }
  | _, _ => s

/-- The same for every anti-message that waits on the channel. -/
def State.meetAntis (s : State) (g slot ch : Nat) : State :=
  ((s.work g).waiting.filter fun e => e.2.2.channel == ch && e.2.2.anti).foldl (fun t _ => t.meetAnti g slot ch) s

/-- A new LP bound in the lowest free slot, with its first checkpoint (R316, R324). -/
def State.bindNew (s : State) (off ch domain : Nat) : State :=
  let g := s.cur.1
  match readDescriptor ((s.work g).spad.bytes off 256) off ch domain, firstBelow (fun n => (s.lp g n).isNone) Config.lpSlots with
  | some lp, some slot =>
    match (s.setLp g slot lp).snapshot g slot lp.lvt with
    | .ok t => (match t.lp g slot with
      | some q => (t.setLp g slot { q with ready := false }).meetAntis g slot ch
      | none => t).retire 2
    | .error (f, va) => if s.parks g s.me.sup f then s.parkHere va .write f else s.trap 0x07 va
  | _, _ => s.illegal

/-- LPBIND of channel ch to the descriptor at address x, which earlier stores of the context through a window reach first (R240, R316,
R335). -/
def State.bind (s : State) (x : Word) (ch : Nat) : State :=
  let g := s.cur.1
  let h := s.handler g ch
  match s.localAccess g s.me.sup x 1 false with
  | .error cause => s.trap cause x
  | .ok (_, off) =>
    if x.getLsbD 23 || off % 64 != 0 || decide (0x70000 < off + 256) || !h.valid || !h.optimistic then s.illegal
    else if s.clashes g s.cur.2 [(g, off, 256)] then s.hold (.blocked .drain)
    else match s.lpAt g off, s.lpOf g ch with
      | some (slot, lp), none =>
        if lp.domain = field h.ctl 16 8 then
          ((s.setLp g slot { lp with channels := lp.channels ++ [ch] }).meetAntis g slot ch).retire 2
        else s.illegal
      | some (slot, lp), some (slot', _) =>
        if slot = slot' then (s.setLp g slot { lp with unbind := lp.unbind.filter fun c => c != ch }).retire 2 else s.illegal
      | none, some _ => s.illegal
      | none, none => s.bindNew off ch (field h.ctl 16 8)

/-- `LPBIND`: waits for the context's earlier V-slot instructions; all ones waits, blocked, until the channel is unbound,
once the LP's work is done (R316, R335; log entry 58). -/
def execLpbind (a : XReg) (c : BitVec 6) (s : State) : Res :=
  let x := s.x a
  .next <| s.whenSafe <|
    if c.toNat < 8 then s.illegal
    else if !s.me.vectorsDone then s.hold (.blocked .quiet)
    else if x = BitVec.allOnes 64 then
      match s.lpOf s.cur.1 c.toNat with
      | none => s.illegal
      | some (slot, lp) => (s.setLp s.cur.1 slot { lp with unbind := (lp.unbind ++ [c.toNat]).eraseDups }).hold (.blocked (.unbind c))
    else s.bind x c.toNat

/-- Whether an LP has nothing left to do: no pending message, every event safe, every commit entry performed (R316;
log entry 36). -/
def State.lpDone (s : State) (g : Nat) (lp : Lp) : Bool :=
  ((s.work g).pendingOf lp).isEmpty && lp.antis.isEmpty && lp.events.all (fun e => e.safe) && lp.commits.isEmpty
    && lp.rolling.isNone && lp.coast.isEmpty

/-- `LP_UNBIND`: the channels that are to be unbound are, once the LP's work is done; with the last channel its slot is
freed, and banks that were kept for it alone power down (R316; log entry 37). -/
def execLpUnbind (g slot : Nat) (s : State) : Res :=
  .next <| match s.lp g slot with
    | none => s
    | some lp =>
      if lp.unbind.isEmpty || !s.lpDone g lp then s
      else
        let chs := lp.channels.filter fun c => !lp.unbind.contains c
        if chs.isEmpty then
          let w := s.work g
          let w1 := { w with lps := Tab.drop w.lps slot }
          let gone := w1.orphans &&& ~~~w1.lpBanks
          s.setWork g { w1 with
            power := w1.power &&& ~~~gone, orphans := w1.orphans &&& ~~~gone, spad := clearBanks w1.spad gone,
            poison := clearPoison w1.poison gone }
        else s.setLp g slot { lp with channels := chs, unbind := [] }

/-! ### Rollback (R323 to R325) -/

/-- Context c of core g freed without an answer to its message: its frame, its parked access and its banks are
dropped (R323, R331). -/
def State.abort (s : State) (g c : Nat) : State :=
  let s1 := match (s.ctx g c).cur with
    | some u => (s.dropMsg g { u with answered := true }).setCtx g c { s.ctx g c with cur := none }
    | none => s
  (s1.dropBanks g c).vacate g c

/-- The contexts of events freed. -/
def State.abortAll (s : State) (g slot : Nat) (es : List LpEvent) : State :=
  es.foldl (fun t e => if (t.ctx g e.ctx).event == some (slot, e.id) then t.abort g e.ctx else t) s

/-- Whether a piece of work belongs to one of some events of an LP. -/
def ownedBy (slot : Nat) (ids : List Nat) (o : Option (Nat × Nat)) : Bool :=
  match o with
  | some (n, id) => n == slot && ids.contains id
  | none => false

/-- Whether requests or active commands of events are still under way (R323). -/
def State.eventsBusy (s : State) (g slot : Nat) (ids : List Nat) : Bool :=
  let mine := fun (r : MemReq) => r.g == g && ownedBy slot ids r.event
  let inItem := fun (i : SendItem) => match i with
    | .mem rs => rs.any mine
    | _ => false
  s.net.reqs.any (fun e => mine e.2) || (s.work g).requests.any (fun e => inItem e.item)
    || s.net.retries.any (fun e => inItem e.2.2)
    || (s.work g).queues.any fun q => q.2.any fun m => ownedBy slot ids m.event && m.st.isActive

/-- The granules of events put back, newest first (R323). -/
def State.undoEddy (s : State) (g : Nat) (ids : List Nat) (es : List EddyEntry) : State :=
  (es.reverse.filter fun e => ids.contains e.event).foldl (fun t e => t.localStore g e.addr e.old) s

/-- The anti-message of a logged message (R325). -/
def Msg.antiOf (m : Msg) : Msg :=
  { m with d0 := (m.d0 &&& ~~~(BitVec.ofNat 64 (2 ^ 54))) ||| BitVec.ofNat 64 (2 ^ 52), d3 := 0, payload := m.payload.take 32, bad := [] }

/-- The newest snapshot whose VT is at or below s; the oldest where there is none (R324; log entry 38). -/
def Lp.snapFor (lp : Lp) (from_ : Word) : Option (Nat × Word) :=
  match (lp.snaps.filter fun e => !from_.ult e.2).getLast? with
  | some e => some e
  | none => lp.snaps.head?

/-- A ring with the newest n bytes taken back. -/
def Ring.back (r : Ring) (n : Nat) : Ring := { r with head := r.head - n }

/-- The sum of a list. -/
def sumOf (ns : List Nat) : Nat := ns.foldl (· + ·) 0

/-- An LP without the events of U: its logs and rings cut back, its snapshots beyond the restored one dropped, the
events to coast, one that was coasting among them, and lvt (R323, R324). -/
def Lp.cutBack (lp : Lp) (from_ : Word) (snap : Option (Nat × Word)) : Lp :=
  let us := lp.undone from_
  let ids := us.map fun e => e.id
  let keep := (lp.events.filter fun e => !ids.contains e.id).map fun e => if e.st = .coasting then { e with st := .processed } else e
  let gone := fun (n : Nat) => ids.contains n
  let again := match snap with
    | some (_, v) => (keep.filter fun e => e.st != .running && !e.vt.ult v).map fun e => e.id
    | none => []
  { lp with
    events := keep
    eddy := lp.eddy.filter fun e => !gone e.event
    eddyR := lp.eddyR.back (48 * (lp.eddy.filter fun e => gone e.event).length)
    outlog := lp.outlog.filter fun e => !gone e.event
    outR := lp.outR.back (64 * (lp.outlog.filter fun e => gone e.event).length)
    commits := lp.commits.filter fun e => !gone e.event
    commitR := lp.commitR.back (sumOf ((lp.commits.filter fun e => gone e.event).map fun e => e.bytes))
    inR := lp.inR.back (sumOf (us.map fun e => e.input))
    snaps := lp.snaps.filter fun e => match snap with
      | some (n, _) => decide (e.1 ≤ n)
      | none => true
    ready := false
    rolling := none
    coast := again
    lvt := match keep.find? (fun e => e.st == .running) with
      | some e => e.vt
      | none => match keep.getLast? with
        | some e => e.vt
        | none => lp.bound }

/-- The events that a rollback stops: those of U, and one that coasts, which starts again from the restored checkpoint (R323, R324). -/
def Lp.stopped (lp : Lp) (from_ : Word) : List LpEvent :=
  lp.undone from_ ++ lp.events.filter fun e => e.st == .coasting && !((lp.undone from_).contains e)

/-- Rollback of the LP in a slot of core g to VT s (R323): the state, and whether it is done; it waits for active
commands and requests of the events that it stops, and for the copy back of a checkpoint. -/
def State.rollback (s : State) (g slot : Nat) (from_ : Word) : State × Bool :=
  match s.lp g slot with
  | none => (s, true)
  | some lp =>
    let us := lp.undone from_
    let ids := us.map fun e => e.id
    let wait := fun (t : State) => match t.lp g slot with
      | some q => (t.setLp g slot { q with rolling := some from_ }, false)
      | none => (t, false)
    if us.isEmpty then (s.setLp g slot { lp with rolling := none }, true)
    else
      let s1 := s.abortAll g slot (lp.stopped from_)
      if s1.eventsBusy g slot ((lp.stopped from_).map fun e => e.id) then wait s1
      else
        let w := s1.work g
        let s2 := s1.setWork g { w with queues := Tab.each (fun _ q => q.filter fun m => !ownedBy slot ids m.event) w.queues }
        let s3 := s2.undoEddy g ids lp.eddy
        let snap := if lp.checkpoints.isEmpty then none else lp.snapFor from_
        match (match snap with
          | some (n, _) => s3.loadRegions g n lp.checkpoints
          | none => .ok s3) with
        | .error _ => wait s1
        | .ok s4 =>
          let s5 := s4.setLp g slot (lp.cutBack from_ snap)
          let antis := (lp.outlog.filter fun o => ids.contains o.event).map fun o => SendEntry.mk (.msg o.msg.antiOf) 31 []
          let w5 := s5.work g
          (us.foldl (fun t e => t.spillMsg g e.msg) ((s5.setWork g { w5 with flits := w5.flits ++ antis }).fillFlits g false), true)

/-- Whether a publication of domain d that is under way for partition t reaches a virtual time: what it passes is not rolled back any
more, so a rollback to that time waits (R322, R327; log entry 92). -/
def State.publishes (s : State) (t d : Nat) (vt : Word) : Bool :=
  match ((s.part t).domain d).next with
  | some v => !v.ult vt
  | none => false

/-- `STRAGGLER_ROLLBACK`: message k, a straggler for an LP of core g, rolls it back before it joins (R323). -/
def execStragglerRollback (g k : Nat) (s : State) : Res :=
  .next <| match s.flying k with
    | none => s
    | some m =>
      match s.lpOf m.dst m.channel with
      | none => s
      | some (slot, lp) =>
        if m.dst = g ∧ s.firstOfWay k m ∧ s.takes g m.tag ∧ s.itsArrival k m ∧ m.tag = s.tag g ∧ !m.anti ∧ s.isStraggler g lp m
            ∧ !s.publishes m.tag lp.domain m.d2 then
          (s.rollback g slot m.d2).1
        else s

/-- Places of waiting messages and numbers of events that match an anti-message (R325). -/
def Work.antiMatches (w : Work) (lp : Lp) (a : Msg) : List (Source × Nat × Msg) × List LpEvent :=
  ((w.pendingOf lp).filter fun e => a.matchesAnti e.2.2, lp.events.filter fun e => !e.safe && a.matchesAnti e.msg)

/-- An anti-message at its LP: match number n among those there are (R325). -/
def State.takeAnti (s : State) (g slot : Nat) (lp : Lp) (k n : Nat) (a : Msg) : State :=
  let ms := (s.work g).antiMatches lp a
  let total := ms.1.length + ms.2.length
  if total = 0 then (s.landed k).setLp g slot { lp with antis := lp.antis ++ [a] }
  else match ms.1[n % total]? with
    | some e => (s.landed k).annihilate g e
    | none =>
      match ms.2[n % total - ms.1.length]? with
      | none => s
      | some ev =>
        let r := if s.publishes (s.tag g) lp.domain ev.vt then (s, false) else s.rollback g slot ev.vt
        if !r.2 then r.1
        else match (r.1.work g).waiting.find? fun e => e.2.2 == ev.msg with
          | some e => (r.1.landed k).annihilate g e
          | none => r.1.landed k

/-- `ANTI_MESSAGE_ARRIVAL`: an anti-message k meets its match number m at its LP, or waits; a message k that a waiting
anti-message matches vanishes with it (R325). -/
def execAntiMessageArrival (g k m : Nat) (s : State) : Res :=
  .next <| match s.flying k with
    | none => s
    | some a =>
      match s.lpOf a.dst a.channel with
      | none => s
      | some (slot, lp) =>
        if a.dst ≠ g ∨ !s.firstOfWay k a ∨ !s.takes g a.tag ∨ !s.itsArrival k a ∨ a.tag ≠ s.tag g then s
        else if a.anti then s.takeAnti g slot lp k m a
        else match lp.antis.find? fun x => x.matchesAnti a with
          | none => s
          | some x => ((s.landed k).setLp g slot { lp with antis := lp.antis.erase x }).releaseFor g a

/-! ### VTSET, VTGET, GVTRD, SWATER, CKPT, STRUNC, SCURSOR (R335, R336) -/

/-- Whether the executing context runs an event that has not become safe, or coasts. -/
def State.isAhead (s : State) : Bool := (s.ahead s.cur.1 s.cur.2).isSome

/-- `VTSET`: illegal in a speculative event (R320, R335). -/
def execVtset (a : XReg) (s : State) : Res :=
  .next (if s.isAhead then s.illegal else (s.setMe { s.me with vt := s.x a }).retire 2)

/-- `VTGET` (R335). -/
def execVtget (d : XReg) (s : State) : Res := .next (writeX s 2 d s.me.vt)

/-- `GVTRD` (R328, R335). -/
def execGvtrd (d : XReg) (t : BitVec 8) (s : State) : Res := .next (writeX s 2 d (s.gvt s.cur.1 t.toNat))

/-- A time domain of a partition changed. -/
def State.mapDomain (s : State) (t d : Nat) (f : Domain → Domain) : State :=
  let p := s.part t
  s.setPart t { p with domains := Tab.put p.domains d (f (p.domain d)) }

/-- `SWATER`: a publication that is under way and goes beyond the new watermark is completed first, so that every later one respects it
(R335; log entry 92); it waits for a speculative event to be safe (R320). -/
def execSwater (a : XReg) (t : BitVec 8) (s : State) : Res :=
  .next <| s.whenSafe <|
    if s.publishes (s.tag s.cur.1) t.toNat (s.x a + 1) && s.x a != BitVec.allOnes 64 then s.hold (.blocked .commit)
    else (s.mapDomain (s.tag s.cur.1) t.toNat fun d => { d with water := s.x a }).retire 2

/-- The LP whose descriptor is at an address, bound on the executing core, for an instruction that no event of it issues where it is a
stream (R336). -/
def State.otherLp (s : State) (x : Word) : Option (Nat × Lp) :=
  match s.lpAt s.cur.1 x.toNat with
  | none => none
  | some (slot, lp) => match s.me.event with
    | some (n, _) => if n = slot ∧ lp.stream then none else some (slot, lp)
    | none => some (slot, lp)

/-- `CKPT` (R336). -/
def execCkpt (a : XReg) (s : State) : Res :=
  .next <| match s.otherLp (s.x a) with
    | none => s.illegal
    | some (slot, lp) => (s.setLp s.cur.1 slot { lp with mark := true }).retire 2

/-- Whether a rollback of the LP in a slot of core g is over: nothing coasts, and every anti-message is queued (R324, R336). -/
def State.rolledBack (s : State) (g slot : Nat) : Bool :=
  !(s.work g).flitsWait false && (match s.lp g slot with
    | some lp => lp.coast.isEmpty && lp.events.all fun e => e.st != .coasting
    | none => true)

/-- `STRUNC`: below the playback cursor or GVT, cause 0x0F; else the stream rolls back to t, and the instruction
retires when that is done (R323, R336). -/
def execStrunc (a b : XReg) (s : State) : Res :=
  let g := s.cur.1
  let t := s.x b
  .next <| s.whenSafe <| match s.otherLp (s.x a) with
    | none => s.illegal
    | some (slot, lp) =>
      if !lp.stream then s.illegal
      else if s.me.rolled then
        (if s.rolledBack g slot then (s.setMe { s.me with rolled := false }).retire 2 else s.hold (.blocked .commit))
      else if !lp.play.ult t || t.ult (s.gvt g lp.domain) then s.trap 0x0F
      else if s.publishes (s.tag g) lp.domain t then s.hold (.blocked .commit)
      else
        let r := s.rollback g slot t
        if !r.2 then r.1.hold (.blocked .commit)
        else if r.1.rolledBack g slot then r.1.retire 2
        else (r.1.setMe { r.1.me with rolled := true }).hold (.blocked .commit)

/-- `SCURSOR`: lvt or play of a bound stream (R332, R336). -/
def execScursor (d a : XReg) (p : BitVec 1) (s : State) : Res :=
  .next <| match s.lpAt s.cur.1 (s.x a).toNat with
    | none => s.illegal
    | some (_, lp) => if lp.stream then writeX s 2 d (if p = 1 then lp.play else lp.lvt) else s.illegal

/-! ### IRREV (R329, R330) -/

/-- What an IRREV record asks for. -/
inductive Irrev where
  | message (m : Msg) (rel : Bool)
  | store (va : Word) (data : List Byte)

/-- An IRREV record checked: the action, or the cause (R329; log entry 40). -/
def State.readIrrev (s : State) (g c : Nat) (sup : Bool) (bs : List Byte) : Except Nat Irrev :=
  let kind := wordAt bs 0
  let ctl := wordAt bs 16
  let len := field ctl 16 16
  let ch := field ctl 0 8
  if kind = 1 then
    if field ctl 10 6 ≠ 0 ∨ field ctl 32 32 ≠ 0 ∨ 32 < len ∨ 64 ≤ ch ∨ ch = 4 ∨ ch = 6 then .error 0x04
    else match s.checkDest g (wordAt bs 8) with
      | none => .error 0x04
      | some dst =>
        if channelPrivileged (BitVec.ofNat 6 ch) && !sup then .error 0x04
        else .ok (.message (s.message g c dst (wordAt bs 8) ch ((bs.drop 32).take len) [] (ctl.getLsbD 8) (ctl.getLsbD 9)
            (wordAt bs 24)) (ctl.getLsbD 8))
  else if kind = 2 then
    if field ctl 0 16 ≠ 0 ∨ field ctl 32 32 ≠ 0 ∨ wordAt bs 24 ≠ 0 ∨ !([1, 2, 4, 8, 16, 32].contains len) then .error 0x04
    else .ok (.store (wordAt bs 8) ((bs.drop 32).take len))
  else .error 0x04

/-- The playback cursor of the stream whose event a context runs raised to the event's VT (R330). -/
def State.raisePlay (s : State) (g slot : Nat) (vt : Word) : State :=
  match s.lp g slot with
  | some lp => if lp.stream && lp.play.ult vt then s.setLp g slot { lp with play := vt } else s
  | none => s

/-- The same for a safe event of the executing context. -/
def State.playNow (s : State) : State :=
  match s.eventOf s.cur.1 s.cur.2 with
  | some (slot, _, e) => s.raisePlay s.cur.1 slot e.vt
  | none => s

/-- An action of IRREV performed at once (R329). It waits for a cell or a queue entry. -/
def State.irrevNow (s : State) : Irrev → State
  | .message m rel =>
    if m.replyChannel ≠ 0 ∧ (s.work s.cur.1).freeCell = none then s.hold (.blocked .cell)
    else match s.queueMsg s.cur.1 s.cur.2 m (if rel then s.me.pending else []) with
      | some t => t.playNow.retire 2
      | none => s.hold (.blocked .sendQueue)
  | .store va bs =>
    let r := s.globalAccess s.cur.1 s.cur.2 va .write bs.length false false
    match r.2 with
    | .error e => r.1.stop e
    | .ok pa => if s.requestRoom s.cur.1 then ((r.1.sendStores [(pa, bs)]).playNow).retire 2 else s.hold (.blocked .sendQueue)

/-- `IRREV` (R329): held in a speculative event, dropped while one coasts, performed at once elsewhere (R320, R324). -/
def execIrrev (a : XReg) (s : State) : Res :=
  let g := s.cur.1
  let c := s.cur.2
  let x := s.x a
  .next <|
    let hit := s.watchHit g c x.toNat 64 2
    if x.getLsbD 23 then s.accessTrap (unaligned x 32 ++ [0x07]) hit x
    else match s.localAccess g s.me.sup x 32 false, s.localAccess g s.me.sup (x + 32) 32 false, hit with
      | .error _, _, _ => s.accessTrap (s.localCauses g s.me.sup x 32 false) hit x
      | .ok _, .error cause, _ => s.accessTrap [cause] hit (x + 32)
      | .ok _, .ok _, some i => s.watchTrap 0x08 i x
      | .ok (h, off), .ok _, none =>
          if s.clashes g c [(h, off, 64)] then s.hold (.blocked .drain)
          else if (s.work h).poisonedAt off 64 then s.terminate g c 1 x
          else
            let bs := overlay ((s.work h).spad.bytes off 64) (s.covered g c true x.toNat 64)
            match s.readIrrev g c s.me.sup bs with
            | .error cause => s.trap cause
            | .ok act =>
              match s.ahead g c with
              | none => s.irrevNow act
              | some (slot, lp, e) =>
                if e.st = .coasting then s.retire 2
                else if lp.commitR.room (heldBytes 64) then (s.holdItem g slot e (.irrev bs)).retire 2
                else s.hold (.blocked .commit)

end Sys2Proof.Machine
end

