-- ==== Sys2Proof/Machine/Grid.lean ====
section
/-! DEFINITION. Grids and crews (R68 to R76, R100), the launch journal (R362), FORK, JOIN and stealing (R86 to R90),
the crew barrier (R91), HALT (R92, R93), and migration (R97, R98). -/

namespace Sys2Proof.Machine

/-! ### Messages of the dispatcher (R72, R75) -/

/-- A message with its release bit set (R187). -/
def Msg.released (m : Msg) : Msg := { m with d0 := m.d0 ||| BitVec.ofNat 64 (2 ^ 48) }

/-- The completion message of a launch, when its target exists (R72, R75). -/
def State.complete (s : State) (t : Nat) (l : Launch) (status : Nat) : State :=
  match s.dispatchCore t, s.reach t (field l.target 12 6) (field l.target 0 12) with
  | some g, some dst => s.inject (s.deviceMsg g 31 dst (field l.target 18 6) [l.cookie, BitVec.ofNat 64 status]).released
  | _, _ => s

/-- A rejected launch reported to channel 0 of the dispatch core (R72). -/
def State.rejectLaunch (s : State) (t : Nat) (addr cookie : Word) (reason : Nat) : State :=
  match s.dispatchCore t with
  | some g => s.report g 31 g 0 [3, addr, cookie, BitVec.ofNat 64 reason]
  | none => s

/-! ### The launch journal (R362) -/

/-- The core whose translation the dispatcher of a partition uses. -/
def State.dispatcher (s : State) (t : Nat) : Nat := (s.dispatchCore t).getD 0

/-- The place of the next journal entry: an index of 0 acts as 1 (R362). -/
def journalPlace (w : Word) : Nat := if w.toNat % 512 = 0 then 1 else w.toNat % 512

/-- An entry appended to the launch journal of partition t (R362). -/
def State.journal (s : State) (t : Nat) (entry : Word) : State :=
  let g := s.dispatcher t
  let base := (s.part t).journal &&& ~~~0xFFF
  let r := s.readVirt g true base 8
  match r.2 with
  | .error _ => r.1
  | .ok bs =>
    let k := journalPlace (wordAt bs 0)
    match r.1.writeVirt g true (base + BitVec.ofNat 64 (8 * k)) (wordBytes entry) with
    | .error _ => r.1
    | .ok s1 => match s1.writeVirt g true base (bytesOfNat 8 (if k = 511 then 1 else k + 1)) with
      | .error _ => s1
      | .ok s2 => s2.setPart t { s2.part t with jcount := (s2.part t).jcount + 1 }

/-- Whether the launch journal of partition t is on. -/
def State.journals (s : State) (t : Nat) : Bool := (s.part t).journal.getLsbD 0

/-- Fence marks with nothing left before them are completed (R362). -/
def Partition.passFences (p : Partition) : Partition :=
  let done := p.fences.filter fun f => f.grids.isEmpty
  { p with
    fences := p.fences.filter fun f => !f.grids.isEmpty, jfence := p.jfence + done.length,
    lastFence := done.foldl (fun n f => max n f.index) p.lastFence }

/-- The completion message of launch number j has been sent (R362). -/
def Partition.sent (p : Partition) (j : Nat) : Partition :=
  ({ p with fences := p.fences.map fun f => { f with grids := f.grids.filter fun n => n != j } } : Partition).passFences

/-- `JFENCE_MARK`: a write to JFENCE appends an entry with bit 63 set (R362). -/
def execJfenceMark (t : Nat) (s : State) : Res :=
  let p := s.part t
  .next <|
    if p.markDue = 0 then s
    else
      let s1 := s.setPart t { p with deltas := Tab.put p.deltas 0 (p.markDue - 1) }
      if !s1.journals t then s1
      else
        let s2 := s1.journal t (BitVec.ofNat 64 (2 ^ 63))
        let q := s2.part t
        let open_ := (q.waiting.toList.map fun l => l.jid) ++ q.runs.map fun r => r.launch.jid
        s2.setPart t ({ q with fences := q.fences ++ [⟨q.jcount, open_.filter fun j => j != 0⟩] } : Partition).passFences

/-! ### Launches (R71 to R73, R100) -/

/-- A launch record of 128 bytes (R71). -/
def readLaunch (addr : Word) (bs : List Byte) : Launch where
  addr := addr
  entry := wordAt bs 0
  n := numAt bs 8 8
  s := numAt bs 16 1
  domain := BitVec.ofNat 2 (numAt bs 17 1)
  banks := numAt bs 18 1
  target := wordAt bs 24
  cookie := wordAt bs 32
  mbox := Vector.ofFn fun i : Fin 8 => wordAt bs (48 + 8 * i.val)
  jid := 0

/-- Whether a completion target is legal and names a core that the partition holds (R71, R72). -/
def State.targetOk (s : State) (t : Nat) (w : Word) : Bool :=
  field w 24 40 == 0 && decide (8 ≤ field w 18 6) && (s.reach t (field w 12 6) (field w 0 12)).isSome

/-- Whether the rest of a record keeps R71. -/
def launchLegal (l : Launch) (domain : Nat) : Bool :=
  entryAligned l.entry && decide (l.n < 2 ^ 47) && decide (1 ≤ l.s) && decide (l.s ≤ 16) && decide (domain ≤ 3)
    && decide (l.banks ≤ 14)

/-- W: the largest power of two that is no greater than the number of clusters that hold cores of the partition,
capped at 64 (R73). -/
def State.gridWidth (s : State) (t : Nat) : Nat :=
  2 ^ Nat.log2 (min 64 ((s.partCores t).map fun g => g / 16).eraseDups.length)

/-- The grid descriptor sent to every core of the partition (R72). -/
def State.broadcast (s : State) (gr : Grid) : List Nat → State
  | [] => s
  | g :: r => ((s.withNet fun n => { n with descs := Tab.put n.descs s.nextId (g, gr) }).fresh).broadcast gr r

/-- Steps 5 and 6 of R72: both counters, the done counter armed, and the descriptors; none where a CNEW fails. -/
def State.startGrid (s : State) (t : Nat) (l : Launch) : Option State :=
  let g := s.dispatcher t
  match s.newCounter t g 2 (s.gridWidth t) with
  | none => none
  | some (kg, s1) =>
    match s1.newCounter t g 2 1 with
    | none => none
    | some (kd, s2) =>
      let s3 := match s2.counter t kd with
        | some k => s2.setCounter t kd ((k.arm l.n false).getD k)
        | none => s2
      let s4 := s3.setPart t { s3.part t with runs := (s3.part t).runs ++ [⟨l, kg, kd⟩] }
      some (s4.broadcast ⟨l, kg, kd, false⟩ (s4.partCores t))

/-- An accepted launch journaled (R362). -/
def State.accept (s : State) (t : Nat) (l : Launch) : State × Launch :=
  if s.journals t then
    let s1 := s.journal t (l.addr &&& 0x1FFFFFFFFFFFF80)
    (s1, { l with jid := (s1.part t).jcount })
  else (s, l)

/-- A launch message with the address of a record (R72). -/
def State.launch (s : State) (t : Nat) (addr : Word) : State :=
  let g := s.dispatcher t
  if addr.toNat % 128 ≠ 0 then s.rejectLaunch t addr 0 2
  else
    let r := s.readVirt g false addr 128
    match r.2 with
    | .error _ => r.1.rejectLaunch t addr 0 1
    | .ok bs =>
      let l := readLaunch addr bs
      if !r.1.targetOk t l.target then r.1.rejectLaunch t addr l.cookie 0
      else if !launchLegal l (numAt bs 17 1) then r.1.complete t l 1
      else
        let a := r.1.accept t l
        if l.n = 0 then (a.1.complete t a.2 0).setPart t (((a.1.complete t a.2 0).part t).sent a.2.jid)
        else match a.1.startGrid t a.2 with
          | some u => u
          | none => a.1.setPart t { a.1.part t with waiting := some a.2 }

/-- The k-th message of a core's ejection queue. -/
def Work.ejected (w : Work) (k : Nat) : Option Msg := w.ejection[k]?

/-- A message taken from the ejection queue of core g by hardware that never answers it: its reservation is
released (R194). -/
def State.consume (s : State) (g k : Nat) (m : Msg) : State :=
  (s.setWork g ((s.work g).take .ejection k)).releaseFor g m

/-- The payload of a message that hardware of core g consumes, in the lowest free arrival slot, which it holds only meanwhile; none
while no slot is free (R145). -/
def State.bank14 (s : State) (g : Nat) (m : Msg) : Option State := (s.work g).freeSlot.map fun n => s.fillSlot g n m

/-- `LAUNCH_FORWARD`: a message on channel 1 of a core other than the dispatch core goes on to the dispatch core
(R72, R145). -/
def execLaunchForward (g k : Nat) (s : State) : Res :=
  .next <| match (s.work g).ejected k, s.dispatchCore (s.tag g) with
    | some m, some d =>
      if m.channel ≠ 1 ∨ d = g ∨ !s.serves g then s
      else match s.bank14 g m with
        | some s1 => (s1.setWork g ((s1.work g).take .ejection k)).inject { m with d0 := m.d0 &&& ~~~0x3FFFF, dst := d }
        | none => s
    | _, _ => s

/-- `LAUNCH_MESSAGE`: the dispatcher serves the oldest launch message at its core, unless a launch waits for counters
(R72, R145). -/
def execLaunchMessage (t k : Nat) (s : State) : Res :=
  .next <| match s.dispatchCore t with
    | none => s
    | some g =>
      match (s.work g).ejected k with
      | none => s
      | some m =>
        if m.channel ≠ 1 ∨ ((s.work g).ejection.take k).any (fun q => q.channel == 1) ∨ (s.part t).waiting.isSome
            ∨ !s.serves g then s
        else match s.bank14 g m with
          | some s1 => (s1.consume g k m).launch t (m.word 0)
          | none => s

/-- `DISPATCH_RETRY`: the launch that waits for counters repeats step 5 (R72). -/
def execDispatchRetry (t : Nat) (s : State) : Res :=
  .next <| match (s.part t).waiting with
    | none => s
    | some l =>
      match s.startGrid t l with
      | some u => u.setPart t { u.part t with waiting := none }
      | none => s

/-- `LAUNCH` (R100); it waits for a speculative event to be safe (R320). -/
def execLaunch (a : XReg) (s : State) : Res :=
  let g := s.cur.1
  let x := s.x a
  .next <| s.whenSafe <|
    if x.toNat % 128 ≠ 0 then s.trap 0x06 x
    else if !s.me.drained then s.hold (.blocked .drain)
    else match s.reach (s.tag g) 0 0 with
      | none => s.illegal
      | some d =>
        if s.requestRoom g then
          (s.enqueue g ⟨.msg (s.message g s.cur.2 d 0 1 (wordBytes x) [] false false 0), s.cur.2, []⟩).retire 2
        else s.hold (.blocked .sendQueue)

/-- The tag of the partition whose counter a key names, and of a grid's partition (R157). -/
def ownerOf (key : Nat) : Nat := key / 2 ^ 18
def Grid.owner (gr : Grid) : Nat := ownerOf gr.counter

/-- `GRID_DESCRIPTOR`: descriptor k reaches the crew dispatcher of its core, in the order of the launches (R72). -/
def execGridDescriptor (k : Nat) (s : State) : Res :=
  .next <| match Tab.find s.net.descs k with
    | none => s
    | some (g, gr) =>
      if s.net.descs.any fun e => decide (e.1 < k) && e.2.1 == g then s
      else (s.withNet fun n => { n with descs := Tab.drop n.descs k }).mapFor gr.owner g fun w => { w with grids := w.grids ++ [gr] }

/-! ### Crews (R68, R69, R74) -/

/-- The oldest grid that a core has not marked exhausted (R74). -/
def Work.nextGrid (w : Work) : Option Grid := w.grids.find? fun q => !q.exhausted

/-- Whether a core can take a crew of a grid: contexts and banks (R74). -/
def State.canAdmit (s : State) (g : Nat) (l : Launch) : Bool :=
  decide (l.s ≤ s.freeCount g) && ((s.work g).allot l.banks).isSome

/-- A strand of a crew at its start (R69, R51, R110). -/
def strandStart (id j v : Nat) (gr : Grid) (b now : Nat) : Ctx :=
  let l := gr.launch
  { (Ctx.begin (.strand id j) (entryPC l.entry) now).setXs 1
      [BitVec.ofNat 64 v, BitVec.ofNat 64 j, BitVec.ofNat 64 l.n, allotAddr b l.banks, allotSize l.banks] with
    mbox := l.mbox, domain := l.domain,
    rng := rngSeed (rngMix (((gr.id * 2 ^ 20) ^^^ (v * 16 + j)) % 2 ^ 32)) }

/-- Strands j, j + 1, … of a crew started in the lowest free contexts of core g. -/
def State.startStrands (s : State) (g id v b : Nat) (gr : Grid) : Nat → Nat → List Nat → State × List Nat
  | 0, _, cs => (s, cs)
  | n + 1, j, cs =>
    match s.freeCtx g with
    | none => (s, cs)
    | some c => (s.setCtx g c (strandStart id j v gr b (s.cycle g))).startStrands g id v b gr n (j + 1) (cs ++ [c])

/-- Crew v of a grid started on core g (R69). -/
def State.startCrew (s : State) (g v : Nat) (gr : Grid) : State :=
  match (s.work g).allot gr.launch.banks with
  | none => s
  | some (b, w) =>
    let id := s.nextId
    let r := (s.setWork g w).fresh.startStrands g id v b gr gr.launch.s 0 []
    let w1 := r.1.work g
    let k : Crew := ⟨BitVec.ofNat 64 v, gr, gr.launch.banks, r.2, [], [], b, none⟩
    r.1.setWork g { w1 with crews := Tab.put w1.crews id k }

/-- A CTAKE of a unit of core g queued: it enters its counter once it leaves the send queue (R74, R75, R161, R195). -/
def State.unitTake (s : State) (g key : Nat) (use : FabricUse) : State :=
  s.enqueue g ⟨.op ⟨g, 31, s.tag g, key, .token, 0, .wire 0, [], use, s.cycle g⟩, 31, []⟩

/-- The crew dispatcher of core g asks for the index of the next crew of a grid (R74). -/
def State.askCrew (s : State) (g : Nat) (gr : Grid) : State :=
  (s.setWork g { s.work g with claim := some (.asked gr) }).unitTake g gr.counter .crew

/-! ### The end of a crew and of a grid (R75, R92, R93) -/

/-- An allotment kept for a channel, in place of an older one (R93). -/
def Work.retain (w : Work) (ch : BitVec 6) (b n now : Nat) : Work :=
  let old := w.retained.filter fun r => r.ch == ch
  let w1 := old.foldl (fun w r => w.powerDown r.bank r.n) { w with retained := w.retained.filter fun r => r.ch != ch }
  { w1 with retained := w1.retained ++ [⟨ch, b, n, now, false⟩] }

/-- The banks of a halted context or crew: powered down, or kept for a channel (R92, R93). -/
def Work.leaveBanks (w : Work) (keep : Option (BitVec 6)) (b n now : Nat) : Work :=
  if n = 0 then w
  else match keep with
    | some ch => w.retain ch b n now
    | none => w.powerDown b n

/-- Whether a command of a crew is still queued at a core. -/
def Work.crewBusy (w : Work) (id : Nat) : Bool := w.queues.any fun q => q.2.any fun m => m.crew == some id

/-- `CREW_DONE`: the last strand of crew k of core g has halted and its commands have completed: the done token takes an entry of the
request queue, and the banks power down or are kept (R75, R92, R93, R195). -/
def execCrewDone (g k : Nat) (s : State) : Res :=
  .next <| match Tab.find (s.work g).crews k with
    | none => s
    | some q =>
      let w := s.work g
      if q.halted.length < q.ctxs.length ∨ w.crewBusy k ∨ !s.requestRoom g then s
      else (s.setWork g { w.leaveBanks q.keep q.bank q.n (s.cycle g) with crews := Tab.drop w.crews k }).unitTake g q.grid.done .done

/-- `RETAIN_TIMEOUT`: retained allotment k of core g has waited 1,048,576 cycles, in which no message of its channel has arrived; the
banks of a bound LP are kept (R93, R316). -/
def execRetainTimeout (g k : Nat) (s : State) : Res :=
  let w := s.work g
  .next <| match w.retained[k]? with
    | none => s
    | some r =>
      if s.cycle g < r.since + 2 ^ 20 ∨ r.met ∨ bankMask r.bank r.n &&& w.lpBanks ≠ 0 then s
      else s.setWork g (({ w with retained := w.retained.eraseIdx k } : Work).powerDown r.bank r.n)

/-- Every core of a partition told that a grid has ended (R75). -/
def State.tellEnd (s : State) (key : Nat) : List Nat → State
  | [] => s
  | g :: r => ((s.withNet fun n => { n with ends := Tab.put n.ends s.nextId (g, key) }).fresh).tellEnd key r

/-- `GRID_COMPLETION`: the pennant of the done counter of grid k has risen (R75). -/
def execGridCompletion (t k : Nat) (s : State) : Res :=
  .next <| match (s.part t).runs[k]? with
    | none => s
    | some r =>
      match s.counter t r.done with
      | none => s
      | some c =>
        if !c.raised 0 || !s.quiescent t r.done || !s.quiescent t r.counter then s
        else
          let s1 := ((s.freeCounter t r.counter).freeCounter t r.done).complete t r.launch 0
          let s2 := s1.setPart t (({ s1.part t with runs := (s1.part t).runs.eraseIdx k } : Partition).sent r.launch.jid)
          s2.tellEnd r.counter (s2.partCores t)

/-- `GRID_END`: notice k reaches its core, which drops the grid (R75). -/
def execGridEnd (k : Nat) (s : State) : Res :=
  .next <| match Tab.find s.net.ends k with
    | none => s
    | some (g, key) =>
      if s.net.descs.any fun e => decide (e.1 < k) && e.2.1 == g && e.2.2.counter == key then s
      else (s.withNet fun n => { n with ends := Tab.drop n.ends k }).mapFor (ownerOf key) g fun w =>
        { w with grids := w.grids.filter fun q => q.counter != key }

/-! ### FORK (R86, R87) -/

/-- The 128 bytes of a deque entry (R86). -/
def DequeEntry.bytes (e : DequeEntry) : List Byte :=
  [e.entry, e.x1, e.x2, e.x3].flatMap wordBytes
    ++ bytesOfNat 1 e.domain.toNat ++ bytesOfNat 1 e.rnd.toNat ++ bytesOfNat 1 e.en.toNat ++ [0] ++ bytesOfNat 4 e.rng.toNat
    ++ List.replicate 8 0 ++ e.mbox.toList.flatMap wordBytes ++ List.replicate 16 0

/-- The deque entry that 128 bytes hold (R86). -/
def readEntry (bs : List Byte) : DequeEntry where
  entry := wordAt bs 0
  x1 := wordAt bs 8
  x2 := wordAt bs 16
  x3 := wordAt bs 24
  domain := BitVec.ofNat 2 (numAt bs 32 1)
  rnd := BitVec.ofNat 3 (numAt bs 33 1)
  en := BitVec.ofNat 6 (numAt bs 34 1)
  rng := BitVec.ofNat 32 (numAt bs 36 4)
  mbox := Vector.ofFn fun i : Fin 8 => wordAt bs (48 + 8 * i.val)
  bad := []

/-- How many entries a core's deque holds, and whether it has room: the spill needs OXBOW.E (R86, R263). -/
def Work.dequeSize (w : Work) : Nat := w.deque.length + w.spilled
def Work.dequeRoom (w : Work) : Bool :=
  decide (w.deque.length < Config.dequeCore) || (w.oxbow.getLsbD 0 && decide (w.spilled < Config.dequeSpill))

/-- The address of the i-th oldest spilled entry of core g (R86, R263). -/
def State.spillAddr (s : State) (g i : Nat) : Nat := s.oxbowAddr g (128 * (((s.work g).spillTop + i) % Config.dequeSpill))

/-- An entry added at the bottom of the deque of core g; where the core holds 64, its oldest goes to the oxbow region (R86). -/
def State.pushDeque (s : State) (g : Nat) (e : DequeEntry) : State :=
  let w := s.work g
  match w.deque with
  | old :: r =>
    if w.deque.length < Config.dequeCore then s.setWork g { w with deque := w.deque ++ [e] }
    else
      let s1 := { s with mem := s.mem.store (s.spillAddr g w.spilled) old.bytes }
      s1.setWork g { w with deque := r ++ [e], spilled := w.spilled + 1 }
  | [] => s.setWork g { w with deque := [e] }

/-- The i-th oldest spilled entry of core g, with the pieces of it that are poisoned (R86, R363). -/
def State.spilledEntry (s : State) (g i : Nat) : DequeEntry :=
  let a := s.spillAddr g i
  { readEntry (s.mem.bytes a 128) with bad := (List.range 4).filter fun p => s.physPoison (a + 32 * p) 32 }

/-- The youngest entry of the deque of core g, taken from the bottom (R86). -/
def State.popBottom (s : State) (g : Nat) : Option (DequeEntry × State) :=
  let w := s.work g
  match w.deque.getLast? with
  | some e => some (e, s.setWork g { w with deque := w.deque.dropLast })
  | none =>
    if w.spilled = 0 then none
    else some (s.spilledEntry g (w.spilled - 1), s.setWork g { w with spilled := w.spilled - 1 })

/-- The oldest entry of the deque of core g, and the state with it taken from the top (R86). -/
def State.popTop (s : State) (g : Nat) : Option (DequeEntry × State) :=
  let w := s.work g
  if w.spilled = 0 then
    match w.deque with
    | e :: r => some (e, s.setWork g { w with deque := r })
    | [] => none
  else some (s.spilledEntry g 0,
    s.setWork g { w with spilled := w.spilled - 1, spillTop := (w.spillTop + 1) % Config.dequeSpill })

/-- A core's search for work to steal ends when it gets work of its own; the answer to a request that is still out counts for no later
round (R88). -/
def State.workFound (s : State) (g : Nat) : State :=
  let w := s.work g
  s.setWork g { w with steal := ⟨w.steal.asked, w.steal.stale || w.steal.asked.isSome, 0, 0⟩ }

/-- The stealing domain of a context's children (R87). -/
def Ctx.childDomain (k : Ctx) : BitVec 2 :=
  match k.role with
  | .strand _ _ => k.domain
  | .child => k.domain
  | _ => 0

/-- The deque entry of a FORK, and the parent after it: its generator steps once (R87, R110). -/
def Ctx.forked (k : Ctx) (entry join : Word) : DequeEntry × Ctx :=
  let g := rngStep k.rng
  (⟨entry, join, k.x[2], k.x[3], k.childDomain, k.rnd, (k.fpflags >>> 8).setWidth 6, rngSeed (g ^^^ 0xA5A5A5A5), k.mbox, []⟩,
    { k with rng := g })

/-- An AMO ADD of 4 B to a join record, without a result (R87, R89). -/
def State.joinAdd (s : State) (pa b : Nat) (track : Bool) : State :=
  let r := s.request pa (.amo 0 4 b 0) none 0
  let s1 := s.send1 r
  if track then s1.setMe { s1.me with amos := s1.me.amos ++ [r.id] } else s1

/-- The access to a join record at address x, which must be 16-aligned (R87, R89). -/
def State.joinAccess (s : State) (x : Word) (k : Access) : State × Except Stop Nat :=
  let r := s.globalAccess s.cur.1 s.cur.2 x k 4 true false
  if x.toNat % 16 = 0 then r
  else (r.1, .error (match r.2 with
    | .error (.fail cs w a) => .fail (if cs.contains 0x06 then cs else 0x06 :: cs) w a
    | _ => .fail [0x06] (s.watchHit s.cur.1 s.cur.2 x.toNat 4 k.kinds) x))

/-- `FORK` (R87); it waits for a speculative event to be safe (R320). -/
def execFork (a : XReg) (d : BitVec 16) (s : State) : Res :=
  let x := s.x a
  .next <| s.whenSafe <|
    let r := s.joinAccess x .amo
    match r.2 with
      | .error e => r.1.stop e
      | .ok pa =>
        if !s.requestRoom s.cur.1 then s.hold (.blocked .sendQueue)
        else if !(s.work s.cur.1).dequeRoom then s.hold (.blocked .deque)
        else
          let s1 := r.1.joinAdd pa 1 true
          let f := s1.me.forked (target s d) x
          (((s1.setMe f.2).pushDeque s.cur.1 f.1).workFound s.cur.1).retire 2

/-- A child started from a deque entry (R88, R110, R51). -/
def childStart (e : DequeEntry) (now : Nat) : Ctx :=
  { (Ctx.begin .child e.entry now).setXs 1 [e.x1, e.x2, e.x3] with
    domain := e.domain, rnd := e.rnd, fpflags := (e.en.setWidth 14) <<< 8, rng := e.rng, mbox := e.mbox, join := e.x1 }

/-- A child started from a deque entry in context c of core g; one whose start state came poisoned is terminated before its first
instruction (R88, R363). -/
def State.startChild (s : State) (g c : Nat) (e : DequeEntry) : State :=
  let t := s.setCtx g c (childStart e (s.cycle g))
  if e.bad.isEmpty then t else t.terminate g c 1 e.entry

/-! ### JOIN (R89, R90) -/

/-- The count of the join record at a physical address, read at its home. -/
def State.joinCount (s : State) (pa : Nat) : Nat := natOfBytes (s.homeLoad pa 4)

/-- Whether the count of the record at a physical address reads 0 for core g (R89). -/
def State.countZero (s : State) (g pa : Nat) : Bool := !s.homeAway g pa && !s.homeBusy pa && !s.homeOff pa && s.joinCount pa == 0

/-- Whether a JOIN of context k on the record at an address goes on: each look at the count is an access of its own, translated then,
so that it is never made through a translation that a TLBINV has removed; one that does not translate, or reads poison, runs the JOIN
again (R89, R260, R363). -/
def State.joined (s : State) (g : Nat) (k : Ctx) (va : Word) : Bool :=
  match (s.translate g (!k.sup) va .read).2 with
  | .ok pa => !s.physOk g k.sup pa ⟨4, true, false, false, false⟩ || s.physPoison pa 4 || s.countZero g pa
  | .error _ => true

/-- `JOIN` (R89); it waits for a speculative event to be safe (R320). -/
def execJoin (a : XReg) (s : State) : Res :=
  let x := s.x a
  .next <| s.whenSafe <|
    let r := s.joinAccess x .read
    match r.2 with
      | .error e => r.1.stop e
      | .ok pa =>
        if !s.me.drained then s.hold (.blocked .loads)
        else if s.physPoison pa 4 then s.terminate s.cur.1 s.cur.2 1 x
        else if r.1.countZero s.cur.1 pa then r.1.retire 2 else r.1.hold (.waiting (.join x))

/-- The contexts of core g that wait in JOIN (R90). -/
def State.joiners (s : State) (g : Nat) : List Nat :=
  (List.range 24).filter fun c =>
    let k := s.ctx g c
    k.role != .free && (match k.st with
      | .waiting (.join _) => true
      | _ => false)

/-- The context of a list that has waited longest. -/
def State.longest (s : State) (g : Nat) : List Nat → Option Nat
  | [] => none
  | c :: r =>
    match s.longest g r with
    | some d => if (s.ctx g d).since < (s.ctx g c).since then some d else some c
    | none => some c

/-- Context c of core g as it is written out: its trap frame, if it is live, goes with it (R90, R212, R264; log entry 95). -/
def State.packCtx (s : State) (g c : Nat) : Ctx :=
  let f := frameAddr c
  { s.ctx g c with frame := if s.frameLive g f then (s.work g).spad.bytes f 0x400 else [] }

/-- The frame of context c of core g is in the scratchpad no longer. -/
def State.liftFrame (s : State) (g c : Nat) : State :=
  if s.frameLive g (frameAddr c) then s.setWork g ((s.work g).dropFrame (frameAddr c)) else s

/-- The frame of a context that returns as context c of core g put back (R212, R264). -/
def State.layFrame (s : State) (g c : Nat) (k : Ctx) : State :=
  if k.frame.isEmpty then s
  else
    let w := s.work g
    s.setWork g { w with spad := w.spad.store (frameAddr c) k.frame }

/-- A context after its return as context c: it waits at the frame in its new place (R212). -/
def Ctx.unpack (k : Ctx) (c : Nat) : Ctx := { k with frame := [], settling := if k.frame.isEmpty then k.settling else frameAddr c }

/-- `JOIN_SWAP_OUT`: with a deque entry waiting and no free context, the context that has waited longest in JOIN is written out to its
place in the oxbow region, once that is free and nothing of the context's is under way, and the bottom entry starts in its
place (R90, R263; log entry 95). -/
def execJoinSwapOut (g : Nat) (s : State) : Res :=
  let w := s.work g
  .next <| match s.longest g (s.joiners g) with
    | some c =>
      let k := s.ctx g c
      if (s.freeCtx g).isSome || !w.oxbow.getLsbD 0 || !s.serves g || !k.ring.isEmpty || !k.settled
          || (Tab.find w.joinOut c).isSome then s
      else
        let s1 := (s.setWork g { w with joinOut := Tab.put w.joinOut c (s.packCtx g c) }).liftFrame g c
        match s1.popBottom g with
        | some (e, s2) => s2.startChild g c e
        | none => s
    | none => s

/-- The context of a strand in its crew's record. -/
def Crew.place (q : Crew) (k c : Nat) : Crew := { q with ctxs := listSet q.ctxs k c }

/-- An event of an LP is in another context now. -/
def State.moveEvent (s : State) (g c : Nat) (ev : Option (Nat × Nat)) : State :=
  match ev with
  | none => s
  | some (slot, id) => match s.lp g slot with
    | none => s
    | some lp => s.setLp g slot (lp.setEvent id fun e => { e with ctx := c })

/-- A context that was written out takes context c of core g again, at its boundary. -/
def State.putBack (s : State) (g c : Nat) (k : Ctx) : State :=
  let s1 := (s.layFrame g c k).setCtx g c { k.unpack c with
    st := .ready, since := s.cycle g, age := s.cycle g, bump := 0, ibuf := none, arrived := none }
  let w := s1.work g
  let s2 := match k.role with
    | .strand cr j => match Tab.find w.crews cr with
      | some q => s1.setWork g { w with crews := Tab.put w.crews cr (q.place j c) }
      | none => s1
    | _ => s1
  s2.moveEvent g c k.event

/-- `JOIN_READMIT`: a context that was written out in JOIN returns once its count reads 0 (R90). -/
def execJoinReadmit (g k : Nat) (s : State) : Res :=
  let w := s.work g
  .next <| match Tab.find w.joinOut k, s.freeCtx g with
    | some q, some c =>
      match q.st with
      | .waiting (.join va) =>
        if s.joined g q va && s.serves g then (s.setWork g { w with joinOut := Tab.drop w.joinOut k }).putBack g c q else s
      | _ => s
    | _, _ => s

/-! ### The crew barrier (R91) -/

/-- The strands of a crew that have not halted. -/
def Crew.live (q : Crew) : List Nat := (List.range q.ctxs.length).filter fun j => !q.halted.contains j

/-- Whether every strand that has not halted has arrived, one at least. -/
def Crew.full (q : Crew) : Bool := !q.arrived.isEmpty && q.live.all fun j => q.arrived.contains j

/-- A context that waits in BAR leaves it; it is ready from now on (R77, R91). -/
def State.leaveBar (s : State) (g c : Nat) : State :=
  if (s.ctx g c).st = .waiting .barrier then
    s.as g c fun t => (t.setMe { t.me with st := .ready, since := s.cycle g, age := s.cycle g, bump := 0 }).retire 2
  else s

/-- The barrier of crew id of core g, once every strand has arrived: all leave together (R91). -/
def State.openBar (s : State) (g id : Nat) : State :=
  match Tab.find (s.work g).crews id with
  | none => s
  | some q =>
    if !q.full then s
    else
      let w := s.work g
      let s1 := s.setWork g { w with crews := Tab.put w.crews id { q with arrived := [] } }
      (q.arrived.map fun j => (q.ctxs[j]?).getD 31).foldl (fun t c => t.leaveBar g c) s1

/-- `BAR`: the strand arrives, with a release, and waits; the last arrival lets all of them go on (R91). -/
def execBar (s : State) : Res :=
  let g := s.cur.1
  .next <| match s.me.role with
    | .strand id j =>
      match Tab.find (s.work g).crews id with
      | none => s.illegal
      | some q =>
        if !s.me.drained then s.hold (.blocked .drain)
        else
          let w := s.work g
          let q1 := { q with arrived := if q.arrived.contains j then q.arrived else q.arrived ++ [j] }
          ((s.setWork g { w with crews := Tab.put w.crews id q1 }).hold (.waiting .barrier)).openBar g id
    | _ => s.illegal

/-! ### HALT (R89, R92, R93) -/

/-- An event has halted: it is processed; a coasting one must have matched all its output (R324, R326). -/
def State.endEvent (s : State) (g c : Nat) : State :=
  match s.eventOf g c with
  | none => s
  | some (slot, lp, e) =>
    let out := (lp.outlog.filter fun o => o.event == e.id).length
    let bad := e.st == .coasting && decide (e.next < out)
    let owes := match (s.ctx g c).cur with
      | some u => !e.safe && u.owes
      | none => false
    let s1 := match (s.ctx g c).cur with
      | some u => if e.safe then s else s.setCtx g c { s.ctx g c with cur := some { u with answered := true } }
      | none => s
    s1.setLp g slot { lp.setEvent e.id (fun x => { x with st := .processed, next := 0, owes := if e.st = .coasting then e.owes else owes }) with
      mismatch := lp.mismatch || bad }

/-- The banks of a free strand that halts (R92, R93). -/
def State.haltBanks (s : State) (g c : Nat) (keep : Option (BitVec 6)) : State :=
  match (s.ctx g c).banks with
  | some (b, n) => s.setWork g ((s.work g).leaveBanks keep b n (s.cycle g))
  | none => s

/-- A strand of a crew has halted; that may complete the barrier (R91, R93). -/
def State.strandHalted (s : State) (g : Nat) (keep : Option (BitVec 6)) : Role → State
  | .strand id j =>
    match Tab.find (s.work g).crews id with
    | none => s
    | some q =>
      let w := s.work g
      (s.setWork g { w with crews := Tab.put w.crews id { q with halted := q.halted ++ [j], keep := keep } }).openBar g id
  | _ => s

/-- The end of the executing context: the join record of a child is counted down, the event ends, commands are
detached, and the context is free (R92). `pa` is the place of the join record. -/
def State.halted (s : State) (keep : Option (BitVec 6)) (pa : Option Nat) : State :=
  let g := s.cur.1
  let c := s.cur.2
  s.atChunkEnd g c 3 none fun s =>
    let role := s.me.role
    let s1 := match pa with
      | some a => s.joinAdd a (2 ^ 32 - 1) false
      | none => s
    (((s1.endEvent g c).haltBanks g c keep).free g c).strandHalted g keep role

/-- HALT with its waits: for the V-slot, for stores, for queue entries; a child's join record is translated first
(R89, R92). -/
def State.halt (s : State) (keep : Option (BitVec 6)) : State :=
  let g := s.cur.1
  let go := fun (t : State) (pa : Option Nat) =>
    if !t.me.vectorsDone then s.hold (.blocked .quiet)
    else if !t.me.acks.isEmpty || (pa.isSome && !t.me.drained) then s.hold (.blocked .drain)
    else if pa.isSome && !t.requestRoom g then s.hold (.blocked .sendQueue)
    else if (match t.me.cur with
      | some u => u.owes
      | none => false) && !t.speculative g s.cur.2 && !t.replyRoom g then s.hold (.blocked .replyQueue)
    else t.halted keep pa
  if s.me.role ≠ .child ∧ s.me.join = 0 then go s none
  else
    let r := s.globalAccess g s.cur.2 s.me.join .amo 4 true false
    match r.2 with
    | .error e => r.1.stop e
    | .ok pa => go r.1 (some pa)

/-- `HALT` (R92). -/
def execHalt (s : State) : Res := .next (s.halt none)
/-- `HALT_COMPACT` (R92). -/
def execHaltCompact (s : State) : Res := .next (s.halt none)
/-- `HALT_K` (R93); it waits for a speculative event to be safe (R320). -/
def execHaltK (c : BitVec 6) (s : State) : Res := .next (s.whenSafe (s.halt (some c)))

/-! ### MIGRATE (R97, R98) -/

/-- The named registers of a vmask, ascending (R97). -/
def namedRegs (m : BitVec 16) : List Nat := (List.range 16).filter fun i => m.getLsbD i

/-- The message of a migrating context (R98). -/
def Ctx.migration (k : Ctx) (next : Word) (m : BitVec 16) : List Byte :=
  k.x.toList.flatMap wordBytes ++ wordBytes next ++ wordBytes k.vt ++ bytesOfNat 4 k.rng.toNat
    ++ bytesOfNat 2 k.fpflags.toNat ++ bytesOfNat 1 k.rnd.toNat ++ bytesOfNat 1 k.domain.toNat ++ wordBytes k.join
    ++ bytesOfNat 2 m.toNat ++ List.replicate 30 0
    ++ (namedRegs m).flatMap fun i => (k.vreg i).toList.flatMap fun l => bytesOfNat 4 l.toNat

/-- Whether the executing context may migrate (R97, R204, R331). -/
def State.mayMigrate (s : State) : Bool :=
  s.me.crewOf.isNone && s.me.loops.isEmpty && !s.frameLive s.cur.1 (frameAddr s.cur.2) && !s.isAhead

/-- A legal migration to core dst (R98). The manual does not say what becomes of the banks of a handler that migrates (R98, R144,
R192); the model powers them down, as at an end without HALT.K (DESIGN CHOICE, log entry 101). -/
def State.migrate (s : State) (dst : Nat) (m : BitVec 16) : State :=
  let g := s.cur.1
  let c := s.cur.2
  let chip := chipOf dst
  let l := (s.logical (s.tag g) chip).idxOf (physOf dst)
  let next := nextSeq s.me.pc 2
  if !s.me.vectorsDone then s.hold (.blocked .quiet)
  else if !s.me.drained then s.hold (.blocked .drain)
  else if !s.requestRoom g then s.hold (.blocked .sendQueue)
  else if (match s.me.cur with
    | some u => u.owes
    | none => false) && !s.replyRoom g then s.hold (.blocked .replyQueue)
  else
    let q := s.message g c dst (pack [(0, l), (12, chip)]) 5 (s.me.migration next m) [] false false 0
    (((s.enqueue g ⟨.msg q, c, []⟩).endEvent g c).haltBanks g c none).free g c

/-- `MIGRATE` (R97, R98). -/
def execMigrate (a : XReg) (m : BitVec 16) (s : State) : Res :=
  let x := s.x a
  .next <|
    if !s.mayMigrate || decide (2 ^ 18 ≤ x.toNat) then s.illegal
    else match s.reach (s.tag s.cur.1) (field x 12 6) (field x 0 12) with
      | none => s.illegal
      | some dst => s.migrate dst m

/-- The core at which a physical address is homed, for a migration (R97). The rule names CXL and device-register addresses as illegal
and says nothing of a scratchpad window or a shadow region; the model goes to the core that holds them (DESIGN CHOICE, log entry
102). -/
def vaultCore (pa : Nat) : Option Nat :=
  match homeOf pa with
  | .vault g _ => some g
  | .shadow g _ => some g
  | .window g _ => some g
  | _ => none

/-- `MIGRATE_HOME` (R97, R98). -/
def execMigrateHome (a : XReg) (m : BitVec 16) (s : State) : Res :=
  let g := s.cur.1
  let x := s.x a
  .next <|
    if !s.mayMigrate then s.illegal
    else
      let r := s.translate g (!s.me.sup) x .read
      match r.2 with
      | .error f => if s.parks g s.me.sup f then r.1.parkHere x .read f else r.1.trap 0x07 x
      | .ok pa =>
        match vaultCore pa with
        | none => r.1.illegal
        | some h =>
          if !s.holds (s.tag g) h || !s.lmapValid (s.tag g) h then r.1.illegal
          else r.1.migrate h m

end Sys2Proof.Machine
end

