-- ==== Sys2Proof/Machine/Serve.lean ====
section
/-! DEFINITION. What a core serves next (R189), and the starts and deliveries that it serves: handlers (R191), WAITCH
(R95), crews (R74), children and stolen work (R88), migrating strands (R99), the events of logical processes (R319,
R324), and late messages (R333). -/

namespace Sys2Proof.Machine

/-! ### The order of service (R189) -/

/-- A piece of waiting work: a message that starts a handler, a late message, a migrating strand, an event of an LP,
a stolen entry, a crew to take in again or for the first time, a JOIN context that returns, the bottom deque entry. -/
inductive Job where
  | handler (src : Source) (k : Nat)
  | late (src : Source) (k : Nat)
  | migration (k : Nat)
  | event (slot : Nat)
  | stolen (k : Nat)
  | readmit (n : Nat)
  | crew
  | joined (k : Nat)
  | child
  deriving DecidableEq, Repr

/-- Work with its priority and its number in the order of arrivals. -/
structure Rank where
  prio : Nat
  stamp : Nat
  job : Job
  deriving DecidableEq, Repr

/-- The work of the highest priority, the oldest among equals. -/
def bestRank : List Rank → Option Rank
  | [] => none
  | a :: r =>
    match bestRank r with
    | none => some a
    | some b => if a.prio < b.prio || (a.prio == b.prio && decide (b.stamp < a.stamp)) then some b else some a

/-- The retained allotment of a channel (R93). -/
def Work.retainedFor (w : Work) (ch : Nat) : Option Retained := w.retained.find? fun r => r.ch.toNat == ch

/-- Whether a handler on a channel of core g could start now: its entry is valid and unmasked, a context and an
arrival slot are free, and its banks can be given (R189, R93, R144). -/
def State.startable (s : State) (g ch : Nat) : Bool :=
  let h := s.handler g ch
  let w := s.work g
  h.valid && !h.masked && (s.freeCtx g).isSome && w.freeSlot.isSome
    && ((w.retainedFor ch).isSome || (w.allot (field h.ctl 5 4)).isSome)

/-- The cores of core g's cluster. -/
def clusterCores (g : Nat) : List Nat := (List.range 16).map fun i => g / 16 * 16 + i

/-- Whether a parked access of core g that a REPLAYALL has reached is still to be performed again, and can be (R255). -/
def State.untried (s : State) (g : Nat) : Bool :=
  s.runs g && s.requestRoom g
    && (s.work g).ctxs.any fun e => e.2.role != .free && e.2.st == .parked && e.2.replay && e.2.event.isNone

/-- Whether a message is a notice of a cluster that a REPLAYALL has reached while parked accesses there are still to be performed again:
its handler starts after that, so that a strand whose fault was dropped faults again before the pager maps its page (R253, R258, R271;
DEDUCED, log entry 125). -/
def State.tooSoon (s : State) (m : Msg) : Bool := m.channel == 2 && (clusterCores m.src).any s.untried

/-- The work that a waiting message of core g is, if it can be served now. -/
def State.messageJob (s : State) (g : Nat) (e : Source × Nat × Msg) : Option Rank :=
  let m := e.2.2
  let ch := m.channel
  let h := s.handler g ch
  let ready := e.1 = .ejection ∧ (s.freeCtx g).isSome ∧ (s.work g).freeSlot.isSome
  if ch = 5 then (if ready then some ⟨2, m.stamp, .migration e.2.1⟩ else none)
  else if ch = 6 ∧ !m.payload.isEmpty then (if ready then some ⟨2, m.stamp, .stolen m.stamp⟩ else none)
  else if ch = 1 ∨ ch = 4 ∨ ch = 6 ∨ !(s.waiters g ch).isEmpty ∨ !s.startable g ch ∨ s.tooSoon m then none
  else if h.optimistic then
    match s.lpOf g ch with
    | some (_, lp) => if s.isLate g lp m then some ⟨h.prio, m.stamp, .late e.1 e.2.1⟩ else none
    | none => none
  else some ⟨h.prio, m.stamp, .handler e.1 e.2.1⟩

/-! ### Events that can start (R319, R321, R324) -/

/-- The ring bytes of a processed-input entry (R317). -/
def inputBytes (m : Msg) : Nat := 32 + (m.payload.length + 31) / 32 * 32

/-- The granules that hold the append cursors of an LP (R321). -/
def Lp.cursors (lp : Lp) : List Nat :=
  ((lp.regions.filter fun r => r.kind == 2).map fun r => r.aux.toNat / 32 * 32).eraseDups

/-- Whether an event of virtual time vt would be safe (R319). -/
def State.safeAt (s : State) (g : Nat) (lp : Lp) (vt : Word) : Bool := !(s.gvt g lp.domain).ult vt

/-- Whether a message on a channel may go to a WAITCH: on an optimistic channel, when its VT is at or below GVT
(R95). -/
def State.waitchTakes (s : State) (g : Nat) (m : Msg) : Bool :=
  let h := s.handler g m.channel
  !(h.valid && h.optimistic) || !(s.gvt g (field h.ctl 16 8)).ult m.d2

/-- Whether a context waits in WAITCH for a message (R95). -/
def State.waited (s : State) (g : Nat) (m : Msg) : Bool := !(s.waiters g m.channel).isEmpty && s.waitchTakes g m

/-- The pending messages of an LP that are not late, and that no WAITCH takes (R95, R319). -/
def State.timely (s : State) (g : Nat) (lp : Lp) : List (Source × Nat × Msg) :=
  ((s.work g).pendingOf lp).filter fun e => !s.isLate g lp e.2.2 && !s.waited g e.2.2

/-- The message of the event that the LP of a slot starts next, where it can start now: a processed event to run
again, or the pending message with the lowest VT. A publication that reaches its VT goes first. -/
def State.nextEvent (s : State) (g slot : Nat) : Option (Option LpEvent × Source × Nat × Msg) :=
  match s.lp g slot with
  | none => none
  | some lp =>
    if lp.rolling.isSome ∨ !(lp.events.all fun e => e.st == .processed) then none
    else match lp.coast with
      | id :: _ => match lp.event id with
        | some e => if s.startable g e.msg.channel then some (some e, .spill, 0, e.msg) else none
        | none => none
      | [] =>
        match earliest (s.timely g lp) with
        | none => none
        | some (src, k, m) =>
          let safe := s.safeAt g lp m.d2
          let due := match ((s.part (s.tag g)).domain lp.domain).next with
            | some v => !v.ult m.d2
            | none => false
          if due || !s.startable g m.channel || !lp.inR.room (inputBytes m)
              || (!safe && (lp.snapDue || !lp.eddyR.room (48 * lp.cursors.length))) then none
          else some (none, src, k, m)

/-- The event starts of a core. -/
def State.eventJobs (s : State) (g : Nat) : List Rank :=
  (s.work g).lps.filterMap fun q => (s.nextEvent g q.1).map fun e =>
    ⟨(s.handler g e.2.2.2.channel).prio, e.2.2.2.stamp, .event q.1⟩

/-- The arrival slot that a WAITCH delivery to the context that has waited longest on a channel would use (R95, R189). -/
def State.waitchSlot (s : State) (g ch : Nat) : Option Nat :=
  (s.longest g (s.waiters g ch)).bind fun c => (s.ctx g c).slot.or (s.work g).freeSlot

/-- The messages of core g that can be delivered now, to a WAITCH or to a context that starts (R189). -/
def State.deliverable (s : State) (g : Nat) : List Msg :=
  (((s.work g).waiting.filter fun e => (s.waited g e.2.2 && (s.waitchSlot g e.2.2.channel).isSome) || (s.messageJob g e).isSome).map
    fun e => e.2.2) ++ (s.work g).lps.filterMap fun q => (s.nextEvent g q.1).map fun e => e.2.2.2

/-- Whether an earlier message of the same sender on the same network is delivered before a message (R189, R193). -/
def State.behind (s : State) (g : Nat) (m : Msg) : Bool :=
  (s.deliverable g).any fun q => q.sameWay m && q.onReply == m.onReply && decide (q.stamp < m.stamp)

/-- Messages and event starts that core g could serve now, those behind an earlier message of their sender apart (R189, R193). -/
def State.ranks (s : State) (g : Nat) : List Rank :=
  ((s.work g).waiting.filterMap (s.messageJob g) ++ s.eventJobs g).filter fun r =>
    !((s.work g).waiting.any fun e => e.2.2.stamp == r.stamp && s.behind g e.2.2)

/-- Whether s contexts and the own banks of a swapped crew are free (R265). -/
def State.canReadmit (s : State) (g : Nat) (i : SwapImage) : Bool :=
  decide (i.crew.grid.launch.s ≤ s.freeCount g) && ((s.work g).power &&& bankMask i.crew.bank i.crew.n == 0)

/-- Crew admission at core g (R74): a swapped crew first, then the crew whose index the dispatcher holds, then a CTAKE for the next
crew of the oldest grid, once the core can admit it. -/
def State.crewJob (s : State) (g : Nat) : Option Job :=
  match oldestImage ((s.work g).swapped.filter fun e => e.2.ready && s.canReadmit g e.2) with
  | some e => some (.readmit e.1)
  | none => match (s.work g).claim with
    | some (.asked _) => none
    | some (.got _ q) => if s.canAdmit g q.launch then some .crew else none
    | none => match (s.work g).nextGrid with
      | some q => if s.canAdmit g q.launch && s.requestRoom g then some .crew else none
      | none => none

/-- The context of a list of written-out ones that has waited longest. -/
def oldestOut : List (Nat × Ctx) → Option (Nat × Ctx)
  | [] => none
  | a :: r =>
    match oldestOut r with
    | some b => if b.2.since < a.2.since then some b else some a
    | none => some a

/-- A context that was written out in JOIN and can return: of several, the one that has waited longest, which the manual leaves open
(R90; DESIGN CHOICE, log entry 96). -/
def State.joinJob (s : State) (g : Nat) : Option Job :=
  if (s.freeCtx g).isNone then none
  else (oldestOut ((s.work g).joinOut.filter fun e => match e.2.st with
    | .waiting (.join va) => s.joined g e.2 va
    | _ => false)).map fun e => .joined e.1

/-- What core g serves next: messages of priority 1 to 3, crews, messages of priority 0, then JOIN contexts and deque
entries (R189). -/
def State.nextJob (s : State) (g : Nat) : Option Job :=
  if !s.serves g then none
  else
    let rs := s.ranks g
    match bestRank (rs.filter fun r => decide (1 ≤ r.prio)) with
    | some r => some r.job
    | none => match s.crewJob g with
      | some j => some j
      | none => match bestRank rs with
        | some r => some r.job
        | none => match s.joinJob g with
          | some j => some j
          | none => if (s.freeCtx g).isSome && (s.work g).dequeSize != 0 then some .child else none

/-! ### Handlers (R191, R93, R110, R363) -/

/-- The banks a handler on a channel gets: the retained allotment, else those of its entry, powered up (R93, R144). -/
def Work.handlerBanks (w : Work) (ch banks : Nat) : (Nat × Nat) × Work :=
  match w.retainedFor ch with
  | some r => ((r.bank, r.n), { w with retained := w.retained.filter fun x => x.ch.toNat != ch })
  | none => match w.allot banks with
    | some (b, w1) => ((b, banks), w1)
    | none => ((0, 0), w)

/-- The message at a place of core g. -/
def Work.at (w : Work) (src : Source) (k : Nat) : Option Msg :=
  (w.waiting.find? fun e => e.1 == src && e.2.1 == k).map fun e => e.2.2

/-- A handler's generator (R110). -/
def handlerSeed (m : Msg) : BitVec 32 :=
  rngSeed (rngMix (((m.d1 &&& 0xFFFFFF).setWidth 32 ^^^ m.d2.setWidth 32 ^^^ BitVec.ofNat 32 (m.channel * 2 ^ 24)).toNat))

/-- Channels whose handlers run with supervisor privilege (R204). -/
def channelSup (ch : Nat) : Bool := ch == 0 || ch == 2 || ch == 7

/-- A handler of a message started on a context and in a slot of core g, with what it does further (R191). -/
def State.startHandler (s : State) (g c n : Nat) (m : Msg) (cell : Option Nat) (f : Ctx → Ctx) : State :=
  let ch := m.channel
  let h := s.handler g ch
  let b := (s.work g).handlerBanks ch (field h.ctl 5 4)
  let k := { Ctx.begin (.handler (BitVec.ofNat 6 ch)) h.entry (s.cycle g) with
    rng := handlerSeed m, sup := channelSup ch, banks := if b.1.2 = 0 then none else some b.1 }
  let s1 := ((s.setWork g b.2).setCtx g c k).deliver g c n m cell
  let k1 := s1.ctx g c
  let k2 := if b.1.2 = 0 then k1 else k1.setXs 4 [allotAddr b.1.1 b.1.2, allotSize b.1.2]
  s1.setCtx g c (f k2)

/-- The cell of a message that waits in one. -/
def cellOf (src : Source) (k : Nat) : Option Nat := if src = .cell then some k else none

/-- The host payload that a delivery records (R372). -/
def hostPayload (m : Msg) : Option Msg := if m.fromHost then some m else none

/-- A message taken from its place starts a handler, in a free context and slot; poison in its first 32 bytes ends it
before its first instruction (R191, R363, R372). -/
def State.serve (s : State) (g : Nat) (src : Source) (k : Nat) (m : Msg) (f : Ctx → Ctx) : State :=
  match s.freeCtx g, (s.work g).freeSlot with
  | some c, some n =>
    s.atChunkEnd g c 0 (hostPayload m) fun s =>
      let s1 := ((s.setWork g ((s.work g).take src k)).startHandler g c n m (cellOf src k) f).workFound g
      if m.bad.contains 0 then s1.terminate g c 1 0 else s1
  | _, _ => s

/-- `HANDLER_START` (R191). -/
def execHandlerStart (g : Nat) (src : Source) (k : Nat) (s : State) : Res :=
  .next <| match (s.work g).at src k with
    | none => s
    | some m => if s.nextJob g = some (.handler src k) then s.serve g src k m id else s

/-- Cause 0x0F of a late message: raised before the first instruction, with the VT in the fault field (R333). -/
def lateTrap (entry vt : Word) : TrapInfo where
  cause := 0x0F
  late := false
  resume := entry
  fault := vt
  source := 0
  mask := BitVec.ofNat 23 (2 ^ 0x0F)
  code := 0
  dbg := false
  seq := 0

/-- The place that a number names: 0 ejection, 1 spill, 2 cell, in [1:0] of the number to base 3. -/
def placeOf (k : Nat) : Source × Nat :=
  (if k % 3 = 0 then .ejection else if k % 3 = 1 then .spill else .cell, k / 3)

/-- `LATE_MESSAGE`: a late message of a bound channel starts a safe handler that takes cause 0x0F first (R333). -/
def execLateMessage (g k : Nat) (s : State) : Res :=
  let p := placeOf k
  .next <| match (s.work g).at p.1 p.2, s.freeCtx g with
    | some m, some c =>
      if s.nextJob g = some (.late p.1 p.2) then
        let s1 := s.serve g p.1 p.2 m id
        if (s1.ctx g c).role = .free then s1 else s1.takeTrap g c (lateTrap (s.handler g m.channel).entry m.d2)
      else s
    | _, _ => s

/-! ### WAITCH (R95, R189) -/

/-- Whether a message is the first of its channel that a WAITCH may take, spilled ones first (R190, R193). -/
def State.firstWaiting (s : State) (g : Nat) (m : Msg) : Bool :=
  !(s.work g).waiting.any fun e => e.2.2.channel == m.channel && decide (e.2.2.stamp < m.stamp) && s.waitchTakes g e.2.2

/-- `WAITCH_DELIVERY`: the next message on a channel goes to the context that has waited longest on it, which goes on
after its WAITCH (R95, R191). It starts no work, so that it does not end a search for work to steal (R88; DESIGN CHOICE, log entry
122). -/
def execWaitchDelivery (g : Nat) (src : Source) (k : Nat) (s : State) : Res :=
  .next <| match (s.work g).at src k with
    | none => s
    | some m =>
      match s.longest g (s.waiters g m.channel) with
      | none => s
      | some c =>
        match (s.ctx g c).slot.or (s.work g).freeSlot with
        | none => s
        | some n =>
          if !s.serves g || !s.waitchTakes g m || !s.firstWaiting g m || s.behind g m then s
          else s.atChunkEnd g c 0 (hostPayload m) fun s =>
            let s1 := (s.setWork g ((s.work g).take src k)).deliver g c n m (cellOf src k)
            let s2 := s1.setCtx g c { s1.ctx g c with
              st := .ready, resumedWait := true, watch := 0, since := s.cycle g, age := s.cycle g, bump := 0 }
            let s3 := s2.as g c fun t => t.retire 2
            if m.bad.contains 0 then s3.terminate g c 1 0 else s3

/-! ### Crews, children, stolen work (R74, R88) -/

/-- `CREW_ADMISSION`: the crew dispatcher of core g takes a value of the oldest grid's counter with a CTAKE of its own; when the
answer is an index, a later admission starts its crew (R74; log entry 88). -/
def execCrewAdmission (g : Nat) (s : State) : Res :=
  .next <|
    if s.nextJob g ≠ some .crew then s
    else match (s.work g).claim, (s.work g).nextGrid with
      | some (.got v gr), _ => ((s.setWork g { s.work g with claim := none }).startCrew g v gr).workFound g
      | none, some q => s.askCrew g q
      | _, _ => s

/-- `FORK_CHILD_START`: the youngest deque entry starts in a free context (R86, R88). -/
def execForkChildStart (g : Nat) (s : State) : Res :=
  .next <| match s.popBottom g, s.freeCtx g with
    | some (e, t), some c => if s.nextJob g = some .child then (t.workFound g).startChild g c e else s
    | _, _ => s

/-- The widest stealing domain among the grids that a core knows (R88). -/
def Work.liveDomain (w : Work) : Nat := w.grids.foldl (fun n q => max n q.launch.domain.toNat) 0

/-- Whether core h lies in the stealing domain d of core g. -/
def inDomain (d g h : Nat) : Bool :=
  if d = 0 then g == h else if d = 1 then g / 16 == h / 16
  else if d = 2 then chipOf g == chipOf h && dieOf g == dieOf h else chipOf g == chipOf h

/-- The cores that core g asks, in order: upward from the next physical core number, and round (R88). -/
def State.victims (s : State) (g : Nat) : List Nat :=
  let d := (s.work g).liveDomain
  let all := (List.range 2560).map fun i => chipOf g * 2560 + (physOf g + 1 + i) % 2560
  all.filter fun h => h != g && inDomain d g h && s.holds (s.tag g) h

/-- Whether core g is idle for stealing: it serves, has a free context and an empty deque, nothing waits, and its live
domain is wider than the core (R88). -/
def State.idleThief (s : State) (g : Nat) : Bool :=
  s.serves g && (s.freeCtx g).isSome && (s.work g).dequeSize == 0 && (s.nextJob g).isNone && decide (1 ≤ (s.work g).liveDomain)
    && (s.work g).steal.asked.isNone

/-- `STEAL_REQUEST`: an idle core asks the next core of its round (R88, R195). -/
def execStealRequest (g : Nat) (s : State) : Res :=
  let w := s.work g
  .next <| match (s.victims g)[w.steal.tried]? with
    | none => s
    | some v =>
      if s.idleThief g && s.requestRoom g && decide (w.steal.notBefore ≤ s.cycle g) then
        (s.setWork g { w with steal := { w.steal with asked := some v, stale := false } }).enqueue g ⟨.steal v, 31, []⟩
      else s

/-- The oldest entry of the deque of core v, and the state with it taken, when the entry's domain holds the thief (R86, R88). -/
def State.give (s : State) (v thief : Nat) : Option (DequeEntry × State) :=
  (s.popTop v).filter fun e => inDomain e.1.domain.toNat v thief

/-- A steal reply of core v: a message on channel 6 that holds the 128 bytes of an entry, with the poison that came with them, or
nothing (R86, R88, R363). -/
def State.stealMsg (s : State) (v thief : Nat) (e : Option DequeEntry) : Msg :=
  let bs := match e with
    | some q => q.bytes
    | none => []
  let bad := match e with
    | some q => q.bad
    | none => []
  { s.deviceMsg v 31 thief 6 [] with
    d0 := pack [(0, s.logicalOf thief), (12, chipOf thief), (18, 6), (30, s.tag thief), (36, bs.length), (53, bitOf (!bad.isEmpty))],
    payload := bs, bad := bad }

/-- `STEAL_SERVE`: request k reaches its victim, which answers through its request queue with its oldest entry when the entry's domain
holds the thief, and else with an empty reply; the router of an evicted victim answers empty (R86, R88, R195; log entry 97). -/
def execStealServe (k : Nat) (s : State) : Res :=
  .next <| match Tab.find s.net.steals k with
    | none => s
    | some (thief, v) =>
      let gone := s.withNet fun n => { n with steals := Tab.drop n.steals k }
      if !s.takes v (s.tag thief) || s.tag v != s.tag thief then gone.inject (s.stealMsg v thief none)
      else if !s.runs v || !s.requestRoom v then s
      else match gone.give v thief with
        | some (e, t) => t.enqueue v ⟨.msg (s.stealMsg v thief (some e)), 31, []⟩
        | none => gone.enqueue v ⟨.msg (s.stealMsg v thief none), 31, []⟩

/-- The steal reply of a number in the order of arrivals, with the core in whose ejection queue it stands, and its place. -/
def State.stealReply (s : State) (k : Nat) : Option (Nat × Nat × Msg) :=
  s.cores.findSome? fun e =>
    ((e.2.work.ejection.zipIdx.find? fun q => q.1.channel == 6 && q.1.stamp == k).map fun q => (e.1, q.2, q.1))

/-- The search for work after an empty answer: the round goes on with the next core, and ends once every core of it has given one;
the answer to a request of an earlier round counts for none (R88). `n` is how many cores there are and `now` the cycle. -/
def Steal.empty (q : Steal) (n now : Nat) : Steal :=
  if q.stale then { q with asked := none, stale := false }
  else ⟨none, false, q.tried + 1, if n ≤ q.tried + 1 then now + 1024 else q.notBefore⟩

/-- `STEAL_REPLY`: the steal reply that arrived as number k: an entry starts in a free context, an empty answer goes on with
the round, which ends once every core has given one (R88, R145, R363). -/
def execStealReply (k : Nat) (s : State) : Res :=
  .next <| match s.stealReply k with
    | none => s
    | some (g, i, m) =>
      if m.payload.isEmpty then
        let s1 := s.consume g i m
        let w := s1.work g
        s1.setWork g { w with steal := w.steal.empty (s.victims g).length (s.cycle g) }
      else match s.freeCtx g, s.bank14 g m with
        | some c, some s1 =>
          if s.nextJob g = some (.stolen k) then
            let s2 := s1.consume g i m
            let w := s2.work g
            (s2.setWork g { w with steal := ⟨none, false, 0, 0⟩ }).startChild g c { readEntry m.payload with bad := m.bad }
          else s
        | _, _ => s

/-- `STEAL_ROUND`: 1,024 cycles after a round ended, an idle core begins the next (R88). -/
def execStealRound (g : Nat) (s : State) : Res :=
  let w := s.work g
  .next <|
    if s.idleThief g && decide (w.steal.notBefore ≤ s.cycle g) && decide ((s.victims g).length ≤ w.steal.tried)
        && decide (0 < w.steal.tried) then
      s.setWork g { w with steal := { w.steal with tried := 0 } }
    else s

/-! ### Migrating strands (R99) -/

/-- The named registers of a migration message put back. -/
def Ctx.landRegs (k : Ctx) (bs : List Byte) : List Nat → Nat → Ctx
  | [], _ => k
  | i :: r, j =>
    (k.setV i (vregOf ((List.range 64).map fun l => BitVec.ofNat 32 (numAt bs (192 + 256 * j + 4 * l) 4)))).landRegs bs r (j + 1)

/-- The context that a migration message holds; its resumption is unchecked (R99). A generator that is carried as 0, by a message that
no MIGRATE built, becomes 1, as every seed does (R109, R110; DEDUCED, log entry 123). -/
def migrant (bs : List Byte) (now : Nat) : Ctx :=
  let k := (Ctx.begin .migrated (wordAt bs 128) now).setXs 0 ((List.range 16).map fun i => wordAt bs (8 * i))
  ({ k with
    arrived := none, vt := wordAt bs 136, rng := rngSeed (BitVec.ofNat 32 (numAt bs 144 4)),
    fpflags := BitVec.ofNat 14 (numAt bs 148 2) &&& fpflagsMask, rnd := BitVec.ofNat 3 (numAt bs 150 1),
    domain := BitVec.ofNat 2 (numAt bs 151 1), join := wordAt bs 152 }).landRegs bs (namedRegs (BitVec.ofNat 16 (numAt bs 160 2))) 0

/-- `MIGRATION_ARRIVAL`: the message at place k of the ejection queue of core g, on channel 5, becomes a context
(R99); the slot is held only while the message is consumed (R145), and poison in it ends the context (R363). -/
def execMigrationArrival (g k : Nat) (s : State) : Res :=
  .next <| match (s.work g).ejected k, s.freeCtx g with
    | some m, some c =>
      match s.bank14 g m with
      | some s1 =>
        if s.nextJob g = some (.migration k) then
          let s2 := ((s1.consume g k m).setCtx g c (migrant m.payload (s.cycle g))).workFound g
          if m.bad.isEmpty then s2 else s2.terminate g c 1 0
        else s
      | none => s
    | _, _ => s

/-! ### Events of logical processes (R319, R324) -/

/-- The append cursors of an LP logged for a speculative event (R321). -/
def State.logCursors (s : State) (g slot id : Nat) (vt : Word) (safe : Bool) : State :=
  match s.lp g slot with
  | none => s
  | some lp => if safe then s else s.logGranules g slot id vt lp.cursors

/-- The newest snapshot, taken for an event that an earlier one now precedes, gets the earlier VT (R324). -/
def State.retag (s : State) (g slot : Nat) (vt : Word) : State :=
  match s.lp g slot with
  | none => s
  | some lp =>
    match lp.snaps.getLast? with
    | none => s
    | some (n, v) =>
      if !lp.ready || v == vt then s
      else
        let s1 := s.setLp g slot { lp with snaps := lp.snaps.dropLast ++ [(n, vt)] }
        lp.checkpoints.foldl (fun t r => match t.writeVirt g false (r.slotAddr n) (wordBytes vt) with
          | .ok u => u
          | .error _ => t) s1

/-- The message of an event appended to the input ring (R317, R319). -/
def State.logInput (s : State) (g slot : Nat) (m : Msg) : State :=
  match s.lp g slot with
  | none => s
  | some lp =>
    let w := s.work g
    let s1 := s.setWork g { w with spad := lp.inR.write 0 w.spad (padTo (inputBytes m) (m.headBytes ++ m.payload)) }
    s1.setLp g slot { lp with inR := lp.inR.append (inputBytes m) }

/-- A new event of an LP in context c: the input is logged, lvt set, and the append cursors logged (R319, R321). -/
def State.beginEvent (s : State) (g slot c : Nat) (m : Msg) (safe : Bool) : State :=
  let id := s.nextId
  let s1 := (s.retag g slot m.d2).fresh.logInput g slot m
  let s2 := match s1.lp g slot with
    | none => s1
    | some lp => s1.setLp g slot { lp with
        events := lp.events ++ [LpEvent.mk id m.d2 m c .running safe false (inputBytes m) 0 false],
        lvt := m.d2, since := lp.since + 1, ready := false }
  let s3 := s2.setCtx g c { s2.ctx g c with event := some (slot, id) }
  s3.logCursors g slot id m.d2 safe

/-- A processed event of an LP runs again in context c (R324). -/
def State.coastEvent (s : State) (g slot c : Nat) (e : LpEvent) : State :=
  match s.lp g slot with
  | none => s
  | some lp =>
    let s1 := s.setLp g slot { lp.setEvent e.id (fun x => { x with st := .coasting, ctx := c, next := 0 }) with
      coast := lp.coast.filter fun n => n != e.id }
    s1.setCtx g c { s1.ctx g c with
      event := some (slot, e.id), cur := (s1.ctx g c).cur.map fun u => { u with answered := true } }

/-- `LP_EVENT_START`: the LP in a slot of core g starts its next event (R319, R324). -/
def execLpEventStart (g slot : Nat) (s : State) : Res :=
  .next <| match s.nextEvent g slot, s.freeCtx g, (s.work g).freeSlot, s.lp g slot with
    | some (ev, src, k, m), some c, some n, some lp =>
      if s.nextJob g ≠ some (.event slot) then s
      else match ev with
        | some e => ((s.startHandler g c n m none id).coastEvent g slot c e).workFound g
        | none =>
          s.atChunkEnd g c 0 (hostPayload m) fun s =>
            let s1 := (s.setWork g ((s.work g).take src k)).startHandler g c n m (cellOf src k) id
            let s2 := (s1.beginEvent g slot c m (s1.safeAt g lp m.d2)).workFound g
            if m.bad.contains 0 then s2.terminate g c 1 0 else s2
    | _, _, _, _ => s

end Sys2Proof.Machine
end

