-- ==== Sys2Proof/Machine/Reduce.lean ====
section
/-! DEFINITION. In-network reductions: NRED, NREDW and the rounds of the slots (R236 to R239). -/

namespace Sys2Proof.Machine

/-- A lane of a round before any contribution. -/
def SumLane.start : SumLane := ⟨0, false, false, false, true⟩

/-- A lane with an FP32 contribution: the sum in units of 2^−149 is exact (R237). -/
def SumLane.join (l : SumLane) (b : Nat) : SumLane :=
  match value 0 b with
  | .nan => { l with nan := true, z := false }
  | .inf false => { l with pinf := true, z := false }
  | .inf true => { l with ninf := true, z := false }
  | .num neg n d =>
    let m : Int := (n * 2 ^ 149 / d : Nat)
    { l with a := l.a + (if neg then -m else m), z := l.z && neg && n == 0 }

/-- The result of a lane (R239). -/
def SumLane.result (l : SumLane) : Lane :=
  BitVec.ofNat 32 <|
    if l.nan || (l.pinf && l.ninf) then canonNaN 0
    else if l.pinf then (roundRNE 0 (.inf false)).1
    else if l.ninf then (roundRNE 0 (.inf true)).1
    else if l.a = 0 then (if l.z then 0x80000000 else 0)
    else (roundRNE 0 (.num (decide (l.a < 0)) l.a.natAbs (2 ^ 149))).1

/-- Whether a round is complete (R237). -/
def Round.complete (r : Round) : Bool := decide (0 < r.c) && r.c == r.n

/-- An empty round for n contributors. -/
def Round.start (n : Nat) : Round := ⟨0, n, Vector.replicate 64 SumLane.start⟩

/-- A round with a contribution (R237). -/
def Round.join (r : Round) (v : VReg) : Round :=
  { r with c := r.c + 1, lanes := Vector.ofFn fun i : Fin 64 => (r.lanes.get i).join (v.get i).toNat }

/-- The rounds of a slot with a contribution for n contributors; none while both are complete (R237). -/
def joinRounds (n : Nat) (v : VReg) : List Round → Option (List Round)
  | [] => some [(Round.start n).join v]
  | [r] => some (if r.complete then [r, (Round.start n).join v] else [r.join v])
  | [r, q] => if q.complete then none else some [r, q.join v]
  | _ => none

/-- The key of a slot of a partition in a core's router (R236, R350). -/
def slotKey (t slot : Nat) : Nat := t * 16 + slot

/-- The rounds of a slot of core g for its partition. -/
def State.rounds (s : State) (g slot : Nat) : List Round := Tab.look [] (s.core g).nred (slotKey (s.tag g) slot)

/-- The rounds of a slot replaced. -/
def State.setRounds (s : State) (t g slot : Nat) (l : List Round) : State :=
  s.setCore g { s.core g with nred := Tab.put (s.core g).nred (slotKey t slot) l }

/-- The older round of a slot, once it is complete (R238). -/
def State.roundReady (s : State) (g slot : Nat) : Option Round :=
  match s.rounds g slot with
  | r :: _ => if r.complete then some r else none
  | [] => none

/-- The contexts of core g that wait on a slot. -/
def State.roundWaiters (s : State) (g slot : Nat) : List Nat :=
  (List.range 24).filter fun c => (s.ctx g c).role != .free && (match (s.ctx g c).st with
    | .waiting (.round n _) => n == slot
    | _ => false)

/-- The root of a reduction-group reference that is legal (R236, R237). -/
def State.groupRoot (s : State) (x : Word) : Option Nat :=
  if field x 22 2 ≠ 0 ∨ field x 40 24 ≠ 0 ∨ field x 24 16 = 0 then none
  else s.reach (s.tag s.cur.1) (field x 12 6) (field x 0 12)

/-- The contribution of the executing context. -/
def State.contribution (s : State) (root : Nat) (x : Word) (v : VReg) : Contribution :=
  ⟨s.nextId, root, field x 18 4, field x 24 16, v, s.cur.1, s.cur.2⟩

/-- `NRED`: the lanes of vb leave as one contribution, a release; the store-acknowledge counter rises (R233, R237). It
waits for a speculative event to be safe (R320). -/
def execNred (a b : XReg) (s : State) : Res :=
  let g := s.cur.1
  .next <| s.whenSafe <| match s.groupRoot (s.x a) with
    | none => s.illegal
    | some root =>
      if !s.requestRoom g then s.hold (.blocked .sendQueue)
      else
        let k := s.contribution root (s.x a) (s.me.vreg b.toNat)
        let s1 := s.fresh.enqueue g ⟨.nred k, s.cur.2, s.me.pending⟩
        (s1.setMe { s1.me with acks := s1.me.acks ++ [k.id] }).retire 2

/-- The executing context takes the older round of a slot into vd, and the round is empty (R238). -/
def State.takeRound (s : State) (slot : Nat) (d : XReg) : State :=
  let g := s.cur.1
  match s.roundReady g slot with
  | none => s
  | some r =>
    let s1 := s.setRounds (s.tag g) g slot ((s.rounds g slot).drop 1)
    (s1.setMe (s1.me.setV d.toNat (Vector.ofFn fun i : Fin 64 => (r.lanes.get i).result))).retire 2

/-- `NREDW`: takes the older complete round of a slot of the executing core, or waits for it (R238); it waits for a
speculative event to be safe (R320). -/
def execNredw (d a : XReg) (s : State) : Res :=
  let g := s.cur.1
  let slot := field (s.x a) 18 4
  .next <| s.whenSafe <| match s.groupRoot (s.x a) with
    | none => s.illegal
    | some root =>
      if root ≠ g then s.illegal
      else if (s.roundReady g slot).isSome && (s.roundWaiters g slot).isEmpty then s.takeRound slot d
      else s.hold (.waiting (.round slot d))

/-- The answer to a contribution. -/
def Contribution.ack (k : Contribution) (ok : Bool) : MemReply :=
  ⟨⟨k.id, k.g, k.c, vaultAddr k.root 0, .contribution, none, 0, 0, false, none, [], 0, 0⟩, [], ok, false⟩

/-- `NRED_CONTRIBUTION`: contribution k joins the open round of its slot at the root, and is acknowledged; while both
rounds are complete it waits in the network; a root that the partition no longer reaches acknowledges a failure (R233,
R237, R364). -/
def execNredContribution (k : Nat) (s : State) : Res :=
  .next <| match Tab.find s.net.nreds k with
    | none => s
    | some q =>
      let t := s.tag q.g
      let answer := fun (s : State) (ok : Bool) => s.withNet fun n => { n with
        nreds := Tab.drop n.nreds k, replies := Tab.put n.replies k (q.ack ok) }
      if (s.chip (chipOf q.root)).off then s
      else if !s.holds t q.root || (s.core q.root).dbg.checked || (s.core q.root).dbg.fenced then answer s false
      else match joinRounds q.n q.v (Tab.look [] (s.core q.root).nred (slotKey t q.slot)) with
        | none => s
        | some l => (answer (s.setRounds t q.root q.slot l) true).count t 6 1

end Sys2Proof.Machine
end

