-- ==== Sys2Proof/Machine/Traps.lean ====
section
/-! DEFINITION. Settling and leaving traps (R213 to R216), the steps by which a context traps late (R209, R210),
watchdogs (R219), waits that end (R66), classes that rise (R79), and the fetch of a line (R13, R14). -/

namespace Sys2Proof.Machine

/-! ### RESUME (R213, R215) -/

/-- The context whose frame stands at an address, if one does (R215). -/
def frameOwner (f : Word) : Option Nat := firstBelow (fun k => f == BitVec.ofNat 64 (frameAddr k)) 24

/-- A doubleword of the scratchpad of core g. -/
def State.frameWord (s : State) (g f off : Nat) : Word := (s.work g).spad.word (f + off)

/-- The settle field of the record of an entry among the records of a frame: 0 replay, 1 discard, 2 mark done (R212). -/
def State.settleOf (s : State) (g f n : Nat) (seq : Byte) : Nat :=
  match (List.range n).find? fun i => field (s.frameWord g f (0x208 + 16 * i)) 0 8 == seq.toNat with
  | some i => field (s.frameWord g f (0x208 + 16 * i)) 13 2
  | none => 0

/-- The queue of a unit code: 1 qc0, 2 qc1, 3 qg, 4 qm (R212). -/
def unitQueue (u : BitVec 3) : Nat := u.toNat - 1

/-- A core without the attached command of context c with a sequence number (R213). -/
def Work.dropCommand (w : Work) (c : Nat) (seq : Byte) : Work :=
  { w with queues := Tab.each (fun _ q => q.filter fun m => !(m.attached && m.c == c && m.seq == seq)) w.queues }

/-- A core with the attached command of context c with a sequence number held for its replay, which comes in record order; it
raises no watchpoint where the ERET suppresses them (R213, R217). -/
def Work.requeue (w : Work) (c : Nat) (seq : Byte) (watchOff : Bool) : Work :=
  { w with queues := Tab.each (fun _ q => q.map fun m =>
      if m.attached && m.c == c && m.seq == seq then { m with st := .held, watchOff := watchOff } else m) w.queues }

/-- The settlement of one recorded entry of context c of core g: it stays to be replayed, or it leaves the ring, and
a command leaves its queue (R213). -/
def State.settleEntry (s : State) (g c f n : Nat) (e : RingEntry) : State :=
  let v := s.settleOf g f n e.seq
  if v = 1 ∨ v = 2 then
    let k := s.ctx g c
    let s1 := s.setCtx g c { k with framed := k.framed.filter fun x => x.seq != e.seq }
    if e.unit = 0 then s1 else s1.setWork g ((s1.work g).dropCommand c e.seq)
  else s

/-- `RESUME`: the settle fields of a live frame are applied, and it becomes the settling frame (R215). -/
def execResume (a : XReg) (s : State) : Res :=
  let g := s.cur.1
  let x := s.x a
  .next <|
    if !s.me.sup then s.privTrap
    else match frameOwner x with
      | none => s.illegal
      | some t =>
        let f := frameAddr t
        if !s.frameLive g f || decide (4 < field (s.frameWord g f 0x120) 0 3) then s.illegal
        else
          let n := field (s.frameWord g f 0x20) 8 6
          let s1 := (s.ctx g t).framed.foldl (fun u e => u.settleEntry g t f n e) s
          let w := s1.work g
          let s2 := s1.setWork g { w with spad := w.spad.putWord (f + 0x18) (w.spad.word (f + 0x18) ||| 0x10000) }
          (s2.setMe { s2.me with settling := f }).retire 2

/-! ### ERET (R216) -/

/-- The loop stack in a frame, top entry first (R212). -/
def State.frameLoops (s : State) (g f depth : Nat) : List LoopEntry :=
  ((List.range depth).map fun i =>
    LoopEntry.mk (s.frameWord g f (0xC0 + 24 * i)) (s.frameWord g f (0xC8 + 24 * i)) (s.frameWord g f (0xD0 + 24 * i))).reverse

/-- A recorded entry as it returns to the ring to be replayed: it runs again from its captured values, but lanes that have
completed stay so (R213, R255). -/
def RingEntry.back (e : RingEntry) : RingEntry :=
  { e with
    st := .held, finished := false, cause := 0, fault := 0, comparator := none, pieces := [], records := [], raised := 0, more := 0 }

/-- A context of core g as its frame restores it: registers, loops, privilege, step and watchpoint marks; its recorded
entries return to the ring to be replayed; the settling of a watchdog trap resets the count (R213, R216, R219). -/
def State.restored (s : State) (g f : Nat) (k : Ctx) : Ctx :=
  let w := s.frameWord g f 0x18
  let back := k.framed.map RingEntry.back
  let dog := field w 0 8 == 0x11
  { k.setXs 0 ((List.range 16).map fun i => s.frameWord g f (0x40 + 8 * i)) with
    owed := [], loops := s.frameLoops g f (field (s.frameWord g f 0x120) 0 3), sup := w.getLsbD 9,
    watchOff := w.getLsbD 18, stepArm := w.getLsbD 17, ring := k.ring ++ back, framed := [],
    replay := !back.isEmpty, watch := if dog then 0 else k.watch, watchTrap := k.watchTrap && !dog,
    since := s.cycle g, age := s.cycle g, bump := 0 }

/-- `ERET`: the settling frame is left (R216). Its own context goes on at the resume address, after its replays; another
context becomes ready there. -/
def execEret (s : State) : Res :=
  let g := s.cur.1
  .next <|
    if !s.me.sup then s.privTrap
    else match frameOwner (BitVec.ofNat 64 s.me.settling) with
      | none => s.illegal
      | some t =>
        let f := frameAddr t
        let resume := s.frameWord g f 0
        if !s.frameLive g f || resume.getLsbD 0 || decide (4 < field (s.frameWord g f 0x120) 0 3)
            || (field (s.frameWord g f 0x20) 8 6 != 0 && !(s.frameWord g f 0x18).getLsbD 16) then s.illegal
        else if t ≠ s.cur.2 ∧ !s.me.drained then s.hold (.blocked .drain)
        else
          let k := s.restored g f (s.ctx g t)
          let w := (s.ctx g t).framed.foldl (fun w e => if e.unit = 0 then w else w.requeue t e.seq k.watchOff) (s.work g)
          let s1 := s.setWork g { w with spad := w.spad.putWord (f + 0x18) (w.spad.word (f + 0x18) &&& ~~~0x8000) }
          if t = s.cur.2 then s1.setMe { k.resumeAt resume with chunk := k.chunk + 1 }
          else if (s.ctx g t).role = .free then s1.retire 2
          else (s1.setCtx g t (k.resumeAt resume)).retire 2

/-! ### Late causes (R209, R210) -/

/-- A late cause as it is raised; the frame is completed at entry. -/
def lateInfo (e : RingEntry) (pc : Word) : TrapInfo where
  cause := e.cause
  late := true
  resume := pc
  fault := e.fault
  source := 0
  mask := 0
  code := BitVec.ofNat 10 (e.comparator.getD 0)
  dbg := e.comparator.isSome
  seq := e.seq

/-- `RING_ENTRY_COMPLETE`: an entry whose instruction has completed leaves the ring; one that faulted is reported to
its context, which issues nothing further; a narrowing with records left appends its next one (R54, R140, R209, R210). -/
def execRingEntryComplete (g c : Nat) (seq : BitVec 8) (s : State) : Res :=
  let k := s.ctx g c
  .next <| match k.ring.find? fun e => e.seq == seq with
    | none => s
    | some e =>
      match e.st with
      | .done => s.setCtx g c { k with ring := dropFirst (fun x => x.seq == seq) k.ring }
      | .faulted => if k.trap.isNone then s.setCtx g c { k with trap := some (lateInfo e k.pc) } else s
      | .running => if s.works g then s.narrowOn g c e else s
      | _ => s

/-- Whether entry e must wait for an earlier entry f: it reads or writes a register that f writes (R210). -/
def RingEntry.dependsOn (e f : RingEntry) : Bool := (vWrites f.instr).any fun r => (vReads e.instr ++ vWrites e.instr).contains r

/-- The held entry that is replayed next: the first, in record order, that depends on no earlier entry that is incomplete and
that `free` lets go (R210, R213). -/
def nextHeld (free : RingEntry → Bool) : List RingEntry → List RingEntry → Option RingEntry
  | _, [] => none
  | before, e :: r =>
    if e.st = .held ∧ !before.any (fun f => f.st != .done && e.dependsOn f) ∧ free e then some e
    else nextHeld free (before ++ [e]) r

/-- Whether a command is one that context c of its core issued, attached, with a sequence number. -/
def Cmd.isOf (m : Cmd) (c : Nat) (seq : Byte) : Bool := m.attached && m.c == c && m.seq == seq

/-- Whether no command of context c that is faulted or held stands before the one of an entry in a queue (R210). -/
def Work.entryFree (w : Work) (c : Nat) (e : RingEntry) : Bool :=
  e.unit == 0 || w.queues.all fun q =>
    !(q.2.any fun m => m.isOf c e.seq) ||
      (q.2.takeWhile fun m => !m.isOf c e.seq).all fun m => !(m.attached && m.c == c && (m.st == .faulted || m.st == .held))

/-- The entry that context c of core g replays next (R213). -/
def State.nextReplay (s : State) (g c : Nat) : Option RingEntry := nextHeld ((s.work g).entryFree c) [] (s.ctx g c).ring

/-- Whether a raised trap waits for the end of a wait: a barrier, a remote load, a fabric operation, an unbinding (R210). -/
def Ctx.mustReturn (k : Ctx) : Bool :=
  match k.st with
  | .waiting .barrier => true
  | .waiting (.load _) => true
  | .blocked (.fabric _) => true
  | .blocked (.unbind _) => true
  | _ => false

/-- `TRAP_ENTRY`: a raised trap is entered once no entry of the context executes, none is still to be replayed, and nothing of it
is under way; a late one resumes at the first instruction that has not issued (R205, R207, R210, R213). A context that is parked takes
it at once, and what it parked at is recorded as held (DESIGN CHOICE, log entry 124). -/
def execTrapEntry (g c : Nat) (s : State) : Res :=
  let k := s.ctx g c
  .next <| match k.trap with
    | none => s
    | some t =>
      if !k.settled || k.mustReturn || !s.runs g || (k.replay && (s.nextReplay g c).isSome) then s
      else s.enterTrap g c (if t.late then { t with resume := k.pc } else t)

/-- A trap that is raised and not yet entered, with the watchdog cause raised at the same boundary: the lower cause is taken, an
exact one before a late one whose code is no lower, and each sets its bit in the mask (R208, R219). -/
def TrapInfo.withWatchdog (t w : TrapInfo) : TrapInfo :=
  if t.late || w.cause.toNat < t.cause.toNat then { w with mask := w.mask ||| t.mask } else { t with mask := t.mask ||| w.mask }

/-- `WATCHDOG`: the count of a context reaches the limit: cause 0x11; the second time before the settling ERET, the
context is hung and its partition is reset (R219). -/
def execWatchdog (g c : Nat) (s : State) : Res :=
  let k := s.ctx g c
  let limit := (s.work g).wdlimit.toNat * 1024
  .next <|
    if limit = 0 ∨ k.role = .free ∨ k.watch < limit then s
    else if k.watchTrap then s.resetPart g
    else if k.sup || k.mustReturn then s
    else match k.trap with
    | some t => s.setCtx g c { k with trap := some (t.withWatchdog (({ s with cur := (g, c) } : State).trapInfo 0x11 0)) }
    | none => match k.st with
      | .ready => s.as g c fun t => t.trap 0x11
      | .blocked _ => s.as g c fun t => t.trap 0x11
      | _ => s

/-! ### Waits that end (R66) -/

/-- Whether a command has completed: it is neither in a queue of the core nor in the image of a swapped crew (R277). -/
def Work.cmdGone (w : Work) (q : Queue) (id : Nat) : Bool :=
  !((w.queue q).any fun m => m.id == id) && !(w.swapped.any fun i => i.2.cmds.any fun e => e.2.id == id)

/-- Whether a transfer has memory to read, and whether it has memory to read or write. -/
def Transfer.fetches (t : Transfer) : Bool := t.srcs.any fun x => match x with
  | .phys _ _ => true
  | _ => false
def Transfer.inMemory (t : Transfer) : Bool := t.fetches || t.dsts.any fun d => match d.2.2 with
  | .phys _ => true
  | _ => false

/-- How far a command has come that translated, active or stopped at a piece. -/
def CmdState.progress : CmdState → Option Progress
  | .active p => some p
  | .paused p => some p
  | _ => none

/-- Every work of a package with the tag of its partition: those of its cores, those set aside while an evict routine runs, those
in images (R357). -/
def State.chipWorks (s : State) (chip : Nat) : List (Nat × Work) :=
  (s.cores.filter fun e => chipOf e.1 == chip).flatMap fun e =>
    (e.2.ptag.toNat, e.2.work) :: ((match e.2.evicting with
      | some (.routine _ w) => [(e.2.ptag.toNat, w)]
      | _ => []) ++ match e.2.image with
      | some i => [(i.tag.toNat, i.work)]
      | none => [])

/-- Whether a gather command took an entry that q accepts, by its address, from a block map cache, and has blocks left to fetch
(R339). -/
def Cmd.gathersFrom (m : Cmd) (q : Nat → Bool) : Bool :=
  match m.st, m.st.progress with
  | .walking w, _ => w.cached.any q
  | _, some p => p.cached.any q && p.moves.any Transfer.fetches
  | _, none => false

/-- The commands of a core's work, those of swapped crews among them. -/
def Work.commands (w : Work) : List Cmd :=
  (w.queues.flatMap fun q => q.2) ++ w.swapped.flatMap fun i => i.2.cmds.map fun e => e.2

/-- The gather commands of partition t on a package that took an entry that q accepts from a block map cache and have blocks left to
fetch (R339). -/
def State.gathersOf (s : State) (chip t : Nat) (q : Nat → Bool) : List Nat :=
  (((s.chipWorks chip).filter fun e => e.1 == t).flatMap fun e => e.2.commands.filter fun m => m.gathersFrom q).map fun m => m.id

/-- Whether what a context of core g waits for has come about. A barrier, a message and a settled frame wake their
contexts themselves. -/
def State.waitOver (s : State) (g c : Nat) (k : Ctx) : Bool :=
  match k.st with
  | .waiting (.join va) => s.joined g k va
  | .waiting (.phase bar p) => (readBar (s.work g).spad bar).phaseDone p
  | .waiting (.pennant key gen) => (match s.counter (s.tag g) key with
      | some q => q.raised gen
      | none => false)
  | .waiting (.load rs) => k.owed.all fun o => !rs.contains o.2
  | .waiting (.commands q ids) => ids.all fun i => (s.work g).cmdGone q i
  | .waiting (.matrix ids) => ids.all fun i => (s.work g).cmdGone .qm i
  | .blocked (.unbind ch) => (match s.lpOf g ch.toNat with
      | some (_, lp) => !lp.unbind.contains ch.toNat
      | none => true)
  | .blocked (.gathers ids) => !(s.gathersOf (chipOf g) (s.tag g) fun _ => true).any fun i => ids.contains i
  | .waiting .over => true
  | .waiting (.round slot _) => (s.roundReady g slot).isSome && s.longest g (s.roundWaiters g slot) == some c
  | _ => false

/-- `WAIT_WAKE`: the context is ready again, and its instruction goes on; a context that waited for a reduction has its
round, and a BWAIT, a CWAIT, an EQWAIT, the wait of an unbinding LPBIND or that of a BMCINV is over (R66, R152, R179, R238, R277, R316,
R339). The return of a CWAIT ends a chunk (R372). -/
def execWaitWake (g c : Nat) (s : State) : Res :=
  let k := s.ctx g c
  .next <|
    if k.role ≠ .free ∧ s.waitOver g c k ∧ s.runs g then
      let go := fun (s : State) => s.setCtx g c { s.ctx g c with st := .ready, since := s.cycle g, age := s.cycle g, bump := 0 }
      let s1 := go s
      match k.st with
      | .waiting (.round slot d) => s1.as g c fun t => t.takeRound slot d
      | .waiting (.phase _ _) => s1.as g c fun t => t.retire 2
      | .waiting (.pennant _ _) => s.atChunkEnd g c 1 none fun s => (go s).as g c fun t => t.retire 2
      | .waiting .over => s.atChunkEnd g c 1 none fun s => (go s).as g c fun t => t.retire 2
      | .blocked (.gathers _) => s1.as g c fun t => t.retire 2
      | .waiting (.commands _ _) => s1.as g c fun t => t.retire 2
      | .blocked (.unbind _) => s1.as g c fun t => t.retire 2
      | _ => s1
    else s

/-! ### Classes (R79) -/

/-- A context's base class, with its event's state (R78). -/
def State.base (s : State) (g c : Nat) : Nat := s.baseClass g c (s.speculative g c)

/-- `CLASS_PROMOTION`: a context ready for 256 cycles more without issuing moves up one class (R79). -/
def execClassPromotion (g c : Nat) (s : State) : Res :=
  let k := s.ctx g c
  .next <|
    if k.role ≠ .free ∧ k.st = .ready ∧ k.age + 256 * (k.bump + 1) ≤ s.cycle g ∧ k.bump < s.base g c then
      s.setCtx g c { k with bump := k.bump + 1 }
    else s

/-! ### Fetch (R13, R14) -/

/-- Whether the instruction buffer of a context holds the line of its program counter. -/
def Ctx.lineHeld (k : Ctx) : Option (List Byte) :=
  match k.ibuf with
  | some (a, bs) => if a = k.pc &&& ~~~0x7F then some bs else none
  | none => none

/-- The line of the program counter of a context of core g fetched into its buffer; a translation fault parks the
context or traps (R13, R14, R251). -/
def State.fetchFor (s : State) (g c : Nat) : State × Option (List Byte) :=
  let k := s.ctx g c
  match k.lineHeld with
  | some bs => (s, some bs)
  | none =>
    let r := s.translate g (!k.sup) k.pc .fetch
    match r.2 with
    | .error f =>
      (r.1.as g c fun t => if t.parks g k.sup f then t.parkHere k.pc .fetch f else t.trap 0x07 k.pc, none)
    | .ok pa =>
      if !r.1.physOk g k.sup pa ⟨2, false, false, false, false⟩ then (r.1.as g c fun t => t.trap 0x07 k.pc, none)
      else if r.1.homeAway g pa || r.1.homeBusy pa || r.1.homeOff pa then (r.1.as g c fun t => t.hold (.blocked .loads), none)
      else
        let bs := r.1.readPhys (pa / 128 * 128) 128
        (r.1.setCtx g c { r.1.ctx g c with ibuf := some (k.pc &&& ~~~0x7F, bs) }, some bs)

/-- `FETCH_LINE`: a ready context's line is fetched (R13). -/
def execFetchLine (g c : Nat) (s : State) : Res :=
  let k := s.ctx g c
  .next <| if k.role ≠ .free ∧ k.st = .ready ∧ k.trap = none ∧ s.runs g then (s.fetchFor g c).1 else s

end Sys2Proof.Machine
end

