-- ==== Sys2Proof/Machine/Translate.lean ====
section
/-! DEFINITION. The translation instructions (R256 to R262), BMCINV (R339), and crew swap (R263 to R267). -/

namespace Sys2Proof.Machine

/-! ### TLBINV and TLBSYNC (R259 to R261) -/

/-- The cached translations that q accepts removed from every TLB of a package (R259). -/
def State.flushTlbs (s : State) (chip : Nat) (q : TlbEntry → Bool) : State :=
  let keep := fun (l : List TlbEntry) => l.filter fun e => !q e
  { s with
    cores := Tab.each (fun g k => if chipOf g = chip then { k with itlb := keep k.itlb, dtlb := keep k.dtlb } else k) s.cores,
    clusters := Tab.each (fun n k => if n / 160 = chip then { k with tlb := keep k.tlb } else k) s.clusters }

/-- A TLBINV of the executing context: the entries leave the TLBs of the package, and the context's next TLBSYNC
waits for the accesses that may have used them (R259, R260). -/
def State.invalidate (s : State) (q : TlbEntry → Bool) : State :=
  let t := s.flushTlbs (chipOf s.cur.1) q
  (t.setMe { t.me with inv := t.nextId }).retire 2

/-- A TLBINV that only the hypervisor partition may issue (R259). -/
def State.invalidate2 (s : State) (q : TlbEntry → Bool) : State :=
  if (s.part (s.tag s.cur.1)).hyper then s.invalidate q else s.privTrap

/-- Whether an entry's stage-2 page holds an intermediate address (R259). -/
def TlbEntry.holdsIa (e : TlbEntry) (ia : Nat) : Bool := ia / 2 ^ e.bits2 * 2 ^ e.bits2 == e.ia

/-- `TLBINV_PAGE` and its stage-2 form (R259). -/
def execTlbinvPage (a : XReg) (b : BitVec 1) (s : State) : Res :=
  let x := s.x a
  .next <|
    if !s.me.sup then s.privTrap
    else if b = 0 then
      let v := x.toNat % 2 ^ 57
      if canonical x then s.invalidate fun e => e.tag == s.tag s.cur.1 && v / 2 ^ e.bits * 2 ^ e.bits == e.va
      else s.invalidate fun _ => false
    else if field x 6 6 ≠ 0 ∨ field x 56 8 ≠ 0 then s.illegal
    else s.invalidate2 fun e => e.tag == field x 0 6 && e.holdsIa (field x 12 44 * 4096)

/-- `TLBINV_PART` and its stage-2 form (R259). -/
def execTlbinvPart (a : XReg) (b : BitVec 1) (s : State) : Res :=
  let x := s.x a
  .next <|
    if !s.me.sup then s.privTrap
    else if b = 0 then s.invalidate fun e => e.tag == s.tag s.cur.1
    else if x.toNat ≥ 64 then s.illegal
    else s.invalidate2 fun e => e.tag == x.toNat

/-- `TLBINV_ALL`: the stage-2 form that removes every entry (R259). -/
def execTlbinvAll (s : State) : Res :=
  .next (if !s.me.sup then s.privTrap else s.invalidate2 fun _ => true)

/-- Whether a request with a number below n of a core of a package has not been performed; one that an evicted core has still to send is
such a request too (R260, R357). -/
def State.accessesBefore (s : State) (chip n : Nat) : Bool :=
  let old := fun (r : MemReq) => decide (r.id < n) && chipOf r.g == chip
  s.net.reqs.any (fun e => old e.2) || s.net.retries.any (fun e => e.2.2.reqs.any old)
    || (s.chipWorks chip).any fun e => e.2.requests.any fun q => q.item.reqs.any old

/-- Whether a command translated before number n and has accesses left (R260). -/
def Cmd.usesBefore (m : Cmd) (n : Nat) : Bool :=
  match m.st.progress with
  | some p => decide (p.began < n) && (p.moves.any Transfer.inMemory || p.after.any fun a => match a with
      | .entry _ _ _ _ => true
      | _ => false)
  | none => false

/-- Whether q accepts a command of a work of partition t, or of any partition for the hypervisor partition, on a package. -/
def State.anyCmd (s : State) (chip t : Nat) (q : Cmd → Bool) : Bool :=
  (s.chipWorks chip).any fun e => (e.1 == t || (s.part t).hyper) && e.2.commands.any q

/-- `TLBSYNC`: blocks until every access of the package that was sent before the context's last TLBINV has been performed at its
home, and every access of an engine command that translated before it (R260). A JOIN translates for each look at its
count, and a parked command starts again. -/
def execTlbsync (s : State) : Res :=
  let chip := chipOf s.cur.1
  .next <|
    if !s.me.sup then s.privTrap
    else if s.accessesBefore chip s.me.inv || s.anyCmd chip (s.tag s.cur.1) (fun m => m.usesBefore s.me.inv) then
      s.hold (.blocked .tlbsync)
    else (s.setMe { s.me with inv := 0 }).retire 2

/-! ### FBREAD, FBPOP and XLATE (R252, R257, R262) -/

/-- The executing partition's entries in its cluster's fault buffer, oldest first (R257). -/
def State.faultEntries (s : State) (g : Nat) : List FaultEntry := (s.cluster g).faults.filter fun e => e.tag == s.tag g

/-- A word of a fault-buffer entry (R252). -/
def FaultEntry.word (e : FaultEntry) (w : Nat) : Word :=
  if w = 0 then e.va
  else if w = 1 then pack [(0, e.tag), (6, e.kind.toNat), (8, bitOf e.stage2), (9, bitOf e.perm), (10, e.level.toNat),
    (13, e.count), (21, bitOf e.engine)]
  else e.ia

/-- `FBREAD` (R252, R257). -/
def execFbread (d : XReg) (w : BitVec 2) (e : BitVec 3) (s : State) : Res :=
  let g := s.cur.1
  let l := s.faultEntries g
  .next <|
    if !s.me.sup then s.privTrap
    else if w = 3 then writeX s 2 d (pack [(0, l.length), (4, bitOf ((s.cluster g).dropped.contains (s.tag g)))])
    else writeX s 2 d (match l[e.toNat]? with
      | some f => f.word w.toNat
      | none => 0)

/-- `FBPOP` (R257). -/
def execFbpop (s : State) : Res :=
  let g := s.cur.1
  .next <|
    if !s.me.sup then s.privTrap
    else
      let q := s.cluster g
      (s.setCluster g { q with faults := dropFirst (fun e => e.tag == s.tag g) q.faults }).retire 2

/-- The code of a page size (R262). -/
def pageCode (bits : Nat) : Nat := if bits = 12 then 0 else if bits = 16 then 1 else if bits = 21 then 2 else 3

/-- The access kind that XLATE names. -/
def xlateKind (k : BitVec 2) : Access := if k = 0 then .read else if k = 1 then .write else .fetch

/-- `XLATE`: a walk that fills no TLB, after the context's own earlier stores, AMOs and loads have been performed (R240, R262). -/
def execXlate (d a : XReg) (k : BitVec 2) (s : State) : Res :=
  let x := s.x a
  .next <|
    if !s.me.drained then s.hold (.blocked .drain)
    else match s.walk s.cur.1 (!s.me.sup) x (xlateKind k) with
      | .ok e => writeX (s.chargeWalk s.cur.1 x) 2 d (pack [(0, e.pa + x.toNat % 2 ^ e.bits), (56, pageCode e.bits)])
      | .error f => writeX (s.chargeWalk s.cur.1 x) 2 d (pack [(0, f.why.toNat), (2, bitOf f.stage2), (3, f.level.toNat), (63, 1)])

/-! ### REPLAYALL (R258) -/

/-- A parked command that a REPLAYALL reaches starts again from the beginning (R288). -/
def Cmd.restart (m : Cmd) : Cmd := if m.st = .parked then { m with st := .queued } else m

/-- A core's work that a REPLAYALL reaches: parked contexts replay, parked commands are queued again, and swapped crews
may return (R255, R258, R265, R288). -/
def Work.replayAll (w : Work) : Work :=
  { w with
    ctxs := Tab.each (fun _ k => if k.st = .parked then { k with replay := true } else k) w.ctxs,
    queues := Tab.each (fun _ q => q.map Cmd.restart) w.queues,
    swapped := Tab.each (fun _ i => { i with ready := true, cmds := i.cmds.map fun e => (e.1, e.2.restart) }) w.swapped }

/-- The place of a crew image in a core's vault (R263). -/
def Work.imageAt (w : Work) (slot : Nat) : Nat := field w.oxbow 23 15 * 2 ^ 23 + 0x360000 + slot * 0x100000

/-- The state word of the image headers of core g's swapped crews (R264). -/
def State.markImages (s : State) (g : Nat) (w : Work) : State :=
  w.swapped.foldl (fun t e => { t with mem := t.mem.putWord (vaultAddr g (w.imageAt e.1 + 0x28)) (pack [(0, 1), (1, 1)]) }) s

/-- REPLAYALL of partition t at one core: its work, and the saved work of an eviction in progress; an image records it
(R258, R358). -/
def State.replayAt (s : State) (t g : Nat) : State :=
  let k := s.core g
  match k.image with
  | some i => if i.tag.toNat = t then (s.setCore g { k with image := some { i with replay := true } }).markImages g i.work else s
  | none =>
    if s.tag g ≠ t then s
    else match k.evicting with
      | some (.routine n w) => (s.setCore g { k with evicting := some (.routine n w.replayAll) }).markImages g w
      | _ => (s.setWork g k.work.replayAll).markImages g k.work

/-- `REPLAYALL`: table stores are performed first; then, at one instant, flags are cleared, parked contexts replay, and
swapped crews may return (R258). -/
def execReplayall (s : State) : Res :=
  let g := s.cur.1
  let t := s.tag g
  .next <|
    if !s.me.sup then s.privTrap
    else if !s.me.drained then s.hold (.blocked .drain)
    else
      let q := s.cluster g
      let any := q.faults.any fun e => e.tag == t
      let notice := q.notice.filter fun n => n != t
      let s1 := s.setCluster g { q with dropped := q.dropped.filter fun n => n != t, notice := if any then notice ++ [t] else notice }
      let s2 := (clusterCores g).foldl (fun u h => u.replayAt t h) s1
      (if any then s2.sendNotice g else s2).retire 2

/-! ### BMCINV (R338, R339) -/

/-- Entries of the block map caches of a package removed (R338, R339). -/
def State.flushMaps (s : State) (chip : Nat) (q : Nat × Nat × Nat → Bool) : State :=
  { s with clusters := Tab.each (fun n k =>
      if n / 160 = chip then { k with blockMap := k.blockMap.filter fun e => !q e } else k) s.clusters }

/-- `BMCINV`: the named entries leave the caches of the package once the context's stores are performed, and it then waits for the gather
commands that had taken one of them from a cache, and for no later one (R339). -/
def execBmcinv (a : XReg) (s : State) : Res :=
  let x := s.x a
  let t := s.tag s.cur.1
  .next <|
    if !s.me.sup then s.privTrap
    else if x ≠ BitVec.allOnes 64 ∧ x.toNat % 4 ≠ 0 then s.trap 0x06 x
    else if !s.me.drained then s.hold (.blocked .drain)
    else
      let named := fun (a : Nat) => x == BitVec.allOnes 64 || a == x.toNat
      let s1 := s.flushMaps (chipOf s.cur.1) fun e => e.1 == t && named e.2.1
      let ids := s1.gathersOf (chipOf s.cur.1) t named
      if ids.isEmpty then s1.retire 2 else s1.hold (.blocked (.gathers ids))

/-! ### Crew swap (R53, R264, R267) -/

/-- The contexts of core g that hold strands of a crew. The record keeps the number of the context in which a strand has halted, which
another strand may have by now. -/
def State.strands (s : State) (g id : Nat) (q : Crew) : List Nat :=
  (q.ctxs.zipIdx.filter fun e => (s.ctx g e.1).role == .strand id e.2).map fun e => e.1

/-- Whether a core may swap a crew out at all: PSWAP.n and OXBOW.E are set, and an image slot is free (R263, R267). -/
def Work.swaps (w : Work) : Bool :=
  w.pswap.toNat % 32 != 0 && w.oxbow.getLsbD 0 && (firstBelow (fun n => (Tab.find w.swapped n).isNone) 4).isSome

/-- Whether a crew may be swapped: no bound descriptor lies in its allotment (R316, R331). -/
def State.movable (s : State) (g : Nat) (q : Crew) : Bool := (s.work g).lps.all fun e => bankMask q.bank q.n &&& e.2.banks == 0

/-- Whether a crew passes the PSWAP threshold (R53). -/
def State.overThreshold (s : State) (g id : Nat) (q : Crew) : Bool :=
  let w := s.work g
  let ps := (s.strands g id q).filter fun c => (s.ctx g c).st == .parked
  decide (w.pswap.toNat % 32 ≤ ps.length) && ps.any fun c => decide ((s.ctx g c).parkedAt + w.pswap.toNat / 256 ≤ s.cycle g)

/-- Whether a crew of core g is to be swapped out; its strands do not issue meanwhile (R264). -/
def State.swapWanted (s : State) (g id : Nat) : Bool :=
  match Tab.find (s.work g).crews id with
  | some q => (s.work g).swaps && s.overThreshold g id q && s.movable g q
  | none => false

/-- Whether nothing of a strand is under way but its engine commands: its V-slot entries have completed, its stores are
acknowledged, its loads have returned, and no trap is to be entered (R264). -/
def Ctx.still (k : Ctx) : Bool :=
  k.drained && k.trap.isNone && (match k.st with
    | .blocked (.fabric _) => false
    | _ => true)

/-- Whether an active command of a crew runs at a core (R264). -/
def Work.crewActive (w : Work) (id : Nat) : Bool :=
  w.queues.any fun q => q.2.any fun m => m.crew == some id && m.st.isActive

/-- Whether the crew can leave now: every strand is still, and no command of it is active. -/
def State.canLeave (s : State) (g id : Nat) (q : Crew) : Bool :=
  (s.strands g id q).all (fun c => (s.ctx g c).still) && !(s.work g).crewActive id

/-- The queued commands of a crew, by queue, in order; one in a shadow set waits in its queue (R264, R274). -/
def Work.crewCommands (w : Work) (id : Nat) : List (Queue × Cmd) :=
  [Queue.qc0, .qc1, .qg, .qm].flatMap fun q =>
    ((w.queue q).filter fun m => m.crew == some id).map fun m => (q, { m with st := m.st.stop })

/-- One bit for each strand whose context satisfies a test. -/
def Crew.bits (q : Crew) (f : Nat → Nat → Bool) : Nat :=
  (q.ctxs.zipIdx.map fun e => if f e.2 e.1 then 2 ^ e.2 else 0).foldl (· + ·) 0

/-- The header of a crew image (R264). -/
def State.imageHeader (s : State) (g id : Nat) (q : Crew) : List Word :=
  [q.index, pack [(0, q.grid.counter % 4096), (12, q.grid.counter / 4096 % 64)],
   pack [(0, q.ctxs.length), (8, q.bank), (12, q.n)],
   pack [(0, q.bits fun j _ => q.halted.contains j),
     (16, q.bits fun j c => (s.ctx g c).role == .strand id j && (s.ctx g c).st == .parked), (32, q.bits fun j _ => q.arrived.contains j)],
   BitVec.ofNat 64 (s.cycle g), pack [(0, 0), (1, 1)]]

/-- The poisoned granules of an allotment. -/
def Work.bankPoison (w : Work) (b n : Nat) : List Nat :=
  w.poison.filter fun p => decide (0x400 * b ≤ p) && decide (p < 0x400 * (b + n))

/-- Contexts returned to the free list, their arrival slots still held; their live frames have left with them (R264). -/
def State.clearCtxs (s : State) (g : Nat) (cs : List Nat) : State := cs.foldl (fun t c => (t.liftFrame g c).setCtx g c Ctx.reset) s

/-- A crew written to an image slot, with the strands that are written out in JOIN: its contexts and banks are released (R90, R264,
R266; log entry 95). -/
def State.swapOut (s : State) (g id : Nat) (q : Crew) : State :=
  let w := s.work g
  match firstBelow (fun n => (Tab.find w.swapped n).isNone) 4 with
  | none => s
  | some slot =>
    let cs := s.strands g id q
    let out := w.joinOut.filter fun e => e.2.crewOf == some id
    let i : SwapImage := {
      number := id, crew := q, ctxs := (cs.map fun c => (c, s.packCtx g c)) ++ out.map fun e => (32 + e.1, e.2),
      poison := w.bankPoison q.bank q.n, cmds := w.crewCommands id, feeders := w.feeders.filter fun f => cs.contains f.1,
      since := s.cycle g, ready := false }
    let at_ := vaultAddr g (w.imageAt slot)
    let s1 := { s with mem := (s.mem.putWords at_ (s.imageHeader g id q)).copyFrom (at_ + 0x41000) w.spad (0x8000 * q.bank) (0x8000 * q.n) }
    let s2 := s1.clearCtxs g cs
    let w2 := s2.work g
    s2.setWork g ({ w2 with
      swapped := Tab.put w2.swapped slot i, crews := Tab.drop w2.crews id,
      joinOut := w2.joinOut.filter fun e => e.2.crewOf != some id,
      feeders := w2.feeders.filter fun f => !cs.contains f.1,
      queues := Tab.each (fun _ l => l.filter fun m => m.crew != some id) w2.queues }.powerDown q.bank q.n)

/-- `CREW_SWAP_OUT`: crew k of core g has passed the threshold, and nothing of it is under way any more (R264). -/
def execCrewSwapOut (g k : Nat) (s : State) : Res :=
  .next <| match Tab.find (s.work g).crews k with
    | none => s
    | some q => if s.swapWanted g k && s.canLeave g k q && s.serves g then s.swapOut g k q else s

/-- Whether a context waits in CWAIT. -/
def Ctx.inCwait (k : Ctx) : Bool :=
  match k.st with
  | .waiting (.pennant _ _) => true
  | _ => false

/-- When the last strand of a crew began to wait. -/
def State.crewSince (s : State) (g id : Nat) (q : Crew) : Nat :=
  (s.strands g id q).foldl (fun n c => max n (s.ctx g c).since) 0

/-- The crew of a list that has waited longest. -/
def State.oldestCrew (s : State) (g : Nat) : List (Nat × Crew) → Option (Nat × Crew)
  | [] => none
  | a :: r =>
    match s.oldestCrew g r with
    | some b => if s.crewSince g b.1 b.2 < s.crewSince g a.1 a.2 then some b else some a
    | none => some a

/-- Whether a crew waits for contexts or banks of core g: a swapped one, or the next of a grid (R267). -/
def State.starved (s : State) (g : Nat) : Bool :=
  ((s.work g).swapped.any fun e => e.2.ready && !s.canReadmit g e.2) || (match (s.work g).nextGrid with
    | some q => !s.canAdmit g q.launch
    | none => false)

/-- Whether every strand of every resident crew of core g has halted or waits in CWAIT; one that is written out waits in JOIN
(R267). -/
def State.crewsIdle (s : State) (g : Nat) : Bool :=
  (s.work g).crews.all fun e => ((s.strands g e.1 e.2).all fun c => (s.ctx g c).inCwait)
    && !((s.work g).joinOut.any fun o => o.2.crewOf == some e.1)

/-- `IDLE_CREW_SWAP`: every strand of every resident crew has halted or waits in CWAIT, and a crew cannot be admitted:
the one that has waited longest, of those that may be swapped, is swapped out once nothing of it is under way (R267, R331). -/
def execIdleCrewSwap (g : Nat) (s : State) : Res :=
  let w := s.work g
  .next <| match s.oldestCrew g (w.crews.filter fun e => !(s.strands g e.1 e.2).isEmpty && s.movable g e.2) with
    | some e => if w.swaps && s.crewsIdle g && s.starved g && s.serves g && s.canLeave g e.1 e.2 then s.swapOut g e.1 e.2 else s
    | none => s

/-! ### Re-admission (R265, R266) -/

/-- The strands of an image put into the lowest free contexts, at their boundaries; parked ones replay (R17, R265, R266). -/
def State.strandsBack (s : State) (g : Nat) : List (Nat × Ctx) → List (Nat × Nat) → State × List (Nat × Nat)
  | [], m => (s, m)
  | (old, k) :: r, m =>
    match s.freeCtx g with
    | none => (s, m)
    | some c =>
      let k1 := { k.unpack c with ibuf := none, arrived := none, age := s.cycle g, bump := 0, replay := k.replay || k.st == .parked }
      ((s.layFrame g c k).setCtx g c k1).strandsBack g r (m ++ [(old, c)])

/-- The new number of a context. -/
def renumber (m : List (Nat × Nat)) (c : Nat) : Nat := match m.find? fun e => e.1 == c with
  | some e => e.2
  | none => c

/-- The strand a context runs in its crew. -/
def Ctx.strandOf (k : Ctx) : Option Nat :=
  match k.role with
  | .strand _ j => some j
  | _ => none

/-- A crew's record with the new context of each strand that has not halted. -/
def Crew.renumbered (q : Crew) (ks : List (Nat × Ctx)) (m : List (Nat × Nat)) : Crew :=
  ks.foldl (fun q e => match e.2.strandOf with
    | some j => q.place j (renumber m e.1)
    | none => q) q

/-- The image in a slot restored to core g (R265). -/
def State.readmit (s : State) (g slot : Nat) (i : SwapImage) : State :=
  let q := i.crew
  let w0 := (s.work g).powerUp q.bank q.n
  let at_ := vaultAddr g (w0.imageAt slot)
  let s1 := s.setWork g { w0 with
    spad := w0.spad.copyFrom (0x8000 * q.bank) s.mem (at_ + 0x41000) (0x8000 * q.n), poison := w0.poison ++ i.poison, swapped := Tab.drop w0.swapped slot }
  let r := s1.strandsBack g i.ctxs []
  let w1 := r.1.work g
  let w2 := { w1 with
    crews := Tab.put w1.crews i.number (q.renumbered i.ctxs r.2),
    feeders := w1.feeders ++ i.feeders.map fun f => (renumber r.2 f.1, f.2) }
  let w3 := i.cmds.foldl (fun (w : Work) e => w.putQueue e.1 (w.queue e.1 ++ [if e.2.attached then { e.2 with c := renumber r.2 e.2.c } else e.2])) w2
  let s2 := r.1.setWork g w3
  { s2 with mem := s2.mem.putWord (at_ + 0x28) 0 }

/-- `CREW_READMISSION`: the oldest swapped crew that may return and whose contexts and banks are free does (R265). -/
def execCrewReadmission (g : Nat) (s : State) : Res :=
  .next <| match s.nextJob g with
    | some (.readmit slot) => match Tab.find (s.work g).swapped slot with
      | some i => (s.readmit g slot i).workFound g
      | none => s
    | _ => s

end Sys2Proof.Machine
end

