-- ==== Sys2Proof/Machine/Engines.lean ====
section
/-! DEFINITION. Command queues and engines (R272 to R277, R288), tensor maps (R278, R279), COPY (R280 to R285), PAGEIN
(R286), GATHERKV (R287, R340 to R342), EFENCE and EQWAIT, with what a speculative event does (R320, R324). -/

namespace Sys2Proof.Machine

/-! ### Issue (R273, R283, R320) -/

/-- The unit code of a queue (R212). -/
def queueUnit (q : Queue) : BitVec 3 := BitVec.ofNat 3 (queueNum q + 1)

/-- Bytes that a command would write: the space, the address, and how many (R320). -/
structure Span where
  global : Bool
  addr : Nat
  len : Nat
  deriving DecidableEq, Repr

/-- Whether every byte of a span lies in regions of an LP of kinds that q accepts (R320, R324). -/
def State.spanIn (s : State) (g : Nat) (lp : Lp) (q : Nat → Bool) (p : Span) : Bool :=
  (List.range p.len).all fun i => q (if p.global then lp.kindAt true (p.addr + i) else s.scratchKind g lp (p.addr + i))

/-- What a command of the executing context waits for before it becomes active: the loads and AMOs before it, and the stores to
scratchpads through windows. Its other stores may still be under way (R243, R294, R310). -/
def State.cmdWaits (s : State) : List Nat :=
  let k := s.me
  (k.owed.map fun o => o.1) ++ k.amos ++ ((k.ring.flatMap fun e => e.pieces).filter fun i => !k.acks.contains i)
    ++ ((s.ownReqs s.cur.1 s.cur.2).filter fun r => r.spans.any fun p => (windowAt p.1).isSome).map fun r => r.id

/-- The command of the executing context, as captured (R273). -/
def State.command (s : State) (b : CmdBody) : Cmd where
  id := s.nextId
  c := s.cur.2
  seq := s.me.nextSeq
  addr := s.me.pc
  body := b
  st := .queued
  attached := true
  lateIssue := false
  sup := s.me.sup
  watchOff := s.me.watchOff
  crew := s.me.crewOf
  event := s.me.event
  waits := s.cmdWaits

/-- Whether a command is a feeder (R283). -/
def CmdBody.feeds : CmdBody → Bool
  | .copy _ _ _ _ _ f => f
  | _ => false

/-- A command added at the end of queues of core g. -/
def State.queueCmd (s : State) (g : Nat) (qs : List Queue) (m : Cmd) : State :=
  s.setWork g (qs.foldl (fun (w : Work) q => w.putQueue q (w.queue q ++ [m])) (s.work g))

/-- The first of some queues that is full. -/
def Work.fullQueue (w : Work) (qs : List Queue) : Option Queue :=
  qs.find? fun q => decide (Config.queueEntries ≤ (w.queue q).length)

/-- A command of the executing context enters its queues, with a ring entry, once they have room (R272, R273, R276). -/
def State.enterQueues (s : State) (qs : List Queue) (i : Instr) (b : CmdBody) : State :=
  match (s.work s.cur.1).fullQueue qs with
  | some q => s.hold (.blocked (.command q))
  | none =>
    let m := s.command b
    let e := s.me.newEntry i (queueUnit (qs.headD .qc0))
    let s1 := (s.fresh.setMe (s.me.push e)).queueCmd s.cur.1 qs m
    let w := s1.work s.cur.1
    let fs := if b.feeds then w.feeders ++ [(s.cur.2, m.id)]
      else match b with
        | .mma _ _ _ _ _ => w.feeders.filter fun f => f.1 != s.cur.2
        | _ => w.feeders
    (s1.setWork s.cur.1 { w with feeders := fs }).retire 2

/-- A command of the executing context issued: at once outside speculative events and where all it writes lies in the
LP's regions, else held; a coasting event drops what writes outside its checkpoint regions (R320, R324). -/
def State.issueCommand (s : State) (qs : List Queue) (i : Instr) (b : CmdBody) (ws : List Span) : State :=
  let g := s.cur.1
  match s.ahead g s.cur.2 with
  | none => s.enterQueues qs i b
  | some (slot, lp, e) =>
    if e.st = .coasting then
      (if ws.all (s.spanIn g lp fun k => k == 3) then s.enterQueues qs i b else s.retire 2)
    else if ws.all (s.spanIn g lp fun k => k != 0) then s.enterQueues qs i b
    else
      let item := HeldItem.command (qs.headD .qc0) i (s.command b)
      if lp.commitR.room (heldBytes item.content.length) then (s.holdItem g slot e item).retire 2
      else s.hold (.blocked .commit)

/-- The exact checks of a barrier operand: all ones name none (R284). -/
def State.barOperand (s : State) (x : Word) : List (Nat × Word) :=
  if x = BitVec.allOnes 64 then [] else s.barCauses x true

/-! ### Bytes that engines move (R285, R363) -/

/-- Bytes without poison. -/
def Moved.clean (bs : List Byte) : Moved := ⟨bs, bs.map fun _ => false⟩

/-- Bytes one after another. -/
def Moved.append (a b : Moved) : Moved := ⟨a.bytes ++ b.bytes, a.bad ++ b.bad⟩

/-- The bytes of translated pieces, with their poison. -/
def State.fetchPieces (s : State) (ps : List (Nat × Nat)) : Moved :=
  ⟨s.readPieces ps, ps.flatMap fun p => List.replicate p.2 (s.physPoison p.1 p.2)⟩

/-- Bytes of a scratchpad, with their poison; a bank that is down reads 0, without poison (R288, R294). -/
def State.fetchLocal (s : State) (h off n : Nat) : Moved :=
  ⟨(List.range n).map fun i => if regionOk true (s.work h).power (off + i) false then (s.work h).spad.get (off + i) else 0,
    (List.range n).map fun i => regionOk true (s.work h).power (off + i) false && (s.work h).poisonedAt (off + i) 1⟩

/-- The length of a source piece. -/
def Src.len : Src → Nat
  | .made d => d.bytes.length
  | .phys _ n => n
  | .spad _ _ n => n

/-- The places at which the sources of a list end, from place p on. -/
def srcEnds (p : Nat) : List Src → List Nat
  | [] => []
  | x :: r => (p + x.len) :: srcEnds (p + x.len) r

/-- The sources that lie in places [a, b), the first source at place p. -/
def srcsIn (a b p : Nat) : List Src → List Src
  | [] => []
  | x :: r => if a ≤ p ∧ p + x.len ≤ b ∧ 0 < x.len then x :: srcsIn a b (p + x.len) r else srcsIn a b (p + x.len) r

/-- The 64-B block of memory or of a scratchpad that a source piece lies in (R285). -/
def Src.block : Src → Option (Nat × Nat × Nat)
  | .made _ => none
  | .phys pa _ => some (0, 0, pa / 64)
  | .spad h off _ => some (1, h, off / 64)

/-- The 32-B block of memory, of a scratchpad or of the row buffer that a destination piece lies in; what goes to the macros is a piece
of its own (R285). -/
def Dst.block : Dst → Nat × Nat × Nat
  | .phys pa => (0, 0, pa / 32)
  | .spad h off => (1, h, off / 32)
  | .row p => (2, 0, p / 32)
  | .cell p _ => (3, 0, p)

/-- The place n bytes after a destination. -/
def Dst.shift (n : Nat) : Dst → Dst
  | .phys pa => .phys (pa + n)
  | .spad h off => .spad h (off + n)
  | .row p => .row (p + n)
  | .cell p r => .cell (p + n) r

/-- Destination pieces joined where one goes on in the block of the one before it, as packed rows do (R281, R285). -/
def joinDsts : List (Nat × Nat × Dst) → List (Nat × Nat × Dst)
  | [] => []
  | d :: r =>
    match joinDsts r with
    | e :: q =>
      if d.2.2.block = e.2.2.block ∧ e.1 = d.1 + d.2.1 ∧ e.2.2 = d.2.2.shift d.2.1 then (d.1, d.2.1 + e.2.1, d.2.2) :: q
      else d :: e :: q
    | [] => [d]

/-- The places at which the sources of a list may be cut, from place p on: where the next bytes to be read do not lie in the block that
was read last (R285). -/
def srcCuts (last : Option (Nat × Nat × Nat)) (p : Nat) : List Src → List Nat
  | [] => []
  | x :: r =>
    let b := x.block.or last
    let next := r.findSome? Src.block
    (if b.isSome && next == b then [] else [p + x.len]) ++ srcCuts b (p + x.len) r

/-- Destination pieces in groups that end where the sources may be cut and a block ends. -/
def groupDsts (cuts : List Nat) : List (Nat × Nat × Dst) → List (List (Nat × Nat × Dst))
  | [] => []
  | d :: r =>
    match groupDsts cuts r with
    | (e :: g) :: gs =>
      if cuts.contains (d.1 + d.2.1) && d.2.2.block != e.2.2.block then [d] :: (e :: g) :: gs else (d :: e :: g) :: gs
    | gs => [d] :: gs

/-- The transfers that carry sources to destination pieces, as small as the pieces allow: each source piece is read at one
time and each destination piece written at one time; the bytes before place n are credited (R284, R285). -/
def transfers (n : Nat) (srcs : List Src) (dsts : List (Nat × Nat × Dst)) : List Transfer :=
  (groupDsts (srcCuts none 0 srcs) (joinDsts dsts)).map fun g =>
    let a := (g.headD (0, 0, .row 0)).1
    let b := match g.getLast? with
      | some d => d.1 + d.2.1
      | none => a
    ⟨srcsIn a b 0 srcs, ⟨[], []⟩, g.map fun d => (d.1 - a, d.2.1, d.2.2), n - a⟩

/-- Destination pieces of n bytes, 32-B-aligned where `at_` is their address (R285). -/
def dstPieces (at_ n : Nat) (mk : Nat → Dst) : List (Nat × Nat × Dst) :=
  (piecesOf 32 (n / 32 + 2) at_ n).map fun p => (p.1 - at_, p.2, mk p.1)

/-- Destination pieces at a later place in the bytes. -/
def laterDsts (p : Nat) (l : List (Nat × Nat × Dst)) : List (Nat × Nat × Dst) := l.map fun d => (p + d.1, d.2)

/-- Destination pieces in translated memory. -/
def physDsts (p : Nat) : List (Nat × Nat) → List (Nat × Nat × Dst)
  | [] => []
  | (pa, n) :: r => laterDsts p (dstPieces pa n .phys) ++ physDsts (p + n) r

/-- Everything a command does from now on: the matrix engine after what it does at once, its transfers and the actions after
them, what it credits, and the entries it took from the block map cache. -/
structure Plan where
  matrix : Matrix
  moves : List Transfer
  after : List After
  credit : Nat
  cached : List Nat
  deriving DecidableEq, Repr

/-- Why a command does not complete: a late cause, a parking fault, poison, a walk whose events go first, or a home that
answers with a retry reply (R288, R340, R357, R363). -/
inductive CmdStop where
  | fault (cause : Nat) (a : Word)
  | park (va : Word) (k : Access) (f : XFail)
  | poison (a : Word)
  | walk (w : Walk) (misses : List Msg)
  | retry
  deriving DecidableEq, Repr

/-- Whether a home answers requests of core g with retry replies (R357, R367, R375). -/
def State.piecesAway (s : State) (g : Nat) (ps : List (Nat × Nat)) : Bool :=
  ps.any fun p => s.homeAway g p.1 || s.homeBusy p.1

/-- Whether it is the turn of reads of core g's engines at their agents, after the requests that have come before them (R353). -/
def State.piecesTurn (s : State) (g : Nat) (ps : List (Nat × Nat)) : Bool := ps.all fun p => s.turnAt p.1 (s.tag g) 1

/-- A refusal (R288). -/
def refuse : CmdStop := .fault 0x15 0

/-- A failed translation of a command (R288). -/
def State.cmdFail (s : State) (g : Nat) (sup : Bool) (k : Access) (f : XFail × Word) : CmdStop :=
  if s.parks g sup f.1 then .park f.2 k f.1 else .fault 0x07 f.2

/-- n bytes at a virtual address translated for a command. -/
def State.cmdMap (s : State) (g : Nat) (sup : Bool) (k : Access) (va : Word) (n : Nat) :
    State × Except CmdStop (List (Nat × Nat)) :=
  let t := s.mapVirt g sup k va n
  (t.1, match t.2 with
    | .error f => .error (t.1.cmdFail g sup k f)
    | .ok ps => .ok ps)

/-- Whether a region admits n bytes from an offset (R142, R143). -/
def rangeOk (sup : Bool) (power : BitVec 14) (off n : Nat) (write : Bool) : Bool :=
  decide (off + n ≤ 0x80000) && (n == 0 || (List.range (n / 0x1000 + 2)).all fun i =>
    regionOk sup power (min (off + 0x1000 * i) (off + n - 1)) write)

/-- A scratchpad range of a command, in banks 0 to 13 when `banks` (R141 to R143, R288). -/
def State.cmdLocal (s : State) (g : Nat) (sup : Bool) (a : Word) (n : Nat) (write banks : Bool) : Except CmdStop (Nat × Nat) :=
  match s.localTarget g a with
  | none => .error (.fault 0x07 a)
  | some (h, off) =>
    if banks && decide (0x70000 < off + n) then .error refuse
    else if rangeOk sup (s.work h).power off n write then .ok (h, off) else .error (.fault 0x07 a)

/-! ### Tensor maps (R278, R279) -/

/-- A tensor-map entry (R278). -/
structure Tmap where
  base : Word
  size : List Nat
  dpitch : Nat
  stride1 : Word
  stride2 : Word
  tile0 : Nat
  tile1 : Nat
  tile2 : Nat
  esize : Nat
  local_ : Bool
  fill : Byte
  deriving DecidableEq, Repr

/-- The entry in 64 bytes; reserved fields are ignored (R5, R278). -/
def readTmap (bs : List Byte) : Tmap where
  base := wordAt bs 0
  size := [numAt bs 8 4, numAt bs 12 4, numAt bs 16 4]
  dpitch := numAt bs 20 4
  stride1 := wordAt bs 24
  stride2 := wordAt bs 32
  tile0 := numAt bs 40 2
  tile1 := numAt bs 42 2
  tile2 := numAt bs 44 2
  esize := 2 ^ (numAt bs 46 1 % 4)
  local_ := numAt bs 47 1 % 2 == 1
  fill := BitVec.ofNat 8 (numAt bs 48 1)

/-- The rows of a tile, the bytes of a row, and the bytes between rows (R278, R281). -/
def Tmap.rows (m : Tmap) : Nat := m.tile1 * m.tile2
def Tmap.rowBytes (m : Tmap) : Nat := m.tile0 * m.esize
def Tmap.pitch (m : Tmap) : Nat := if m.dpitch = 0 then m.rowBytes else m.dpitch

/-- Whether an entry keeps the limits of R278. -/
def Tmap.legal (m : Tmap) : Bool :=
  m.size.all (fun n => decide (1 ≤ n)) && (!m.local_ || decide (m.base.toNat < 0x80000))
    && (m.dpitch == 0 || (m.dpitch % 8 == 0 && decide (m.rowBytes ≤ m.dpitch) && decide (m.dpitch ≤ 2 ^ 20)))
    && m.stride1.toNat % m.esize == 0 && m.stride2.toNat % m.esize == 0
    && decide (1 ≤ m.tile0) && decide (m.tile0 ≤ 2048) && decide (1 ≤ m.tile1) && decide (1 ≤ m.tile2)
    && decide (m.rows ≤ 2048) && decide (m.rows * m.rowBytes ≤ 65536)

/-- The 64 bytes of an entry as the table keeps them: what software writes to reserved fields is ignored (R5, R278). -/
def tmapBytes (bs : List Byte) : List Byte :=
  bs.take 46 ++ [(bs.getD 46 0) &&& 3, (bs.getD 47 0) &&& 1, bs.getD 48 0] ++ List.replicate 15 0

/-- The offset of tensor-map entry i (R278). -/
def tmapAt (i : Nat) : Nat := 0x78000 + 64 * i

/-- The causes of the address of a TMAPSET: alignment, W = 0, and the checks of its 64 bytes (R141 to R143, R279). -/
def State.tmapCauses (s : State) (g : Nat) (sup : Bool) (x : Word) : List (Nat × Word) :=
  (if x.toNat % 16 ≠ 0 then [(0x06, x)] else []) ++
    if x.getLsbD 23 then [(0x07, x)]
    else match s.imageAccess g sup (x &&& ~~~15) 4 0 with
      | .error (cause, ad) => [(cause, ad)]
      | .ok _ => []

/-- The executing context's access to 64 bytes at x fails for causes, or matches a comparator, or both: each sets its bit (R208, R217). -/
def State.trapWith (s : State) (cs : List (Nat × Word)) (hit : Option Nat) (x : Word) : State :=
  match cs, hit with
  | [], some n => s.watchTrap 0x08 n x
  | cs, some n => (s.pull s.cur.1 n).trapAll (cs ++ [(0x08, x)])
  | cs, none => s.trapAll cs

/-- `TMAPSET`: the descriptor replaces the entry, read after the context's earlier accesses to it through a window; poison moves with it
(R208, R240, R279, R363). -/
def execTmapset (a : XReg) (i : BitVec 6) (s : State) : Res :=
  let g := s.cur.1
  let x := s.x a
  let off := field x 0 19
  .next <| s.whenSafe <|
    let hit := s.watchHit g s.cur.2 x.toNat 64 2
    let cs := s.tmapCauses g s.me.sup x
    if !cs.isEmpty then s.trapWith cs hit x
    else if s.clashes g s.cur.2 [(g, off, 64)] then s.hold (.blocked .drain)
    else
      let bs := (s.work g).spad.bytes off 64
      let ill := if (readTmap bs).legal then [] else [(0x04, 0)]
      if !ill.isEmpty || hit.isSome then s.trapWith ill hit x
      else
        let s1 := s.localStore g (tmapAt i.toNat) (tmapBytes bs)
        let w := s1.work g
        let bad := if (s.work g).poisonedAt off 64 then [tmapAt i.toNat / 32, tmapAt i.toNat / 32 + 1] else []
        (s1.setWork g { w with poison := (w.poison ++ bad).eraseDups }).retire 2

/-! ### COPY (R280 to R284) -/

/-- A signed 21-bit coordinate of an origin (R280). -/
def coord (x : Word) (p : Nat) : Int := toSigned 21 (field x p 21)

/-- A row of a tile: whether it is valid, the first element in bounds and how many, and the source address (R280,
R282). -/
structure TileRow where
  valid : Bool
  lo : Nat
  n : Nat
  src : Word
  deriving DecidableEq, Repr

/-- Row r of the tile of an entry at an origin (R280, R282). -/
def Tmap.row (m : Tmap) (x : Word) (r : Nat) : TileRow :=
  let c0 := coord x 0
  let c1 := coord x 21 + ((r % m.tile1 : Nat) : Int)
  let c2 := coord x 42 + ((r / m.tile1 : Nat) : Int)
  let size := fun i => ((m.size.getD i 1 : Nat) : Int)
  let lo := (max 0 (-c0)).toNat
  let hi := (min (m.tile0 : Int) (size 0 - c0)).toNat
  let valid := decide (0 ≤ c1) && decide (c1 < size 1) && decide (0 ≤ c2) && decide (c2 < size 2) && decide (lo < hi)
  let at_ := (m.base.toNat : Int) + (c0 + lo) * m.esize + c1 * (m.stride1.toNat : Int) + c2 * (m.stride2.toNat : Int)
  if valid then ⟨true, lo, hi - lo, BitVec.ofInt 64 at_⟩ else ⟨false, 0, 0, 0⟩

/-- Every row of a tile. -/
def Tmap.tile (m : Tmap) (x : Word) : List TileRow := (List.range m.rows).map (m.row x)

/-- The source pieces of n bytes of core g's scratchpad: 64-B-aligned (R285). -/
def spadSrcs (g off n : Nat) : List Src := (pieces64 off n).map fun p => .spad g p.1 p.2

/-- The source pieces of the rows of a tile, translated and checked (R280, R288). -/
def State.rowSrcs (s : State) (g : Nat) (sup : Bool) (m : Tmap) : List TileRow → State × Except CmdStop (List (List Src))
  | [] => (s, .ok [])
  | r :: rs =>
    let n := r.n * m.esize
    let t : State × Except CmdStop (List Src) :=
      if !r.valid then (s, .ok [])
      else if m.local_ then
        (s, match s.cmdLocal g sup r.src n false false with
          | .error e => .error e
          | .ok (h, off) => if h = g then .ok (spadSrcs h off n) else .error (.fault 0x07 r.src))
      else
        let u := s.cmdMap g sup .read r.src n
        (u.1, u.2.map fun ps => ps.map fun p => .phys p.1 p.2)
    match t.2 with
    | .error e => (t.1, .error e)
    | .ok d =>
      let u := t.1.rowSrcs g sup m rs
      (u.1, u.2.map fun l => d :: l)

/-- Bytes that a command makes, if there are any. -/
def madeSrc (bs : List Byte) : List Src := if bs.isEmpty then [] else [.made (Moved.clean bs)]

/-- The sources of a row as it lands in a scratchpad or the row buffer: elements out of bounds hold the fill byte (R282). -/
def Tmap.padded (m : Tmap) (r : TileRow) (d : List Src) : List Src :=
  madeSrc (List.replicate (r.lo * m.esize) m.fill) ++ d ++ madeSrc (List.replicate (m.rowBytes - (r.lo + r.n) * m.esize) m.fill)

/-- The mask of valid rows as bytes of whole doublewords (R282). -/
def rowMaskBytes (rs : List TileRow) : List Byte :=
  (List.range ((rs.length + 63) / 64)).flatMap fun i =>
    bytesOfNat 8 (((rs.drop (64 * i)).take 64).foldr (fun r n => 2 * n + bitOf r.valid) 0)

/-- The distance from the destination to the mask (R282). -/
def Tmap.maskAt (m : Tmap) : Nat := 8 * (((m.rows - 1) * m.pitch + m.rowBytes + 7) / 8)

/-- The sources and the destination pieces of a COPY to global memory, from place p on: of each row the offset of its bytes in bounds
and their sources (R281, R282). `own` demands the core's own vault. -/
def State.globalRows (s : State) (g : Nat) (sup : Bool) (own : Bool) (x : Word) :
    Nat → List (Nat × List Src) → State × Except CmdStop (List Src × List (Nat × Nat × Dst))
  | _, [] => (s, .ok ([], []))
  | p, (o, d) :: r =>
    if d.isEmpty then s.globalRows g sup own x p r
    else
      let n := (srcEnds 0 d).getLastD 0
      let t := s.cmdMap g sup .write (x + BitVec.ofNat 64 o) n
      match t.2 with
      | .error e => (t.1, .error e)
      | .ok ps =>
        let away := own && ps.any fun q => match homeOf q.1 with
          | .vault h _ => h != g
          | _ => true
        if away then (t.1, .error refuse)
        else
          let u := t.1.globalRows g sup own x (p + n) r
          (u.1, u.2.map fun l => (d ++ l.1, physDsts p ps ++ l.2))

/-- The place of a COPY's rows in a scratchpad of core g: its address is one of banks 0 to 13 with all that is written, and every row and
the mask pass the checks; what lies between the rows does not count (R141 to R143, R281, R288). -/
def State.rowsLocal (s : State) (g : Nat) (sup : Bool) (dst : Word) (e : Tmap) (mask : Nat) : Except CmdStop (Nat × Nat) :=
  match s.localTarget g dst with
  | none => .error (.fault 0x07 dst)
  | some (h, off) =>
    let spans := ((List.range e.rows).map fun r => (r * e.pitch, e.rowBytes)) ++ [(e.maskAt, mask)]
    if 0x70000 < off + e.maskAt + mask then .error refuse
    else match spans.find? fun q => !rangeOk sup (s.work h).power (off + q.1) q.2 true with
      | some q => .error (.fault 0x07 (dst + BitVec.ofNat 64 q.1))
      | none => .ok (h, off)

/-- The mask bits of the row buffer that the rows of a tile set and clear from row0 on (R282). -/
def rowBits (row0 : Nat) (rs : List TileRow) (valid : Bool) : BitVec 8 :=
  rs.zipIdx.foldl (fun m e => if e.1.valid = valid then m ||| BitVec.ofNat 8 (2 ^ (row0 + e.2)) else m) 0

/-- The work of an active COPY (R280 to R284). -/
def State.planCopy (s : State) (g : Nat) (m : Cmd) (origin dst : Word) (entry : List Byte) (kind : BitVec 2) :
    State × Except CmdStop Plan :=
  let e := readTmap entry
  let x := (s.work g).matrix
  let total := e.rows * e.rowBytes
  if !e.legal || origin.getLsbD 63 then (s, .error refuse)
  else
    let rs := e.tile origin
    let plan := fun (ts : List Transfer) (after : List After) => Plan.mk x ts after total []
    let src := fun (t : State) => t.rowSrcs g m.sup e rs
    let rows := fun (ds : List (List Src)) => (rs.zip ds).flatMap fun q => e.padded q.1 q.2
    let puts := fun (at_ : Nat → Nat) (mk : Nat → Dst) =>
      (List.range e.rows).flatMap fun r => laterDsts (r * e.rowBytes) (dstPieces (at_ r) e.rowBytes mk)
    if kind = 0 then
      if dst.toNat % 8 ≠ 0 then (s, .error refuse)
      else
        let mask := rowMaskBytes rs
        match s.rowsLocal g m.sup dst e mask.length with
        | .error f => (s, .error f)
        | .ok (h, off) =>
          let t := src s
          (t.1, t.2.map fun ds =>
            plan (transfers total (rows ds ++ madeSrc mask) (puts (fun r => off + r * e.pitch) (.spad h)
              ++ laterDsts total (dstPieces (off + e.maskAt) mask.length (.spad h)))) [])
    else if kind = 3 then
      if 8 ≤ dst.toNat ∨ 8 < dst.toNat + e.rows ∨ 1024 < e.rowBytes then (s, .error refuse)
      else
        let t := src s
        (t.1, t.2.map fun ds =>
          plan (transfers total (rows ds) (puts (fun r => 1024 * (dst.toNat + r)) .row))
            [.rowMask (rowBits dst.toNat rs true) (rowBits dst.toNat rs false)])
    else
      let t := src s
      match t.2 with
      | .error f => (t.1, .error f)
      | .ok ds =>
        let ps := (rs.zip ds).zipIdx.map fun q => (q.2 * e.pitch + q.1.1.lo * e.esize, q.1.2)
        let u := t.1.globalRows g m.sup (kind == 1) dst 0 ps
        (u.1, u.2.map fun l => plan (transfers total l.1 l.2) [])

/-- What a COPY writes in memory (R281, R320). -/
def copySpans (origin dst : Word) (entry : List Byte) (kind : BitVec 2) : List Span :=
  let e := readTmap entry
  if !e.legal || origin.getLsbD 63 || kind == 3 then []
  else
    let rs := e.tile origin
    if kind = 0 then
      ((List.range e.rows).map fun r => ⟨false, dst.toNat + r * e.pitch, e.rowBytes⟩) ++
        [⟨false, dst.toNat + e.maskAt, (rowMaskBytes rs).length⟩]
    else rs.zipIdx.map fun q => ⟨true, dst.toNat + q.2 * e.pitch + q.1.lo * e.esize, q.1.n * e.esize⟩

/-- `COPY`: the entry is captured whole (R273, R279, R280, R284). -/
def execCopy (q : BitVec 1) (a b c : XReg) (i : BitVec 6) (t : BitVec 2) (f : BitVec 1) (s : State) : Res :=
  let g := s.cur.1
  let entry := (s.work g).spad.bytes (tmapAt i.toNat) 64
  .next <|
    if !(s.barOperand (s.x c)).isEmpty then s.trapAll (s.barOperand (s.x c))
    else
      if (s.work g).poisonedAt (tmapAt i.toNat) 64 then s.terminate g s.cur.2 1 0
      else s.issueCommand [if q = 0 then .qc0 else .qc1] (.copy q a b c i t f)
        (.copy (s.x a) (s.x b) (s.x c) entry t (f == 1)) (copySpans (s.x a) (s.x b) entry t)

/-! ### PAGEIN (R286) -/

/-- The block size that the low bits of a PAGEIN operand give (R286). -/
def blockSize (code : Nat) : Nat := 2 ^ (8 + code)

/-- The work of an active PAGEIN (R286). The entry is translated as for an AMO. A destination whose block number takes more than 30 bits
is refused before the entry is read, for an entry that is of tier 0 already too, for which the rule names no limit (DESIGN CHOICE, log
entry 126). -/
def State.planPagein (s : State) (g : Nat) (m : Cmd) (a b : Word) : State × Except CmdStop Plan :=
  let size := blockSize (field b 0 4)
  let dst := b.toNat / 4096 * 4096
  let x := (s.work g).matrix
  if a.toNat % 4 ≠ 0 ∨ 8 < field b 0 4 ∨ field b 4 8 ≠ 0 ∨ 2 ^ 30 ≤ dst / size then (s, .error refuse)
  else
    let t := s.cmdMap g m.sup .amo a 4
    match t.2 with
    | .error f => (t.1, .error f)
    | .ok ps =>
      let d := t.1.fetchPieces ps
      let e := natOfBytes d.bytes
      let t1 := t.1.served ((ps.headD (0, 0)).1) (t.1.tag g) 1
      if t.1.piecesAway g ps || !t.1.piecesTurn g ps then (s, .error .retry)
      else if d.bad.any id then (t1, .error (.poison a))
      else if e / 2 ^ 30 % 2 = 0 then (t1, .error refuse)
      else if e / 2 ^ 31 = 0 then (t1, .ok ⟨x, [], [], size, []⟩)
      else
        let u := t1.cmdMap g m.sup .read (BitVec.ofNat 64 (e % 2 ^ 30 * size)) size
        match u.2 with
        | .error f => (u.1, .error f)
        | .ok src =>
          let v := u.1.cmdMap g m.sup .write (BitVec.ofNat 64 dst) size
          match v.2 with
          | .error f => (v.1, .error f)
          | .ok dest =>
            let dram := dest.all fun p => match homeOf p.1 with
              | .vault _ _ => true
              | _ => false
            if !dram then (v.1, .error refuse)
            else (v.1, .ok ⟨x, transfers size (src.map fun p => .phys p.1 p.2) (physDsts 0 dest),
              [.entry a ((ps.headD (0, 0)).1) e (2 ^ 30 + dst / size)], size, []⟩)

/-- `PAGEIN` (R286). -/
def execPagein (q : BitVec 1) (a b c : XReg) (s : State) : Res :=
  let y := s.x b
  .next <|
    if !(s.barOperand (s.x c)).isEmpty then s.trapAll (s.barOperand (s.x c))
    else s.issueCommand [if q = 0 then .qc0 else .qc1] (.pagein q a b c) (.pagein (s.x a) y (s.x c))
        [⟨true, (s.x a).toNat, 4⟩, ⟨true, y.toNat / 4096 * 4096, blockSize (field y 0 4)⟩]

/-! ### GATHERKV (R287, R340 to R342) -/

/-- The record in 64 bytes; reserved fields are ignored (R5, R287). -/
def readGather (bs : List Byte) : Gather where
  table := wordAt bs 0
  len := numAt bs 8 4
  first := numAt bs 12 4
  maxb := numAt bs 16 2
  bsz := numAt bs 18 1 % 16
  ch := numAt bs 19 1
  dst := wordAt bs 24
  mdst := wordAt bs 32

/-- The blocks walked: natural subtraction stops at 0 (R287, R341). -/
def Gather.nb (r : Gather) : Nat := min r.maxb ((r.len + 15) / 16 - r.first)

/-- The checks of a record, and the places of its tile and its masks (R287, R288). -/
def State.checkGather (s : State) (g : Nat) (sup : Bool) (r : Gather) : Except CmdStop ((Nat × Nat) × (Nat × Nat)) :=
  if r.table.toNat % 4 ≠ 0 ∨ r.maxb = 0 ∨ 64 < r.maxb ∨ 8 < r.bsz ∨ (r.ch ≠ 0 ∧ (r.ch < 8 ∨ 63 < r.ch))
      ∨ r.dst.toNat % 16 ≠ 0 ∨ r.mdst.toNat % 8 ≠ 0 then .error refuse
  else match s.cmdLocal g sup r.dst (r.nb * blockSize r.bsz) true true, s.cmdLocal g sup r.mdst (2 * r.nb) true true with
    | .ok d, .ok m => .ok (d, m)
    | .error e, _ => .error e
    | _, .error e => .error e

/-- An entry that a block map cache holds now as its most recently used one: 1,024 entries, the least recently used leaves
(R338). -/
def Cluster.useMap (q : Cluster) (e : Nat × Nat × Nat) : Cluster :=
  let l := (q.blockMap.filter fun x => !(x.1 == e.1 && x.2.1 == e.2.1)) ++ [e]
  { q with blockMap := l.drop (l.length - 1024) }

/-- A block-table entry read through the block map cache, which keeps valid entries of tier 0, and whether it came from
there (R337, R338). -/
def State.readBlockEntry (s : State) (g : Nat) (sup : Bool) (va : Word) : State × Except CmdStop (Nat × Bool) :=
  let t := s.tag g
  match (s.cluster g).blockMap.find? fun e => e.1 == t && e.2.1 == va.toNat with
  | some e => (s.setCluster g ((s.cluster g).useMap e), .ok (e.2.2, true))
  | none =>
    let u := s.cmdMap g sup .read va 4
    match u.2 with
    | .error f => (u.1, .error f)
    | .ok ps =>
      let d := u.1.fetchPieces ps
      let e := natOfBytes d.bytes
      if u.1.piecesAway g ps || !u.1.piecesTurn g ps then (s, .error .retry)
      else if d.bad.any id then (u.1, .error (.poison va))
      else
        let u1 := u.1.served ((ps.headD (0, 0)).1) (u.1.tag g) 1
        if e / 2 ^ 30 = 1 then (u1.setCluster g ((u1.cluster g).useMap (t, va.toNat, e)), .ok (e, false)) else (u1, .ok (e, false))

/-- Whether an entry names a block of tier 0, which is fetched (R340). -/
def fetched (e : Nat) : Bool := e / 2 ^ 30 == 1

/-- The event of a block that is not fetched (R342). -/
def State.missEvent (s : State) (g c : Nat) (r : Gather) (k e : Nat) : Msg :=
  s.deviceMsg g c g (if r.ch = 0 then 3 else r.ch)
    [r.table + BitVec.ofNat 64 (4 * k), BitVec.ofNat 64 k, pack [(0, e), (32, bitOf (e / 2 ^ 30 % 2 == 0))], BitVec.ofNat 64 r.bsz]

/-- The events of a walk, in ascending order (R340, R342). -/
def State.missEvents (s : State) (g c : Nat) (r : Gather) (es : List Nat) : List Msg :=
  (es.zipIdx.filter fun q => !fetched q.1).map fun q => s.missEvent g c r (r.first + q.2) q.1

/-- The sources of the fetched blocks of a walk, translated (R340). -/
def State.fetchBlocks (s : State) (g : Nat) (sup : Bool) (size : Nat) : List (Nat × Nat) → State × Except CmdStop (List (Nat × List Src))
  | [] => (s, .ok [])
  | (e, j) :: r =>
    if !fetched e then s.fetchBlocks g sup size r
    else
      let t := s.cmdMap g sup .read (BitVec.ofNat 64 (e % 2 ^ 30 * size)) size
      match t.2 with
      | .error f => (t.1, .error f)
      | .ok ps =>
        let u := t.1.fetchBlocks g sup size r
        (u.1, u.2.map fun l => (j, ps.map fun p => .phys p.1 p.2) :: l)

/-- The mask of a block: bit t for token 16 k + t (R287). -/
def blockMask (len k : Nat) : Nat := 2 ^ (min 16 (len - 16 * k)) - 1

/-- The record of a gather command, and its checks. -/
def State.gatherOf (s : State) (g : Nat) (sup : Bool) (x : Word) : Except CmdStop (Gather × (Nat × Nat) × (Nat × Nat)) :=
  let d := s.fetchLocal g (field x 0 19) 64
  let r := readGather d.bytes
  if d.bad.any id then .error (.poison x)
  else (s.checkGather g sup r).map fun p => (r, p.1, p.2)

/-- The blocks and the masks of a GATHERKV whose walk is done and whose events have left (R340). -/
def State.planBlocks (s : State) (g : Nat) (m : Cmd) (w : Walk) : State × Except CmdStop Plan :=
  let r := w.record
  let size := blockSize r.bsz
  let t := s.fetchBlocks g m.sup size w.entries.zipIdx
  (t.1, t.2.map fun bs =>
    let masks := w.entries.zipIdx.flatMap fun e => bytesOfNat 2 (if fetched e.1 then blockMask r.len (r.first + e.2) else 0)
    let n := size * bs.length
    ⟨(s.work g).matrix,
      transfers n ((bs.flatMap fun b => b.2) ++ madeSrc masks)
        ((bs.zipIdx.flatMap fun b => laterDsts (b.2 * size) (dstPieces (w.tile.2 + b.1.1 * size) size (.spad w.tile.1)))
          ++ laterDsts n (dstPieces w.masks.2 masks.length (.spad w.masks.1))),
      [], r.nb * size, w.cached⟩)

/-- Whether a walk has entries left to read. -/
def Walk.reads (w : Walk) : Bool := decide (w.entries.length < w.record.nb)

/-- A walk reads its next entry; after the last one its events are to leave (R340). -/
def State.walkOn (s : State) (g : Nat) (m : Cmd) (w : Walk) : State × CmdStop :=
  let r := w.record
  let va := r.table + BitVec.ofNat 64 (4 * (r.first + w.entries.length))
  let t := s.readBlockEntry g m.sup va
  match t.2 with
  | .error f => (t.1, f)
  | .ok (e, c) =>
    let w1 := { w with entries := w.entries ++ [e], cached := if c then w.cached ++ [va.toNat] else w.cached }
    (t.1, .walk w1 (if w1.reads then [] else t.1.missEvents g m.c r w1.entries))

/-- The work of a GATHERKV: the record is read once and its blocks are walked, entry by entry; then, with its events sent, the blocks are
fetched (R287, R340). -/
def State.planGather (s : State) (g : Nat) (m : Cmd) (x : Word) : State × Except CmdStop Plan :=
  match m.st with
  | .walking w =>
    if w.reads then
      let t := s.walkOn g m w
      (t.1, .error t.2)
    else s.planBlocks g m w
  | _ =>
    match s.gatherOf g m.sup x with
    | .error f => (s, .error f)
    | .ok (r, d, q) => (s, .error (.walk ⟨r, d, q, [], []⟩ []))

/-- `GATHERKV` (R287). -/
def execGatherkv (a c : XReg) (s : State) : Res :=
  let g := s.cur.1
  let x := s.x a
  let ws := match s.gatherOf g s.me.sup x with
    | .ok (r, _, _) => [Span.mk false r.dst.toNat (r.nb * blockSize r.bsz), Span.mk false r.mdst.toNat (2 * r.nb)]
    | .error _ => []
  let own := match s.imageAccess g s.me.sup (x &&& ~~~15) 4 0 with
    | .error (cause, _) => [(cause, x)]
    | .ok _ => if x.toNat ≥ 0x80000 ∨ field x 0 19 + 64 > 0x70000 then [(0x07, x)] else []
  let cs := (if x.toNat % 16 ≠ 0 then [(0x06, x)] else []) ++ own ++ s.barOperand (s.x c)
  .next (if cs.isEmpty then s.issueCommand [.qg] (.gatherkv a c) (.gather x (s.x c)) ws else s.trapAll cs)

/-! ### EFENCE and EQWAIT (R276, R277) -/

/-- The queues a mask names. -/
def maskQueues (m : BitVec 4) : List Queue :=
  [(0, Queue.qc0), (1, .qc1), (2, .qg), (3, .qm)].filterMap fun e => if m.getLsbD e.1 then some e.2 else none

/-- `EFENCE` (R276). -/
def execEfence (m : BitVec 4) (s : State) : Res := .next (s.issueCommand (maskQueues m) (.efence m) (.fence m) [])

/-- A queue by its code (R37). -/
def queueOf (q : BitVec 2) : Queue := if q = 0 then .qc0 else if q = 1 then .qc1 else if q = 2 then .qg else .qm

/-- `EQWAIT`: waits for the commands that stand in the queue now (R277). -/
def execEqwait (q : BitVec 2) (s : State) : Res :=
  let l := (s.work s.cur.1).queue (queueOf q)
  .next (if l.isEmpty then s.retire 2 else s.hold (.waiting (.commands (queueOf q) (l.map fun m => m.id))))

end Sys2Proof.Machine
end

