-- ==== Sys2Proof/Machine/Matrix.lean ====
section
/-! DEFINITION. The matrix engine (R289 to R304): the work of its commands when they are active, and the instructions
MLOADB, MMA, SACC, ASWAP, AREAD, AZERO, OFIX and MSTAT. -/

namespace Sys2Proof.Machine

/-! ### Arrays (R289, R295) -/

/-- K and N of a shape code (R292). -/
def shapeK (s : BitVec 3) : Nat := 32 * 2 ^ s.toNat
def shapeN (s : BitVec 3) : Nat := 65536 / shapeK s

/-- n elements of a format as bytes (R106). -/
def fmtBytes (f : Fmt) (n : Nat) : Nat := n * fmtWidth f / 8

/-- Element i of an array of a format from a byte position (R106). -/
def Memory.element (m : Memory) (base : Nat) (f : Fmt) (i : Nat) : Nat :=
  let w := fmtWidth f
  if w = 4 then (m.get (base + i / 2)).toNat / 2 ^ (4 * (i % 2)) % 16 else natOfBytes (m.bytes (base + i * w / 8) (w / 8))

/-- An FP32 element of a bank or of the partials, and the array with it replaced. -/
def Memory.fp (m : Memory) (i : Nat) : Nat := natOfBytes (m.bytes (4 * i) 4)
def Memory.setFp (m : Memory) (i v : Nat) : Memory := m.store (4 * i) (bytesOfNat 4 v)

/-- B[k][j] of the macros, as loaded (R295). -/
def Matrix.b (x : Matrix) (k j : Nat) : Nat := x.cells.element 0 x.fmt (k * shapeN x.shape + j)

/-- The engine's flags that arithmetic flags raise (R302). -/
def matFlags (f : Flags) : BitVec 5 :=
  BitVec.ofNat 5 (bitOf (f &&& flagNV != 0) + 2 * bitOf (f &&& flagOF != 0) + 4 * bitOf (f &&& flagUF != 0)
    + 8 * bitOf (f &&& flagNX != 0))

/-- The engine with flags raised. -/
def Matrix.raise (x : Matrix) (f : Flags) : Matrix := { x with flags := x.flags ||| matFlags f }

/-! ### BlockSum (R297) -/

/-- A value that is not zero, with its sign and fraction. -/
def Val.nonzero : Val → Option (Bool × Nat × Nat)
  | .num s n d => if n = 0 then none else some (s, n, d)
  | _ => none

/-- The greatest exponent among values (R297). -/
def maxLog2 : List (Bool × Nat × Nat) → Option Int
  | [] => none
  | (_, n, d) :: r =>
    match maxLog2 r with
    | none => some (floorLog2 n d)
    | some m => some (max m (floorLog2 n d))

/-- The exact sum of values. -/
def sumVals (ps : List Val) : Val := ps.foldl (fun s p => (s.add false p).1) (.num false 0 1)

/-- The windowed sum: bits below L − 121 are cut off each magnitude, and the rest is exact (R297). -/
def sumWindow (ps : List (Bool × Nat × Nat)) : Val :=
  match maxLog2 ps with
  | none => .num false 0 1
  | some l =>
    let k := ps.foldl (fun (a : Int) p =>
      let q := scaleDown p.2.1 p.2.2 (l - 121)
      let m : Int := (q.1 / q.2 : Nat)
      if p.1 then a - m else a + m) 0
    Val.dyadic (decide (k < 0)) k.natAbs (l - 121)

/-- BlockSum of 32 pairs of elements: the FP32 pattern and the flags (R297). -/
def blockSum (fa fb : Fmt) (es : List (Nat × Nat)) : Rounded :=
  let ps := es.map fun e => (value fa e.1).mul (value fb e.2)
  let vs := ps.map fun p => p.1
  let invalid := ps.any fun p => p.2 != 0
  let sig := es.any fun e => isSignalling fa e.1 || isSignalling fb e.2
  if vs.contains .nan || (vs.contains (.inf false) && vs.contains (.inf true)) then
    (canonNaN 0, Flags.when (invalid || sig) flagNV)
  else if vs.contains (.inf false) then (infPattern 0 false, 0)
  else if vs.contains (.inf true) then (infPattern 0 true, 0)
  else
    let nz := vs.filterMap Val.nonzero
    if nz.isEmpty then
      (withSign 0 (vs.all fun v => match v with
        | .num s _ _ => s
        | _ => false) 0, 0)
    else roundRNE 0 (if fa != 1 && fb != 1 then sumVals vs else sumWindow nz)

/-! ### MMA (R296) -/

/-- The 32 pairs of block b of row i and column j. -/
def Matrix.pairs (x : Matrix) (fa : Fmt) (i b j : Nat) : List (Nat × Nat) :=
  (List.range 32).map fun t => (x.rows.element (1024 * i) fa (32 * b + t), x.b (32 * b + t) j)

/-- The partials of one pass: element e of row i is block e / N, column e % N. -/
def Matrix.pass (x : Matrix) (fa : Fmt) (valid : BitVec 8) : Memory × Flags :=
  let n := shapeN x.shape
  (List.range 16384).foldl (fun (a : Memory × Flags) e =>
    let i := e / 2048
    if !valid.getLsbD i then a
    else
      let r := blockSum fa x.fmt (x.pairs fa i (e % 2048 / n) (e % 2048 % n))
      (a.1.setFp e r.1, a.2 ||| r.2)) (x.partials, 0)

/-- The rows that take part in an MMA (R296). -/
def Matrix.validRows (x : Matrix) (masked : Bool) : BitVec 8 := if masked then x.rowMask else 255

/-- Whether poison would reach the accumulator from an MMA (R363). -/
def Matrix.mmaPoison (x : Matrix) (fa : Fmt) (valid : BitVec 8) : Bool :=
  valid != 0 && (!x.badCells.isEmpty
    || x.badRows.any fun p => valid.getLsbD (p / 32) && decide (p % 32 * 32 < fmtBytes fa (shapeK x.shape)))

/-- The work of an active MMA (R296). -/
def Matrix.mma (x : Matrix) (shape fa fb : BitVec 3) (masked : Bool) : Except CmdStop Matrix :=
  if shape ≠ x.shape ∨ fb ≠ x.fmt then .error refuse
  else if x.mmaPoison fa (x.validRows masked) then .error (.poison 0)
  else
    let r := x.pass fa (x.validRows masked)
    .ok ({ x with partials := r.1, full := true, pshape := shape, pvalid := x.validRows masked }.raise r.2)

/-! ### SACC and OFIX (R298, R301) -/

/-- A number times 2^e. -/
def Val.scale (v : Val) (e : Int) : Val :=
  match v, e with
  | .num s n d, .ofNat k => .num s (n * 2 ^ k) d
  | .num s n d, .negSucc k => .num s n (d * 2 ^ (k + 1))
  | v, _ => v

/-- A bank element with a term added, rounded once, with the flags: invalid operations are those of the sum, and
signalling operands (R298, R301). -/
def bankAdd (w : Nat) (t : Val) (sig : Bool) : Rounded :=
  let e := (value 0 w).add false t
  let r := roundRNE 0 e.1
  (r.1, e.2 ||| r.2 ||| Flags.when (sig || isSignalling 0 w) flagNV)

/-- A scale byte of a list; the list is read from the scratchpad. -/
def scaleAt (bs : List Byte) (i : Nat) : Nat := (bs.getD i 0).toNat

/-- One step of SACC: partial e of row i is block b, column j (R298). -/
def Matrix.saccStep (x : Matrix) (k n : Nat) (sa sb : List Byte) (i j b : Nat) (a : Memory × Flags) : Memory × Flags :=
  let ea := scaleAt sa (i * (k / 32) + b)
  let eb := scaleAt sb (b * n + j)
  let p := x.partials.fp (2048 * i + b * n + j)
  let t := if ea = 0xFF ∨ eb = 0xFF then Val.nan else (value 0 p).scale (((ea : Int) - 127) + ((eb : Int) - 127))
  let r := bankAdd (a.1.fp (2048 * i + j)) t (isSignalling 0 p && ea != 0xFF && eb != 0xFF)
  (a.1.setFp (2048 * i + j) r.1, a.2 ||| r.2)

/-- Whether a scale that a SACC loads is poisoned: those of B where a row is valid, and those of A of valid rows (R298,
R363). -/
def Matrix.saccPoison (x : Matrix) (sa sb : Moved) : Bool :=
  let n := shapeK x.pshape / 32
  x.pvalid != 0 && (sb.bad.any id || (List.range 8).any fun i => x.pvalid.getLsbD i && ((sa.bad.drop (i * n)).take n).any id)

/-- The work of an active SACC with its scales, those of A at address a: rows and columns in order, blocks ascending in each
element (R298). -/
def Matrix.sacc (x : Matrix) (shape : BitVec 3) (a : Word) (sa sb : Moved) : Except CmdStop Matrix :=
  let k := shapeK shape
  let n := shapeN shape
  if !x.full || shape != x.pshape then .error refuse
  else if x.saccPoison sa sb then .error (.poison a)
  else
    let r := (List.range 8).foldl (fun a i =>
      if !x.pvalid.getLsbD i then a
      else (List.range n).foldl (fun a j => (List.range (k / 32)).foldl (fun a b => x.saccStep k n sa.bytes sb.bytes i j b a) a) a) (x.working, 0)
    .ok ({ x with working := r.1, full := false, pshape := 0, pvalid := 0 }.raise r.2)

/-- An outlier record (R116). -/
structure Outlier where
  element : Nat
  row : Nat
  x : Nat
  deriving DecidableEq, Repr

/-- n records in bytes. -/
def readOutliers (bs : List Byte) (n : Nat) : List Outlier :=
  (List.range n).map fun r => ⟨numAt bs (16 * r) 4, numAt bs (16 * r + 4) 4, numAt bs (16 * r + 8) 4⟩

/-- One record added to the columns of its row (R301). -/
def Matrix.ofixStep (x : Matrix) (sb : List Byte) (a : Memory × Flags) (o : Outlier) : Memory × Flags :=
  let n := shapeN x.shape
  (List.range n).foldl (fun (a : Memory × Flags) j =>
    let eb := scaleAt sb (o.element / 32 * n + j)
    let bv := x.b o.element j
    let p := (value 0 o.x).mul (value x.fmt bv)
    let t : Exact := if eb = 0xFF then (.nan, 0) else (p.1.scale ((eb : Int) - 127), p.2)
    let r := bankAdd (a.1.fp (2048 * o.row + j)) t.1 (eb != 0xFF && (isSignalling 0 o.x || isSignalling x.fmt bv))
    (a.1.setFp (2048 * o.row + j) r.1, a.2 ||| r.2 ||| t.2)) a

/-- Whether a record adds poison: its row of B, or the scales of its block (R301, R363). -/
def Matrix.ofixPoison (x : Matrix) (sb : Moved) (o : Outlier) : Bool :=
  let n := shapeN x.shape
  x.badCells.contains o.element || ((sb.bad.drop (o.element / 32 * n)).take n).any id

/-- The work of an active OFIX with its records and scales (R301). -/
def Matrix.ofix (x : Matrix) (os : List Outlier) (sb : Moved) : Except CmdStop Matrix :=
  if os.any fun o => decide (shapeK x.shape ≤ o.element) || decide (8 ≤ o.row) then .error refuse
  else if os.any (x.ofixPoison sb) then .error (.poison 0)
  else
    let r := os.foldl (x.ofixStep sb.bytes) (x.working, 0)
    .ok ({ x with working := r.1 }.raise r.2)

/-! ### The work of an active matrix command -/

/-- One destination piece in the macros for each source piece, from position p on (R295). -/
def cellPieces (row p : Nat) : List Src → List (Nat × Nat × Dst)
  | [] => []
  | x :: r => (p, x.len, .cell p row) :: cellPieces row (p + x.len) r

/-- A plan that changes the engine alone. -/
def matPlan (x : Matrix) : Plan := ⟨x, [], [], 0, []⟩

/-- The work of an active command of qm of core g (R290, R295 to R301). A bank that is down reads 0 (R294). MLOADB and AREAD
move pieces; the others read their scratchpad operands now (log entry 18). -/
def State.planMatrix (s : State) (g : Nat) : CmdBody → Except CmdStop Plan
  | .mloadb a shape fb =>
    let n := fmtBytes fb (shapeK shape * shapeN shape)
    let row := fmtBytes fb (shapeN shape)
    let x := (s.work g).matrix
    let srcs := spadSrcs g a.toNat n
    .ok ⟨{ x with badCells := [] }, transfers 0 srcs (cellPieces row 0 srcs), [.loaded shape fb], 0, []⟩
  | .mma shape fa fb masked _ => ((s.work g).matrix.mma shape fa fb masked).map matPlan
  | .sacc a b shape =>
    let sa := s.fetchLocal g a.toNat (8 * (shapeK shape / 32))
    let sb := s.fetchLocal g b.toNat 2048
    ((s.work g).matrix.sacc shape a sa sb).map matPlan
  | .aswap => let x := (s.work g).matrix; .ok (matPlan { x with working := x.visible, visible := x.working })
  | .aread a b =>
    let x := (s.work g).matrix
    .ok ⟨x, transfers 0 [.made (Moved.clean (x.visible.bytes (4 * b.toNat) 4096))] (dstPieces a.toNat 4096 (.spad g)), [], 0, []⟩
  | .azero v => let x := (s.work g).matrix; .ok (matPlan (if v then { x with visible := [] } else { x with working := [] }))
  | .ofix a n b =>
    let d := s.fetchLocal g a.toNat (16 * n.toNat)
    let sb := s.fetchLocal g b.toNat 2048
    if d.bad.any id then .error (.poison a)
    else ((s.work g).matrix.ofix (readOutliers d.bytes n.toNat) sb).map matPlan
  | _ => .ok (matPlan (s.work g).matrix)

/-! ### Issue (R293) -/

/-- The exact checks of scratchpad operands: alignment, address and extent (R208, R293). -/
def State.matCauses (s : State) (ops : List (Word × Nat × Nat)) : List (Nat × Word) :=
  ((ops.filter fun o => o.1.toNat % o.2.1 != 0).map fun o => (0x06, o.1)) ++
    (ops.filter fun o =>
      decide (0x80000 ≤ o.1.toNat) || (o.2.2 != 0 && decide (0x70000 < o.1.toNat + o.2.2))
        || !rangeOk s.me.sup (s.work s.cur.1).power o.1.toNat o.2.2 true).map fun o => (0x07, o.1)

/-- A command of qm issued after its checks: its count, where it has one, and its operands. -/
def State.issueMatrix (s : State) (i : Instr) (b : CmdBody) (countOk : Bool) (ops : List (Word × Nat × Nat)) (ws : List Span) :
    State :=
  let cs := (if countOk then [] else [(0x04, 0)]) ++ s.matCauses ops
  if cs.isEmpty then s.issueCommand [.qm] i b ws else s.trapAll cs

/-- `MLOADB` (R295). -/
def execMloadb (a : XReg) (sh g : BitVec 3) (s : State) : Res :=
  .next (s.issueMatrix (.mloadb a sh g) (.mloadb (s.x a) sh g) true [(s.x a, 16, fmtBytes g 65536)] [])

/-- The context's feeders since its last MMA (R283). -/
def State.myFeeders (s : State) : List Nat :=
  ((s.work s.cur.1).feeders.filter fun f => f.1 == s.cur.2).map fun f => f.2

/-- `MMA` (R283, R296). -/
def execMma (sh f g : BitVec 3) (m : BitVec 1) (s : State) : Res :=
  .next (s.issueMatrix (.mma sh f g m) (.mma sh f g (m == 1) s.myFeeders) true [] [])

/-- `SACC` (R298). -/
def execSacc (a b : XReg) (sh : BitVec 3) (s : State) : Res :=
  .next (s.issueMatrix (.sacc a b sh) (.sacc (s.x a) (s.x b) sh) true [(s.x a, 8, 8 * (shapeK sh / 32)), (s.x b, 16, 2048)] [])

/-- `ASWAP` (R299). -/
def execAswap (s : State) : Res := .next (s.issueMatrix .aswap .aswap true [] [])

/-- `AREAD` (R293, R300). -/
def execAread (a b : XReg) (s : State) : Res :=
  let n := s.x b
  .next (s.issueMatrix (.aread a b) (.aread (s.x a) n) (n.toNat % 1024 == 0 && decide (n.toNat < 16384)) [(s.x a, 16, 4096)]
    [⟨false, (s.x a).toNat, 4096⟩])

/-- `AZERO` (R300). -/
def execAzero (v : BitVec 1) (s : State) : Res := .next (s.issueMatrix (.azero v) (.azero (v == 1)) true [] [])

/-- `OFIX` (R293, R301). -/
def execOfix (a b c : XReg) (s : State) : Res :=
  let n := s.x b
  .next (s.issueMatrix (.ofix a b c) (.ofix (s.x a) n (s.x c)) (decide (n.toNat ≤ 65535))
    [(s.x a, 16, 16 * n.toNat), (s.x c, 16, 2048)] [])

/-- The value MSTAT writes (R302). -/
def Work.matrixStatus (w : Work) : Word :=
  let x := w.matrix
  pack [(0, x.flags.toNat), (8, x.shape.toNat), (11, x.fmt.toNat), (14, bitOf x.full),
    (15, if x.full then x.pshape.toNat else 0), (18, if x.full then x.pvalid.toNat else 0), (26, (w.queue .qm).length)]

/-- `MSTAT`: waits for the context's own commands of qm, then reads the status and clears the flags at once (R302). -/
def execMstat (a : XReg) (s : State) : Res :=
  let w := s.work s.cur.1
  let mine := (w.queue .qm).filter fun m => m.attached && m.c == s.cur.2
  .next <|
    if mine.isEmpty then
      writeX (s.setWork s.cur.1 { w with matrix := { w.matrix with flags := 0 } }) 2 a w.matrixStatus
    else s.hold (.waiting (.matrix (mine.map fun m => m.id)))

end Sys2Proof.Machine
end

