-- ==== Sys2Proof/Machine/Commands.lean ====
section
/-! DEFINITION. Commands as their engines run them (R274, R275, R288): activation, faults of attached and detached
commands (R210, R211), credits (R151, R284), completion, and the events of a walk (R342). -/

namespace Sys2Proof.Machine

/-! ### Commands in their queues -/

/-- The barrier a command names, if any (R284). -/
def CmdBody.bar : CmdBody → Option Nat
  | .copy _ _ b _ _ _ => if b = BitVec.allOnes 64 then none else some b.toNat
  | .pagein _ _ b => if b = BitVec.allOnes 64 then none else some b.toNat
  | .gather _ b => if b = BitVec.allOnes 64 then none else some b.toNat
  | _ => none

/-- A command of core g changed wherever it stands. -/
def State.mapCmd (s : State) (g id : Nat) (f : Cmd → Cmd) : State :=
  let w := s.work g
  s.setWork g { w with queues := Tab.each (fun _ l => l.map fun m => if m.id = id then f m else m) w.queues }

/-- A command taken out of every queue of core g. -/
def State.dropCmd (s : State) (g id : Nat) : State :=
  let w := s.work g
  s.setWork g { w with queues := Tab.each (fun _ l => l.filter fun m => m.id != id) w.queues }

/-- The ring entry of an attached command changed. -/
def State.cmdEntry (s : State) (g : Nat) (m : Cmd) (f : RingEntry → RingEntry) : State :=
  if m.attached then s.setCtx g m.c ((s.ctx g m.c).setEntry m.seq f) else s

/-- The event that a command belongs to, while it is speculative or coasts (R320, R324). -/
def State.cmdEvent (s : State) (g : Nat) (m : Cmd) : Option (Nat × Lp × LpEvent) :=
  match m.event with
  | none => none
  | some (slot, id) =>
    match s.lp g slot with
    | none => none
    | some lp => match lp.event id with
      | some e => if e.safe && e.st != .coasting then none else some (slot, lp, e)
      | none => none

/-! ### Faults (R210, R211, R288) -/

/-- The commands of context c in one queue that are held on account of those in h: those behind one of them, and an MMA
that one of them feeds with those behind it (R210, R283). -/
def heldIn (c : Nat) (h : List Nat) : List Cmd → Bool → List Nat
  | [], _ => []
  | m :: r, seen =>
    let mine := m.attached && m.c == c
    let fed := match m.body with
      | .mma _ _ _ _ fs => fs.any fun f => h.contains f
      | _ => false
    if mine && (seen || fed || h.contains m.id) then m.id :: heldIn c h r true else heldIn c h r seen

/-- The commands held on account of command id of context c, over every queue. -/
def Work.heldBy (w : Work) (c : Nat) : Nat → List Nat → List Nat
  | 0, h => h
  | n + 1, h => w.heldBy c n ((h ++ w.queues.flatMap fun q => heldIn c h q.2 false).eraseDups)

/-- The commands behind a faulted one held, with their ring entries (R210). -/
def State.holdBehind (s : State) (g : Nat) (m : Cmd) : State :=
  let ids := ((s.work g).heldBy m.c 8 [m.id]).filter fun i => i != m.id
  let ms := ((s.work g).queues.flatMap fun q => q.2).filter fun x => ids.contains x.id && !x.st.isActive
  ms.foldl (fun t x => (t.mapCmd g x.id fun y => { y with st := .held }).cmdEntry g x fun e => { e with st := .held }) s

/-- A late cause of a command: recorded at its context, or, detached, discarded and reported (R210, R211, R288). A
refusal of a matrix command sets RF (R303). -/
def State.failCmd (s : State) (g : Nat) (q : Queue) (m : Cmd) (cause : Nat) (a : Word) : State :=
  let w := s.work g
  let s0 := if q = .qm ∧ cause = 0x15 then s.setWork g { w with matrix := { w.matrix with flags := w.matrix.flags ||| 0x10 } } else s
  if m.attached then
    let s1 := s0.mapCmd g m.id fun x => { x with st := .faulted }
    (s1.setCtx g m.c ((s1.ctx g m.c).faultEntry m.seq cause a false)).holdBehind g m
  else (s0.dropCmd g m.id).reportDetached g q m cause a

/-- A command that would consume poison leaves, and its context is terminated (R363). -/
def State.poisonCmd (s : State) (g : Nat) (m : Cmd) (a : Word) : State :=
  let s1 := s.dropCmd g m.id
  if m.attached then s1.terminate g m.c 1 a
  else s1.report g m.c g 0 [1, pack [(0, m.c), (8, 2 ^ 56 - 1)], a, BitVec.allOnes 64]

/-! ### Pieces (R285, R363, R364) -/

/-- The bytes of a source piece, read at one instant (R285). -/
def State.fetchSrc (s : State) : Src → Moved
  | .made d => d
  | .phys pa n => s.fetchPieces [(pa, n)]
  | .spad h off n => s.fetchLocal h off n

/-- Whether a place in core h's scratchpad is out of reach of core g's engines for now: core h is evicted (R357). -/
def State.spadAway (s : State) (g h : Nat) : Bool := h != g && s.away (s.tag g) h

/-- Whether core h's scratchpad is one that core g's engines may reach: its own, or that of a core of its partition (R143, R350). -/
def State.spadHeld (s : State) (g h : Nat) : Bool := h == g || (s.holds (s.tag g) h && s.tag h == s.tag g && !(s.core h).dbg.fenced)

/-- Whether a source piece can be read now (R357). -/
def State.srcReady (s : State) (g : Nat) : Src → Bool
  | .made _ => true
  | .phys pa n => !s.piecesAway g [(pa, n)] && !s.homeOff pa
  | .spad h _ _ => !s.spadAway g h

/-- A source piece of core g's engines read: one that the partition does not own any more answers with a failure, which is poison (R143,
R350, R363). -/
def State.readSrc (s : State) (g : Nat) (x : Src) : Moved :=
  let ok := match x with
    | .made _ => true
    | .phys pa _ => s.reaches (s.tag g) pa
    | .spad h _ _ => s.spadHeld g h
  if ok then s.fetchSrc x else ⟨List.replicate x.len 0, List.replicate x.len true⟩

/-- Whether a destination piece can be written now (R357). -/
def State.dstReady (s : State) (g : Nat) : Dst → Bool
  | .phys pa => !s.piecesAway g [(pa, 1)] && !s.homeOff pa
  | .spad h _ => !s.spadAway g h
  | _ => true

/-- The address of a destination piece whose home cannot perform the write: its device is lost, or the partition does not own the
scratchpad any more (R143, R350, R364). -/
def State.dstFails (s : State) (g : Nat) : Dst → Option Nat
  | .phys pa => if s.storeFails pa || !s.reaches (s.tag g) pa then some pa else none
  | .spad h off => if s.spadHeld g h then none else some (2 ^ 23 + h % 16 * 2 ^ 19 + off)
  | _ => none

/-- A scratchpad piece of an engine: in a bank that is down it is discarded, and poison comes along (R288, R363). -/
def State.putLocal (s : State) (h off : Nat) (d : Moved) : State :=
  if !regionOk true (s.work h).power off true then s
  else
    let s1 := s.localStore h off d.bytes
    let w := s1.work h
    let bad := ((d.bad.zipIdx.filter fun e => e.1).map fun e => (off + e.2) / 32).eraseDups
    s1.setWork h { w with poison := (w.poison ++ bad).eraseDups }

/-- A piece of the row buffer written, with its poison (R281, R363). -/
def Matrix.putRow (x : Matrix) (p : Nat) (d : Moved) : Matrix :=
  let old := x.badRows.filter fun b => b != p / 32
  { x with rows := x.rows.store p d.bytes, badRows := if d.bad.any id then old ++ [p / 32] else old }

/-- A piece of the macros written; a row of B that poison comes to is marked (R295, R363). -/
def Matrix.putCell (x : Matrix) (p row : Nat) (d : Moved) : Matrix :=
  let bad := ((d.bad.zipIdx.filter fun e => e.1).map fun e => (p + e.2) / row).eraseDups
  { x with cells := x.cells.store p d.bytes, badCells := (x.badCells ++ bad).eraseDups }

/-- The matrix engine of core g changed. -/
def State.mapMatrix (s : State) (g : Nat) (f : Matrix → Matrix) : State :=
  s.setWork g { s.work g with matrix := f (s.work g).matrix }

/-- A destination piece written at one instant (R285). -/
def State.putDst (s : State) (g : Nat) (d : Dst) (x : Moved) : State :=
  match d with
  | .phys pa => (s.writePhys pa x.bytes).markPoison pa x.bytes.length (x.bad.any id)
  | .spad h off => s.putLocal h off x
  | .row p => s.mapMatrix g fun y => y.putRow p x
  | .cell p row => s.mapMatrix g fun y => y.putCell p row x

/-- n bytes of fetched ones from place p on. -/
def Moved.part (x : Moved) (p n : Nat) : Moved := ⟨(x.bytes.drop p).take n, (x.bad.drop p).take n⟩

/-- The parts of one destination block written at one instant, with what their homes cannot perform left out (R285, R364). -/
def State.putDsts (s : State) (g : Nat) (got : Moved) (ds : List (Nat × Nat × Dst)) : State :=
  ds.foldl (fun u d => if (u.dstFails g d.2.2).isSome then u else u.putDst g d.2.2 (got.part d.1 d.2.1)) s

/-- The sources at the head of a list that lie in one block, with the made bytes between them, and the rest. -/
def takeBlock (b : Nat × Nat × Nat) : List Src → List Src × List Src
  | [] => ([], [])
  | x :: r =>
    if x.block = none ∨ x.block = some b then
      let q := takeBlock b r
      (x :: q.1, q.2)
    else ([], x :: r)

/-- The sources that are read next, at one instant, and the rest (R285). -/
def nextSrcs : List Src → List Src × List Src
  | [] => ([], [])
  | x :: r => match x.block with
    | some b => takeBlock b (x :: r)
    | none => ([x], r)

/-- The destination pieces that can be written next: the whole of their block has been fetched (R285). -/
def Transfer.ready (t : Transfer) : List (Nat × Nat × Dst) :=
  t.dsts.filter fun d => t.dsts.all fun e => e.2.2.block != d.2.2.block || decide (e.1 + e.2.1 ≤ t.got.bytes.length)

/-- How many of the bytes of a destination piece are credited and counted (R284, R354). -/
def Transfer.counted (t : Transfer) (d : Nat × Nat × Dst) : Nat := min (d.1 + d.2.1) t.counts - d.1

/-- What a step of a transfer does: the machine and the transfer after it, the destination pieces it writes, and the address of a write
that its home could not perform. -/
structure Advance where
  next : State
  rest : Transfer
  wrote : List (Nat × Nat × Dst)
  failed : Option Nat
  deriving DecidableEq, Repr

/-- The next piece of a transfer of core g: a destination block whose bytes have been fetched, the j-th of those, is
written; else a source block is read. None while its home answers with a retry reply (R285, R357). -/
def State.advance (s : State) (g : Nat) (t : Transfer) (j : Nat) : Option Advance :=
  let ready := t.ready
  match ready[j % ready.length]? with
  | some d =>
    let ds := t.dsts.filter fun e => e.2.2.block == d.2.2.block
    if !s.dstReady g d.2.2 then none
    else some ⟨s.putDsts g t.got ds, { t with dsts := t.dsts.filter fun e => e.2.2.block != d.2.2.block }, ds,
      (ds.filterMap fun e => s.dstFails g e.2.2).head?⟩
  | none =>
    match nextSrcs t.srcs with
    | ([], _) => some ⟨s, { t with dsts := [] }, [], none⟩
    | (xs, r) =>
      if xs.all (s.srcReady g) then
        some ⟨s, { t with srcs := r, got := xs.foldl (fun m x => m.append (s.readSrc g x)) t.got }, [], none⟩
      else none

/-- The address of the piece of memory that a step of a transfer reads or writes, if it does: a request that a memory agent serves
(R352, R354). -/
def Transfer.servedAt (t : Transfer) (a : Advance) : Option Nat :=
  match a.wrote with
  | (_, _, .phys pa) :: _ => some pa
  | _ :: _ => none
  | [] => if t.srcs.length = a.rest.srcs.length then none
    else match t.srcs with
      | .phys pa _ :: _ => some pa
      | _ => none

/-- Whether the agent of an address serves a piece of core g's engines next, after the requests that have come before it (R353). -/
def State.pieceTurn (s : State) (g pa : Nat) : Bool := s.turnAt pa (s.tag g) 1

/-- What a command does after its last piece: the mask bits of the row buffer; a block-table entry compared and swapped,
and removed from the cluster's block map cache; Loaded (R282, R286, R295). None while its home answers with a retry reply or serves
others; the address is that of a swap that its home could not perform (R353, R357, R364). -/
def State.doAfter (s : State) (g : Nat) : After → Option (State × Option Nat)
  | .rowMask on off => some (s.mapMatrix g fun x => { x with rowMask := (x.rowMask &&& ~~~off) ||| on }, none)
  | .loaded shape fmt => some (s.mapMatrix g fun x => { x with shape := shape, fmt := fmt }, none)
  | .entry va pa old new =>
    if s.piecesAway g [(pa, 4)] || s.homeOff pa || !s.turnAt pa (s.tag g) 2 then none
    else
      let bad := s.dstFails g (.phys pa)
      let s1 := if bad.isNone && natOfBytes (s.readPhys pa 4) == old then s.writePhys pa (bytesOfNat 4 new) else s
      let q := s1.cluster g
      some ((s1.served pa (s1.tag g) 2).setCluster g { q with
        blockMap := q.blockMap.filter fun e => !(e.1 == s1.tag g && e.2.1 == va.toNat) }, bad)

/-- The progress of a command with transfer i replaced; one whose pieces are all written is gone. -/
def Progress.move (p : Progress) (i : Nat) (t : Transfer) : Progress :=
  { p with moves := if t.dsts.isEmpty then p.moves.eraseIdx i else listSet p.moves i t }

/-- The lines of memory that some destination pieces lie in, with how many of their bytes they hold. -/
def lineBytes (ds : List (Nat × Nat × Dst)) : Tab Nat :=
  ds.foldl (fun (t : Tab Nat) d => match d.2.2 with
    | .phys pa => Tab.put t (pa / 64) (Tab.look 0 t (pa / 64) + d.2.1)
    | _ => t) []

/-- The lines of memory that transfers write whole (R363). -/
def wholeLines (ts : List Transfer) : List Nat :=
  ((lineBytes (ts.flatMap fun t => t.dsts)).filter fun e => e.2 == 64).map fun e => e.1

/-- A line of memory that a command has now written whole, with no poison in it, is poisoned no longer; one that a poisoned or a failed
piece goes to stays as it is (R363, R364). -/
def State.lineDone (s : State) (p : Progress) (t : Transfer) (a : Advance) : State × Progress :=
  match a.wrote with
  | (_, _, .phys pa) :: _ =>
    let l := pa / 64
    if a.failed.isSome || a.wrote.any fun d => (t.got.part d.1 d.2.1).bad.any id then (s, { p with lines := p.lines.erase l })
    else
      let open_ := (lineBytes (p.moves.flatMap fun t => t.dsts)).any fun e => e.1 == l
      if p.lines.contains l && !open_ then (s.markPoison (64 * l) 64 false, { p with lines := p.lines.erase l }) else (s, p)
  | _ => (s, p)

/-- The context of a command whose write its home could not perform is terminated (R364). -/
def State.failedPiece (s : State) (g : Nat) (m : Cmd) (bad : Option Nat) : State :=
  match bad with
  | some pa => if m.attached then s.terminate g m.c 2 (BitVec.ofNat 64 pa) else s
  | none => s

/-- The active command of a queue of core g goes on: its next piece, n choosing among those that may be next, once the agent serves
it, or, after the last, an action (R284, R285, R353). What a copy or gather engine moves is counted as it is written (R354). -/
def State.stepCmd (s : State) (g : Nat) (m : Cmd) (p : Progress) (n : Nat) : State :=
  let i := n % p.moves.length
  match p.moves[i]? with
  | none =>
    match p.after with
    | [] => s
    | a :: r => match s.doAfter g a with
      | none => s
      | some (s1, bad) => (s1.mapCmd g m.id fun x => { x with st := .active { p with after := r } }).failedPiece g m bad
  | some t =>
    match s.advance g t (n / p.moves.length) with
    | none => s
    | some a =>
      let at_ := t.servedAt a
      if !at_.all (s.pieceTurn g) then s else
      let q := a.next.lineDone (p.move i a.rest) t a
      let s1 := q.1.mapCmd g m.id fun x => { x with st := .active q.2 }
      let s2 := match at_ with
        | some pa => s1.served pa (s1.tag g) 1
        | none => s1
      let k := sumOf (a.wrote.map t.counted)
      (if k = 0 then s2 else s2.countBytes (s2.tag g) k).failedPiece g m a.failed

/-! ### Speculative events (R320, R321) -/

/-- The parts of a plan's scratchpad writes in regions of an LP of core g (R321). -/
def localParts (g : Nat) (lp : Lp) (ts : List Transfer) : List Part :=
  ts.flatMap fun t => t.dsts.flatMap fun d => match d.2.2 with
    | .spad h off => if h = g then partsOf (lp.kindAt false) off (List.replicate d.2.1 0) else []
    | _ => []

/-- The granules that a plan of a speculative event logs first (R321). -/
def State.planGranules (s : State) (g : Nat) (m : Cmd) (p : Plan) : List Nat :=
  match s.cmdEvent g m with
  | some (_, lp, e) => if e.st = .coasting then [] else lp.newGranules e.id id (localParts g lp p.moves)
  | none => []

/-- Whether the eddy log has room for a plan (R321). -/
def State.planRoom (s : State) (g : Nat) (m : Cmd) (p : Plan) : Bool :=
  match s.cmdEvent g m with
  | some (_, lp, _) => lp.eddyR.room (48 * (s.planGranules g m p).length)
  | none => true

/-- A plan begun: granules are logged, what the matrix engine does at once is done, and the pieces are to come (R285,
R321). -/
def State.beginPlan (s : State) (g : Nat) (m : Cmd) (p : Plan) : State :=
  let s1 := match s.cmdEvent g m with
    | some (slot, _, e) => s.logGranules g slot e.id e.vt (s.planGranules g m p)
    | none => s
  let s2 := s1.mapMatrix g fun _ => p.matrix
  s2.mapCmd g m.id fun x =>
    { x with st := .active ⟨p.moves, p.after, if m.body.bar.isSome then p.credit else 0, wholeLines p.moves, s2.nextId, p.cached⟩ }

/-! ### Activation (R274, R275, R276, R283, R288) -/

/-- The work of the command of core g that becomes active. -/
def State.plan (s : State) (g : Nat) (m : Cmd) : State × Except CmdStop Plan :=
  match m.body with
  | .copy o d _ e k _ => s.planCopy g m o d e k
  | .pagein a b _ => s.planPagein g m a b
  | .gather x _ => s.planGather g m x
  | b => (s, s.planMatrix g b)

/-- Whether a speculative event still holds a scratchpad store that it made before a command: the command does not become
active before that store is performed (R310, R320). -/
def State.awaitsStore (s : State) (g : Nat) (m : Cmd) : Bool :=
  match m.event with
  | none => false
  | some (slot, id) => match s.lp g slot with
    | none => false
    | some lp => lp.commits.any fun h => h.event == id && decide (h.at_ ≤ m.id) && (match h.item with
      | .scratch _ _ => true
      | _ => false)

/-- Whether a command that waits may be taken by its engine: it waits its turn, is no fence, its feeders have completed, the
accesses before it that it waits for are performed, and its core runs (R243, R274, R275, R283, R310). -/
def State.cmdReady (s : State) (g : Nat) (m : Cmd) : Bool :=
  let w := s.work g
  s.runs g && (match m.st with
    | .queued => true
    | .shadow => true
    | .paused _ => true
    | _ => false) && (match m.body with
      | .fence _ => false
      | .mma _ _ _ _ fs => !((w.queue .qc0 ++ w.queue .qc1).any fun x => fs.contains x.id)
      | _ => true) && !s.awaitsStore g m && s.allDone g m.waits

/-- The first command of a queue that is not active (R274). -/
def Work.nextIn (w : Work) (q : Queue) : Option Cmd := ((w.queue q).dropWhile fun m => m.st.isActive).head?

/-- Whether the first command of a queue that is not active may be taken by its engine (R274). -/
def State.headReady (s : State) (g : Nat) (q : Queue) : Bool :=
  match (s.work g).nextIn q with
  | some m => s.cmdReady g m
  | none => false

/-- The queues that share an engine with a queue of core g, in the order of the rotation (R274). -/
def engineQueues (g : Nat) (q : Queue) : List (Nat × Queue) :=
  match q with
  | .qg => (clusterCores g).map fun h => (h, .qg)
  | .qm => [(g, .qm)]
  | _ => (clusterCores g).flatMap fun h => [(h, .qc0), (h, .qc1)]

/-- Whether a command is active in one of some queues. -/
def State.engineBusy (s : State) (qs : List (Nat × Queue)) : Bool :=
  qs.any fun e => ((s.work e.1).queue e.2).any fun m => m.st.isActive

/-- The place in the rotation that comes next (R274). -/
def Cluster.turn (k : Cluster) (q : Queue) : Nat := if q = .qg then k.rotor.2 else if q = .qm then 0 else k.rotor.1

/-- Whether the next command of a queue is its engine's shadow set (R274). -/
def State.shadowIn (s : State) (e : Nat × Queue) : Bool :=
  s.headReady e.1 e.2 && (match (s.work e.1).nextIn e.2 with
    | some m => m.st == .shadow
    | none => false)

/-- The queue that an engine serves next: that of its shadow set, else the first ready one from its turn on (R274). -/
def State.chosen (s : State) (g : Nat) (q : Queue) : Option (Nat × Queue) :=
  let qs := engineQueues g q
  let n := (s.cluster g).turn q
  (qs.find? s.shadowIn).or ((qs.drop n ++ qs.take n).find? fun e => s.headReady e.1 e.2)

/-- The rotation after a queue was chosen. -/
def State.turned (s : State) (g : Nat) (q : Queue) : State :=
  let qs := engineQueues g q
  let n := (qs.idxOf (g, q) + 1) % qs.length
  let k := s.cluster g
  s.setCluster g { k with rotor := if q = .qg then (k.rotor.1, n) else if q = .qm then k.rotor else (n, k.rotor.2) }

/-- What a command of core g reads (kind 2) and writes (kind 4) at addresses when it is active, piece by piece: the rows and
the mask of a COPY, the entry and the block of a PAGEIN, the record and the table of a GATHERKV and, once its walk is
done, the blocks and the masks; the scratchpad operands of the matrix commands (R281, R286, R287, R295 to R301, R368; log entry 13). -/
def State.cmdAccesses (s : State) (g : Nat) (m : Cmd) : List (Nat × Nat × BitVec 3) :=
  match m.body with
  | .copy o d _ bs k _ =>
    let e := readTmap bs
    (((e.tile o).filter fun r => r.valid).map fun r => (r.src.toNat, r.n * e.esize, 2)) ++
      (copySpans o d bs k).map fun p => (p.addr, p.len, 4)
  | .pagein a b _ =>
    let size := blockSize (field b 0 4)
    let e := match (s.mapVirt g m.sup .amo a 4).2 with
      | .ok ps => natOfBytes (s.readPieces ps)
      | .error _ => 0
    (a.toNat, 4, 2) :: if e / 2 ^ 31 = 0 then [] else
      [(e % 2 ^ 30 * size, size, 2), (b.toNat / 4096 * 4096, size, 4), (a.toNat, 4, 4)]
  | .gather x _ =>
    match s.gatherOf g m.sup x, m.st with
    | _, .walking k =>
      let r := k.record
      let size := blockSize r.bsz
      let fs := k.entries.zipIdx.filter fun e => fetched e.1
      if k.reads then []
      else (fs.map fun e => (e.1 % 2 ^ 30 * size, size, 2)) ++ (fs.map fun e => (r.dst.toNat + e.2 * size, size, 4)) ++
        [(r.mdst.toNat, 2 * r.nb, 4)]
    | .error _, _ => []
    | .ok (r, _, _), _ =>
      (x.toNat, 64, 2) :: (List.range r.nb).map fun i => ((r.table + BitVec.ofNat 64 (4 * (r.first + i))).toNat, 4, 2)
  | .mloadb a shape fb => [(a.toNat, fmtBytes fb (shapeK shape * shapeN shape), 2)]
  | .sacc a b shape => [(a.toNat, 8 * (shapeK shape / 32), 2), (b.toNat, 2048, 2)]
  | .aread a _ => [(a.toNat, 4096, 4)]
  | .ofix a n b => [(a.toNat, 16 * n.toNat, 2), (b.toNat, 2048, 2)]
  | _ => []

/-- The first of some accesses of a command that a comparator matches: the comparator and the access's address. A command of a supervisor
context never matches, nor does the command of the first instruction after an ERET that suppresses watchpoints (R217,
R368). -/
def State.watchIn (s : State) (g : Nat) (m : Cmd) (l : List (Nat × Nat × BitVec 3)) : Option (Nat × Word) :=
  if m.sup || m.watchOff then none
  else (l.filterMap fun a =>
    if a.2.1 = 0 then none
    else (firstBelow ((s.core g).dbg.hit m.c a.1 a.2.1 a.2.2) 8).map fun n => (n, BitVec.ofNat 64 a.1)).head?

/-- The first piece of a command that a comparator matches (R217, R368). -/
def State.cmdWatch (s : State) (g : Nat) (m : Cmd) : Option (Nat × Word) := s.watchIn g m (s.cmdAccesses g m)

/-- The comparator that matches the access of a command at an address (R208, R217). -/
def State.watchAt (s : State) (g : Nat) (m : Cmd) (a : Word) : Option Nat :=
  (s.watchIn g m ((s.cmdAccesses g m).filter fun x => decide (x.1 ≤ a.toNat) && decide (a.toNat < x.1 + x.2.1))).map fun q => q.1

/-- A command whose access at an address raises a translation or permission fault: the access sets the bit of the watchpoint cause too
where a comparator matches it (R208, R217, R288, R369). -/
def State.faultCmd (s : State) (g : Nat) (q : Queue) (m : Cmd) (cause : Nat) (a : Word) : State :=
  match if cause = 0x07 then s.watchAt g m a else none with
  | some n => ((s.pull g n).failCmd g q m cause a).cmdEntry g m fun e => { e with more := e.more ||| BitVec.ofNat 23 (2 ^ 0x08) }
  | none => s.failCmd g q m cause a

/-- A command that comparator n matched at an address: the late cause 0x08, with nothing written (R217, R368). -/
def State.watchCmd (s : State) (g : Nat) (q : Queue) (m : Cmd) (n : Nat) (a : Word) : State :=
  ((s.pull g n).failCmd g q m 0x08 a).cmdEntry g m fun e => { e with comparator := some n }

/-- A command becomes active: its operands are checked and every page it names is translated before a byte moves; what it
cannot do becomes a fault, a parked command, a termination, or a walk whose events go first (R285, R288, R340, R363). What
raises no translation fault meets the watchpoints (R217). -/
def State.runCmd (s : State) (g : Nat) (q : Queue) (m : Cmd) : State :=
  let r := s.plan g m
  match r.2 with
  | .error .retry => s
  | .error (.fault cause a) => r.1.faultCmd g q m cause a
  | .error (.poison a) => r.1.poisonCmd g m a
  | .error (.park va k f) => (r.1.recordFault g va k f true).mapCmd g m.id fun x => { x with st := .parked }
  | .error (.walk k ms) =>
    match r.1.cmdWatch g m with
    | some (n, a) => r.1.watchCmd g q m n a
    | none =>
      let s1 := r.1.mapCmd g m.id fun x => { x with st := .walking k }
      s1.setWork g { s1.work g with misses := ms }
  | .ok p =>
    match r.1.cmdWatch g m with
    | some (n, a) => r.1.watchCmd g q m n a
    | none => if r.1.planRoom g m p then r.1.beginPlan g m p else s

/-- An engine takes the next command of a queue of core g: as its shadow set while a command is active, else as its active
command; one that an eviction stopped goes on from its piece (R274, R357). -/
def State.takeCmd (s : State) (g : Nat) (q : Queue) (m : Cmd) : State :=
  let s1 := if m.st = .shadow then s else s.turned g q
  if s.engineBusy (engineQueues g q) then
    (if m.st = .shadow then s else s1.mapCmd g m.id fun x => { x with st := if m.st = .queued then .shadow else x.st })
  else match m.st with
    | .paused p => s1.mapCmd g m.id fun x => { x with st := .active p }
    | _ => s1.runCmd g q m

/-- Move n of an engine at a queue of core g: with n = 0 it takes the next command; with n = k + 1 its active command goes on, k
choosing among the pieces that may be next, and a walk whose events have left goes on (R274, R285, R340). -/
def State.activate (s : State) (g : Nat) (q : Queue) : Nat → State
  | 0 => match (s.work g).nextIn q with
    | some m => if s.chosen g q = some (g, q) then s.takeCmd g q m else s
    | none => s
  | k + 1 => match (s.work g).queue q with
    | [] => s
    | m :: _ => match m.st with
      | .walking _ => if (s.work g).misses.isEmpty && s.works g then s.runCmd g q m else s
      | .active p => if s.engineRuns g q then s.stepCmd g m p k else s
      | _ => s

/-- The number that names move n of an engine at core g. -/
def moveNo (g n : Nat) : Nat := g + Config.coreNumbers * n

/-- `COMMAND_ACTIVATION`: the move that a number names (R274, R285, R340). -/
def execCommandActivation (h : Nat) (q : Queue) (s : State) : Res :=
  .next (s.activate (h % Config.coreNumbers) q (h / Config.coreNumbers))

/-! ### Credits (R151, R284) -/

/-- The granules that a credit logs (R320, R321). -/
def State.barGranules (s : State) (g : Nat) (m : Cmd) (off : Nat) (o : BarObj) : List Nat :=
  match s.cmdEvent g m with
  | some (_, lp, e) => if e.st = .coasting then [] else lp.newGranules e.id id [⟨lp.kindAt false off, off, o.bytes⟩]
  | none => []

/-- An object changed by a credit: logged in a speculative event, changed in a checkpoint region alone while an event
coasts; in a bank that is down nothing is written (R288, R320, R324). -/
def State.creditBar (s : State) (g : Nat) (m : Cmd) (off : Nat) (o : BarObj) : State :=
  if !regionOk true (s.work g).power off true then s
  else match s.cmdEvent g m with
    | none => s.localStore g off o.bytes
    | some (slot, lp, e) =>
      if e.st = .coasting then (if lp.kindAt false off = 3 then s.localStore g off o.bytes else s)
      else (s.logGranules g slot e.id e.vt (s.barGranules g m off o)).localStore g off o.bytes

/-- Whether the eddy log has room for what a credit logs. -/
def State.creditRoom (s : State) (g : Nat) (m : Cmd) (off : Nat) (o : BarObj) : Bool :=
  match s.cmdEvent g m with
  | some (_, lp, _) => lp.eddyR.room (48 * (s.barGranules g m off o).length)
  | none => true

/-- An overshoot of an object with TE: a late cause of the command, which goes on to its end, or a report (R151, R210,
R211, R284). -/
def State.overshoot (s : State) (g : Nat) (q : Queue) (m : Cmd) (off : Nat) : State :=
  if m.attached then s.cmdEntry g m fun e =>
    if e.cause = 0 then { e with cause := 0x0B, fault := BitVec.ofNat 64 off } else e
  else s.reportDetached g q m 0x0B (BitVec.ofNat 64 off)

/-- The bytes that a progress may credit now: those that have landed, and the last one only after every write; a PAGEIN and a
GATHERKV credit all their bytes at once, at the end (R284, R286, R287; log entry 86). -/
def Progress.due (p : Progress) (b : CmdBody) : Nat :=
  let open_ := !(p.moves.isEmpty && p.after.isEmpty)
  let left := sumOf (p.moves.flatMap fun t => t.dsts.map t.counted)
  match b with
  | .copy _ _ _ _ _ _ => if open_ then min (p.owes - left) (p.owes - 1) else p.owes
  | _ => if open_ then 0 else p.owes

/-- How many bytes an ENGINE_CREDIT of n bytes credits. -/
def Progress.credits (p : Progress) (b : CmdBody) (n : Nat) : Nat :=
  match b with
  | .copy _ _ _ _ _ _ => min n (p.due b)
  | _ => if n < p.due b then 0 else p.due b

/-- `ENGINE_CREDIT`: up to n landed bytes of the active command of a queue are credited to its barrier (R151, R284). -/
def execEngineCredit (g : Nat) (q : Queue) (n : Nat) (s : State) : Res :=
  .next <| match (s.work g).queue q with
    | [] => s
    | m :: _ =>
      match m.st, m.body.bar with
      | .active p, some off =>
        let k := p.credits m.body n
        let o := readBar (if regionOk true (s.work g).power off false then (s.work g).spad else []) off
        let c := o.credit k
        if k = 0 || !s.engineRuns g q || !s.creditRoom g m off c.1 then s
        else
          let s1 := (s.creditBar g m off c.1).mapCmd g m.id fun x => { x with st := .active { p with owes := p.owes - k } }
          if c.2 && o.te then s1.overshoot g q m off else s1
      | _, _ => s

/-! ### Completion (R275, R276) -/

/-- A ring entry whose command has completed. -/
def RingEntry.complete (e : RingEntry) : RingEntry := { e with st := .done, finished := true }

/-- The ring entry of an attached command that has raised a late cause on its way. -/
def State.lateEntry (s : State) (g : Nat) (m : Cmd) : Option RingEntry :=
  if m.attached then (s.ctx g m.c).ring.find? fun e => e.seq == m.seq && e.cause != 0 else none

/-- A command that has made its last write and its last credit: it leaves, and its ring entry completes; one that overshot is
a faulted command with every effect done, and the commands behind it are held (R151, R210, R275). -/
def State.finishCmd (s : State) (g : Nat) (m : Cmd) : State :=
  match s.lateEntry g m with
  | none => (s.dropCmd g m.id).cmdEntry g m RingEntry.complete
  | some _ =>
    ((s.mapCmd g m.id fun x => { x with st := .faulted }).cmdEntry g m fun e => { e with st := .faulted, finished := true }).holdBehind g m

/-- Whether a fence stands first in every queue it names (R276). -/
def Work.fencePasses (w : Work) (m : Cmd) (mask : BitVec 4) : Bool :=
  m.st == .queued && (maskQueues mask).all fun q => match w.queue q with
    | x :: _ => x.id == m.id
    | [] => false

/-- Whether a command has nothing left to do (R275). -/
def CmdState.ended : CmdState → Bool
  | .active p => p.moves.isEmpty && p.after.isEmpty && p.owes == 0
  | _ => false

/-- `COMMAND_COMPLETION`: the active command of a queue has made its last credit, or a fence stands first in all its
queues: it leaves, and its ring entry completes (R275, R276). -/
def execCommandCompletion (g : Nat) (q : Queue) (s : State) : Res :=
  .next <| match (s.work g).queue q with
    | [] => s
    | m :: _ =>
      let done : Bool := match m.body with
        | .fence mask => (s.work g).fencePasses m mask && s.runs g
        | _ => m.st.ended && s.engineRuns g q
      if done then s.finishCmd g m else s

/-! ### Events of a walk (R342) -/

/-- `TIER_MISS_EVENT`: the next event of a walk takes an entry of the request send queue (R340, R342). -/
def execTierMissEvent (g : Nat) (s : State) : Res :=
  .next <| match (s.work g).misses with
    | [] => s
    | m :: r =>
      if s.requestRoom g && s.works g then (s.setWork g { s.work g with misses := r }).enqueue g ⟨.msg m, m.sctx, []⟩ else s

end Sys2Proof.Machine
end

