-- ==== Sys2Proof/Machine/Gvt.lean ====
section
/-! DEFINITION. Global virtual time: rounds (R314, R327) and publications with their commits (R322, R328, R330). -/

namespace Sys2Proof.Machine

/-! ### Rounds (R327) -/

/-- The least of some virtual times. -/
def leastOf (l : List Word) : Word := l.foldl (fun a b => if b.ult a then b else a) (BitVec.allOnes 64)

/-- Whether a message counts for time domain d: it is timed, or an anti-message, on an optimistic channel of it (R327). -/
def State.countsFor (s : State) (d : Nat) (m : Msg) : Bool :=
  let h := Tab.look ⟨0, 0⟩ (s.workFor m.tag m.dst).handlers m.channel
  (m.timed || m.anti) && h.valid && h.optimistic && field h.ctl 16 8 == d

/-- The virtual times of an LP's work: pending messages, waiting anti-messages, a rollback that waits, events that run or are to be
run again; with `all`, for a core that cannot commit, the times just below events that have not become safe too (R324, R327,
R328, R331). -/
def Work.lpTimes (w : Work) (lp : Lp) (all : Bool) : List Word :=
  ((w.pendingOf lp).map fun e => e.2.2.d2) ++ (lp.antis.map fun m => m.d2) ++ lp.rolling.toList
    ++ ((lp.events.filter fun e => e.st != .processed || lp.coast.contains e.id).map fun e => e.vt)
    ++ if all then (lp.events.filter fun e => !e.safe).map fun e => e.vt - 1 else []

/-- The virtual times of domain d that a core's work holds: its LPs, and messages that wait or are to be sent (R327). -/
def State.workTimes (s : State) (d : Nat) (w : Work) (all : Bool) : List Word :=
  let msgs := (w.waiting.map fun e => e.2.2) ++ (w.requests ++ w.replies ++ w.flits).filterMap fun e => match e.item with
    | .msg m => some m
    | _ => none
  (w.lps.flatMap fun e => if e.2.domain = d then w.lpTimes e.2 all else []) ++ (msgs.filter (s.countsFor d)).map fun m => m.d2

/-- The virtual times of domain d at core g of partition t; an evicted core's saved work and messages count (R331, R358). -/
def State.coreTimes (s : State) (t d g : Nat) : List Word :=
  match s.imageOf t g with
  | some i => s.workTimes d i.work true ++ ((i.msgs.map fun e => e.2).filter (s.countsFor d)).map fun m => m.d2
  | none =>
    match (s.core g).evicting with
    | some (.routine _ w) => s.workTimes d w true ++ s.workTimes d (s.work g) false
    | _ => s.workTimes d (s.work g) false

/-- The virtual times of domain d of partition t in flight (R327). -/
def State.flyingTimes (s : State) (t d : Nat) : List Word :=
  let retried := s.net.retries.filterMap fun e => match e.2.2 with
    | .msg m => some m
    | _ => none
  let ms := ((s.net.msgs ++ s.net.answers).map fun e => e.2) ++ retried
  (ms.filter fun m => m.tag == t && s.countsFor d m).map fun m => m.d2

/-- The result of a round: what can still arrive, bounded by the watermark, and never below the last (R327). -/
def State.roundResult (s : State) (t d : Nat) : Word :=
  let q := (s.part t).domain d
  let g := leastOf (q.water :: s.flyingTimes t d ++ (s.partCores t).flatMap (s.coreTimes t d))
  if g.ult q.gvt then q.gvt else g

/-- The length of a GVT period in cycles (R314). -/
def Partition.gvtPeriod (p : Partition) : Nat := (max 50 p.gvtper.toNat) * 64

/-- `GVT_ROUND`: a round of domain d of partition t, one period after the last began, by the clock of the dispatch core (R314, R327,
R388). -/
def execGvtRound (t d : Nat) (s : State) : Res :=
  let p := s.part t
  let q := p.domain d
  .next <|
    if p.cores.isEmpty || p.resetDue || q.next.isSome || decide (s.cycle (s.dispatcher t) < q.began + p.gvtPeriod) then s
    else s.mapDomain t d fun q => { q with next := some (s.roundResult t d), began := s.cycle (s.dispatcher t) }

/-! ### Commits (R322, R329, R330) -/

/-- Whether the context of an event still runs it. -/
def State.stillRuns (s : State) (g slot : Nat) (e : LpEvent) : Bool :=
  (s.ctx g e.ctx).role != .free && (s.ctx g e.ctx).event == some (slot, e.id)

/-- A late cause of a context that no entry of its ring carries; beside a trap that waits the lower code is taken (R208, R322). -/
def State.lateCause (s : State) (g c cause : Nat) (a : Word) : State :=
  let k := s.ctx g c
  match k.trap with
  | some t =>
    let m := t.mask ||| BitVec.ofNat 23 (2 ^ cause)
    let u := if cause < t.cause.toNat then { s.trapInfo cause a with late := true, resume := t.resume, mask := m } else { t with mask := m }
    s.setCtx g c { k with trap := some u }
  | none => s.setCtx g c { k with trap := some { s.trapInfo cause a with late := true, resume := k.pc } }

/-- A commit that faults: its context takes the cause, or the core is told on channel 0 (R322). -/
def State.commitFault (s : State) (g slot : Nat) (e : LpEvent) (cause : Nat) (a : Word) : State :=
  if s.stillRuns g slot e then s.lateCause g e.ctx cause a
  else s.report g 31 g 0 [5, pack [(0, cause), (8, e.ctx), (16, s.lpNumber g slot)], a, e.vt]

/-- A committed global store that its home cannot perform (R364). -/
def State.commitFails (s : State) (g slot : Nat) (e : LpEvent) (a : Word) : State :=
  if s.stillRuns g slot e then s.terminate g e.ctx 2 a
  else s.report g 31 g 0 [2, pack [(0, e.ctx), (8, 2 ^ 56 - 1)], a, BitVec.allOnes 64]

/-- A held global store performed with the event's privilege; none while its home does not serve it (R322, R353, R357). -/
def State.commitStore (s : State) (g slot : Nat) (e : LpEvent) (va : Word) (bs : List Byte) : Option State :=
  let t := s.translate g (!e.sup) va .write
  match t.2 with
  | .error _ => some (t.1.commitFault g slot e 0x07 va)
  | .ok pa =>
    if !t.1.physOk g e.sup pa ⟨bs.length, true, false, true, false⟩ then some (t.1.commitFault g slot e 0x07 va)
    else if t.1.homeAway g pa || t.1.homeBusy pa || t.1.homeOff pa || !t.1.turnAt pa (s.tag g) 1 then none
    else if !t.1.reaches (s.tag g) pa then some (t.1.commitFails g slot e (BitVec.ofNat 64 pa))
    else
      let u := t.1.homeStore pa bs
      some (if u.2 then u.1.served pa (s.tag g) 1 else u.1.commitFails g slot e (BitVec.ofNat 64 pa))

/-- A held scratchpad store performed, under the checks of R141 to R143 as they stand now (R322). -/
def State.commitScratch (s : State) (g slot : Nat) (e : LpEvent) (a : Word) (bs : List Byte) : State :=
  match s.localTarget g a with
  | none => s.commitFault g slot e 0x07 a
  | some (h, off) =>
    if rangeOk e.sup (s.work h).power off bs.length true then s.localStore h off bs else s.commitFault g slot e 0x07 a

/-- A held send performed, once its queue has an entry and it has the cell it needs: a release waits for what preceded it in its
context, as it would have then (R193, R242, R322). -/
def State.commitSend (s : State) (g c : Nat) (m : Msg) (waits : List Nat) : Option State :=
  let ws := if m.d0.getLsbD 48 then waits else []
  if m.onReply then (if s.replyRoom g then some (s.queueReply g c m ws) else none) else s.queueMsg g c m ws

/-- An IRREV action of a publication noted: with the publication, the playback cursor of a stream passes it (R330, R332). -/
def State.noteIrrev (s : State) (g slot : Nat) (vt : Word) : State :=
  match s.lp g slot with
  | some lp => s.setLp g slot { lp with irrevs := lp.irrevs ++ [vt] }
  | none => s

/-- A held IRREV performed (R322, R329, R330). A destination that the partition no longer holds takes nothing. -/
def State.commitIrrev (s : State) (g slot : Nat) (e : LpEvent) (bs : List Byte) (waits : List Nat) : Option State :=
  let done := fun (t : State) => t.noteIrrev g slot e.vt
  match s.readIrrev g e.ctx e.sup bs with
  | .error _ => some (done s)
  | .ok (.message m _) => (s.commitSend g e.ctx m waits).map done
  | .ok (.store va data) =>
    if va.toNat % data.length ≠ 0 then some (done (s.commitFault g slot e 0x06 va))
    else (s.commitStore g slot e va data).map done

/-- A held command enters its queue: with a ring entry of its event's context, or detached (R211, R320). -/
def State.commitCommand (s : State) (g slot : Nat) (e : LpEvent) (q : Queue) (i : Instr) (m : Cmd) : Option State :=
  let k := s.ctx g e.ctx
  if Config.queueEntries ≤ ((s.work g).queue q).length then none
  else if s.stillRuns g slot e then
    if Config.ringEntries ≤ k.ring.length then none
    else
      let x := { k.newEntry i (queueUnit q) with addr := m.addr }
      some ((s.fresh.setCtx g e.ctx (k.push x)).queueCmd g [q] { m with id := s.nextId, c := e.ctx, seq := x.seq })
  else some (s.fresh.queueCmd g [q] { m with id := s.nextId, c := e.ctx, attached := false, lateIssue := true })

/-- One held item performed; none while it must wait. -/
def State.commitItem (s : State) (g slot : Nat) (e : LpEvent) (waits : List Nat) : HeldItem → Option State
  | .store va bs => s.commitStore g slot e va bs
  | .scratch a bs => some (s.commitScratch g slot e a bs)
  | .irrev bs => s.commitIrrev g slot e bs waits
  | .command q i m => s.commitCommand g slot e q i m
  | .send m _ => s.commitSend g e.ctx m waits

/-- Whether an event belongs to a rollback of its LP that waits: no publication commits it or marks it safe any more, since its message
returns to the pending set (R323). -/
def Lp.undoes (lp : Lp) (e : LpEvent) : Bool :=
  match lp.rolling with
  | some r => !e.safe && !e.vt.ult r
  | none => false

/-- Whether a publication of g reaches an event (R322, R323, R328). -/
def Lp.reached (lp : Lp) (g : Word) (e : LpEvent) : Bool := !g.ult e.vt && !lp.undoes e

/-- The oldest commit entry of an LP, with its event, when its VT is at or below g (R322). -/
def Lp.firstCommit (lp : Lp) (g : Word) : Option (LpEvent × Held) :=
  match lp.commits with
  | [] => none
  | h :: _ => (lp.event h.event).bind fun e => if lp.reached g e then some (e, h) else none

/-- A commit entry that is due, with its core, slot and LP number. -/
structure Due where
  core : Nat
  slot : Nat
  number : Nat
  event : LpEvent
  held : Held
  deriving DecidableEq, Repr

/-- The first of some entries in the order of (VT, LP number) (R322). -/
def firstDue : List Due → Option Due
  | [] => none
  | a :: r =>
    match firstDue r with
    | none => some a
    | some b => if b.event.vt.ult a.event.vt || (b.event.vt == a.event.vt && decide (b.number < a.number)) then some b else some a

/-- The LPs of domain d of partition t on cores that hold its work themselves. -/
def State.domainLps (s : State) (t d : Nat) : List (Nat × Nat × Lp) :=
  (s.partCores t).flatMap fun g =>
    if s.tag g = t ∧ (s.imageOf t g).isNone then
      ((s.work g).lps.filter fun e => e.2.domain == d).map fun e => (g, e.1, e.2)
    else []

/-- The commit entry of a publication that is performed next (R322). -/
def State.nextDue (s : State) (t d : Nat) (g : Word) : Option Due :=
  firstDue ((s.domainLps t d).filterMap fun e => (e.2.2.firstCommit g).map fun q =>
    ⟨e.1, e.2.1, s.lpNumber e.1 e.2.1, q.1, q.2⟩)

/-- The oldest commit entry of an LP freed (R317). -/
def State.freeCommit (s : State) (g slot : Nat) (h : Held) : State :=
  match s.lp g slot with
  | none => s
  | some lp => s.setLp g slot { lp with commits := lp.commits.drop 1, commitR := lp.commitR.free h.bytes }

/-- Up to n entries of a publication performed in order: the state, and whether none is left. -/
def State.commitUpTo (s : State) (t d : Nat) (g : Word) : Nat → State × Bool
  | 0 => (s, (s.nextDue t d g).isNone)
  | n + 1 =>
    match s.nextDue t d g with
    | none => (s, true)
    | some x =>
      match s.commitItem x.core x.slot x.event x.held.waits x.held.item with
      | none => (s, false)
      | some u => (u.freeCommit x.core x.slot x.held).commitUpTo t d g n

/-! ### Publication (R328) -/

/-- The events of an LP that a publication of g reaches. -/
def Lp.passed (lp : Lp) (g : Word) : List LpEvent := lp.events.filter (lp.reached g)

/-- The snapshots kept: the newest at or below g, and later ones (R328). -/
def keepSnaps (g : Word) : List (Nat × Word) → List (Nat × Word)
  | a :: b :: r => if g.ult b.2 then a :: b :: r else keepSnaps g (b :: r)
  | l => l

/-- Whether an event that is safe and processed is still needed: it is to be run again, or the newest snapshot at or below g is not
above it (R324, R328; log entry 93). -/
def Lp.needs (lp : Lp) (g : Word) (e : LpEvent) : Bool :=
  lp.coast.contains e.id || (keepSnaps g lp.snaps).any fun p => !e.vt.ult p.2

/-- An LP after a publication of g: events at or below g are safe, what they logged is freed, and the playback cursor has passed the
IRREV actions that it performed (R328, R330). -/
def Lp.published (lp : Lp) (g : Word) : Lp :=
  let ps := lp.passed g
  let gone := fun (n : Nat) => ps.any fun e => e.id == n
  let dead := ps.filter fun e => e.st == .processed && !lp.needs g e
  { lp with
    events := (lp.events.filter fun e => !(dead.any fun x => x.id == e.id)).map fun e =>
      if gone e.id then { e with safe := true, input := 0, owes := e.owes && e.st != .processed } else e
    bound := match dead.getLast? with
      | some e => e.vt
      | none => lp.bound
    eddy := lp.eddy.filter fun e => !gone e.event
    eddyR := lp.eddyR.free (48 * (lp.eddy.filter fun e => gone e.event).length)
    outlog := lp.outlog.filter fun e => !gone e.event
    outR := lp.outR.free (64 * (lp.outlog.filter fun e => gone e.event).length)
    inR := lp.inR.free (sumOf (ps.map fun e => e.input))
    play := if lp.stream then lp.irrevs.foldl (fun v w => if v.ult w then w else v) lp.play else lp.play
    irrevs := []
    snaps := keepSnaps g lp.snaps }

/-- The reservations of messages whose processed events are safe now, released (R194). -/
def State.releaseOwed (s : State) (g : Nat) (es : List LpEvent) : State :=
  es.foldl (fun t e => if e.owes && e.st == .processed then t.releaseFor g e.msg else t) s

/-- The publication of g at the LPs of its domain. -/
def State.publishAt (s : State) (g : Word) : List (Nat × Nat × Lp) → State
  | [] => s
  | (h, slot, lp) :: r => ((s.releaseOwed h (lp.passed g)).setLp h slot (lp.published g)).publishAt g r

/-- Whether the cores of a partition can take a publication: none of its clusters is halted or under self-test, and no
core is being evicted. -/
def State.canPublish (s : State) (t : Nat) : Bool :=
  (s.partCores t).all fun g => !(s.cluster g).halted && !(s.cluster g).ftest.getLsbD 0 && (s.core g).evicting.isNone

/-- The lag of each core of a partition with bound LPs sampled (R374). -/
def State.lagSampled (s : State) (t : Nat) : State :=
  (s.partCores t).foldl (fun u g => if s.tag g = t ∧ !(s.work g).lps.isEmpty then u.sampled g 7 (s.lag g) 1 else u) s

/-- `GVT_PUBLICATION`: the result of a round is published: commits in the order of (VT, LP number), then events marked safe,
then fossil collection (R322, R328); the lag is sampled (R374). Commits that must wait leave the rest for later. -/
def execGvtPublication (t d : Nat) (s : State) : Res :=
  .next <| match ((s.part t).domain d).next with
    | none => s
    | some g =>
      if !s.canPublish t || (s.part t).resetDue then s
      else
        let r := s.commitUpTo t d g (sumOf ((s.domainLps t d).map fun e => e.2.2.commits.length))
        if r.2 then ((r.1.publishAt g (r.1.domainLps t d)).mapDomain t d fun q => { q with gvt := g, next := none }).lagSampled t else r.1

end Sys2Proof.Machine
end

