-- ==== Sys2Proof/Machine/Partitions.lean ====
section
/-! DEFINITION. Pre-emption (R355 to R360), partition reset (R361), the replay of the launch journal (R362), the tenant
counters' flushes (R354), and the writes of registers that the dispatch core copies (R314, R349). -/

namespace Sys2Proof.Machine

/-! ### Eviction (R357, R358) -/

/-- The offset of an image's header in the vault (R225, R358). -/
def shadowBase : Nat := Config.vaultUser

/-- Whether an access that core g sent is in the network, on its way there or back, or to be sent again; those of contexts that have
ended are among them (R228, R357, R359). -/
def State.onWay (s : State) (g : Nat) : Bool :=
  (s.net.reqs.any fun e => e.2.g == g) || (s.net.replies.any fun e => e.2.req.g == g) || (s.net.nreds.any fun e => e.2.g == g)
    || s.net.retries.any fun e => match e.2.2 with
      | .mem (r :: _) => r.g == g
      | _ => false

/-- Whether every context of core g has stopped at an instruction boundary with its V-slot entries complete and its accesses
performed, every answer has come back, its matrix queue runs no command, and no gather command is in its walk, before its first piece
(R357). -/
def State.stopped (s : State) (g : Nat) : Bool :=
  !s.onWay g && (s.work g).ctxs.all (fun e => e.2.role == .free || (e.2.drained && (match e.2.st with
    | .blocked (.fabric _) => false
    | _ => true)))
    && !(((s.work g).queue .qm).any fun m => m.st.isActive)
    && !((s.work g).queue .qg).any fun m => match m.st with
      | .walking _ => true
      | _ => false

/-- A core's work with its engines stopped: active copy and gather commands at a piece, shadow sets in their queues again (R357). -/
def Work.stopEngines (w : Work) : Work :=
  { w with queues := Tab.each (fun _ q => q.map fun m => { m with st := m.st.stop }) w.queues }

/-- Context 0 at the start of an evict routine: supervisor privilege, at EVICTVEC. The manual says neither that this start is a
checked transfer nor that it is not; the model checks the target as at the start of a handler (R17, R357; DESIGN CHOICE, log entry 81).
Nor does it give FPFLAGS, RNDMODE, MBOX0-7 and RNGSTATE at this start: the model takes 0, and 1 for the generator, which is never 0
(R51, R109, R110; DESIGN CHOICE, log entry 127). -/
def routineCtx (vec : Word) (now : Nat) : Ctx := { (Ctx.begin .routine (entryPC vec) now) with sup := true, rng := 1 }

/-- What stays at a core for its evict routine: registers, scratchpad, tables, cells, the deque, the matrix engine, and the send queues
with what waits in them, behind which the routine's own sends queue (R195, R357). -/
def Work.bare (w : Work) : Work :=
  { Work.reset with
    requests := w.requests, replies := w.replies, flits := w.flits, windows := w.windows,
    deque := w.deque, spilled := w.spilled, spillTop := w.spillTop, spad := w.spad, power := w.power, poison := w.poison, olcnt := w.olcnt, olbase := w.olbase, trapvec := w.trapvec,
    pswap := w.pswap, s1root := w.s1root, oxbow := w.oxbow, wdlimit := w.wdlimit, handlers := w.handlers,
    cells := w.cells, matrix := w.matrix, tables := w.tables }

/-- The work that is set aside while an evict routine runs, without what stays in the core's send queues. -/
def Work.aside (w : Work) : Work := { w with requests := [], replies := [], flits := [] }

/-- The saved work with what the evict routine left: what it wrote, queued and sent (R357; log entry 45). -/
def Work.withRoutine (w live : Work) : Work :=
  let l := (live.detach 0).stopEngines
  { w with
    flits := l.flits, windows := l.windows, spilled := l.spilled, spillTop := l.spillTop,
    spad := l.spad, power := l.power, poison := l.poison, olcnt := l.olcnt, olbase := l.olbase, trapvec := l.trapvec,
    pswap := l.pswap, s1root := l.s1root, oxbow := l.oxbow, wdlimit := l.wdlimit, handlers := l.handlers,
    cells := l.cells, matrix := l.matrix, tables := l.tables, requests := l.requests, replies := l.replies, deque := l.deque, misses := w.misses ++ l.misses,
    queues := (List.range 4).foldl (fun t q => Tab.put t q (Tab.look [] t q ++ Tab.look [] l.queues q)) w.queues }

/-- The header of an image: the owner's tag, CYCLE, the time domains for which the image holds work, the messages
spilled, and the saved minimum VTs (R358). -/
def State.shadowHeader (s : State) (g : Nat) (i : Image) : State :=
  let times := (List.range 256).map fun d => s.coreTimes i.tag.toNat d g
  let a := vaultAddr g shadowBase
  let words := [i.tag.setWidth 64, BitVec.ofNat 64 i.cycle, BitVec.ofNat 64 (times.filter fun l => !l.isEmpty).length,
    BitVec.ofNat 64 i.work.spill.length]
  { s with mem := (s.mem.putWords a words).putWords (a + 0x800) (times.map leastOf) }

/-- The arrays of a core's work that an image holds byte by byte: the place in the shadow region, the array, where in it they begin,
and how many bytes (R358; log entry 45). -/
def Work.arrays (w : Work) : List (Nat × Memory × Nat × Nat) :=
  [(0x65000, w.spad, 0, 0x80000), (0xE5000, w.matrix.cells, 0, 0x20000), (0x106000, w.matrix.rows, 0, 0x2000),
   (0x108000, w.matrix.partials, 0, 0x10000), (0x118000, w.matrix.working, 0, 0x10000), (0x128000, w.matrix.visible, 0, 0x10000)] ++
    (List.range 8).map fun t => (0x139000 + 0x600 * t, w.tables, tableAt t, 1040)

/-- Loaded, the status of the partial bank, the mask of the row buffer and the flags, as doublewords of an image (R358). -/
def Matrix.words (x : Matrix) : List Word :=
  [pack [(0, x.shape.toNat), (3, x.fmt.toNat), (6, bitOf x.full), (7, x.pshape.toNat), (10, x.pvalid.toNat)],
   x.rowMask.setWidth 64, x.flags.setWidth 64]

/-- The registers and files of a context as bytes of an image (R358). -/
def Ctx.fileBytes (k : Ctx) : List Byte :=
  k.x.toList.flatMap wordBytes ++ (k.p.toList.flatMap fun p => bytesOfNat 8 p.toNat) ++ List.replicate 64 0
    ++ k.v.toList.flatMap fun r => r.toList.flatMap fun l => bytesOfNat 4 l.toNat

/-- The place of context c in an image that starts at an address (R358). -/
def imageCtx (a c : Nat) : Nat := a + 0x5000 + 0x4000 * c

/-- A context's pc, control registers and frame state as doublewords of an image (R358). -/
def Ctx.stateWords (k : Ctx) : List Word :=
  [k.pc, k.fpflags.setWidth 64, k.rnd.setWidth 64, k.rng.setWidth 64, k.vt, k.join,
    pack [(0, k.cause.toNat), (16, k.tseq.toNat), (24, k.nextSeq.toNat), (32, bitOf k.sup), (33, bitOf k.stepArm), (34, bitOf k.watchOff),
      (40, k.settling)]] ++ k.mbox.toList

/-- A context's loop stack as doublewords of an image: how many entries, and each with its start, its end and its count (R81, R358). -/
def Ctx.loopWords (k : Ctx) : List Word :=
  BitVec.ofNat 64 k.loops.length :: k.loops.flatMap fun l => [l.start, l.stop, l.count]

/-- An entry of a context's ring as doublewords of an image: its number and causes, its address, its fault, the lanes that are left, and
the scalar values that it captured (R209, R358). -/
def RingEntry.words (e : RingEntry) : List Word :=
  [pack [(0, e.seq.toNat), (8, e.cause.toNat), (16, e.more.toNat), (40, e.raised.toNat), (46, bitOf e.finished)], e.addr, e.fault, e.lanes]
    ++ e.xs.toList

/-- Context c's area of an image: registers and files, loop stack, ring, frame state, current message (R358; log entry 45). -/
def Ctx.layOut (k : Ctx) (b : Nat) (m : Memory) : Memory :=
  let m1 := (m.clear b 0x4000).lay b k.fileBytes
  let m2 := (m1.putWords (b + 0x1700) k.stateWords).putWords (b + 0x1780) k.loopWords
  let m3 := m2.putWords (b + 0x1900) (k.ring.flatMap RingEntry.words)
  match k.cur with
  | some u => m3.lay (b + 0x3400) (u.msg.headBytes ++ u.msg.payload)
  | none => m3

/-- The contexts of a core written to the shadow region that starts at an address (R357, R358). -/
def Work.layCtxs (w : Work) (a : Nat) (m : Memory) : Memory :=
  (w.ctxs.filter fun e => e.2.role != .free).foldl (fun m e => e.2.layOut (imageCtx a e.1) m) m

/-- The control registers of a core as doublewords of an image (R358). -/
def Work.ctlWords (w : Work) : List Word :=
  [w.olcnt.setWidth 64, w.olbase.setWidth 64, w.trapvec, w.pswap.setWidth 64, w.s1root, w.oxbow, w.wdlimit.setWidth 64, w.power.setWidth 64]

/-- A command of a queue as doublewords of an image: its number, whose it is and its state, its ring entry's address (R272, R358). -/
def Cmd.words (m : Cmd) : List Word :=
  [BitVec.ofNat 64 m.id, pack [(0, m.c), (8, m.seq.toNat), (16, bitOf m.attached), (17, bitOf m.sup), (18, bitOf m.st.isActive)], m.addr, 0]

/-- A bound LP as doublewords of an image: its slot, its descriptor and domain, its bound, lvt and play (R315, R358). -/
def Lp.words (slot : Nat) (lp : Lp) : List Word :=
  [BitVec.ofNat 64 slot, pack [(0, lp.desc), (32, lp.domain), (40, lp.cint), (56, bitOf lp.stream), (57, bitOf lp.mismatch)], lp.bound, lp.lvt, lp.play]

/-- The queues, control registers, deque and LP table of a core in the shadow region that starts at an address (R358; log entry 45). -/
def Work.layTables (w : Work) (a : Nat) (m : Memory) : Memory :=
  let hs := (List.range 64).flatMap fun c => let h := Tab.look ⟨0, 0⟩ w.handlers c; [h.entry, h.ctl]
  let m1 := ((m.clear (a + 0x13C000) 0x4000).putWords (a + 0x13C000) w.ctlWords).putWords (a + 0x13C100) hs
  let m2 := m1.lay (a + 0x13C800) (w.deque.flatMap DequeEntry.bytes)
  (m2.putWords (a + 0x13E800) (([Queue.qc0, .qc1, .qg, .qm].flatMap w.queue).flatMap Cmd.words)).putWords (a + 0x13F800)
    (w.lps.flatMap fun e => e.2.words e.1)

/-- The messages that a core holds in the message area of an image that starts at an address: its landed replies, each in the place of
its cell, and its ejection queue in order of arrival (R358, R359). -/
def Work.layMessages (w : Work) (a : Nat) (m : Memory) : Memory :=
  let m1 := w.cells.foldl (fun m e => match e.2.reply with
    | some r => m.lay (a + 0x140000 + 128 * e.1) (r.headBytes ++ r.payload)
    | none => m) m
  m1.lay (a + 0x142000) (w.ejection.flatMap fun r => r.headBytes ++ r.payload)

/-- A core's work, its contexts apart, laid out in the shadow region that starts at an address (R358). -/
def Work.layOut (w : Work) (a : Nat) (m : Memory) : Memory :=
  let m1 := w.arrays.foldl (fun m e => m.copyFrom (a + e.1) e.2.1 e.2.2.1 e.2.2.2) m
  w.layMessages a (w.layTables a (m1.putWords (a + 0x105000) w.matrix.words))

/-- A core's work without the arrays that its image holds. -/
def Work.stripped (w : Work) : Work :=
  { w with spad := [], tables := [], matrix := { w.matrix with cells := [], rows := [], partials := [], working := [], visible := [] } }

/-- The loop stack that an image holds at an address (R81, R358). -/
def loopsAt (m : Memory) (a : Nat) : List LoopEntry :=
  (List.range (min 8 (m.word a).toNat)).map fun i =>
    let b := a + 8 + 24 * i
    ⟨m.word b, m.word (b + 8), m.word (b + 16)⟩

/-- The registers, files and loop stack of context c as an image holds them, at its boundary: its line is fetched again (R17, R358,
R360). -/
def Ctx.fromImage (m : Memory) (a c now : Nat) (k : Ctx) : Ctx :=
  if k.role = .free then k
  else
    let b := imageCtx a c
    { k with
      x := Vector.ofFn fun i => m.word (b + 8 * i.val), p := Vector.ofFn fun i => m.word (b + 0x80 + 8 * i.val),
      v := Vector.ofFn fun r => Vector.ofFn fun i => BitVec.ofNat 32 (natOfBytes (m.bytes (b + 0x100 + 256 * r.val + 4 * i.val) 4)),
      loops := loopsAt m (b + 0x1780), ibuf := none, arrived := none, age := now, bump := 0 }

/-- A core's work read back from the shadow region that starts at an address (R358, R360). -/
def Work.readBack (w : Work) (m : Memory) (a now : Nat) : Work :=
  let back := fun (o n : Nat) => Memory.copyFrom [] 0 m (a + o) n
  let q := m.word (a + 0x105000)
  let r := fun (i : Nat) => m.word (a + 0x13C000 + 8 * i)
  { w with
    olcnt := (r 0).setWidth 32, olbase := (r 1).setWidth 19, trapvec := r 2, pswap := (r 3).setWidth 32, s1root := r 4, oxbow := r 5,
    wdlimit := (r 6).setWidth 32, power := (r 7).setWidth 14,
    ctxs := Tab.each (fun c k => k.fromImage m a c now) w.ctxs, spad := back 0x65000 0x80000,
    tables := (List.range 8).foldl (fun t i => t.copyFrom (tableAt i) m (a + 0x139000 + 0x600 * i) 1040) [],
    matrix := { w.matrix with
      cells := back 0xE5000 0x20000, rows := back 0x106000 0x2000, partials := back 0x108000 0x10000,
      working := back 0x118000 0x10000, visible := back 0x128000 0x10000,
      shape := BitVec.ofNat 3 (field q 0 3), fmt := BitVec.ofNat 3 (field q 3 3), full := q.getLsbD 6,
      pshape := BitVec.ofNat 3 (field q 7 3), pvalid := BitVec.ofNat 8 (field q 10 8),
      rowMask := (m.word (a + 0x105008)).setWidth 8, flags := (m.word (a + 0x105010)).setWidth 5 } }

/-- The tenant counters of a partition whose dispatch core is evicted: flushed, and saved in the image; what is counted from then on
goes to the save area, which the partition's counters are until the restore (R355). -/
def State.saveCounters (s : State) (t : Nat) : State × Tab Word :=
  let p := (s.part t).flushAll s.stepNo
  (s.setPart t { p with tencnt := [] }, p.tencnt)

/-- Saved tenant counters added back (R355). -/
def State.addCounters (s : State) (t : Nat) (c : Tab Word) : State :=
  let p := s.part t
  s.setPart t { p with tencnt := c.foldl (fun l e => Tab.put l e.1 (Tab.look 0 l e.1 + e.2)) p.tencnt }

/-- The end of an eviction: the image stands in the shadow region, with the ejection queue in its message area, and the core is empty
(R355, R357 to R359; log entry 45). -/
def State.imaged (s : State) (g : Nat) (w : Work) (left : Option Ctx) : State :=
  let k := s.core g
  let t := k.ptag.toNat
  let r := if s.isDispatch g then ((s.saveCounters t).1, some (s.saveCounters t).2) else (s, none)
  let size := w.ejection.foldl (fun n m => n + m.areaBytes) 0
  let i : Image := ⟨k.ptag, w.stripped, left, s.cycle g, [], size, false, r.2⟩
  let a := vaultAddr g shadowBase
  let s1 := r.1.setCore g { k with work := Work.reset, image := some i, evicting := none }
  let saved := (r.2.getD []).foldl (fun m e => m.putWord (a + 0x13FFC0 + 8 * e.1) e.2)
  ({ s1 with mem := saved (w.layOut a s1.mem) } : State).shadowHeader g i

/-- Whether core g can be evicted: its partition holds it, its shadow region is free, it works, and its cluster is
neither halted nor under self-test (R356, R369, R375). -/
def State.canEvict (s : State) (g : Nat) : Bool :=
  s.holds (s.tag g) g && (s.core g).image.isNone && s.runs g

/-- The contexts of core g written to its shadow region (R357). -/
def State.ctxsOut (s : State) (g : Nat) (w : Work) : State := { s with mem := w.layCtxs (vaultAddr g shadowBase) s.mem }

/-- `EVICTION`: core g stops; once everything at it has stopped, its contexts are written to the image, and the evict routine starts, or
the image is made (R357). A routine that has halted ends the eviction, once the answers to its accesses have come back. -/
def execEviction (g : Nat) (s : State) : Res :=
  let k := s.core g
  .next <| match k.evicting with
    | none => if s.canEvict g then s.setCore g { k with evicting := some .stopping } else s
    | some .stopping =>
      if !s.stopped g || (s.cluster g).halted || (s.cluster g).ftest.getLsbD 0 then s
      else
        let v := (s.part (s.tag g)).evictvec
        let w := k.work.stopEngines
        let s1 := s.ctxsOut g w
        if v = 0 then s1.imaged g w none
        else s1.setCore g { k with work := { w.bare with ctxs := [(0, routineCtx v (s.cycle g))] }, evicting := some (.routine (s.cycle g) w.aside) }
    | some (.routine _ w) =>
      if (s.ctx g 0).role = .free && !s.onWay g then s.imaged g (w.withRoutine k.work) none else s

/-- `EVICT_ROUTINE_TIMEOUT`: a routine that has not halted after 8,192 cycles is abandoned, and its context, which issues no more, is
saved as it stands, once the answers to its accesses have come back (R357). -/
def execEvictRoutineTimeout (g : Nat) (s : State) : Res :=
  let k := s.core g
  .next <| match k.evicting with
    | some (.routine t w) => if s.cycle g < t + 8192 || s.onWay g then s else s.imaged g (w.withRoutine k.work) (some (s.ctx g 0))
    | _ => s

/-! ### Restoration (R360) -/

/-- The messages of a message area back in the network under their own numbers, to arrive at core g before any other of the same network,
in the order in which they had arrived (R359, R360; log entry 46). -/
def State.redeliver (s : State) (g : Nat) (ms : List (Nat × Msg)) : State :=
  let s1 := ms.foldl (fun u e => u.withNet fun n =>
    if e.2.onReply then { n with answers := Tab.put n.answers e.1 e.2 } else { n with msgs := Tab.put n.msgs e.1 e.2 }) s
  let w := s1.work g
  s1.setWork g { w with redeliver := (w.redeliver ++ ms.map fun e => e.1).eraseDups }

/-- Whether the intervening tenant has left core g: no other partition holds it, and no context is in use (R360). -/
def State.vacated (s : State) (g t : Nat) : Bool :=
  (s.parts.all fun e => e.1 == t || !s.holds e.1 g) && (s.work g).ctxs.all fun e => e.2.role == .free

/-- `RESTORE`: the image of core g is restored to it from its shadow region, the message area is redelivered in the order of arrival
and before any later arrival, saved tenant counters are added back, and every context resumes, unchecked (R17, R355,
R360). -/
def execRestore (g : Nat) (s : State) : Res :=
  let k := s.core g
  .next <| match k.image with
    | none => s
    | some i =>
      if !s.vacated g i.tag.toNat || !s.holds i.tag.toNat g || k.evicting.isSome || (s.cluster g).halted
          || (s.cluster g).ftest.getLsbD 0 || k.dbg.checked then s
      else
        let w0 := i.work.readBack s.mem (vaultAddr g shadowBase) (s.cycle g)
        let w1 := if i.replay then w0.replayAll else w0
        let w := { w1 with flits := w1.flits ++ k.work.flits }
        let s1 := s.setCore g { k with work := w, ptag := i.tag, image := none, evicting := none }
        let s2 := match i.counters with
          | some c => s1.addCounters i.tag.toNat c
          | none => s1
        s2.redeliver g i.msgs

/-! ### Partition reset (R361) -/

/-- Messages that a reset discards at core g: their reservations are released (R194, R361). -/
def State.discardAll (s : State) (g : Nat) (ms : List Msg) : State := ms.foldl (fun t m => t.releaseFor g m) s

/-- The current messages of contexts that are written out. -/
def Work.savedMessages (w : Work) : List CurMsg :=
  (w.joinOut.filterMap fun e => e.2.cur) ++ w.swapped.flatMap fun i => i.2.ctxs.filterMap fun e => e.2.cur

/-- Whether a message waits for a bound LP: its channel is one of the LP's. -/
def Work.forLp (w : Work) (m : Msg) : Bool := w.lps.any fun e => e.2.channels.contains m.channel

/-- Whether what waits in a request queue stays there at a partition reset: accesses and messages do, but no fabric operation,
contribution, steal request or steal reply, which belong to what the reset clears (R361; log entry 47). -/
def SendItem.survives : SendItem → Bool
  | .msg m => m.channel != 6
  | .mem _ => true
  | _ => false

/-- What a partition reset leaves of a core's work: registers, tables, handlers, the matrix engine, and the messages that
have arrived or wait to be sent (R331, R361; log entry 47). -/
def Work.afterReset (w : Work) : Work :=
  { w with
    ctxs := [], spad := clearBanks w.spad (BitVec.allOnes 14), power := 0, poison := w.poison.filter fun p => decide (0x3800 ≤ p),
    ejection := w.ejection.filter fun m => !w.forLp m && m.channel != 6, spill := [], slots := [],
    requests := w.requests.filter fun e => e.item.survives, flits := w.flits.filter fun e => e.item.onReply,
    spilled := 0, spillTop := 0, claim := none,
    cells := w.cells.filter fun e => match e.2.reply with
      | some m => !w.forLp m
      | none => true,
    deque := [], crews := [], grids := [], retained := [], queues := [], feeders := [], misses := [], lps := [],
    orphans := 0, swapped := [], joinOut := [], steal := Work.reset.steal }

/-- A core's work that its partition's reset renumbers: no message has arrived at it, and nothing that it sent is outstanding (R351,
R376; log entry 47). -/
def Work.emptied (w : Work) : Work :=
  { w with ejection := [], requests := [], cells := [], windows := Work.reset.windows, redeliver := [] }

/-- Whether the next reset of partition t renumbers its cores: one of them is fenced (R376). -/
def State.renumbers (s : State) (t : Nat) : Bool := (s.partCores t).any fun g => (s.core g).dbg.fenced

/-- The work of a core of a partition that is reset, and whether its cores are renumbered (R361, R376). -/
def State.resetWork (s : State) (g : Nat) (all : Bool) : State :=
  let s1 := (List.range 24).foldl (fun t c => if (t.ctx g c).role = .free then t else t.vacate g c) s
  let w := s1.work g
  let s2 := w.savedMessages.foldl (fun t u => t.dropMsg g u) s1
  let s3 := s2.discardAll g ((w.spill.map fun e => e.2) ++ w.ejection.filter fun m => all || w.forLp m)
  s3.setWork g (if all then (s3.work g).afterReset.emptied else (s3.work g).afterReset)

/-- An entry of a send queue that answers a reservation, as a release of it (R194). -/
def SendEntry.asRelease (e : SendEntry) : Option SendEntry :=
  match e.item with
  | .msg m => if m.onReply then some ⟨.release m.tag m.dst m.cell, 31, []⟩ else none
  | .release _ _ _ => some e
  | _ => none

/-- The image of partition t at core g discarded: the reservations of its messages are released, and the tenant counters that it saved
are added back (R194, R355, R361). -/
def State.dropImage (s : State) (g : Nat) (i : Image) : State :=
  let k := s.core g
  let w := i.work
  let out := (w.replies ++ w.flits).filterMap SendEntry.asRelease
  let s1 := s.setCore g { k with image := none, work := { k.work with flits := k.work.flits ++ out } }
  let held := (w.ctxs.filterMap fun e => e.2.cur) ++ w.savedMessages ++ (i.routine.bind fun c => c.cur).toList
  let us := (held.filter CurMsg.owes).map fun u => u.msg
  let s2 := s1.discardAll g (us ++ (w.spill.map fun e => e.2) ++ w.ejection ++ i.msgs.map fun e => e.2)
  match i.counters with
  | some c => s2.addCounters i.tag.toNat c
  | none => s2

/-- One core of partition t at the partition's reset: an image of it is discarded, and so is an eviction in progress; a
core that machine-checked and has passed a self-test serves again (R361, R367, R376). -/
def State.resetCore (s0 : State) (t g : Nat) : State :=
  let s := match s0.imageOf t g with
    | some i => s0.dropImage g i
    | none => s0
  let k1 := s.core g
  if k1.ptag.toNat ≠ t then s
  else
    let w := match k1.evicting with
      | some (.routine _ w) => w.withRoutine k1.work
      | _ => k1.work
    let d := k1.dbg
    let d1 := if d.checked && d.passed then { d with checked := false, passed := false } else d
    (s.setCore g { k1 with work := w, evicting := none, dbg := d1 }).resetWork g (s.renumbers t)

/-- Entries of partition t removed from every TLB, fault buffer, block map cache and reduction slot (R361). -/
def State.purge (s : State) (t : Nat) : State :=
  let keep := fun (l : List TlbEntry) => l.filter fun e => e.tag != t
  { s with
    cores := Tab.each (fun _ k => { k with
      itlb := keep k.itlb, dtlb := keep k.dtlb, nred := k.nred.filter fun e => e.1 / 16 != t }) s.cores,
    clusters := Tab.each (fun _ k => { k with
      tlb := keep k.tlb, faults := k.faults.filter fun e => e.tag != t, dropped := k.dropped.filter fun n => n != t,
      notice := k.notice.filter fun n => n != t, blockMap := k.blockMap.filter fun e => e.1 != t }) s.clusters }

/-- The partition that a counter's key belongs to (R157). -/
def keyTag (key : Nat) : Nat := key / 2 ^ 18

/-- What a partition has in flight between its units removed: fabric operations, grid notices, stealing (R361). -/
def State.dropFlights (s : State) (t : Nat) : State :=
  let mine := fun (g : Nat) => s.tag g == t
  s.withNet fun n => { n with
    ops := n.ops.filter fun e => e.2.tag != t, reports := n.reports.filter fun r => r.tag != t,
    descs := n.descs.filter fun e => keyTag e.2.2.counter != t, ends := n.ends.filter fun e => keyTag e.2.2 != t,
    steals := n.steals.filter fun e => !mine e.2.1, msgs := n.msgs.filter fun e => !(e.2.tag == t && e.2.channel == 6),
    nreds := n.nreds.filter fun e => !mine e.2.g }

/-- Physical numbers in ascending order. -/
def ascend (l : List Nat) : List Nat := (List.range Config.cores).filter fun p => l.contains p

/-- The cores of a partition on a chip after its reset: fenced ones leave, and the rest are numbered in ascending
physical order (R376). -/
def State.renumbered (s : State) (chip : Nat) (l : List Nat) : List Nat :=
  let bad := fun (p : Nat) => (s.core (chip * 2560 + p)).dbg.fenced
  if l.any bad then ascend (l.filter fun p => !bad p) else l

/-- The registers of a partition after its reset (R331, R361, R362). -/
def State.afterReset (s : State) (p : Partition) : Partition :=
  { p with
    cores := Tab.each (fun h l => s.renumbered h l) p.cores, counters := [], resetDue := false, domains := [],
    waiting := none, runs := [], fences := [], jfence := 0, replayDue := p.journal.getLsbD 0 }

/-- Partition t reset (R361). -/
def State.resetPartition (s : State) (t : Nat) : State :=
  let s1 := (s.partCores t).foldl (fun u g => u.resetCore t g) s
  let s2 := (s1.purge t).dropFlights t
  s2.setPart t (s2.afterReset (s2.part t))

/-- `PARTITION_RESET`: a partition that is formed is reset, for a cause of its own, or because the firmware or the hypervisor
partition asks for it (R361). A reset that renumbers its cores waits, with the partition stopped, for the answers to what they have
outstanding (R351, R376; log entry 47). -/
def execPartitionReset (t : Nat) (s : State) : Res :=
  .next <|
    if (s.partCores t).isEmpty then s
    else if s.renumbers t && (s.partCores t).any s.onWay then s.setPart t { s.part t with resetDue := true }
    else s.resetPartition t

/-! ### The launch journal after a reset (R362) -/

/-- The record address that a journal entry names; none for a fence mark (R362). -/
def journaled (w : Word) : Option Word :=
  if w.getLsbD 63 then none else some ((w &&& ~~~0x7F).setWidth 57 |>.signExtend 64)

/-- The place of the j-th newest journal entry, j = 0 the newest, where k is the next place (R362). -/
def placeBack (k j : Nat) : Nat := (k - 1 + 511 - 1 - j % 511) % 511 + 1

/-- `JOURNAL_REPLAY`: the dispatcher of partition t sends itself a launch message for every entry after the newest completed
fence mark, in journal order (R362; log entry 48). -/
def execJournalReplay (t : Nat) (s : State) : Res :=
  let p := s.part t
  .next <| match s.dispatchCore t with
    | none => s
    | some g =>
      if !p.replayDue || p.resetDue then s
      else
        let s0 := s.setPart t { p with replayDue := false }
        let r := s0.readVirt g true (p.journal &&& ~~~0xFFF) 4096
        match r.2 with
        | .error _ => r.1
        | .ok bs =>
          let k := journalPlace (wordAt bs 0)
          let n := min 511 (p.jcount - max p.lastFence p.jstart)
          let ws := ((List.range n).map fun j => wordAt bs (8 * placeBack k j)).reverse.filterMap journaled
          ws.foldl (fun u a => u.report g 31 g 1 [a]) r.1

/-! ### Tenant counters and register writes (R226, R314, R349, R354) -/

/-- `TENCNT_FLUSH`: the units add their deltas of counter i of partition t to it (R354). -/
def execTencntFlush (t i : Nat) (s : State) : Res := .next (if i < 8 then s.setPart t ((s.part t).flush s.stepNo i) else s)

/-- `TCSYNC_FLUSH`: every delta of partition t is added (R354). -/
def execTcsyncFlush (t : Nat) (s : State) : Res := .next (s.setPart t ((s.part t).flushAll s.stepNo))

/-- `GVTPER_WRITE`: a write of GVTPER in core g's block (R314). -/
def execGvtperWrite (g : Nat) (v : Word) (s : State) : Res := .next (s.writeReg g 0x10C00 v).1

/-- `DISPATCH_REGISTER_WRITE`: a write of JOURNAL or EVICTVEC in core g's block (R349). -/
def execDispatchRegisterWrite (g off : Nat) (v : Word) (s : State) : Res :=
  .next (if off = 0x11010 ∨ off = 0x11020 then (s.writeReg g off v).1 else s)

/-- `REGISTER_WRITE`: a write of another register of core g's block (R226). -/
def execRegisterWrite (g off : Nat) (v : Word) (s : State) : Res :=
  .next (if off < 2 ^ 20 ∧ off % 8 = 0 then (s.writeReg g off v).1 else s)

end Sys2Proof.Machine
end

