-- ==== Sys2Proof/Machine/Errors.lean ====
section
/-! DEFINITION. Array errors and machine checks (R366, R367), the halyard (R369), self-test and fencing (R375, R376), the
registers that a write clears (R365, R377), the security alarm (R378), attestation (R379), and the redelivery of logged
host messages (R373). -/

namespace Sys2Proof.Machine

/-! ### Error records and machine checks (R366, R367) -/

/-- An error recorded in ERRLOG: while a record is held, only O is set (R52, R55). -/
def Core.logError (k : Core) (unit index : BitVec 8) (syndrome : BitVec 32) : Core :=
  if k.errlog.getLsbD 0 then { k with errlog := k.errlog ||| 2 }
  else { k with errlog := pack [(0, 1), (8, unit.toNat), (16, index.toNat), (32, syndrome.toNat)] }

/-- A correctable error counted in DRAMCE: a saturating field of 16 bits for each vault bank (R365). -/
def Debug.countBank (d : Debug) (bank : Nat) : Debug :=
  let w := Tab.look 0 d.dramce (bank / 4)
  let p := bank % 4 * 16
  if field w p 16 = 0xFFFF then d
  else { d with dramce := Tab.put d.dramce (bank / 4) (w + BitVec.ofNat 64 (2 ^ p)) }

/-- A correctable error of a vault bank of core g counted; a count that passes the firmware's limit raises the replace
request (R365, R376). -/
def State.countError (s : State) (g bank : Nat) : State :=
  let n := field (Tab.look 0 (s.core g).dbg.dramce (bank / 4)) (bank % 4 * 16) 16
  let s1 := s.setDebug g ((s.core g).dbg.countBank bank)
  let k := s1.chip (chipOf g)
  if n = Config.freeLimit ∧ n ≠ 0xFFFF then s1.setChip (chipOf g) { k with replace := true, told := false } else s1

/-- The lowest remaining logical core of the partition of core g (R367). -/
def State.remaining (s : State) (g : Nat) : Option Nat :=
  (s.partCores (s.tag g)).find? fun h => h != g && !(s.core h).dbg.fenced && !(s.core h).dbg.checked

/-- Where the message of a machine check of core g goes (R367). -/
def State.checkTarget (s : State) (g : Nat) : Option Nat := if s.isDispatch g then s.remaining g else s.dispatchCore (s.tag g)

/-- The record of a machine check of core g, with its die, cluster and position (R367, R397). -/
def State.checkRecord (s : State) (g : Nat) (unit index : BitVec 8) (syndrome : BitVec 32) (off : Nat) : Tab Word :=
  let p := physOf g
  [(0, pack [(0, 1), (8, unit.toNat), (16, index.toNat), (32, syndrome.toNat)]), (1, BitVec.ofNat 64 (off % 2 ^ 38)),
   (2, BitVec.ofNat 64 (s.cycle g)), (3, pack [(0, dieOf g), (3, clusterIn g), (8, positionOf g), (12, p)])]

/-- Core g stops: it runs nothing, a message tells its partition, and the partition is to be reset (R367). -/
def State.stopCore (s : State) (g : Nat) : State :=
  let d := (s.core g).dbg
  let s1 := s.setDebug g { d with checked := true, passed := false }
  if !s.holds (s.tag g) g then s1
  else
    let s2 := match s.checkTarget g with
      | some h => s1.report g 31 h 0 ((List.range 4).map fun i => Tab.look 0 d.mcrec i)
      | none => s1
    s2.resetPart g

/-- A machine check of core g; on a core whose record is held, ERRLOG.O is set instead of the record (R367; log
entry 49). -/
def State.machineCheck (s : State) (g : Nat) (unit index : BitVec 8) (syndrome : BitVec 32) (off : Nat) : State :=
  let k := s.core g
  if (Tab.look 0 k.dbg.mcrec 0).getLsbD 0 then
    let s1 := s.setCore g { k with errlog := k.errlog ||| 2 }
    if k.dbg.checked then s1 else s1.stopCore g
  else
    let s1 := s.setCore g (k.logError unit index syndrome)
    (s1.setDebug g { (s1.core g).dbg with mcrec := s.checkRecord g unit index syndrome off }).stopCore g

/-- `ARRAY_ERROR`: an error of an array of core g is recorded, and corrected or poisoned; any other is a machine check
(R366). -/
def execArrayError (g : Nat) (unit index : BitVec 8) (correctable : Bool) (syndrome : BitVec 32) (off : Nat) (s : State) : Res :=
  .next <|
    if 5 < unit.toNat then s
    else if correctable || unit == 1 then
      let s1 := s.setCore g ((s.core g).logError unit index syndrome)
      if unit ≠ 1 then s1
      else if correctable then s1.countError g (index.toNat % 32)
      else { s1 with poison := (s1.poison ++ [vaultAddr g (off % Config.vaultEnd) / 64]).eraseDups }
    else s.machineCheck g unit index syndrome off

/-- `MACHINE_CHECK` (R367). -/
def execMachineCheck (g : Nat) (unit index : BitVec 8) (syndrome : BitVec 32) (off : Nat) (s : State) : Res :=
  .next (s.machineCheck g unit index syndrome off)

/-! ### The halyard (R369) -/

/-- The partition whose notify core a halted cluster tells: the one that holds all its cores, else the package's
hypervisor's (R349, R365, R369; log entry 50). -/
def State.halyardTag (s : State) (cl : Nat) : Option Nat :=
  let t := s.tag (cl * 16)
  if (List.range 16).all fun i => s.holds t (cl * 16 + i) then some t
  else (s.parts.find? fun e => e.2.hyper && !(Tab.look [] e.2.cores (cl / 160)).isEmpty).map fun e => e.1

/-- The notice of a halt to the notify core h: it names the core that reports the halt (R191, R369; log entry 50). -/
def State.haltNotice (s : State) (from_ h : Nat) (cmp : Word) : Msg :=
  { s.deviceMsg h 31 h 7 [cmp] with d1 := s.ident from_ 31, src := from_ }

/-- `HALYARD_HALT`: every core and engine of cluster cl stops, and the notify core is told which comparator pulled (R369). -/
def execHalyardHalt (cl : Nat) (cmp : Word) (s : State) : Res :=
  let g := cl * 16
  let q := s.cluster g
  .next <|
    if q.haltDue ≠ some cmp then s
    else
      let s1 := s.setCluster g { q with halted := true, haltDue := none }
      match s.halyardTag cl with
      | none => s1
      | some t => match s.reach t (field q.notify 28 6) (field q.notify 16 12) with
        | none => s1
        | some h => s1.inject (s1.haltNotice q.puller h cmp)

/-- `HALYARD_RESUME`: cluster cl runs on, with what was written through its context windows; while it runs this has no effect
(R369, R370). -/
def execHalyardResume (cl : Nat) (s : State) : Res := .next (if (s.cluster (cl * 16)).halted then s.resumeCluster (cl * 16) else s)

/-! ### Self-test and fencing (R375, R376) -/

/-- Whether a core's work lets a self-test of its cluster start, its contexts apart (R375). -/
def Work.testable (w : Work) : Bool :=
  w.queues.all (fun q => q.2.isEmpty) && w.power == 0 && w.retained.isEmpty && w.lps.isEmpty

/-- Whether core g lets a self-test of its cluster start; what is set aside while an evict routine runs is the core's (R357, R375). -/
def State.testable (s : State) (g : Nat) : Bool :=
  (s.work g).ctxs.all (fun e => e.2.role == .free) && (s.work g).testable && (match (s.core g).evicting with
    | some (.routine _ w) => w.testable
    | _ => true)

/-- `FTEST_START`: the self-test that was asked for starts, or is refused; on a halted cluster it waits for the resume
(R369, R375). -/
def execFtestStart (cl : Nat) (s : State) : Res :=
  let g := cl * 16
  let q := s.cluster g
  .next <|
    if !q.ftest.getLsbD 3 || q.halted then s
    else if q.ftest.getLsbD 0 then s.setCluster g { q with ftest := 5 }
    else if q.faults.isEmpty && (clusterCores g).all s.testable then
      s.setCluster g { q with ftest := 1 }
    else s.setCluster g { q with ftest := (q.ftest &&& 2) ||| 4 }

/-- A core fenced; that of a dispatch core resets its partition at once (R376). -/
def State.fence (s : State) (g : Nat) : State :=
  let s1 := s.setDebug g { (s.core g).dbg with fenced := true }
  let h := chipOf g
  let s2 := s1.setChip h { s1.chip h with replace := true, told := false }
  if s.isDispatch g then s2.resetPart g else s2

/-- FTSTAT of a result: passed, what failed, the lowest failing index, and whether the core is fenced (R365). -/
def ftstatWord (r : BitVec 32) (fenced : Bool) : Word := (r.setWidth 64 &&& 0xFF003F) ||| pack [(24, bitOf fenced)]

/-- What a self-test leaves of a core's arrays: zeros (R375). -/
def Work.tested (w : Work) : Work :=
  { w with spad := [], poison := [], tables := [], matrix := { Matrix.reset with fmt := 0 } }

/-- The result of a self-test at one core (R375, R376). A core that passes after a machine check serves again from its
partition's next reset, or at once where no partition holds it. -/
def State.testResult (s : State) (g : Nat) (r : BitVec 32) : State :=
  let k := s.core g
  let held := s.holds (s.tag g) g
  let d := k.dbg
  let ok := r.getLsbD 0
  let d1 := { d with
    ftstat := ftstatWord r (d.fenced || !ok), checked := d.checked && (!ok || held), passed := ok && d.checked && held }
  let s1 := s.setCore g { k with work := k.work.tested, itlb := [], dtlb := [], dbg := d1 }
  if ok then s1 else s1.fence g

/-- `FTEST_COMPLETE`: the self-test of cluster cl ends with a result for each of its cores; a request that was refused while it ran is
still the last one (R365, R375). -/
def execFtestComplete (cl : Nat) (results : List (BitVec 32)) (s : State) : Res :=
  let g := cl * 16
  let q := s.cluster g
  .next <|
    if !q.ftest.getLsbD 0 then s
    else
      let s1 := s.setCluster g { q with ftest := (q.ftest &&& 12) ||| 2, tlb := [], blockMap := [] }
      (List.range 16).foldl (fun t i => t.testResult (g + i) ((results[i]?).getD 1)) s1

/-! ### Records (R365, R377) -/

/-- `DRAMCE_CLEAR`: any write clears the counters (R365). -/
def execDramceClear (g : Nat) (s : State) : Res := .next (s.writeReg g 0x20A00 0).1

/-- `MCREC_CLEAR`: a write with bit 0 set clears V (R365). -/
def execMcrecClear (g : Nat) (v : Word) (s : State) : Res := .next (s.writeReg g 0x20900 v).1

/-- A count of n bytes at byte p of a port record, after it has grown by a count of the measured bytes: it saturates (R377). -/
def grown (old new : List Byte) (p n : Nat) : List Byte :=
  bytesOfNat n (min (256 ^ n - 1) (numAt old p n + numAt new p n))

/-- The record of a port after a measurement: the margins as measured, and the counts of corrected symbols and of flits sent again grown
by what was counted since the last one (R377). -/
def margins (old new : List Byte) : List Byte :=
  new.take 4 ++ grown old new 4 4 ++ grown old new 8 2 ++ (old.drop 10).take 6

/-- `MARGIN_MEASUREMENT`: the record of a Bammen port takes the measured margins and adds the counts; one that passes the firmware's
limit raises the replace request (R376, R377). Ports are numbered 64 to a package. -/
def execMarginMeasurement (port : Nat) (vals : List Byte) (s : State) : Res :=
  let k := s.chip (port / 64)
  let old := padTo 16 (Tab.look [] k.ports (port % 64))
  let r := margins old (padTo 10 (vals.take 10))
  let past := Config.freeMargin r && !Config.freeMargin old
  .next (s.setChip (port / 64) { k with
    ports := Tab.put k.ports (port % 64) r, replace := k.replace || past, told := k.told && !past })

/-- `PORT_RECORD_CLEAR`: any write clears a port's record (R377). -/
def execPortRecordClear (port : Nat) (s : State) : Res :=
  let k := s.chip (port / 64)
  .next (s.setChip (port / 64) { k with ports := Tab.drop k.ports (port % 64) })

/-! ### Security (R378, R379) -/

/-- The package whose firmware acts: that of the executing core. -/
def State.here (s : State) : Nat := chipOf s.cur.1

/-- Every partition that has cores on package h is to be reset. -/
def State.resetAll (s : State) (h : Nat) : State :=
  { s with parts := Tab.each (fun _ p => if (Tab.look [] p.cores h).isEmpty then p else { p with resetDue := true }) s.parts }

/-- The security alarm of package h; where its policy bit is set, its keys are erased (R376, R378). -/
def State.alarm (s : State) (h : Nat) : State :=
  let k := s.chip h
  (s.setChip h { k with alarm := true, replace := true, told := false, erased := k.erased || k.policy }).resetAll h

/-- `SECURITY_ALARM`: whatever raises the alarm, it does the same (R378). -/
def execSecurityAlarm (cause : AlarmCause) (s : State) : Res :=
  .next <| match cause with
    | .detector => s.alarm s.here
    | .revoked => s.alarm s.here

/-- Something leaves the machine. -/
def State.out (s : State) (o : Output) : State := { s with outputs := s.outputs ++ [o] }

/-- The map of fenced cores of a package, a bit for each (R379). -/
def State.fencedMap (s : State) (h : Nat) : List Byte :=
  let l := (s.cores.filter fun e => chipOf e.1 == h && e.2.dbg.fenced).map fun e => physOf e.1
  (List.range 320).map fun i => BitVec.ofNat 8 (l.foldl (fun n p => if p / 8 = i then n + 2 ^ (p % 8) else n) 0)

/-- The Fjoruec firmware that package h runs: the last image that it has applied (R386). -/
def State.firmwareOf (s : State) (h : Nat) : List Byte :=
  if (s.chip h).image.isEmpty then Config.freeFirmware h else (s.chip h).image

/-- The 456 bytes of an attestation report that are signed: the nonce, the digests of the boot firmware, of the firmware that runs and of
the public key, HEALTH, and the map of fenced cores (R379; log entry 3). -/
def State.signedBytes (s : State) (nonce : List Byte) : List Byte :=
  nonce ++ padTo 32 ((Config.digest (Config.freeBoot s.here)).take 32) ++ padTo 32 ((Config.digest (s.firmwareOf s.here)).take 32)
    ++ padTo 32 ((Config.digest (Config.freeKey s.here)).take 32) ++ wordBytes (s.health s.here) ++ s.fencedMap s.here

/-- An attestation report for a nonce: those bytes and the signature over them (R379; log entry 3). -/
def State.attestation (s : State) (nonce : List Byte) : List Byte :=
  let bs := s.signedBytes nonce
  bs ++ padTo 2420 ((Config.freeSignature s.here s.nextId bs).take 2420)

/-- `ATTEST`: a request with a nonce of 32 bytes is answered with a signed report; after the keys are erased the device
signs nothing (R378, R379). -/
def execAttest (nonce : List Byte) (s : State) : Res :=
  .next (if nonce.length ≠ 32 ∨ (s.chip s.here).erased then s else (s.out (.report (s.attestation nonce))).fresh)

/-! ### Logged host messages (R373) -/

/-- `LOGGED_HOST_DELIVERY`: in replay, the host message that the next record of core g's log holds arrives again, once the sequencer has
reached the record's value; the record is passed when its delivery ends a chunk (R93, R373; log entry 33). -/
def execLoggedHostDelivery (g : Nat) (s : State) : Res :=
  let d := (s.core g).dbg
  let i := field d.rlhead 0 32
  .next <| match s.hostRecord g with
    | none => s
    | some (ch, bs) =>
      if s.logMode g ≠ 2 || !s.logReached g || d.again == some i || decide (Config.ejectEntries ≤ (s.work g).ejection.length) then s
      else
        let s1 := (s.setDebug g { d with again := some i }).fresh
        let w := s1.work g
        let m := { hostMsg (s.tag g) (chipOf g) (s.logicalOf g) ch g bs with stamp := s.nextId }
        s1.setWork g (({ w with ejection := w.ejection ++ [m] } : Work).meet ch)

end Sys2Proof.Machine
end

