-- ==== Sys2Proof/Machine/Package.lean ====
section
/-! DEFINITION. The host's apertures and doorbells (R380 to R382), ports and CXL devices (R384, R385), the management
commands (R386), and bring-up, clocks and cooling (R387, R388). -/

namespace Sys2Proof.Machine

/-! ### The host link (R380, R382) -/

/-- An intermediate address of partition t for an access of the host: where it lies (R380, R244). -/
def State.hostAddr (s : State) (t ia : Nat) (write : Bool) : Option Nat :=
  match s.stage2For (s.dispatcher t) ia (if write then .write else .read) with
  | .ok l => some (l.addr ia)
  | .error _ => none

/-- Whether an address lies in the shadow region of a core, which only supervisor contexts reach (R356). -/
def inShadow (pa : Nat) : Bool :=
  match homeOf pa with
  | .shadow _ _ => true
  | _ => false

/-- The pieces of an access of the host, each where it lies; none where one is not mapped or lies in a shadow region (R356, R380). -/
def State.hostPieces (s : State) (t : Nat) (write : Bool) : List (Nat × Nat) → Option (List (Nat × Nat))
  | [] => some []
  | (ia, n) :: r =>
    match s.hostAddr t ia write, s.hostPieces t write r with
    | some pa, some l => if inShadow pa then none else some ((pa, n) :: l)
    | _, _ => none

/-- Whether every home of an access of partition t's host performs it now: it is its turn, and no home turns it away (R353, R357, R375,
R388). -/
def State.hostTurn (s : State) (t : Nat) (write : Bool) (ps : List (Nat × Nat)) : Bool :=
  ps.all fun p => s.turnAt p.1 t (pieceCost write p) && !s.homeAwayFor t p.1 && !s.homeBusy p.1 && !s.homeOff p.1

/-- A posted write of the host at its homes: a segment whose device is lost takes nothing (R364, R380, R384). -/
def State.hostStore (s : State) : List (Nat × Nat) → List Byte → State
  | [], _ => s
  | (pa, n) :: r, bs =>
    State.hostStore (if s.storeFails pa then s else (s.writePhys pa (bs.take n)).markPoison pa n false) r (bs.drop n)

/-- What a read of the host returns of bytes that the model does not give it: zeros before bring-up has enabled the link and from the
message windows; else bytes that are left open (R202, R380, R387; log entry 52). -/
def State.hostOther (s : State) (closed : Bool) (n : Nat) : State :=
  if closed then s.out (.hostRead (hostWindowRead n)) else (s.out (.hostRead (padTo n (Config.freeHost s.nextId)))).fresh

/-- `HOST_MEMORY_ACCESS`: a read or a posted write of the host through a window of BAR4 reaches the memory of the partition that the
window is mapped onto, the length of a read being that of `data` (R380); window 16 is a read of BAR2 (R202). Until bring-up has enabled the
link, reads return 0 and writes are discarded (R387; log entry 52). win is the window and, above it, the package's number. -/
def execHostMemoryAccess (t win off : Nat) (write : Bool) (data : List Byte) (s : State) : Res :=
  let h := win / 32
  let k := s.chip h
  .next <|
    if !k.ready || win % 32 == 16 then (if write then s else s.hostOther true data.length)
    else match (Tab.find k.apertures (win % 32)).filter fun e => e.1 == t && !(s.part t).cores.isEmpty && decide (off + data.length ≤ 2 ^ 32) with
      | none => if write then s else s.hostOther false data.length
      | some (_, base) => match s.hostPieces t write (pieces64 (base + off) data.length) with
        | none => if write then s else s.hostOther false data.length
        | some ps =>
          if !s.hostTurn t write ps then s
          else (if write then s.hostStore ps data else s.out (.hostRead (s.readPieces ps))).chargePieces t write ps

/-- `MSIX_DOORBELL`: a doorbell that a context has stored to raises its partition's vector at the package's function (R382). t is the
partition's number and, above it, the package's. -/
def execMsixDoorbell (t v : Nat) (s : State) : Res :=
  let h := t / 64
  let k := s.chip h
  .next <|
    if k.doorbells.contains (t % 64, v) then
      (s.setChip h { k with doorbells := k.doorbells.erase (t % 64, v) }).out (.msix h (32 * (t % 64) + v))
    else s

/-! ### Ports and CXL devices (R384, R385) -/

/-- The ports at both ends over which the requests of core g to a home package go: the first of the table that work (R307, R385; log
entry 51). -/
def State.routeOf (s : State) (g home : Nat) : Option (Nat × Nat) :=
  (Config.freeRoute g home).find? fun e => !(s.chip (chipOf g)).portsDown.contains e.1 && !(s.chip home).portsDown.contains e.2

/-- Whether what core g sends to a package goes over a port: it goes to another package, and the route of the pair (sending core, home
package) has the port at one of its ends (R307, R385). -/
def State.goesOver (s : State) (port g home : Nat) : Bool :=
  home != chipOf g && (s.routeOf g home).any fun e => port == 64 * chipOf g + e.1 || port == 64 * home + e.2
def State.crosses (s : State) (port : Nat) (r : MemReq) : Bool := s.goesOver port r.g (r.pa / 2 ^ 50 % 64)

/-- `PORT_FAILURE`: the requests and contributions that are outstanding over a Bammen port receive failure replies, those whose reply
was on its way too, and the port is down: what has not left goes over another one (R307, R364, R385). -/
def execPortFailure (port : Nat) (s : State) : Res :=
  let k := s.chip (port / 64)
  let s1 := s.setChip (port / 64) { k with portsDown := (k.portsDown ++ [port % 64]).eraseDups }
  let gone := s1.net.reqs.filter fun e => s.crosses port e.2
  let lost := fun (q : Contribution) => s.goesOver port q.g (chipOf q.root)
  let back := Tab.each (fun _ a => if s.crosses port a.req then a.req.failure else a) s1.net.replies
  let back1 := gone.foldl (fun t e => Tab.put t e.1 e.2.failure) back
  .next <| s1.withNet fun n => { n with
    reqs := n.reqs.filter fun e => !s.crosses port e.2, nreds := n.nreds.filter fun e => !lost e.2,
    replies := (n.nreds.filter fun e => lost e.2).foldl (fun t e => Tab.put t e.1 (e.2.ack false)) back1 }

/-- `CXL_DEVICE_FAILURE`: the segment of a lost device returns poison and fails stores (R384). Segments are numbered 256
to a package. -/
def execCxlDeviceFailure (seg : Nat) (s : State) : Res :=
  let k := s.chip (seg / 256)
  .next (s.setChip (seg / 256) { k with lost := (k.lost ++ [seg % 256]).eraseDups })

/-! ### Partitions formed, resized and released (R349, R351, R386) -/

/-- Whether core g is at rest: no context runs, its ejection queue is empty, and no request of its own is outstanding
(R351). -/
def State.atRest (s : State) (g : Nat) : Bool :=
  let w := s.work g
  w.ctxs.all (fun e => e.2.role == .free) && w.ejection.isEmpty && w.requests.isEmpty && w.replies.isEmpty
    && w.windows.toList.all (fun q => q.used == 0) && (s.core g).evicting.isNone && !s.onWay g
    && !(s.net.retries.any fun e => e.2.2.sender == g)

/-- Whether partition t may take core g: it works, and it is another partition's only while that is evicted from it (R357,
R367, R376). -/
def State.takable (s : State) (t g : Nat) : Bool :=
  let k := s.core g
  !k.dbg.fenced && !k.dbg.checked && s.atRest g && s.parts.all fun e =>
    e.1 == t || !s.holds e.1 g || (match k.image with
      | some i => i.tag.toNat == e.1
      | none => false)

/-- The logical map of a list of cores: the physical numbers by package, in the order of the list (R349). -/
def coreMap (cores : List Nat) : Tab (List Nat) :=
  cores.foldl (fun m g => Tab.put m (chipOf g) (Tab.look [] m (chipOf g) ++ [physOf g])) []

/-- Core g made a core of partition t (R349). -/
def State.assign (s : State) (t g : Nat) : State := s.setCore g { s.core g with ptag := BitVec.ofNat 6 t }

/-- A partition that is not formed: the host link keeps the count of its number (R381). -/
def Partition.cleared (p : Partition) : Partition := { Partition.reset with discards := p.discards }

/-- Whether what a command says of a partition is legal: its tag, its cores, its limit and its floor (R183, R349,
R352). -/
def formLegal (t : Nat) (cores : List Nat) (limit floor : Nat) : Bool :=
  decide (t < 64) && !cores.isEmpty && decide (cores.eraseDups.length = cores.length)
    && cores.all (fun g => decide (g < 64 * 2560)) && decide (limit ≤ 512) && decide (floor ≤ 896)

/-- Whether the floors of all partitions, with `floor` for partition t, sum to no more than 896, which the firmware keeps at every agent
(R352). -/
def State.floorsFit (s : State) (t floor : Nat) : Bool :=
  decide (s.parts.foldl (fun n e => if e.1 = t then n else n + s.floorOf e.1) floor ≤ 896)

/-- Whether another partition than t has H on a package of some cores (R349). -/
def State.hyperThere (s : State) (t : Nat) (cores : List Nat) : Bool :=
  s.parts.any fun e => e.1 != t && e.2.hyper && cores.any fun g => !(Tab.look [] e.2.cores (chipOf g)).isEmpty

/-- `PARTITION_FORM`: a partition is formed of cores that are at rest; one partition of a package has H. The count of discarded writes,
which runs on while no partition is formed, stays (R349, R351, R352, R381, R386). Each management command of this file is one that the
firmware has accepted: one that is not signed has no effect, and is no step (log entry 53). -/
def execPartitionForm (t : Nat) (hyper : Bool) (cores : List Nat) (limit floor : Nat) (s : State) : Res :=
  .next <|
    if !formLegal t cores limit floor || !s.floorsFit t floor || !(s.part t).cores.isEmpty || !cores.all (s.takable t)
        || (hyper && s.hyperThere t cores) then s
    else
      let s1 := cores.foldl (fun u g => u.assign t g) s
      s1.setPart t { (s.part t).cleared with
        cores := coreMap cores, hyper := hyper, limit := limit, floor := BitVec.ofNat 16 floor }

/-- A core taken out of a partition (R351). -/
def State.unassign (s : State) (g : Nat) : State := s.setCore g { s.core g with ptag := 0 }

/-- The cores whose LMAP entry a new map changes: at such a place, the old and the new core (R351). -/
def changed (old new : Tab (List Nat)) : List Nat :=
  (old ++ new).flatMap fun e =>
    let a := Tab.look [] old e.1
    let b := Tab.look [] new e.1
    (List.range (max a.length b.length)).flatMap fun i =>
      if a[i]? = b[i]? then [] else ((a[i]?).toList ++ (b[i]?).toList).map fun p => e.1 * 2560 + p

/-- Whether partition t may give up or move core g, which it holds: it is at rest, and no image of the partition lies there (R351). -/
def State.givesUp (s : State) (t g : Nat) : Bool := s.atRest g && s.tag g == t && (s.imageOf t g).isNone

/-- `PARTITION_RESIZE`: a partition gets other cores, a limit and a floor; the cores whose entries change are at rest, and an H partition
comes onto no package that has one (R349, R351, R386). Its tenant counters are flushed, and go with it to its dispatch core (R355). -/
def execPartitionResize (t : Nat) (cores : List Nat) (limit floor : Nat) (s : State) : Res :=
  let p := s.part t
  let old := s.partCores t
  .next <|
    if !formLegal t cores limit floor || !s.floorsFit t floor || p.cores.isEmpty
        || (p.hyper && s.hyperThere t cores)
        || !(changed p.cores (coreMap cores)).all (fun g => if old.contains g then s.givesUp t g else s.takable t g) then s
    else
      let s1 := (old.filter fun g => !cores.contains g).foldl State.unassign s
      let s2 := cores.foldl (fun u g => if old.contains g && u.tag g != t then u else u.assign t g) s1
      s2.setPart t { p.flushAll s.stepNo with cores := coreMap cores, limit := limit, floor := BitVec.ofNat 16 floor }

/-- `PARTITION_RELEASE`: a partition whose cores are at rest is dissolved; only the count of discarded writes stays (R351, R381,
R386). -/
def execPartitionRelease (t : Nat) (s : State) : Res :=
  let old := s.partCores t
  .next <|
    if old.isEmpty || !old.all (s.givesUp t) then s
    else
      (old.foldl State.unassign (s.resetPartition t)).setPart t (s.part t).cleared

/-! ### Other commands (R386) -/

/-- `SELF_TEST_COMMAND`: FTEST of a cluster is written (R375, R386). -/
def execSelfTestCommand (cl : Nat) (s : State) : Res :=
  let q := s.cluster (cl * 16)
  .next (s.setCluster (cl * 16) { q with ftest := q.ftest ||| 8 })

/-- What the status command reads: the discard counts, HEALTH, and the records and counters of each core and port (R377,
R386; log entry 53). -/
def State.status (s : State) : List Byte :=
  let h := s.here
  ((List.range 64).flatMap fun t => bytesOfNat 4 (s.part t).discards) ++ wordBytes (s.health h)
    ++ ((s.cores.filter fun e => chipOf e.1 == h).flatMap fun e =>
      bytesOfNat 2 (physOf e.1) ++ ((List.range 4).flatMap fun i => wordBytes (Tab.look 0 e.2.dbg.mcrec i))
        ++ ((List.range 8).flatMap fun i => wordBytes (Tab.look 0 e.2.dbg.dramce i)))
    ++ (List.range 64).flatMap fun p => padTo 16 (Tab.look [] (s.chip h).ports p)

/-- `STATUS_HEALTH`: the counts and the health are reported; the discard counts are cleared, and the replace request has
been read (R381, R386). -/
def execStatusHealth (s : State) : Res :=
  let s1 := s.out (.report s.status)
  let s2 := { s1 with parts := Tab.each (fun _ p => { p with discards := 0 }) s1.parts }
  .next (s2.setChip s.here { s2.chip s.here with told := true })

/-- Whether a package loads an image: after its keys are erased, only one that needs no device key (R378; log entry 129). -/
def Chip.loads (k : Chip) (image : List Byte) : Bool := !k.erased || Config.freeKeyless image

/-- `FIRMWARE_UPDATE`: a signed image that the package loads waits for its next reset; a bad signature raises the alarm (R378,
R386). -/
def execFirmwareUpdate (image : List Byte) (signed : Bool) (s : State) : Res :=
  let k := s.chip s.here
  .next <|
    if !signed then s.alarm s.here
    else if k.loads image then s.setChip s.here { k with firmware := some image } else s

/-- `REPLACE_REQUEST`: the request is sent, until the status command has read it (R386). -/
def execReplaceRequest (s : State) : Res :=
  let k := s.chip s.here
  .next (if k.replace && !k.told then s.out .replace else s)

/-! ### Reset and bring-up (R386, R387) -/

/-- What is in flight to or from a package lost. -/
def Net.without (n : Net) (h : Nat) : Net :=
  let at_ := fun (g : Nat) => chipOf g == h
  let req := fun (r : MemReq) => at_ r.g || r.pa / 2 ^ 50 % 64 == h
  let msg := fun (m : Msg) => at_ m.src || at_ m.dst
  { n with
    reqs := n.reqs.filter fun e => !req e.2, replies := n.replies.filter fun e => !req e.2.req,
    msgs := n.msgs.filter fun e => !msg e.2, answers := n.answers.filter fun e => !msg e.2,
    releases := n.releases.filter fun e => !at_ e.2.1, nreds := n.nreds.filter fun e => !(at_ e.2.g || at_ e.2.root),
    ops := n.ops.filter fun e => !at_ e.2.g, reports := n.reports.filter fun r => !at_ r.g,
    retries := n.retries.filter fun e => !at_ e.2.2.sender, steals := n.steals.filter fun e => !at_ e.2.1,
    descs := n.descs.filter fun e => !at_ e.2.1,
    ends := n.ends.filter fun e => !at_ e.2.1 }

/-- A core of a package after the package's reset: at its reset values, but for the marks of fencing (R376). -/
def Core.restart (k : Core) : Core :=
  { Core.reset with dbg := { Debug.reset with fenced := k.dbg.fenced, ftstat := k.dbg.ftstat } }

/-- A package after its reset: the image that waited is the firmware that runs, where it still loads, and CYCLE counts from now on
(R52, R378, R386). -/
def Chip.restart (k : Chip) (now : Nat) : Chip :=
  { k with
    resetAt := now, told := false, firmware := none, clocks := Tab.each (fun _ q => { q with since := now, base := 0 }) k.clocks,
    image := match k.firmware with
      | some i => if k.loads i then i else k.image
      | none => k.image }

/-- A package at its reset: cores and clusters at their reset values, and no partition of it formed (R381, R386, R387). -/
def State.restart (s : State) (h : Nat) : State :=
  let part := fun (p : Partition) =>
    let l := Tab.drop p.cores h
    if l.isEmpty then p.cleared else { p with cores := l }
  let parts := (Tab.each (fun _ p => part p) s.parts).filter fun e => !e.2.cores.isEmpty || e.2.discards != 0
  let s1 := { s with
    cores := Tab.each (fun g k => if chipOf g = h then k.restart else k) s.cores,
    clusters := s.clusters.filter fun e => e.1 / 160 != h, parts := parts, net := s.net.without h }
  s1.setChip h ((s1.chip h).restart s.now)

/-- `PACKAGE_RESET`: a firmware image that waits is applied, and the cores return to their reset state (R386; log
entry 54). -/
def execPackageReset (s : State) : Res := .next (s.restart s.here)

/-- The cores of a package before its bring-up with those of the others: each at its reset values, passed by its self-test, but for the
mark of a core that was fenced before (R375, R376, R387). -/
def State.tested (s : State) (h : Nat) : Tab Core :=
  let was := fun (g : Nat) => (s.core g).dbg.fenced
  (s.cores.filter fun e => decide (chipOf e.1 < h)) ++ ((List.range Config.cores).map fun p =>
    let g := h * 2560 + p
    (g, { Core.reset with dbg := { Debug.reset with fenced := was g, ftstat := ftstatWord 1 (was g) } }))
    ++ s.cores.filter fun e => decide (h < chipOf e.1)

/-- The windows of BAR4 as the firmware maps them: up to 16 of 4 GiB, each onto a partition (R380). -/
def aperturesOf (l : List (Nat × Nat × Nat)) : Tab (Nat × Nat) :=
  l.foldl (fun m e => if e.1 < 16 ∧ e.2.1 < 64 then Tab.put m e.1 e.2 else m) []

/-- `POWER_ON`: a package is brought up: a boot firmware that fails its check raises the alarm; its vaults are cleared, its clusters
tested, and cores that fail are fenced; the CXL segments and the windows are set, and the link is enabled (R375, R376, R378, R384, R387;
log entry 128). -/
def execPowerOn (chip : Nat) (found : Bringup) (s : State) : Res :=
  let mine := fun (a : Nat) => match homeOf a with
    | .vault g _ => chipOf g == chip
    | .shadow g _ => chipOf g == chip
    | _ => false
  let s1 := { s with
    mem := s.mem.filter fun e => !mine e.1, poison := s.poison.filter fun l => !mine (64 * l), cores := s.tested chip }
  let s2 := s1.restart chip
  let k := s2.chip chip
  let s3 := s2.setChip chip { k with
    clocks := [], lost := [], ports := [], portsDown := [], doorbells := [], off := false, policy := found.policy, ready := true,
    cxl := found.segments.foldl (fun m e => if e.1 < 256 then Tab.put m e.1 e.2 else m) [], apertures := aperturesOf found.windows }
  let s4 := if found.measured then s3 else s3.alarm chip
  .next ((found.failed.filter fun p => decide (p < 2560)).foldl (fun u p => u.testResult (chip * 2560 + p) 0) s4)

/-! ### Clocks and cooling (R388) -/

/-- The clock of an island of a package, in steps of 0.1 GHz (R388). -/
def Chip.clock (k : Chip) (i : Nat) : Nat := (k.island i).f

/-- The clock of core g: that of the island which its mesh column is (R388, R397). -/
def State.coreClock (s : State) (g : Nat) : Nat := (s.islandClock g).f

/-- A clock changed at a time: it has counted what it has, and its island issues nothing for 2 µs, 3,200 cycles of 1.6 GHz (R388; log
entry 66). -/
def Clock.change (q : Clock) (now f : Nat) : Clock := ⟨f, now, q.sixteenths now, some (now + 3200)⟩

/-- The clock of an island set. Islands are numbered 128 to a package, as `islandOf` numbers them. -/
def State.setClock (s : State) (isl f : Nat) : State :=
  let k := s.chip (isl / 128)
  s.setChip (isl / 128) { k with clocks := Tab.put k.clocks (isl % 128) ((k.island (isl % 128)).change s.now f) }

/-- `ISLAND_CLOCK_CHANGE`: from 0.4 GHz to 1.6 GHz in steps of 0.1 GHz (R388). -/
def execIslandClockChange (isl f : Nat) (s : State) : Res :=
  .next (if 4 ≤ f ∧ f ≤ 16 then s.setClock isl f else s)

/-- `THERMAL_THROTTLE`: the hottest islands are lowered by a step (R388). -/
def execThermalThrottle (isls : List Nat) (s : State) : Res :=
  .next (isls.foldl (fun u i => u.setClock i (max 4 ((u.chip (i / 128)).clock (i % 128) - 1))) s)

/-- `THERMAL_SHUTDOWN`: every partition of the package is reset, its compute dies are powered off, and a replacement is asked for
(R388; log entry 114). -/
def execThermalShutdown (s : State) : Res :=
  let mine := s.parts.filter fun e => !(Tab.look [] e.2.cores s.here).isEmpty
  let s1 := mine.foldl (fun u e => u.resetPartition e.1) s
  .next (s1.setChip s.here { s1.chip s.here with replace := true, told := false, off := true })

end Sys2Proof.Machine
end

