-- ==== Sys2Proof/Machine/Replay.lean ====
section
/-! DEFINITION. Replays (R213, R255): the parked access of a context, and its held entries in ring order. -/

namespace Sys2Proof.Machine

/-- What a V-slot instruction does when it executes from its ring entry (R213); none for any other instruction. -/
def bodyOf : Instr → Option VBody
  | .vcvtnCounter d a b p f n => some (bodyVcvtnCounter d a b p f n)
  | .vldg d a p => some (bodyVldg d a p)
  | .vstg d a p => some (bodyVstg d a p)
  | .vgathg d a b p => some (bodyVgathg d a b p)
  | .vscatg d a b p => some (bodyVscatg d a b p)
  | .vldl d a p => some (bodyVldl d a p)
  | .vstl d a p => some (bodyVstl d a p)
  | .vgathl d a b p => some (bodyVgathl d a b p)
  | .vscatl d a b p => some (bodyVscatl d a b p)
  | .tblld t a => some (bodyTblld t a)
  | .vadd d a b p f => some (bodyVadd d a b p f)
  | .vsub d a b p f => some (bodyVsub d a b p f)
  | .vmul d a b p f => some (bodyVmul d a b p f)
  | .vfma d a b p f => some (bodyVfma d a b p f)
  | .vfms d a b p f => some (bodyVfms d a b p f)
  | .vfmaPrefixed d a b c p f => some (bodyVfmaPrefixed d a b c p f)
  | .vfmsPrefixed d a b c p f => some (bodyVfmsPrefixed d a b c p f)
  | .vdiv d a b p f => some (bodyVdiv d a b p f)
  | .vsqrt d a p f => some (bodyVsqrt d a p f)
  | .vmin d a b p f => some (bodyVmin d a b p f)
  | .vmax d a b p f => some (bodyVmax d a b p f)
  | .vabs d a p f => some (bodyVabs d a p f)
  | .vneg d a p f => some (bodyVneg d a p f)
  | .vredadd d a p => some (bodyVredadd d a p)
  | .vredmax d a p => some (bodyVredmax d a p)
  | .viadd d a b p f => some (bodyViadd d a b p f)
  | .vimul d a b p f => some (bodyVimul d a b p f)
  | .vand d a b p => some (bodyVand d a b p)
  | .vor d a b p => some (bodyVor d a b p)
  | .vxor d a b p => some (bodyVxor d a b p)
  | .vshl d a b p f => some (bodyVshl d a b p f)
  | .vshr d a b p f => some (bodyVshr d a b p f)
  | .vshrA d a b p f => some (bodyVshrA d a b p f)
  | .vcmpEq d a b p f => some (bodyVcmpEq d a b p f)
  | .vcmpNe d a b p f => some (bodyVcmpNe d a b p f)
  | .vcmpLt d a b p f => some (bodyVcmpLt d a b p f)
  | .vcmpLe d a b p f => some (bodyVcmpLe d a b p f)
  | .vcmpGt d a b p f => some (bodyVcmpGt d a b p f)
  | .vcmpGe d a b p f => some (bodyVcmpGe d a b p f)
  | .vmov d a p => some (bodyVmov d a p)
  | .vbcast d a l p => some (bodyVbcast d a l p)
  | .vperm d a b p => some (bodyVperm d a b p)
  | .vsel d a b p => some (bodyVsel d a b p)
  | .vcvt d a r fs p f => some (bodyVcvt d a r fs p f)
  | .vpack d a b p f => some (bodyVpack d a b p f)
  | .vunpack d a j p f => some (bodyVunpack d a j p f)
  | .vcvtn d a b p f => some (bodyVcvtn d a b p f)
  | .vtlu d a t p f => some (bodyVtlu d a t p f)
  | .vrope d a b p => some (bodyVrope d a b p)
  | _ => none

/-- The addresses of the lanes of a scratchpad load, with its predicate, from the values its entry captured. -/
def localLoad (k : Ctx) (e : RingEntry) : Option (BitVec 3 × (Nat → Word)) :=
  match e.instr with
  | .vldl _ a p => some (p, linearAddr a k e.xs)
  | .vgathl _ a b p => some (p, indexedAddr a b k e.xs)
  | _ => none

/-- The poison that a replayed scratchpad load would consume (R363). -/
def State.replayPoison (s : State) (g c : Nat) (e : RingEntry) : Option Word :=
  match localLoad (s.ctx g c) e with
  | some (p, ad) => ({ s with cur := (g, c) } : State).lanePoison p ad
  | none => none

/-- Whether an earlier access of context c of core g through a window is still to reach the scratchpad bytes that a replayed
entry accesses (R240). -/
def State.replayClash (s : State) (g c : Nat) (e : RingEntry) : Bool :=
  let k := s.ctx g c
  let lanes := fun (write : Bool) (p : BitVec 3) (ad : Nat → Word) => s.lanesClash g c k.sup write (k.pred p) ad
  match e.instr with
  | .vldl _ a p => lanes false p (linearAddr a k e.xs)
  | .vgathl _ a b p => lanes false p (indexedAddr a b k e.xs)
  | .vstl _ a p => lanes true p (linearAddr a k e.xs)
  | .vscatl _ a b p => lanes true p (indexedAddr a b k e.xs)
  | .tblld _ a => s.clashes g c (s.blockSpans g (baseReg e.xs a) 65)
  | _ => false

/-- Whether a replayed access has the room it needs: a queue entry, and the rings of a speculative event (R195, R321). -/
def State.replayRoom (s : State) (g c : Nat) (e : RingEntry) : Bool :=
  let k := s.ctx g c
  let t : State := { s with cur := (g, c) }
  match e.instr with
  | .vldg _ _ _ => s.requestRoom g
  | .vgathg _ _ _ _ => s.requestRoom g
  | .vstg d a p => s.requestRoom g && (e.kept || t.globalRoom d.toNat p fun k _ => linearAddr a k e.xs)
  | .vscatg d a b p => s.requestRoom g && (e.kept || t.globalRoom d.toNat p fun k _ => indexedAddr a b k e.xs)
  | .vstl d a p => s.scratchRoom g c (laneWrites (k.vreg d.toNat) (linearAddr a k e.xs) (activeLanes (k.pred p)))
  | .vscatl d a b p => s.scratchRoom g c (laneWrites (k.vreg d.toNat) (indexedAddr a b k e.xs) (activeLanes (k.pred p)))
  | _ => true

/-- A core whose held command of context c with a sequence number waits its turn in its queues again (R213). -/
def Work.release (w : Work) (c : Nat) (seq : Byte) : Work :=
  { w with queues := Tab.each (fun _ q => q.map fun m =>
      if m.isOf c seq && m.st == .held then { m with st := .queued } else m) w.queues }

/-- An entry of context c of core g executed again (R213, R255); what it lacks room for waits, and a command takes its turn in its
queue. -/
def State.rerun (s : State) (g c : Nat) (e : RingEntry) : State :=
  match bodyOf e.instr with
  | none =>
    (s.setWork g ((s.work g).release c e.seq)).setCtx g c ((s.ctx g c).setEntry e.seq fun x => { x with st := .running })
  | some b =>
    if !s.replayRoom g c e || s.replayClash g c e then s
    else match s.replayPoison g c e with
      | some a => s.terminate g c 1 a
      | none =>
        let s1 := s.setCtx g c ((s.ctx g c).setEntry e.seq fun x => { x with st := .running })
        b s1 g c e

/-- Whether the command of an entry of context c stands parked in a queue, or behind a parked command (R288). -/
def Work.entryParked (w : Work) (c : Nat) (e : RingEntry) : Bool :=
  e.unit != 0 && w.queues.any fun q =>
    q.2.any (fun m => m.isOf c e.seq) && (q.2.takeWhile fun m => !m.isOf c e.seq || m.st == .parked).any fun m => m.st == .parked

/-- Whether what a context replays has completed: no entry executes, but for commands that wait for a parked one, for which a
context never waits (R213, R288). -/
def State.replayDone (s : State) (g c : Nat) : Bool :=
  (s.ctx g c).ring.all fun e => e.st != .running || (s.work g).entryParked c e

/-- `CONTEXT_REPLAY`: a context that replays runs its parked access again, then its held entries in ring order; when none
can run any more and those that run have completed, it goes on, unchecked (R17, R213, R255). -/
def execContextReplay (g c : Nat) (s : State) : Res :=
  let k := s.ctx g c
  .next <|
    if !k.replay || k.role == .free || !s.runs g then s
    else if k.st = .parked then
      match k.parked with
      | .entry seq => match k.ring.find? fun e => e.seq == seq with
        | some e =>
          if e.st = .running ∨ !s.replayRoom g c e then s
          else
            let held := k.ring.any fun x => x.st == .held
            (s.setCtx g c { k with
              st := .ready, parked := .none, replay := held, since := s.cycle g, age := s.cycle g, bump := 0, arrived := none }).rerun g c e
        | none => s.setCtx g c { k with st := .ready, parked := .none, arrived := none }
      | _ => s.setCtx g c { k with
          st := .ready, parked := .none, since := s.cycle g, age := s.cycle g, bump := 0, arrived := none,
          replay := k.ring.any fun x => x.st == .held }
    else match s.nextReplay g c with
      | some e => s.rerun g c e
      | none => if s.replayDone g c then s.setCtx g c { k with replay := false, arrived := none } else s

end Sys2Proof.Machine
end

