-- ==== Sys2Proof/Machine/Dispatch.lean ====
section
/-! DEFINITION. The meaning of each instruction and device step: one arm per row of the opcode table. -/

namespace Sys2Proof.Machine

def exec (i : Instr) (s : State) : Host.Outcome State Fault Refusal :=
  match i with
  | .nop => Sys2Proof.Machine.execNop s
  | .movCompact d a => Sys2Proof.Machine.execMovCompact d a s
  | .addCompact d a => Sys2Proof.Machine.execAddCompact d a s
  | .subCompact d a => Sys2Proof.Machine.execSubCompact d a s
  | .andCompact d a => Sys2Proof.Machine.execAndCompact d a s
  | .orCompact d a => Sys2Proof.Machine.execOrCompact d a s
  | .xorCompact d a => Sys2Proof.Machine.execXorCompact d a s
  | .addiCompact d im => Sys2Proof.Machine.execAddiCompact d im s
  | .liCompact d im => Sys2Proof.Machine.execLiCompact d im s
  | .shlCompact d im => Sys2Proof.Machine.execShlCompact d im s
  | .shrCompact d im => Sys2Proof.Machine.execShrCompact d im s
  | .sraCompact d im => Sys2Proof.Machine.execSraCompact d im s
  | .jCompact d => Sys2Proof.Machine.execJCompact d s
  | .bzCompact a d => Sys2Proof.Machine.execBzCompact a d s
  | .bnzCompact a d => Sys2Proof.Machine.execBnzCompact a d s
  | .ldlDCompact o d a => Sys2Proof.Machine.execLdlDCompact o d a s
  | .mulCompact d a => Sys2Proof.Machine.execMulCompact d a s
  | .minCompact d a => Sys2Proof.Machine.execMinCompact d a s
  | .maxCompact d a => Sys2Proof.Machine.execMaxCompact d a s
  | .sltCompact d a => Sys2Proof.Machine.execSltCompact d a s
  | .seqCompact d a => Sys2Proof.Machine.execSeqCompact d a s
  | .clzCompact d a => Sys2Proof.Machine.execClzCompact d a s
  | .popcCompact d a => Sys2Proof.Machine.execPopcCompact d a s
  | .sltuCompact d a => Sys2Proof.Machine.execSltuCompact d a s
  | .minuCompact d a => Sys2Proof.Machine.execMinuCompact d a s
  | .maxuCompact d a => Sys2Proof.Machine.execMaxuCompact d a s
  | .jrCompact a => Sys2Proof.Machine.execJrCompact a s
  | .haltCompact => Sys2Proof.Machine.execHaltCompact s
  | .yieldCompact => Sys2Proof.Machine.execYieldCompact s
  | .hint h => Sys2Proof.Machine.execHint h s
  | .add d a b => Sys2Proof.Machine.execAdd d a b s
  | .sub d a b => Sys2Proof.Machine.execSub d a b s
  | .mul d a b => Sys2Proof.Machine.execMul d a b s
  | .mulh d a b => Sys2Proof.Machine.execMulh d a b s
  | .mulhu d a b => Sys2Proof.Machine.execMulhu d a b s
  | .div d a b => Sys2Proof.Machine.execDiv d a b s
  | .divu d a b => Sys2Proof.Machine.execDivu d a b s
  | .rem d a b => Sys2Proof.Machine.execRem d a b s
  | .remu d a b => Sys2Proof.Machine.execRemu d a b s
  | .and d a b => Sys2Proof.Machine.execAnd d a b s
  | .or d a b => Sys2Proof.Machine.execOr d a b s
  | .xor d a b => Sys2Proof.Machine.execXor d a b s
  | .shl d a b => Sys2Proof.Machine.execShl d a b s
  | .shr d a b => Sys2Proof.Machine.execShr d a b s
  | .sra d a b => Sys2Proof.Machine.execSra d a b s
  | .min d a b => Sys2Proof.Machine.execMin d a b s
  | .max d a b => Sys2Proof.Machine.execMax d a b s
  | .minu d a b => Sys2Proof.Machine.execMinu d a b s
  | .maxu d a b => Sys2Proof.Machine.execMaxu d a b s
  | .slt d a b => Sys2Proof.Machine.execSlt d a b s
  | .sltu d a b => Sys2Proof.Machine.execSltu d a b s
  | .seq d a b => Sys2Proof.Machine.execSeq d a b s
  | .clz d a => Sys2Proof.Machine.execClz d a s
  | .popc d a => Sys2Proof.Machine.execPopc d a s
  | .mov d a => Sys2Proof.Machine.execMov d a s
  | .sel d a b c => Sys2Proof.Machine.execSel d a b c s
  | .addsh d a b n => Sys2Proof.Machine.execAddsh d a b n s
  | .addi d a im => Sys2Proof.Machine.execAddi d a im s
  | .andi d a im => Sys2Proof.Machine.execAndi d a im s
  | .ori d a im => Sys2Proof.Machine.execOri d a im s
  | .xori d a im => Sys2Proof.Machine.execXori d a im s
  | .shlImm d a n => Sys2Proof.Machine.execShlImm d a n s
  | .shrImm d a n => Sys2Proof.Machine.execShrImm d a n s
  | .sraImm d a n => Sys2Proof.Machine.execSraImm d a n s
  | .li d im => Sys2Proof.Machine.execLi d im s
  | .lih d h im => Sys2Proof.Machine.execLih d h im s
  | .bfx d a l p => Sys2Proof.Machine.execBfx d a l p s
  | .bfi d a l p => Sys2Proof.Machine.execBfi d a l p s
  | .li64 d im => Sys2Proof.Machine.execLi64 d im s
  | .ldl z d a sg o => Sys2Proof.Machine.execLdl z d a sg o s
  | .stl z d a o => Sys2Proof.Machine.execStl z d a o s
  | .ldg z d a sg o => Sys2Proof.Machine.execLdg z d a sg o s
  | .stg z d a o => Sys2Proof.Machine.execStg z d a o s
  | .amoAdd z d a b => Sys2Proof.Machine.execAmoAdd z d a b s
  | .amoMin z d a b => Sys2Proof.Machine.execAmoMin z d a b s
  | .amoMax z d a b => Sys2Proof.Machine.execAmoMax z d a b s
  | .amoAnd z d a b => Sys2Proof.Machine.execAmoAnd z d a b s
  | .amoOr z d a b => Sys2Proof.Machine.execAmoOr z d a b s
  | .amoXor z d a b => Sys2Proof.Machine.execAmoXor z d a b s
  | .amoSwap z d a b => Sys2Proof.Machine.execAmoSwap z d a b s
  | .amoCas z d a b c => Sys2Proof.Machine.execAmoCas z d a b c s
  | .amoFadd d a b => Sys2Proof.Machine.execAmoFadd d a b s
  | .crd d r => Sys2Proof.Machine.execCrd d r s
  | .cwr a r => Sys2Proof.Machine.execCwr a r s
  | .bCc c a b d => Sys2Proof.Machine.execBCc c a b d s
  | .bz a d => Sys2Proof.Machine.execBz a d s
  | .bnz a d => Sys2Proof.Machine.execBnz a d s
  | .j d => Sys2Proof.Machine.execJ d s
  | .jal r d => Sys2Proof.Machine.execJal r d s
  | .jr a => Sys2Proof.Machine.execJr a s
  | .loop a e => Sys2Proof.Machine.execLoop a e s
  | .loopi n e => Sys2Proof.Machine.execLoopi n e s
  | .breakl => Sys2Proof.Machine.execBreakl s
  | .launch a => Sys2Proof.Machine.execLaunch a s
  | .fork a d => Sys2Proof.Machine.execFork a d s
  | .join a => Sys2Proof.Machine.execJoin a s
  | .bar => Sys2Proof.Machine.execBar s
  | .halt => Sys2Proof.Machine.execHalt s
  | .haltK c => Sys2Proof.Machine.execHaltK c s
  | .yield => Sys2Proof.Machine.execYield s
  | .migrateHome a m => Sys2Proof.Machine.execMigrateHome a m s
  | .migrate a m => Sys2Proof.Machine.execMigrate a m s
  | .waitch c => Sys2Proof.Machine.execWaitch c s
  | .getid d sel => Sys2Proof.Machine.execGetid d sel s
  | .vadd d a b p f => Sys2Proof.Machine.execVadd d a b p f s
  | .vsub d a b p f => Sys2Proof.Machine.execVsub d a b p f s
  | .vmul d a b p f => Sys2Proof.Machine.execVmul d a b p f s
  | .vfma d a b p f => Sys2Proof.Machine.execVfma d a b p f s
  | .vfms d a b p f => Sys2Proof.Machine.execVfms d a b p f s
  | .vmin d a b p f => Sys2Proof.Machine.execVmin d a b p f s
  | .vmax d a b p f => Sys2Proof.Machine.execVmax d a b p f s
  | .vabs d a p f => Sys2Proof.Machine.execVabs d a p f s
  | .vneg d a p f => Sys2Proof.Machine.execVneg d a p f s
  | .vdiv d a b p f => Sys2Proof.Machine.execVdiv d a b p f s
  | .vsqrt d a p f => Sys2Proof.Machine.execVsqrt d a p f s
  | .vredadd d a p => Sys2Proof.Machine.execVredadd d a p s
  | .vredmax d a p => Sys2Proof.Machine.execVredmax d a p s
  | .vfmaPrefixed d a b c p f => Sys2Proof.Machine.execVfmaPrefixed d a b c p f s
  | .vfmsPrefixed d a b c p f => Sys2Proof.Machine.execVfmsPrefixed d a b c p f s
  | .viadd d a b p f => Sys2Proof.Machine.execViadd d a b p f s
  | .vimul d a b p f => Sys2Proof.Machine.execVimul d a b p f s
  | .vand d a b p => Sys2Proof.Machine.execVand d a b p s
  | .vor d a b p => Sys2Proof.Machine.execVor d a b p s
  | .vxor d a b p => Sys2Proof.Machine.execVxor d a b p s
  | .vshl d a b p f => Sys2Proof.Machine.execVshl d a b p f s
  | .vshr d a b p f => Sys2Proof.Machine.execVshr d a b p f s
  | .vshrA d a b p f => Sys2Proof.Machine.execVshrA d a b p f s
  | .vsel d a b p => Sys2Proof.Machine.execVsel d a b p s
  | .vcmpEq d a b p f => Sys2Proof.Machine.execVcmpEq d a b p f s
  | .vcmpNe d a b p f => Sys2Proof.Machine.execVcmpNe d a b p f s
  | .vcmpLt d a b p f => Sys2Proof.Machine.execVcmpLt d a b p f s
  | .vcmpLe d a b p f => Sys2Proof.Machine.execVcmpLe d a b p f s
  | .vcmpGt d a b p f => Sys2Proof.Machine.execVcmpGt d a b p f s
  | .vcmpGe d a b p f => Sys2Proof.Machine.execVcmpGe d a b p f s
  | .vmov d a p => Sys2Proof.Machine.execVmov d a p s
  | .vbcast d a l p => Sys2Proof.Machine.execVbcast d a l p s
  | .vperm d a b p => Sys2Proof.Machine.execVperm d a b p s
  | .vldl d a p => Sys2Proof.Machine.execVldl d a p s
  | .vstl d a p => Sys2Proof.Machine.execVstl d a p s
  | .vgathl d a b p => Sys2Proof.Machine.execVgathl d a b p s
  | .vscatl d a b p => Sys2Proof.Machine.execVscatl d a b p s
  | .tblld t a => Sys2Proof.Machine.execTblld t a s
  | .vldg d a p => Sys2Proof.Machine.execVldg d a p s
  | .vstg d a p => Sys2Proof.Machine.execVstg d a p s
  | .vgathg d a b p => Sys2Proof.Machine.execVgathg d a b p s
  | .vscatg d a b p => Sys2Proof.Machine.execVscatg d a b p s
  | .vtlu d a t p f => Sys2Proof.Machine.execVtlu d a t p f s
  | .vrope d a b p => Sys2Proof.Machine.execVrope d a b p s
  | .vcvt d a r fs p f => Sys2Proof.Machine.execVcvt d a r fs p f s
  | .vcvtn d a b p f => Sys2Proof.Machine.execVcvtn d a b p f s
  | .vcvtnCounter d a b p f n => Sys2Proof.Machine.execVcvtnCounter d a b p f n s
  | .vpack d a b p f => Sys2Proof.Machine.execVpack d a b p f s
  | .vunpack d a j p f => Sys2Proof.Machine.execVunpack d a j p f s
  | .sendl a b c l x v r => Sys2Proof.Machine.execSendl a b c l x v r s
  | .mloadb a sh g => Sys2Proof.Machine.execMloadb a sh g s
  | .mma sh f g m => Sys2Proof.Machine.execMma sh f g m s
  | .sacc a b sh => Sys2Proof.Machine.execSacc a b sh s
  | .aswap => Sys2Proof.Machine.execAswap s
  | .aread a b => Sys2Proof.Machine.execAread a b s
  | .azero v => Sys2Proof.Machine.execAzero v s
  | .ofix a b c => Sys2Proof.Machine.execOfix a b c s
  | .mstat a => Sys2Proof.Machine.execMstat a s
  | .copy q a b c im t f => Sys2Proof.Machine.execCopy q a b c im t f s
  | .gatherkv a c => Sys2Proof.Machine.execGatherkv a c s
  | .pagein q a b c => Sys2Proof.Machine.execPagein q a b c s
  | .efence m => Sys2Proof.Machine.execEfence m s
  | .eqwait q => Sys2Proof.Machine.execEqwait q s
  | .tmapset a im => Sys2Proof.Machine.execTmapset a im s
  | .binit a b => Sys2Proof.Machine.execBinit a b s
  | .bexpect a b => Sys2Proof.Machine.execBexpect a b s
  | .barrive a => Sys2Proof.Machine.execBarrive a s
  | .bwait a b => Sys2Proof.Machine.execBwait a b s
  | .btest a b d => Sys2Proof.Machine.execBtest a b d s
  | .cnew d p w => Sys2Proof.Machine.execCnew d p w s
  | .cfree a => Sys2Proof.Machine.execCfree a s
  | .ctake d a => Sys2Proof.Machine.execCtake d a s
  | .cgive d a => Sys2Proof.Machine.execCgive d a s
  | .ccancel d a b => Sys2Proof.Machine.execCcancel d a b s
  | .cread d a => Sys2Proof.Machine.execCread d a s
  | .carm a b => Sys2Proof.Machine.execCarm a b s
  | .cwait a b => Sys2Proof.Machine.execCwait a b s
  | .send a b n v r c => Sys2Proof.Machine.execSend a b n v r c s
  | .reply n => Sys2Proof.Machine.execReply n s
  | .msgrd d a => Sys2Proof.Machine.execMsgrd d a s
  | .chmask m c => Sys2Proof.Machine.execChmask m c s
  | .lpbind a c => Sys2Proof.Machine.execLpbind a c s
  | .vtset a => Sys2Proof.Machine.execVtset a s
  | .vtget d => Sys2Proof.Machine.execVtget d s
  | .gvtrd d t => Sys2Proof.Machine.execGvtrd d t s
  | .irrev a => Sys2Proof.Machine.execIrrev a s
  | .ckpt a => Sys2Proof.Machine.execCkpt a s
  | .swater a t => Sys2Proof.Machine.execSwater a t s
  | .strunc a b => Sys2Proof.Machine.execStrunc a b s
  | .scursor d a p => Sys2Proof.Machine.execScursor d a p s
  | .nred a b => Sys2Proof.Machine.execNred a b s
  | .nredw d a => Sys2Proof.Machine.execNredw d a s
  | .trap c => Sys2Proof.Machine.execTrap c s
  | .eret => Sys2Proof.Machine.execEret s
  | .resume a => Sys2Proof.Machine.execResume a s
  | .brk c => Sys2Proof.Machine.execBrk c s
  | .fence k sc => Sys2Proof.Machine.execFence k sc s
  | .drain => Sys2Proof.Machine.execDrain s
  | .tlbinvPage a b => Sys2Proof.Machine.execTlbinvPage a b s
  | .tlbinvPart a b => Sys2Proof.Machine.execTlbinvPart a b s
  | .tlbinvAll => Sys2Proof.Machine.execTlbinvAll s
  | .tlbsync => Sys2Proof.Machine.execTlbsync s
  | .fbread d w e => Sys2Proof.Machine.execFbread d w e s
  | .fbpop => Sys2Proof.Machine.execFbpop s
  | .replayall => Sys2Proof.Machine.execReplayall s
  | .xlate d a k => Sys2Proof.Machine.execXlate d a k s
  | .bmcinv a => Sys2Proof.Machine.execBmcinv a s
  | .fetchLine g c => Sys2Proof.Machine.execFetchLine g c s
  | .classPromotion g c => Sys2Proof.Machine.execClassPromotion g c s
  | .ringEntryComplete g c seq => Sys2Proof.Machine.execRingEntryComplete g c seq s
  | .trapEntry g c => Sys2Proof.Machine.execTrapEntry g c s
  | .watchdog g c => Sys2Proof.Machine.execWatchdog g c s
  | .waitWake g c => Sys2Proof.Machine.execWaitWake g c s
  | .loadReply k => Sys2Proof.Machine.execLoadReply k s
  | .storeAck k => Sys2Proof.Machine.execStoreAck k s
  | .memoryAccess k => Sys2Proof.Machine.execMemoryAccess k s
  | .weirPeriod h => Sys2Proof.Machine.execWeirPeriod h s
  | .pageWalk g va kind => Sys2Proof.Machine.execPageWalk g va kind s
  | .contextReplay g c => Sys2Proof.Machine.execContextReplay g c s
  | .messageArrival k => Sys2Proof.Machine.execMessageArrival k s
  | .messageSpill g => Sys2Proof.Machine.execMessageSpill g s
  | .handlerStart g src k => Sys2Proof.Machine.execHandlerStart g src k s
  | .waitchDelivery g src k => Sys2Proof.Machine.execWaitchDelivery g src k s
  | .sendInjection g reply => Sys2Proof.Machine.execSendInjection g reply s
  | .replyLanding k => Sys2Proof.Machine.execReplyLanding k s
  | .cellRelease k => Sys2Proof.Machine.execCellRelease k s
  | .hostWindowWrite t off data => Sys2Proof.Machine.execHostWindowWrite t off data s
  | .launchForward g k => Sys2Proof.Machine.execLaunchForward g k s
  | .launchMessage t k => Sys2Proof.Machine.execLaunchMessage t k s
  | .dispatchRetry t => Sys2Proof.Machine.execDispatchRetry t s
  | .gridDescriptor k => Sys2Proof.Machine.execGridDescriptor k s
  | .crewAdmission g => Sys2Proof.Machine.execCrewAdmission g s
  | .crewDone g k => Sys2Proof.Machine.execCrewDone g k s
  | .gridCompletion t k => Sys2Proof.Machine.execGridCompletion t k s
  | .gridEnd k => Sys2Proof.Machine.execGridEnd k s
  | .forkChildStart g => Sys2Proof.Machine.execForkChildStart g s
  | .stealRequest g => Sys2Proof.Machine.execStealRequest g s
  | .stealServe k => Sys2Proof.Machine.execStealServe k s
  | .stealReply k => Sys2Proof.Machine.execStealReply k s
  | .stealRound g => Sys2Proof.Machine.execStealRound g s
  | .joinSwapOut g => Sys2Proof.Machine.execJoinSwapOut g s
  | .joinReadmit g k => Sys2Proof.Machine.execJoinReadmit g k s
  | .retainTimeout g k => Sys2Proof.Machine.execRetainTimeout g k s
  | .migrationArrival g k => Sys2Proof.Machine.execMigrationArrival g k s
  | .balancerToken k => Sys2Proof.Machine.execBalancerToken k s
  | .balancerAntitoken k => Sys2Proof.Machine.execBalancerAntitoken k s
  | .exitToken k => Sys2Proof.Machine.execExitToken k s
  | .exitAntitoken k => Sys2Proof.Machine.execExitAntitoken k s
  | .exitCancel k => Sys2Proof.Machine.execExitCancel k s
  | .generationClose t key => Sys2Proof.Machine.execGenerationClose t key s
  | .pennantRaise t key => Sys2Proof.Machine.execPennantRaise t key s
  | .nredContribution k => Sys2Proof.Machine.execNredContribution k s
  | .crewSwapOut g k => Sys2Proof.Machine.execCrewSwapOut g k s
  | .idleCrewSwap g => Sys2Proof.Machine.execIdleCrewSwap g s
  | .crewReadmission g => Sys2Proof.Machine.execCrewReadmission g s
  | .commandActivation g q => Sys2Proof.Machine.execCommandActivation g q s
  | .engineCredit g q n => Sys2Proof.Machine.execEngineCredit g q n s
  | .commandCompletion g q => Sys2Proof.Machine.execCommandCompletion g q s
  | .tierMissEvent g => Sys2Proof.Machine.execTierMissEvent g s
  | .gvtRound t d => Sys2Proof.Machine.execGvtRound t d s
  | .gvtPublication t d => Sys2Proof.Machine.execGvtPublication t d s
  | .lpEventStart g slot => Sys2Proof.Machine.execLpEventStart g slot s
  | .checkpointSnapshot g slot => Sys2Proof.Machine.execCheckpointSnapshot g slot s
  | .stragglerRollback g k => Sys2Proof.Machine.execStragglerRollback g k s
  | .antiMessageArrival g k m => Sys2Proof.Machine.execAntiMessageArrival g k m s
  | .lateMessage g k => Sys2Proof.Machine.execLateMessage g k s
  | .lpUnbind g slot => Sys2Proof.Machine.execLpUnbind g slot s
  | .eviction g => Sys2Proof.Machine.execEviction g s
  | .evictRoutineTimeout g => Sys2Proof.Machine.execEvictRoutineTimeout g s
  | .evictedMessage k => Sys2Proof.Machine.execEvictedMessage k s
  | .retryResend k => Sys2Proof.Machine.execRetryResend k s
  | .restore g => Sys2Proof.Machine.execRestore g s
  | .partitionReset t => Sys2Proof.Machine.execPartitionReset t s
  | .journalReplay t => Sys2Proof.Machine.execJournalReplay t s
  | .arrayError g unit index correctable syndrome off => Sys2Proof.Machine.execArrayError g unit index correctable syndrome off s
  | .machineCheck g unit index syndrome off => Sys2Proof.Machine.execMachineCheck g unit index syndrome off s
  | .halyardHalt cl cmp => Sys2Proof.Machine.execHalyardHalt cl cmp s
  | .halyardResume cl => Sys2Proof.Machine.execHalyardResume cl s
  | .monitorSample g m v => Sys2Proof.Machine.execMonitorSample g m v s
  | .monitorClear g m => Sys2Proof.Machine.execMonitorClear g m s
  | .tencntFlush t im => Sys2Proof.Machine.execTencntFlush t im s
  | .tcsyncFlush t => Sys2Proof.Machine.execTcsyncFlush t s
  | .jfenceMark t => Sys2Proof.Machine.execJfenceMark t s
  | .gvtperWrite g v => Sys2Proof.Machine.execGvtperWrite g v s
  | .dispatchRegisterWrite g off v => Sys2Proof.Machine.execDispatchRegisterWrite g off v s
  | .dramceClear g => Sys2Proof.Machine.execDramceClear g s
  | .mcrecClear g v => Sys2Proof.Machine.execMcrecClear g v s
  | .ftestStart cl => Sys2Proof.Machine.execFtestStart cl s
  | .ftestComplete cl results => Sys2Proof.Machine.execFtestComplete cl results s
  | .marginMeasurement port vals => Sys2Proof.Machine.execMarginMeasurement port vals s
  | .portRecordClear port => Sys2Proof.Machine.execPortRecordClear port s
  | .registerWrite g off v => Sys2Proof.Machine.execRegisterWrite g off v s
  | .securityAlarm cause => Sys2Proof.Machine.execSecurityAlarm cause s
  | .partitionForm t hyper cores limit floor => Sys2Proof.Machine.execPartitionForm t hyper cores limit floor s
  | .partitionResize t cores limit floor => Sys2Proof.Machine.execPartitionResize t cores limit floor s
  | .partitionRelease t => Sys2Proof.Machine.execPartitionRelease t s
  | .selfTestCommand cl => Sys2Proof.Machine.execSelfTestCommand cl s
  | .statusHealth => Sys2Proof.Machine.execStatusHealth s
  | .attest nonce => Sys2Proof.Machine.execAttest nonce s
  | .firmwareUpdate image signed => Sys2Proof.Machine.execFirmwareUpdate image signed s
  | .replaceRequest => Sys2Proof.Machine.execReplaceRequest s
  | .powerOn chip found => Sys2Proof.Machine.execPowerOn chip found s
  | .islandClockChange isl f => Sys2Proof.Machine.execIslandClockChange isl f s
  | .thermalThrottle isls => Sys2Proof.Machine.execThermalThrottle isls s
  | .thermalShutdown => Sys2Proof.Machine.execThermalShutdown s
  | .portFailure port => Sys2Proof.Machine.execPortFailure port s
  | .cxlDeviceFailure seg => Sys2Proof.Machine.execCxlDeviceFailure seg s
  | .msixDoorbell t v => Sys2Proof.Machine.execMsixDoorbell t v s
  | .fabricReply k => Sys2Proof.Machine.execFabricReply k s
  | .hostMemoryAccess t win off write data => Sys2Proof.Machine.execHostMemoryAccess t win off write data s
  | .packageReset => Sys2Proof.Machine.execPackageReset s
  | .loggedHostDelivery g => Sys2Proof.Machine.execLoggedHostDelivery g s

end Sys2Proof.Machine
end

