-- ==== Sys2Proof/Machine/Issue.lean ====
section
/-! DEFINITION. Issue: the checks of a fetched instruction (R11, R12, R16, R17), what an instruction waits for before it
issues (R43, R125, R209, R210), the choice of a context (R77 to R79), and the device steps that may take place. -/

namespace Sys2Proof.Machine

/-! ### The line and its checks (R10 to R12, R16) -/

/-- One byte of the CRC of R12: the most significant bit first, generator 0x07. -/
def crcByte (r b : Byte) : Byte :=
  (List.range 8).foldl (fun x _ => if x.getLsbD 7 then (x <<< 1) ^^^ 7 else x <<< 1) (r ^^^ b)

/-- The CRC of some bytes (R12). -/
def crc8 (bs : List Byte) : Byte := bs.foldl crcByte 0

/-- Whether a line's header passes its check: kind 0x00, and the CRC (R11 to R13). -/
def headerOk (bs : List Byte) : Bool := bs.getD 14 1 == 0 && crc8 (bs.take 15) == bs.getD 15 0

/-- The start bits and the target bits of a line (R11). -/
def startBits (bs : List Byte) : Nat := natOfBytes (bs.take 7)
def targetBits (bs : List Byte) : Nat := natOfBytes ((bs.drop 7).take 7)

/-- The checks of R16 on a line for an address, in their order, up to legality: the instruction, or the cause. -/
def issueCheck (bs : List Byte) (pc : Word) (arrived : Bool) : Except Nat Instr :=
  let t := pc.toNat % 128
  let n := (t - 16) / 2
  let code := bs.drop t
  let len := halfwordsOf (halfOfBytes (code.getD 0 0) (code.getD 1 0))
  let start := startBits bs
  if !headerOk bs then .error 0x01
  else if t < 16 ∨ t % 2 = 1 then .error (if arrived then 0x03 else 0x02)
  else if !start.testBit n || decide (56 < n + len) || (List.range (len - 1)).any fun k => start.testBit (n + k + 1) then .error 0x02
  else if arrived && !(targetBits bs).testBit n then .error 0x03
  else match decodeBytes code with
    | .error _ => .error 0x04
    | .ok (i, _) => if i.wellFormed then .ok i else .error 0x04

/-- The trap of a failed check of R16; an unmarked target names the transfer that led to it (R17, R212). A breakpoint on
the address sets its bit in the mask too, and pulls the halyard where it is to (R208, R369). -/
def State.checkTrap (s0 : State) (cause : Nat) : State :=
  let g := s0.cur.1
  let c := s0.cur.2
  let n := s0.watchHit g c s0.me.pc.toNat 2 1
  let hit := n.isSome
  let s := match n with
    | some i => s0.pull g i
    | none => s0
  let t := s.trapInfo cause (if cause = 0x03 then s.me.pc else 0)
  s.takeTrap g c { t with
    source := if cause = 0x03 then s.me.arrived.getD 0 else 0,
    mask := if hit then t.mask ||| BitVec.ofNat 23 (2 ^ 0x13) else t.mask }

/-! ### What an instruction waits for (R43, R125, R209, R210) -/

/-- The engine and matrix commands, which take an entry of the ring as V-slot instructions do (R209). -/
def ringCommand : Instr → Bool
  | .mloadb _ _ _ => true
  | .mma _ _ _ _ => true
  | .sacc _ _ _ => true
  | .aswap => true
  | .aread _ _ => true
  | .azero _ => true
  | .ofix _ _ _ => true
  | .copy _ _ _ _ _ _ _ => true
  | .gatherkv _ _ => true
  | .pagein _ _ _ _ => true
  | .efence _ => true
  | _ => false

/-- The registers that an instruction reads and that a load still owes (R43, R229). -/
def Ctx.owes (k : Ctx) (i : Instr) : List XReg := (xReads i).filter fun r => k.owed.any fun o => o.2 == r

/-- Whether an incomplete entry writes a register that an instruction reads or writes (R50, R125). -/
def Ctx.scored (k : Ctx) (i : Instr) : Bool :=
  k.ring.any fun e => e.st != .done && (vWrites e.instr).any fun r => (vReads i ++ vWrites i).contains r

/-- Whether an instruction that takes a ring entry finds none: 32 entries are incomplete, or one of them still has the next number, for
which the manual gives no fate (R125, R209; DESIGN CHOICE, log entry 109). -/
def Ctx.ringFull (k : Ctx) : Bool :=
  let es := k.ring.filter fun e => e.st != .done
  decide (Config.ringEntries ≤ es.length) || es.any fun e => e.seq == k.nextSeq

/-- What holds an instruction back at a context, if anything does. Behind a narrowing whose records are still to be appended nothing
issues, so that what follows sees them (R117; DESIGN CHOICE, log entry 98). -/
def Ctx.holds (k : Ctx) (i : Instr) : Option CtxState :=
  if !(k.owes i).isEmpty then some (.waiting (.load (k.owes i)))
  else if k.scored i then some (.blocked .scoreboard)
  else if k.ring.any fun e => !e.records.isEmpty then some (.blocked .quiet)
  else if (vSlot i || ringCommand i) && k.ringFull then some (.blocked .ring)
  else none

/-! ### Issue (R16, R66, R77) -/

/-- Whether a state is blocked. -/
def CtxState.isBlocked : CtxState → Bool
  | .blocked _ => true
  | _ => false

/-- Whether a state is one that a context's next instruction only waits in: a register that a load owes, or a resource that is in use. The
others are states of an instruction that has begun (R66). -/
def CtxState.resting : CtxState → Bool
  | .waiting (.load _) => true
  | .blocked b => match b with
    | .scoreboard => true
    | .ring => true
    | .quiet => true
    | .drain => true
    | .loads => true
    | .sendQueue => true
    | .replyQueue => true
    | .cell => true
    | .command _ => true
    | .deque => true
    | .commit => true
    | _ => false
  | _ => false

/-- A context after it has issued: its age starts again, and its class is its base class (R77, R79). -/
def State.issued (s : State) (g c : Nat) : State :=
  let k := s.ctx g c
  if k.role = .free ∨ k.st.isBlocked then s else s.setCtx g c { k with age := s.cycle g, bump := 0 }

/-- An instruction issues at the executing context: it is ready, and its complete ring entries are gone. -/
def State.run (s : State) (i : Instr) : Host.Outcome State Fault Refusal :=
  let g := s.cur.1
  let c := s.cur.2
  match exec i (s.setMe { s.me with st := .ready, ring := s.me.ring.filter fun e => e.st != .done }) with
  | .next t => .next (t.issued g c)
  | .fault f => .fault f
  | .refused r => .refused r

/-- The fetched line is checked, and its instruction issues or waits (R16, R217). -/
def State.checked (s : State) (bs : List Byte) : Host.Outcome State Fault Refusal :=
  let k := s.me
  match issueCheck bs k.pc k.arrived.isSome with
  | .error n => .next (s.checkTrap n)
  | .ok i =>
    if i.supervisorOnly && !k.sup then .next (s.checkTrap 0x05)
    else match s.watchHit s.cur.1 s.cur.2 k.pc.toNat 2 1 with
      | some n => .next (s.watchTrap 0x13 n k.pc)
      | none => match k.holds i with
        | some st => .next (s.hold st)
        | none => s.run i

/-- Context c of core g tries to issue its next instruction. -/
def State.attempt (s : State) (g c : Nat) : Host.Outcome State Fault Refusal :=
  let r := ({ s with cur := (g, c) } : State).fetchFor g c
  match r.2 with
  | none => .next r.1
  | some bs => r.1.checked bs

/-- Whether the strand of a crew that is to be swapped out holds still (R264). -/
def State.leaving (s : State) (g : Nat) (k : Ctx) : Bool :=
  match k.crewOf with
  | some id => s.swapWanted g id
  | none => false

/-- Whether a speculative event waits for a publication that makes it safe (R328). -/
def State.awaitsGvt (s : State) (g c : Nat) : Bool :=
  match s.eventOf g c with
  | some (_, lp, e) => !e.safe && (match ((s.part (s.tag g)).domain lp.domain).next with
    | some v => !v.ult e.vt
    | none => false)
  | none => false

/-- Whether the island of core g issues nothing, for its clock is being changed (R388). -/
def State.clockBusy (s : State) (g : Nat) : Bool := (s.islandClock g).busy.any fun t => decide (s.now < t)

/-- Whether context c of core g runs an evict routine that has been abandoned (R357). -/
def State.abandoned (s : State) (g c : Nat) : Bool :=
  (s.ctx g c).role == .routine && (match (s.core g).evicting with
    | some (.routine t _) => decide (t + 8192 ≤ s.cycle g)
    | _ => false)

/-- Whether context c of core g may issue: it is in use, ready or blocked by something that may have come free, no trap
or replay of it is pending, no entry of it has faulted, and its core and its island run (R66, R210, R213, R255, R388). -/
def State.canIssue (s : State) (g c : Nat) : Bool :=
  let k := s.ctx g c
  k.role != .free && k.trap.isNone && !k.replay && k.ring.all (fun e => e.cause == 0) && s.runs g && !s.clockBusy g && !s.abandoned g c
    && (match k.st with
      | .ready => true
      | .blocked (.fabric _) => false
      | .blocked (.unbind _) => false
      | .blocked (.gathers _) => false
      | .blocked _ => true
      | _ => false)
    && !s.leaving g k && !s.awaitsGvt g c

/-! ### The choice of a context (R77 to R79) -/

/-- A context's rank: its class, its VT in class 3, its age, its number (R77, R79). -/
def State.rank (s : State) (g c : Nat) : Nat × Nat × Nat × Nat :=
  let k := s.ctx g c
  let cls := s.base g c - k.bump
  (cls, if cls = 3 then k.vt.toNat else 0, k.age, c)

/-- Whether one rank goes before another. -/
def rankBefore (a b : Nat × Nat × Nat × Nat) : Bool :=
  decide (a.1 < b.1) || (a.1 == b.1 && (decide (a.2.1 < b.2.1) || (a.2.1 == b.2.1
    && (decide (a.2.2.1 < b.2.2.1) || (a.2.2.1 == b.2.2.1 && decide (a.2.2.2 < b.2.2.2))))))

/-- A context put in its place among contexts in the order of their ranks. -/
def State.place (s : State) (g c : Nat) : List Nat → List Nat
  | [] => [c]
  | d :: r => if rankBefore (s.rank g c) (s.rank g d) then c :: d :: r else d :: s.place g c r

/-- The slot of the next instruction of context c of core g, once its line is fetched: true for the V-slot. What fails a check goes
through the S-slot (R19, R67). -/
def State.slotOf (s : State) (g c : Nat) : Option Bool :=
  let k := s.ctx g c
  k.lineHeld.map fun bs => match issueCheck bs k.pc k.arrived.isSome with
    | .ok i => vSlot i
    | .error _ => false

/-- Whether context c of core g, tried now, gets past what blocks it; where it waits from now on, it has issued (R66). -/
def State.getsPast (s : State) (g c : Nat) : Bool :=
  match s.attempt g c with
  | .next t => !(t.ctx g c).st.isBlocked
  | _ => true

/-- The state that context c of core g, which may issue, has now: ready, where what it is blocked by has come free, and what its next
instruction waits in, where it is ready and that instruction, whose line is held and passes its checks, waits for a register or a
resource (R66). -/
def State.stNow (s : State) (g c : Nat) : CtxState :=
  let k := s.ctx g c
  if k.st.isBlocked then (if s.getsPast g c then .ready else k.st)
  else match k.lineHeld.map fun bs => issueCheck bs k.pc k.arrived.isSome with
    | some (.ok _) => match s.attempt g c with
      | .next t => if (t.ctx g c).st.resting then (t.ctx g c).st else k.st
      | _ => k.st
    | _ => k.st

/-- A context with its state brought up to date; one that becomes ready has its age from then on (R66, R77). -/
def Ctx.become (k : Ctx) (st : CtxState) (now : Nat) : Ctx :=
  if st = k.st then k
  else if st = .ready then { k with st := st, since := now, age := now, bump := 0 }
  else { k with st := st, since := now }

/-- The contexts of core g with their states brought up to date (R66, R77). -/
def State.settle (s : State) (g : Nat) : State :=
  let new := ((s.work g).ctxs.filter fun e => s.canIssue g e.1).map fun e => (e.1, s.stNow g e.1)
  new.foldl (fun t e => t.setCtx g e.1 ((t.ctx g e.1).become e.2 (t.cycle g))) s

/-- Every context's state brought up to date. -/
def State.settleAll (s : State) : State := s.cores.foldl (fun t e => t.settle e.1) s

/-- Whether a slot picks context c of core g: no context that is ready with an instruction for the same slot goes before it (R77,
R79). -/
def State.picks (s : State) (g c : Nat) : Bool :=
  (s.work g).ctxs.all fun e =>
    e.1 == c || !s.canIssue g e.1 || s.slotOf g e.1 != s.slotOf g c || !rankBefore (s.rank g e.1) (s.rank g c) || !s.getsPast g e.1

/-- Context c of core g tries to issue: its line is fetched, and where a slot picks it, its instruction issues or waits (R13, R77). -/
def State.issueAt (s : State) (g c : Nat) : Host.Outcome State Fault Refusal :=
  let r := ({ s with cur := (g, c) } : State).fetchFor g c
  match r.2 with
  | none => .next r.1
  | some bs => if r.1.picks g c then r.1.checked bs else .next r.1

/-- The contexts of core g that may issue through a slot, in the order in which they are picked (R67, R77). -/
def State.order (s : State) (g : Nat) (v : Bool) : List Nat :=
  (((s.work g).ctxs.map fun e => e.1).filter fun c => s.canIssue g c && s.slotOf g c == some v).foldr (s.place g) []

/-- The first context of core g, of a list, that gets past what blocks it. -/
def State.firstIssue (s : State) (g : Nat) : List Nat → Option (Host.Outcome State Fault Refusal)
  | [] => none
  | c :: r =>
    match s.attempt g c with
    | .next t => if (t.ctx g c).st.isBlocked then s.firstIssue g r else some (.next t)
    | o => some o

/-- A list turned so that it starts at place n. -/
def turn {α : Type} (n : Nat) (l : List α) : List α := l.drop (n % l.length) ++ l.take (n % l.length)

/-- The first core of a list that issues an instruction through a slot. -/
def State.anyIssue (s : State) (v : Bool) : List Nat → Option (Host.Outcome State Fault Refusal)
  | [] => none
  | g :: r =>
    match s.firstIssue g (s.order g v) with
    | some o => some o
    | none => s.anyIssue v r

/-! ### Device steps that may take place (spec/95) -/

/-- What may take place: a function of the state, as each meaning is. -/
abbrev Move : Type := State → Host.Outcome State Fault Refusal

/-- The device steps of one context. -/
def Ctx.steps (g c : Nat) (k : Ctx) : List Move :=
  if k.role = .free then []
  else [execFetchLine g c, execClassPromotion g c, execTrapEntry g c, execWatchdog g c, execWaitWake g c, execContextReplay g c]
    ++ k.ring.map fun e => execRingEntryComplete g c e.seq

/-- The number that names a place of a waiting message (`placeOf`). -/
def placeNumber (src : Source) (k : Nat) : Nat :=
  3 * k + match src with
    | .ejection => 0
    | .spill => 1
    | .cell => 2

/-- The device step that serves a piece of work (R189). -/
def Job.step (g : Nat) : Job → Move
  | .handler src k => execHandlerStart g src k
  | .late src k => execLateMessage g (placeNumber src k)
  | .migration k => execMigrationArrival g k
  | .event slot => execLpEventStart g slot
  | .stolen k => execStealReply k
  | .readmit _ => execCrewReadmission g
  | .crew => execCrewAdmission g
  | .joined k => execJoinReadmit g k
  | .child => execForkChildStart g

/-- The device steps of the command queues of core g. -/
def queueSteps (g : Nat) : List Move :=
  [Queue.qc0, .qc1, .qg, .qm].flatMap fun q => [execCommandActivation (moveNo g 0) q, execCommandActivation (moveNo g 1) q, execEngineCredit g q (2 ^ 31), execCommandCompletion g q]

/-- The device steps of what has come due: samples of a core's monitors (R374), and doorbells of a package (R382). -/
def sampleSteps (g : Nat) (d : Debug) : List Move := d.due.map fun x => execMonitorSample g x.mon x.val
def bellSteps (h : Nat) (k : Chip) : List Move := k.doorbells.map fun e => execMsixDoorbell (64 * h + e.1) e.2

/-- The device steps of one core. -/
def State.coreSteps (s : State) (g : Nat) (k : Core) : List Move :=
  let w := k.work
  (w.ctxs.flatMap fun e => Ctx.steps g e.1 e.2) ++ ((s.nextJob g).toList.map (Job.step g))
    ++ (w.waiting.map fun e => execWaitchDelivery g e.1 e.2.1)
    ++ ((List.range w.ejection.length).flatMap fun i => [execLaunchForward g i, execLaunchMessage (s.tag g) i])
    ++ ((w.ejection.filter fun m => m.channel == 6).map fun m => execStealReply m.stamp)
    ++ [execMessageSpill g, execSendInjection g true, execSendInjection g false, execStealRequest g, execStealRound g, execJoinSwapOut g,
      execIdleCrewSwap g, execTierMissEvent g, execLoggedHostDelivery g]
    ++ (w.crews.flatMap fun e => [execCrewDone g e.1, execCrewSwapOut g e.1])
    ++ ((List.range w.retained.length).map fun i => execRetainTimeout g i)
    ++ queueSteps g ++ (w.lps.flatMap fun e => [execCheckpointSnapshot g e.1, execLpUnbind g e.1])
    ++ sampleSteps g k.dbg ++ if k.evicting.isSome then [execEviction g, execEvictRoutineTimeout g] else []

/-- The device steps of the network. -/
def Net.steps (n : Net) : List Move :=
  (n.reqs.map fun e => execMemoryAccess e.1) ++ (n.replies.flatMap fun e => [execLoadReply e.1, execStoreAck e.1])
    ++ ((n.msgs ++ n.answers).flatMap fun e =>
      [execStragglerRollback e.2.dst e.1, execAntiMessageArrival e.2.dst e.1 0, execEvictedMessage e.1])
    ++ (n.msgs.map fun e => execMessageArrival e.1) ++ (n.answers.map fun e => execReplyLanding e.1)
    ++ (n.releases.map fun e => execCellRelease e.1) ++ (n.nreds.map fun e => execNredContribution e.1)
    ++ (n.ops.flatMap fun e => [execBalancerToken e.1, execBalancerAntitoken e.1, execExitToken e.1, execExitAntitoken e.1, execExitCancel e.1,
      execFabricReply e.1])
    ++ (n.retries.map fun e => execRetryResend e.1) ++ (n.steals.map fun e => execStealServe e.1)
    ++ (n.descs.map fun e => execGridDescriptor e.1)
    ++ n.ends.map fun e => execGridEnd e.1

/-- The time domains of partition t that hold work: those with a round, and those of bound LPs. -/
def State.liveDomains (s : State) (t : Nat) : List Nat :=
  (((s.part t).domains.map fun e => e.1) ++ (s.partCores t).flatMap fun g => (s.work g).lps.map fun e => e.2.domain).eraseDups

/-- The device steps of one partition. -/
def State.partSteps (s : State) (t : Nat) (p : Partition) : List Move :=
  (if p.resetDue then [execPartitionReset t] else []) ++ (p.flushing.map fun i => execTencntFlush t i) ++ [execJournalReplay t, execJfenceMark t, execDispatchRetry t]
    ++ ((List.range p.runs.length).map fun i => execGridCompletion t i)
    ++ (p.counters.flatMap fun e => [execGenerationClose t e.1, execPennantRaise t e.1])
    ++ (s.liveDomains t).flatMap fun d => [execGvtPublication t d, execGvtRound t d]

/-- The device steps of one cluster. -/
def Cluster.steps (cl : Nat) (k : Cluster) : List Move :=
  (k.haltDue.toList.map fun v => execHalyardHalt cl v) ++ [execFtestStart cl]

/-- Every device step that may take place by itself; what comes from outside the machine, the order of service at the
weirs and walks, and the ends of tests come by the schedule alone (log entry 55). -/
def State.candidates (s : State) : List Move :=
  (s.parts.flatMap fun e => s.partSteps e.1 e.2) ++ (s.clusters.flatMap fun e => Cluster.steps e.1 e.2)
    ++ (s.cores.flatMap fun e => s.coreSteps e.1 e.2) ++ (s.chips.flatMap fun e => bellSteps e.1 e.2) ++ s.net.steps

/-- The first device step of a list that changes the machine, taken. -/
def State.firstEvent (s : State) : List Move → Option (Host.Outcome State Fault Refusal)
  | [] => none
  | e :: r =>
    match e s with
    | .next t => if t = s then s.firstEvent r else some (.next t)
    | o => some o

/-! ### Time (R52, R63, R219) -/

/-- A context's watchdog count after n cycles: ready and blocked cycles count (R219). -/
def Ctx.watched (k : Ctx) (n : Nat) : Ctx :=
  match k.st with
  | .ready => if k.role = .free then k else { k with watch := k.watch + n }
  | .blocked _ => { k with watch := k.watch + n }
  | _ => k

/-- The watchdogs after time has passed since a state: those that are on, of cores that are not halted, by the core's clock (R219, R369,
R388). -/
def State.watchdogs (t s : State) : State :=
  { t with cores := Tab.each (fun g k =>
      if k.work.wdlimit = 0 || (s.cluster g).halted then k
      else { k with work := { k.work with ctxs := Tab.each (fun _ c => c.watched (t.cycle g - s.cycle g)) k.work.ctxs } }) t.cores }

/-- The samples that the passing of time since a state has brought (R374). -/
def State.samples (t s : State) : State :=
  (t.cores.filter fun e => e.2.dbg.monitors).foldl (fun u e => u.periodic e.1 (s.cycle e.1) (t.cycle e.1)) t

/-- Time passes: at least one cycle of 1.6 GHz, and how many more is left open (R63, R388; log entry 2). -/
def State.tick (s : State) : State :=
  let t := { s with now := s.now + 1 + Config.freeCycles s.stepNo, stepNo := s.stepNo + 1 }
  (t.watchdogs s).samples s

/-! ### What happens in a step -/

/-- The outcome of what took place, with the states of the contexts, and then the state logs, brought up to date (R66, R371). -/
def logged : Host.Outcome State Fault Refusal → Host.Outcome State Fault Refusal
  | .next t => .next t.settleAll.logStates
  | .fault f => .fault f
  | .refused r => .refused r

/-- What the schedule names takes place; a context that may not issue does not, and one that no slot picks does not (R77). -/
def State.take (s : State) : Choice → Host.Outcome State Fault Refusal
  | .issue g c => if s.canIssue g c then s.issueAt g c else .next s
  | .event e => exec e s

/-- What takes place where the schedule names nothing: a device step or an instruction, by turns; else time passes (log
entry 55). -/
def State.free_ (s : State) : Host.Outcome State Fault Refusal :=
  let device := s.firstEvent (turn s.stepNo s.candidates)
  let gs := turn s.stepNo (s.cores.map fun e => e.1)
  let v := decide (s.stepNo / 2 % 2 = 1)
  let issue := (s.anyIssue v gs).or (s.anyIssue (!v) gs)
  match (if s.stepNo % 2 = 0 then device.or issue else issue.or device) with
  | some o => o
  | none => .next s

/-- One step after time has passed. -/
def State.move (s : State) : Host.Outcome State Fault Refusal :=
  match s.schedule with
  | x :: r => logged (({ s with schedule := r } : State).take x)
  | [] => logged s.free_

/-! ### A line with one instruction (R10 to R12) -/

/-- A line that holds a word at slot 0, with a header that passes its check: start and target bits at slot 0. -/
def lineOf (c : Code) : List Byte :=
  let h := bytesOfNat 7 1 ++ bytesOfNat 7 1 ++ [0]
  let body := bytesOfCode c
  h ++ [crc8 h] ++ body ++ List.replicate (112 - body.length) 0

/-- The state with an instruction's word in slot 0 of the line of the executing context's program counter, in memory and
in its instruction buffer, and the context about to issue it. -/
def State.placeWord (s : State) (c : Code) : State :=
  let k := s.me
  let base := k.pc &&& ~~~0x7F
  let s1 := match s.walk s.cur.1 false base .fetch with
    | .ok e => s.writePhys (e.pa + base.toNat % 2 ^ e.bits) (lineOf c)
    | .error _ => s
  let k1 := { k with
    role := if k.role = .free then .migrated else k.role, st := .ready, pc := base + 16, arrived := none,
    ibuf := some (base, lineOf c), trap := none, replay := false, ring := [], owed := [] }
  { s1.setMe k1 with schedule := [.issue s.cur.1 s.cur.2] }

end Sys2Proof.Machine
end

