-- ==== Sys2Proof/Machine/Step.lean ====
section
/-! DEFINITION. The step of the machine. -/

namespace Sys2Proof.Machine

/-- One step: time passes, and then what the schedule names first takes place, or a device step or an instruction by
turns. At a package that is powered off nothing does, and time passes (R388; log entry 114). -/
def step (s : State) : Host.Outcome State Fault Refusal := s.tick.move

/-- The state in which step fetches and runs the instruction with the bits w next (log entry 56). -/
def State.withFetchWord (s : State) (nbits w : Nat) : State := s.placeWord (tableCode nbits w)

end Sys2Proof.Machine
end

