-- ==== Sys2Proof/Safety.lean ====
section
/-! DEFINITION. The terms that statements use: the invariant of a state, safe runs, and the frames of instructions (what is
left as it was). -/

namespace Sys2Proof.Machine

/-! ### Safety -/

/-- What every step keeps: the bytes of memory are in their one canonical form. -/
def State.Inv (s : State) : Prop := s.mem.wf = true

/-- A run is safe when no step of it stops or is refused: it goes on. -/
def SafeFrom (s : State) : Prop := ∀ n, ∃ t, Host.Core.run core n s = .next t

/-! ### Frames -/

/-- Everything but the executing context is as it was: the other contexts, the memory, the scratchpads, the registers and
tables of every core, the network, the partitions and packages. -/
def OnlyMe (s t : State) : Prop := t = s.setMe t.me

/-- Every byte of memory and of every scratchpad reads as it did. -/
def SameBytes (s t : State) : Prop :=
  (∀ a, t.mem.get a = s.mem.get a) ∧ ∀ g a, (t.work g).spad.get a = (s.work g).spad.get a

/-- Of a context, only the flow of control may differ: the pc, the instruction buffer, the mark of a checked transfer, the
loop stack, the mark of a watchpoint passed, and the count of the chunk. -/
def SameButFlow (k l : Ctx) : Prop :=
  l = { k with pc := l.pc, ibuf := l.ibuf, arrived := l.arrived, loops := l.loops, watchOff := l.watchOff, chunk := l.chunk }

/-- Of a context, only register d and the flow of control may differ; what was owed to register d is owed to none (R43). -/
def SameButX (d : XReg) (k l : Ctx) : Prop :=
  SameButFlow { k with
    x := l.x, owed := k.owed.filter fun o => o.2 != d, amos := k.amos ++ (k.owed.filter fun o => o.2 == d).map fun o => o.1 } l ∧ ∀ r, r ≠ d → l.x.get r.toFin = k.x.get r.toFin

/-- Of a context, only vector register n, FPFLAGS, the generator of stochastic rounding, the ring of entries, and the flow
of control may differ. -/
def SameButV (n : Nat) (k l : Ctx) : Prop :=
  SameButFlow { k with v := l.v, fpflags := l.fpflags, rng := l.rng, ring := l.ring, nextSeq := l.nextSeq } l
    ∧ ∀ j, j ≠ n → l.vreg j = k.vreg j

/-! ### Completion -/

/-- Instruction i at s has the effect t. -/
def Does (i : Instr) (s t : State) : Prop := exec i s = .next t

/-- Every instruction of a list, with the value beside it, writes that value to xd and retires as an instruction of `len`
halfwords. -/
def Writes (s : State) (len : Nat) (d : XReg) (l : List (Instr × Word)) : Prop :=
  ∀ p ∈ l, exec p.1 s = .next (writeX s len d p.2)

/-- The instruction traps with a cause and a fault address, at its own pc, with nothing of it done (R207). -/
def Traps (i : Instr) (s : State) (cause : Nat) (fault : Word) : Prop := exec i s = .next (s.trap cause fault)

/-- The access of the instruction raises the causes `cs` at address a, or matches comparator w: it traps with the lowest of them,
every one in the mask, with nothing of it done (R207, R208, R217). -/
def TrapsOn (i : Instr) (s : State) (cs : List Nat) (w : Option Nat) (a : Word) : Prop := exec i s = .next (s.accessTrap cs w a)

/-- The instruction waits: it stays at its pc with a state of its context, and has no other effect (R66). -/
def Holds (i : Instr) (s : State) (st : CtxState) : Prop := exec i s = .next (s.hold st)

/-- The executing context is in no speculative or coasting event (R319, R320). -/
def Plain (s : State) : Prop := s.ahead s.cur.1 s.cur.2 = none

/-- A scratchpad access of the executing context at address a is allowed and meets no watchpoint: it is at offset `off` of
core h (R141 to R143, R217). -/
def LocalOk (s : State) (a : Word) (size : Nat) (write : Bool) (h off : Nat) : Prop :=
  s.localAccess s.cur.1 s.me.sup a size write = .ok (h, off)
    ∧ s.watchHit s.cur.1 s.cur.2 a.toNat size (if write then 4 else 2) = none

/-- A scratchpad access of the executing context may take place now: it is allowed, and no earlier access of the context through a
window is still on its way to the same bytes (R240). -/
def LocalAt (s : State) (a : Word) (size : Nat) (write : Bool) (h off : Nat) : Prop :=
  LocalOk s a size write h off ∧ s.clashes s.cur.1 s.cur.2 [(h, off, size)] = false

/-- A barrier object that the executing context may use lies at offset `off` of its own scratchpad, and no earlier access of the
context through a window is on its way to it (R150, R152, R240). -/
def BarAt (s : State) (a : Word) (write : Bool) (off : Nat) : Prop :=
  a.toNat % 16 = 0 ∧ a.getLsbD 23 = false ∧ s.localAccess s.cur.1 s.me.sup a 16 write = .ok (s.cur.1, off)
    ∧ (∀ kinds, s.watchHit s.cur.1 s.cur.2 a.toNat 16 kinds = none) ∧ s.clashes s.cur.1 s.cur.2 [(s.cur.1, off, 16)] = false

/-- No entry of the executing context's ring has the number that the next entry takes, as where the step lets an instruction issue
(R209). -/
def NextFree (s : State) : Prop := ∀ e ∈ s.me.ring, e.seq ≠ s.me.nextSeq

/-- Core g keeps no replay log and replays none (R365). -/
def Unlogged (s : State) (g : Nat) : Prop := s.logMode g = 0

/-- A global access of the executing context is allowed: it is aligned, translated, and meets no watchpoint; t is the machine
with the translation cached, and pa the physical address (R227, R229, R248). -/
def GlobalAt (s : State) (va : Word) (k : Access) (size : Nat) (fadd : Bool) (t : State) (pa : Nat) : Prop :=
  s.globalAccess s.cur.1 s.cur.2 va k size true fadd = (t, .ok pa)

/-- A global access of the executing context does not go ahead: t is the machine with what was translated cached, and e says what its
checks raise, or that it parks (R208, R227, R251). -/
def GlobalStops (s : State) (va : Word) (k : Access) (size : Nat) (fadd : Bool) (t : State) (e : Stop) : Prop :=
  s.globalAccess s.cur.1 s.cur.2 va k size true fadd = (t, .error e)

/-- A request of the executing context as it leaves: numbered, with no mark of congestion and no bytes of held stores. -/
def newRequest (s : State) (pa : Nat) (op : MemOp) (dest : Option XReg) : MemReq :=
  ⟨s.nextId, s.cur.1, s.cur.2, pa, op, dest, 0, s.me.pc, false, s.me.event, [], s.cycle s.cur.1, 0⟩

/-- Every scratchpad is in canonical form. -/
def SpadsOk (s : State) : Prop := ∀ g, (s.work g).spad.wf = true

end Sys2Proof.Machine
end

