-- ==== Sys2Proof/Certificates/Slice0/Obligations.lean ====
section
/-! DEFINITION. The statements for the provers. Each names in its docstring the rules of spec/ that it formalises. -/

section

open Sys2Proof Sys2Proof.Machine

/-- Words of every family, from the layouts of R25 to R38 and the byte order of R9. -/
def Obligations.DecodeWords : Prop :=
  ∀ q ∈ ([
      ([0x01, 0x00], .nop), ([0x59, 0x02], .addCompact 5 9), ([0x59, 0x23], .ldlDCompact 3 5 9),
      ([0xA9, 0x15], .bzCompact 6 0x29), ([0x09, 0x3A], .jrCompact 9), ([0x04, 0x40, 0x00, 0x8C], .add 1 2 3),
      ([0x44, 0x46, 0x00, 0x8D], .sel 1 2 3 4), ([0x3C, 0x50, 0x5A, 0x5A], .addi 7 8 0x5A5A),
      ([0xBD, 0x53, 0xA5, 0xA5], .li 7 0x5A5A5), ([0xBC, 0x54, 0xD4, 0x02], .bfx 7 8 11 20),
      ([0x38, 0xB0, 0x34, 0x12, 0x78, 0x56, 0xBC, 0x9A], .li64 3 0x8123456789ABC),
      ([0x51, 0x60, 0xBC, 0xBA], .ldl 1 4 6 1 0x1ABC), ([0xD1, 0x63, 0x23, 0x81], .stg 3 4 6 0x0123),
      ([0x08, 0x64, 0x9C, 0x51], .amoCas 0 2 1 4 6), ([0x14, 0x65, 0x03, 0x01], .crd 5 0x103),
      ([0x23, 0x70, 0xA1, 0x4F], .bCc 2 3 4 0xFA1), ([0x45, 0x77, 0x23, 0x61], .loopi 0x456 0x123),
      ([0x80, 0x7D, 0x21, 0x00], .haltK 33), ([0x45, 0x7E, 0x07, 0x00], .getid 5 7),
      ([0xD6, 0x81, 0xA9, 0x14], .vfma 21 33 18 5 1), ([0x9E, 0x95, 0xA9, 0x14], .vcmpLt 7 33 18 5 1),
      ([0x55, 0xA4, 0x6D, 0x28], .vscatg 21 18 33 5), ([0xD6, 0xA5, 0x68, 0x16], .vcvt 21 33 3 1 5 0),
      ([0x8C, 0xB1, 0x00, 0x00, 0xD6, 0x81, 0xA9, 0x14], .vfmaPrefixed 21 33 18 35 5 1),
      ([0x02, 0xB1, 0x20, 0xAF, 0x56, 0xA6, 0xAA, 0x14], .vcvtnCounter 21 33 18 5 2 0xABC),
      ([0x34, 0xB2, 0xAF, 0x86, 0x00, 0x27, 0x00, 0x00], .sendl 3 4 33 0xABC 9 1 1),
      ([0x00, 0xC1, 0x51, 0x06], .mma 3 1 2 1), ([0x56, 0xC6, 0x00, 0x70], .ofix 5 6 7),
      ([0x2A, 0xD0, 0x4F, 0xCF], .copy 1 5 6 7 0x29 3 1), ([0x80, 0xD1, 0x20, 0x01], .efence 9),
      ([0x0A, 0xD5, 0x00, 0xCE], .btest 5 6 7), ([0x14, 0xE0, 0x0C, 0x00], .cnew 5 1 4),
      ([0x15, 0xE1, 0x00, 0x9C], .ccancel 5 6 7), ([0x01, 0xE2, 0xE1, 0x9E], .send 6 7 2 1 1 33),
      ([0x15, 0xE5, 0x01, 0x80], .scursor 5 6 1), ([0x95, 0xE5, 0x00, 0x80], .nredw 5 6),
      ([0x00, 0xF0, 0xA5, 0x02], .trap 0x2A5), ([0x40, 0xF0, 0x00, 0x00], .eret), ([0x00, 0xF1, 0x1C, 0x00], .fence 3 4),
      ([0x81, 0xF1, 0x04, 0x80], .tlbinvPage 6 1), ([0x14, 0xF2, 0x16, 0x00], .fbread 5 2 6),
      ([0xD5, 0xF2, 0x02, 0x80], .xlate 5 6 2)] : List (List Byte × Instr)),
    decodeBytes q.1 = .ok (q.2, [])

/-- The encoder and the decoder agree, on every operand of every form (R9, R25 to R38). -/
def Obligations.RoundTrip : Prop :=
  ∀ (i : Instr) (c : Code) (r : List Byte), encode i = some c → decodeBytes (bytesOfCode c ++ r) = .ok (i, r)

/-- The checks of R16 in their order, on a line of R10 to R13 and a transfer of R17; a step is the exec of what it decodes. That a number still in the ring holds an instruction back is the choice of the model (log entry 109). -/
def Obligations.StepRuns : Prop :=
  (∀ (s : State) (g c : Nat) (rest : List Choice) (i : Instr) (bs : List Byte), s.schedule = .issue g c :: rest →
    let u : State := { s.tick with schedule := rest }
    let v : State := { u with cur := (g, c) }
    let w := (v.fetchFor g c).1
    let ready := w.setMe { w.me with st := .ready, ring := w.me.ring.filter fun e => e.st != .done }
    u.canIssue g c = true → (v.fetchFor g c).2 = some bs → w.picks g c = true → issueCheck bs w.me.pc w.me.arrived.isSome = .ok i →
      ((i.supervisorOnly = true → w.me.sup = true) → w.watchHit w.cur.1 w.cur.2 w.me.pc.toNat 2 1 = none → w.me.holds i = none →
        (∀ t, exec i ready = .next t → step s = .next (t.issued w.cur.1 w.cur.2).settleAll.logStates)
        ∧ (∀ f, exec i ready = .fault f → step s = .fault f) ∧ (∀ f, exec i ready = .refused f → step s = .refused f))
      ∧ (i.supervisorOnly = true → w.me.sup = false → step s = .next (w.checkTrap 0x05).settleAll.logStates))
  ∧ (∀ (s : State) (e : Instr) (rest : List Choice), s.schedule = .event e :: rest →
      step s = logged (exec e ({ s.tick with schedule := rest } : State)))
  ∧ (∀ (s : State) (g c : Nat) (i : Instr) (bs : List Byte) (st : CtxState), (s.ctx g c).lineHeld = some bs →
      (s.ctx g c).st = .ready → issueCheck bs (s.ctx g c).pc (s.ctx g c).arrived.isSome = .ok i →
      (i.supervisorOnly = true → (s.ctx g c).sup = true) → s.watchHit g c (s.ctx g c).pc.toNat 2 1 = none →
      (s.ctx g c).holds i = some st → s.stNow g c = st)
  ∧ (∀ (k : Ctx) (i : Instr), k.holds i = none → vSlot i = true ∨ ringCommand i = true →
      (k.ring.filter fun e => e.st != .done).length < 32 ∧ ∀ e ∈ k.ring, e.st ≠ .done → e.seq ≠ k.nextSeq)
  ∧ ∀ (bs : List Byte) (pc : Word) (arrived : Bool),
      let off := pc.toNat % 128
      let n := (off - 16) / 2
      let code := bs.drop off
      let len := halfwordsOf (halfOfBytes (code.getD 0 0) (code.getD 1 0))
      let inSlot := 16 ≤ off ∧ off % 2 = 0
      let starts := (startBits bs).testBit n = true ∧ n + len ≤ 56 ∧ ∀ k, 1 ≤ k → k < len → (startBits bs).testBit (n + k) = false
      let entered := arrived = true → (targetBits bs).testBit n = true
      (headerOk bs = false → issueCheck bs pc arrived = .error 0x01)
      ∧ (headerOk bs = true → ¬ inSlot → issueCheck bs pc arrived = .error (if arrived then 0x03 else 0x02))
      ∧ (headerOk bs = true → inSlot → ¬ starts → issueCheck bs pc arrived = .error 0x02)
      ∧ (headerOk bs = true → inSlot → starts → ¬ entered → issueCheck bs pc arrived = .error 0x03)
      ∧ (headerOk bs = true → inSlot → starts → entered →
          (∀ e, decodeBytes code = .error e → issueCheck bs pc arrived = .error 0x04)
          ∧ ∀ i r, decodeBytes code = .ok (i, r) → issueCheck bs pc arrived = if i.wellFormed then .ok i else .error 0x04)

/-- The reset values that the tables of R45, R246, R349 and R365 give, and those of R136, R185, R196, R278 and R314. That every context is free and that other scratchpad bytes are 0 is the choice of the model (log entries 1 and 4), and that the host link is not enabled that of log entry 67. -/
def Obligations.ResetState : Prop :=
  State.reset.Inv ∧ State.reset.net = Net.reset ∧ (∀ h, (State.reset.chip h).off = false ∧ (State.reset.chip h).ready = false)
  ∧ ∀ g : Nat,
      let k := State.reset.core g
      let w := State.reset.work g
      State.reset.cycle g = 0 ∧ w.olcnt = 0 ∧ w.olbase = 0 ∧ k.errlog = 0 ∧ w.trapvec = 0 ∧ w.pswap = 0
      ∧ w.s1root = 0 ∧ k.s2root = 0 ∧ w.oxbow = 0 ∧ w.requests = [] ∧ w.replies = [] ∧ k.itlb = [] ∧ k.dtlb = []
      ∧ (∀ ch, State.reset.handler g ch = ⟨0, 0⟩) ∧ (∀ a, w.spad.get a = 0) ∧ (∀ a, w.tables.get a = 0)
      ∧ (∀ i : Fin 5, w.windows[i] = (⟨16, 0, 0⟩ : Window))
      ∧ (∀ i, i < 8 → State.reset.readReg g (0x20000 + 16 * i) = 0 ∧ State.reset.readReg g (0x20008 + 16 * i) = 0)
      ∧ (∀ r ∈ [0x11000, 0x11008, 0x11010, 0x11018, 0x11020, 0x20100, 0x20200, 0x20208, 0x20300, 0x20308, 0x20400, 0x20500, 0x20410, 0x20510, 0x20900, 0x20A00, 0x20B00, 0x20B08],
          State.reset.readReg g r = 0)
      ∧ State.reset.readReg g 0x20408 = BitVec.allOnes 64 ∧ State.reset.readReg g 0x20508 = BitVec.allOnes 64
      ∧ (∀ c, (State.reset.ctx g c).cause = 0 ∧ (State.reset.ctx g c).tseq = 0 ∧ (State.reset.ctx g c).role = .free)
      ∧ ∀ t d, ((State.reset.part t).domain d).gvt = 0 ∧ ((State.reset.part t).domain d).water = 0

/-- The canonical form of the memory (log entry 4), kept by every instruction and every step of the device. -/
def Obligations.StepInv : Prop :=
  ∀ s t : State, s.Inv → step s = .next t → t.Inv

/-- Traps and waits are states of a context (R66, R207). The manual says only that the dies are powered off (R388); that nothing then runs at their cores, and that the machine goes on, is the choice of the model (log entry 114). -/
def Obligations.NeverStops : Prop :=
  (∀ (i : Instr) (s : State), ∃ t, exec i s = .next t)
  ∧ (∀ s : State, ∃ t, step s = .next t)
  ∧ (∀ (s : State) (g c : Nat), (s.chip (chipOf g)).off = true → s.works g = false ∧ s.canIssue g c = false)
  ∧ ∀ s : State, s.now < s.tick.now

/-- The register forms of major 0x4 (R57, R58). -/
def Obligations.ScalarRegister : Prop :=
  ∀ (s : State) (d a b c : XReg) (n : BitVec 6),
    let x := s.x a
    let y := s.x b
    Writes s 2 d [
      (.add d a b, x + y), (.sub d a b, x - y), (.mul d a b, x * y),
      (.mulh d a b, BitVec.ofInt 64 (x.toInt * y.toInt / 2 ^ 64)),
      (.mulhu d a b, BitVec.ofNat 64 (x.toNat * y.toNat / 2 ^ 64)),
      (.div d a b, if y = 0 then BitVec.allOnes 64 else BitVec.ofInt 64 (x.toInt.tdiv y.toInt)),
      (.divu d a b, if y = 0 then BitVec.allOnes 64 else x / y),
      (.rem d a b, if y = 0 then x else BitVec.ofInt 64 (x.toInt.tmod y.toInt)),
      (.remu d a b, if y = 0 then x else x % y),
      (.and d a b, x &&& y), (.or d a b, x ||| y), (.xor d a b, x ^^^ y),
      (.shl d a b, x <<< (y.toNat % 64)), (.shr d a b, x >>> (y.toNat % 64)),
      (.sra d a b, x.sshiftRight (y.toNat % 64)),
      (.min d a b, if x.toInt < y.toInt then x else y), (.max d a b, if x.toInt < y.toInt then y else x),
      (.minu d a b, if x.toNat < y.toNat then x else y), (.maxu d a b, if x.toNat < y.toNat then y else x),
      (.slt d a b, if x.toInt < y.toInt then 1 else 0), (.sltu d a b, if x.toNat < y.toNat then 1 else 0),
      (.seq d a b, if x = y then 1 else 0),
      (.clz d a, BitVec.ofNat 64 (if x = 0 then 64 else 63 - Nat.log2 x.toNat)),
      (.popc d a, BitVec.ofNat 64 ((List.range 64).countP fun i => x.getLsbD i)),
      (.mov d a, x), (.sel d a b c, if s.x c ≠ 0 then x else y), (.addsh d a b n, x + y <<< n.toNat)]

/-- R58, as the relation between quotient and remainder. -/
def Obligations.DivisionNeverTraps : Prop :=
  ∀ (s : State) (d a b : XReg),
    let x := s.x a
    let y := s.x b
    (y = 0 → Writes s 2 d [(.div d a b, 0xFFFFFFFFFFFFFFFF), (.divu d a b, 0xFFFFFFFFFFFFFFFF), (.rem d a b, x), (.remu d a b, x)])
    ∧ (x = 0x8000000000000000 → y = 0xFFFFFFFFFFFFFFFF →
        Writes s 2 d [(.div d a b, 0x8000000000000000), (.rem d a b, 0)])
    ∧ (y ≠ 0 → ¬ (x = 0x8000000000000000 ∧ y = 0xFFFFFFFFFFFFFFFF) →
        ∃ q m : Word, Writes s 2 d [(.div d a b, q), (.rem d a b, m)]
          ∧ x.toInt = q.toInt * y.toInt + m.toInt ∧ m.toInt.natAbs < y.toInt.natAbs ∧ (m.toInt = 0 ∨ (m.toInt < 0 ↔ x.toInt < 0)))
    ∧ (y ≠ 0 → ∃ q m : Word, Writes s 2 d [(.divu d a b, q), (.remu d a b, m)]
          ∧ x.toNat = q.toNat * y.toNat + m.toNat ∧ m.toNat < y.toNat)

/-- The frame of the scalar ALU (R44, R57, R59, R60): one destination register, no flag, no trap. -/
def Obligations.ScalarFrame : Prop :=
  ∀ (s : State) (d a b c : XReg) (n p : BitVec 6) (i4 : BitVec 4) (i15 : BitVec 15) (i19 : BitVec 19) (h : BitVec 2)
    (i16 : BitVec 16) (i52 : BitVec 52), s.me.stepArm = false →
    ∀ q ∈ [(Instr.add d a b, 2), (.sub d a b, 2), (.mul d a b, 2), (.mulh d a b, 2), (.mulhu d a b, 2), (.div d a b, 2),
        (.divu d a b, 2), (.rem d a b, 2), (.remu d a b, 2), (.and d a b, 2), (.or d a b, 2), (.xor d a b, 2), (.shl d a b, 2),
        (.shr d a b, 2), (.sra d a b, 2), (.min d a b, 2), (.max d a b, 2), (.minu d a b, 2), (.maxu d a b, 2), (.slt d a b, 2),
        (.sltu d a b, 2), (.seq d a b, 2), (.clz d a, 2), (.popc d a, 2), (.mov d a, 2), (.sel d a b c, 2), (.addsh d a b n, 2),
        (.addi d a i15, 2), (.andi d a i15, 2), (.ori d a i15, 2), (.xori d a i15, 2), (.shlImm d a n, 2), (.shrImm d a n, 2),
        (.sraImm d a n, 2), (.li d i19, 2), (.lih d h i16, 2), (.bfx d a n p, 2), (.bfi d a n p, 2), (.li64 d i52, 4),
        (.movCompact d a, 1), (.addCompact d a, 1), (.subCompact d a, 1), (.andCompact d a, 1), (.orCompact d a, 1),
        (.xorCompact d a, 1), (.mulCompact d a, 1), (.minCompact d a, 1), (.maxCompact d a, 1), (.minuCompact d a, 1),
        (.maxuCompact d a, 1), (.sltCompact d a, 1), (.sltuCompact d a, 1), (.seqCompact d a, 1), (.clzCompact d a, 1),
        (.popcCompact d a, 1), (.addiCompact d i4, 1), (.liCompact d i4, 1), (.shlCompact d i4, 1), (.shrCompact d i4, 1),
        (.sraCompact d i4, 1)],
      ∃ t, exec q.1 s = .next t ∧ OnlyMe s t ∧ SameBytes s t ∧ SameButX d s.me t.me
        ∧ (t.me.pc, t.me.loops) = endCheck s.me.loops s.me.pc (nextSeq s.me.pc q.2)

/-- The immediate forms (R59), LI64 (R60), with the bound of R28 on BFX and BFI; the compact forms (R26); hint space is NOP (R18). -/
def Obligations.ScalarImmediate : Prop :=
  ∀ (s : State) (d a : XReg) (i4 : BitVec 4) (h8 : BitVec 8) (i15 : BitVec 15) (i19 : BitVec 19) (i52 : BitVec 52) (n l p : BitVec 6)
    (h : BitVec 2) (i16 : BitVec 16),
    let x := s.x a
    let z := s.x d
    Writes s 2 d [
      (.addi d a i15, x + i15.signExtend 64), (.andi d a i15, x &&& i15.setWidth 64), (.ori d a i15, x ||| i15.setWidth 64),
      (.xori d a i15, x ^^^ i15.setWidth 64), (.shlImm d a n, x <<< n.toNat), (.shrImm d a n, x >>> n.toNat),
      (.sraImm d a n, x.sshiftRight n.toNat), (.li d i19, i19.signExtend 64)]
    ∧ (∃ v : Word, Writes s 2 d [(.lih d h i16, v)] ∧
        ∀ i < 64, v.getLsbD i = if 16 * h.toNat ≤ i ∧ i < 16 * h.toNat + 16 then i16.getLsbD (i - 16 * h.toNat) else z.getLsbD i)
    ∧ (p.toNat + (l.toNat + 1) ≤ 64 → ∃ v : Word, Writes s 2 d [(.bfx d a l p, v)] ∧
        ∀ i < 64, v.getLsbD i = (decide (i < l.toNat + 1) && x.getLsbD (p.toNat + i)))
    ∧ (p.toNat + (l.toNat + 1) ≤ 64 → ∃ v : Word, Writes s 2 d [(.bfi d a l p, v)] ∧
        ∀ i < 64, v.getLsbD i =
          if p.toNat ≤ i ∧ i < p.toNat + (l.toNat + 1) then x.getLsbD (i - p.toNat) else z.getLsbD i)
    ∧ Writes s 4 d [(.li64 d i52, i52.signExtend 64)]
    ∧ Writes s 1 d [
      (.movCompact d a, x), (.addCompact d a, z + x), (.subCompact d a, z - x), (.andCompact d a, z &&& x),
      (.orCompact d a, z ||| x), (.xorCompact d a, z ^^^ x), (.mulCompact d a, z * x),
      (.minCompact d a, if z.toInt < x.toInt then z else x), (.maxCompact d a, if z.toInt < x.toInt then x else z),
      (.minuCompact d a, if z.toNat < x.toNat then z else x), (.maxuCompact d a, if z.toNat < x.toNat then x else z),
      (.sltCompact d a, if z.toInt < x.toInt then 1 else 0), (.sltuCompact d a, if z.toNat < x.toNat then 1 else 0),
      (.seqCompact d a, if z = x then 1 else 0),
      (.clzCompact d a, BitVec.ofNat 64 (if x = 0 then 64 else 63 - Nat.log2 x.toNat)),
      (.popcCompact d a, BitVec.ofNat 64 ((List.range 64).countP fun i => x.getLsbD i)),
      (.addiCompact d i4, z + i4.signExtend 64), (.liCompact d i4, i4.signExtend 64), (.shlCompact d i4, z <<< i4.toNat),
      (.shrCompact d i4, z >>> i4.toNat), (.sraCompact d i4, z.sshiftRight i4.toNat)]
    ∧ exec .nop s = .next (s.retire 1) ∧ exec (.hint h8) s = .next (s.retire 1)

/-- Branches and jumps (R85), with the conditions of R31. -/
def Obligations.BranchesAndJumps : Prop :=
  ∀ (s : State) (a b r : XReg) (d6 : BitVec 6) (d10 : BitVec 10) (d12 : BitVec 12) (d16 : BitVec 16) (d20 : BitVec 20)
    (d24 : BitVec 24),
    let dest : Int → Word := fun d => s.me.pc + BitVec.ofInt 64 (2 * d)
    let x := s.x a
    let y := s.x b
    (∀ q ∈ [((0 : BitVec 4), decide (x = y)), (1, decide (x ≠ y)), (2, decide (x.toInt < y.toInt)), (3, decide (y.toInt ≤ x.toInt)),
        (4, decide (x.toNat < y.toNat)), (5, decide (y.toNat ≤ x.toNat))],
      exec (.bCc q.1 a b d12) s = .next (if q.2 then s.retireTo (dest d12.toInt) true else s.retire 2))
    ∧ exec (.bz a d16) s = .next (if x = 0 then s.retireTo (dest d16.toInt) true else s.retire 2)
    ∧ exec (.bnz a d16) s = .next (if x ≠ 0 then s.retireTo (dest d16.toInt) true else s.retire 2)
    ∧ exec (.bzCompact a d6) s = .next (if x = 0 then s.retireTo (dest d6.toInt) true else s.retire 1)
    ∧ exec (.bnzCompact a d6) s = .next (if x ≠ 0 then s.retireTo (dest d6.toInt) true else s.retire 1)
    ∧ exec (.j d24) s = .next (s.retireTo (dest d24.toInt) true)
    ∧ exec (.jCompact d10) s = .next (s.retireTo (dest d10.toInt) true)
    ∧ exec (.jal r d20) s = .next ((s.setX r (nextSeq s.me.pc 2)).retireTo (dest d20.toInt) true)
    ∧ exec (.jr a) s = .next (s.retireTo x true)
    ∧ exec (.jrCompact a) s = .next (s.retireTo x true)

/-- The frame of the transfers (R17, R85). -/
def Obligations.BranchFrame : Prop :=
  ∀ (s : State) (c : BitVec 4) (a b r : XReg) (d6 : BitVec 6) (d10 : BitVec 10) (d12 : BitVec 12) (d16 : BitVec 16)
    (d20 : BitVec 20) (d24 : BitVec 24), s.me.stepArm = false →
    (∀ i ∈ [Instr.bCc c a b d12, .bz a d16, .bnz a d16, .bzCompact a d6, .bnzCompact a d6, .j d24, .jCompact d10, .jr a,
        .jrCompact a],
      ∃ t, exec i s = .next t ∧ OnlyMe s t ∧ SameBytes s t ∧ SameButFlow s.me t.me)
    ∧ (∃ t, exec (.jal r d20) s = .next t ∧ OnlyMe s t ∧ SameBytes s t ∧ SameButX r s.me t.me ∧ t.x r = nextSeq s.me.pc 2)
    ∧ (∀ (e : Word) (taken : Bool), (∀ l ∈ s.me.loops, l.stop ≠ e) →
        (s.retireTo e taken).me.pc = e ∧ (s.retireTo e taken).me.loops = s.me.loops
          ∧ (s.retireTo e taken).me.arrived = if taken then some s.me.pc else none)

/-- R15: sequential flow passes over the header of the next line. -/
def Obligations.SequentialFlow : Prop :=
  ∀ (pc : Word) (len : Nat), (len = 1 ∨ len = 2 ∨ len = 4) → pc.toNat % 2 = 0 → 16 ≤ pc.toNat % 128 →
    pc.toNat % 128 + 2 * len ≤ 128 →
    (pc.toNat % 128 + 2 * len < 128 → nextSeq pc len = pc + BitVec.ofNat 64 (2 * len))
    ∧ (pc.toNat % 128 + 2 * len = 128 → nextSeq pc len = pc + BitVec.ofNat 64 (2 * len + 16))
    ∧ (nextSeq pc len).toNat % 2 = 0 ∧ 16 ≤ (nextSeq pc len).toNat % 128

/-- LOOP and LOOPI (R82), BREAKL (R84). -/
def Obligations.LoopStart : Prop :=
  ∀ (s : State) (a : XReg) (e n12 : BitVec 12) (i : Instr) (n : Word),
    (i, n) ∈ [(Instr.loop a e, s.x a), (.loopi n12 e, n12.setWidth 64)] →
    let start := nextSeq s.me.pc 2
    let stop := s.me.pc + BitVec.ofNat 64 (2 * e.toNat)
    let crosses := ∃ t r, s.me.loops = t :: r ∧ t.start ≤ s.me.pc ∧ s.me.pc < t.stop ∧ t.stop < stop
    (n = 0 → exec i s = .next (s.retireTo stop false))
    ∧ (n ≠ 0 → s.me.loops.length = 4 → Traps i s 0x10 0)
    ∧ (n ≠ 0 → s.me.loops.length ≠ 4 → crosses → Traps i s 0x04 0)
    ∧ (n ≠ 0 → s.me.loops.length ≠ 4 → ¬ crosses →
        exec i s = .next ((s.setMe { s.me with loops := ⟨start, stop, n⟩ :: s.me.loops }).retireTo start false))
    ∧ (s.me.loops = [] → Traps .breakl s 0x04 0)
    ∧ (∀ t r, s.me.loops = t :: r → exec .breakl s = .next ((s.setMe { s.me with loops := r }).retireTo t.stop false))

/-- The end check of R83, on a stack of any depth. -/
def Obligations.LoopEnd : Prop :=
  ∀ (s : State) (a : Word) (taken : Bool), s.me.stepArm = false →
    let u := (s.retireTo a taken).me
    (s.me.loops = [] → u.pc = a ∧ u.loops = [])
    ∧ ∀ (t : LoopEntry) (r : List LoopEntry), s.me.loops = t :: r →
        let inside := t.start ≤ s.me.pc ∧ s.me.pc < t.stop
        let v := ((s.setMe { s.me with loops := r }).retireTo a taken).me
        (a = t.stop → inside → t.count ≠ 1 → u.pc = t.start ∧ u.loops = { t with count := t.count - 1 } :: r)
        ∧ (a = t.stop → inside → t.count = 1 → u.pc = v.pc ∧ u.loops = v.loops)
        ∧ (a ≠ t.stop ∨ ¬ inside → u.pc = a ∧ u.loops = t :: r)

/-- CRD (R61) of every register of R45, with the privileges of R45 and the wait of R50; YIELD (R94) and GETID (R96). -/
def Obligations.ControlRegisterRead : Prop :=
  (∀ (s : State) (d : XReg) (r : BitVec 12) (v : Word) (user waits : Bool),
    let g := s.cur.1
    (r, v, user, waits) ∈ [
      ((0x000 : BitVec 12), s.me.fpflags.setWidth 64, true, true), (0x001, s.me.rnd.setWidth 64, true, true),
      (0x002, s.me.rng.setWidth 64, true, true), (0x003, s.me.vt, true, false),
      (0x008, s.me.mbox[0], true, false), (0x009, s.me.mbox[1], true, false), (0x00A, s.me.mbox[2], true, false),
      (0x00B, s.me.mbox[3], true, false), (0x00C, s.me.mbox[4], true, false), (0x00D, s.me.mbox[5], true, false),
      (0x00E, s.me.mbox[6], true, false), (0x00F, s.me.mbox[7], true, false),
      (0x010, s.me.cause.setWidth 64, true, false), (0x011, s.me.tseq.setWidth 64, true, false),
      (0x100, BitVec.ofNat 64 (s.cycle g), true, false), (0x101, (s.work g).olcnt.setWidth 64, true, false),
      (0x102, (s.work g).olbase.setWidth 64, true, false), (0x103, (s.core g).errlog, false, false),
      (0x200, (s.work g).trapvec, false, false), (0x201, (s.work g).pswap.setWidth 64, false, false),
      (0x202, (if s.holds (s.tag g) g then (s.part (s.tag g)).floor else 0).setWidth 64, false, false), (0x300, 0x0000002020404020, true, false)] →
    (user = true ∨ s.me.sup = true) → (waits = true → s.me.vectorsDone = true) →
    exec (.crd d r) s = .next (writeX s 2 d v))
  ∧ ∀ (s : State) (d : XReg),
      let g := s.cur.1
      let yields := s.setMe { s.me with age := s.cycle g, bump := 0, watch := 0, since := s.cycle g }
      exec .yield s = .next (yields.retire 2) ∧ exec .yieldCompact s = .next (yields.retire 1)
      ∧ Writes s 2 d [(.getid d 0, BitVec.ofNat 64 (s.logicalOf g)), (.getid d 1, BitVec.ofNat 64 s.cur.2),
          (.getid d 4, BitVec.ofNat 64 (g % 2560 % 320 / 16)), (.getid d 5, BitVec.ofNat 64 (g % 2560 / 320)),
          (.getid d 6, BitVec.ofNat 64 (g / 2560)), (.getid d 7, BitVec.ofNat 64 (s.tag g))]
      ∧ (∀ id k q, s.me.role = .strand id k → Tab.find (s.work g).crews id = some q →
          Writes s 2 d [(.getid d 2, q.index), (.getid d 3, BitVec.ofNat 64 k), (.getid d 8, BitVec.ofNat 64 q.grid.id)])
      ∧ ((∀ id k, s.me.role ≠ .strand id k) →
          Writes s 2 d [(.getid d 2, BitVec.allOnes 64), (.getid d 3, BitVec.allOnes 64), (.getid d 8, BitVec.allOnes 64)])

/-- CWR of every writable register of R45, with the field maps of R47 and R52, and the privileges of R45 and R46. -/
def Obligations.ControlRegisterWrite : Prop :=
  ∀ (s : State) (a d : XReg), s.speculative s.cur.1 s.cur.2 = false →
    let v := s.x a
    let g := s.cur.1
    let w := s.work g
    let writes := fun (r : BitVec 12) (t : State) => exec (.cwr a r) s = .next (t.retire 2)
    (s.me.vectorsDone = true →
      writes 0x000 (s.setMe { s.me with fpflags := v.setWidth 14 &&& 0x3F3F })
      ∧ (field v 0 3 < 5 → writes 0x001 (s.setMe { s.me with rnd := v.setWidth 3 }))
      ∧ (field v 0 32 ≠ 0 → writes 0x002 (s.setMe { s.me with rng := v.setWidth 32 })))
    ∧ (∀ q ∈ [((0x008 : BitVec 12), 0), (0x009, 1), (0x00A, 2), (0x00B, 3), (0x00C, 4), (0x00D, 5), (0x00E, 6), (0x00F, 7)],
        writes q.1 (s.setMe { s.me with mbox := s.me.mbox.setIfInBounds q.2 v }))
    ∧ writes 0x101 (s.setWork g { w with olcnt := v.setWidth 32 })
    ∧ (v.toNat % 16 = 0 → writes 0x102 (s.setWork g { w with olbase := v.setWidth 19 }))
    ∧ (s.me.sup = true →
      let u := s.ctx g s.trapTarget
      writes 0x010 (s.setCtx g s.trapTarget { u with cause := v.setWidth 9 })
      ∧ writes 0x011 (s.setCtx g s.trapTarget { u with tseq := v.setWidth 8 })
      ∧ writes 0x103 (if v.getLsbD 0 then s.setCore g { s.core g with errlog := (s.core g).errlog &&& ~~~3 } else s)
      ∧ (v.toNat % 128 = 0 → writes 0x200 (s.setWork g { w with trapvec := v }))
      ∧ (field v 0 5 ≤ 16 → writes 0x201 (s.setWork g { w with pswap := v.setWidth 32 &&& 0xFFFFFF1F })))
    ∧ (5 ≤ field v 0 3 → Traps (.cwr a 0x001) s 0x04 0) ∧ (field v 0 32 = 0 → Traps (.cwr a 0x002) s 0x04 0)
    ∧ (field v 0 4 ≠ 0 → Traps (.cwr a 0x102) s 0x04 0)
    ∧ (s.me.sup = true → 16 < field v 0 5 → Traps (.cwr a 0x201) s 0x04 0)
    ∧ (s.me.sup = true → v.toNat % 128 ≠ 0 → Traps (.cwr a 0x200) s 0x04 0)
    ∧ (s.me.sup = false →
        (∀ r ∈ [(0x010 : BitVec 12), 0x011, 0x103, 0x200, 0x201], Traps (.cwr a r) s 0x05 0)
        ∧ ∀ r ∈ [(0x103 : BitVec 12), 0x200, 0x201, 0x202], Traps (.crd d r) s 0x05 0)

/-- LDL and STL (R147), with the checks of R141, R143 and R208, the order of R240 and poison (R363). That an address which is misaligned and also refused sets both bits in the mask is a reading of the model (log entry 17, DEDUCED). -/
def Obligations.LocalLoadStore : Prop :=
  ∀ (s : State) (z : BitVec 2) (d a : XReg) (sg : BitVec 1) (o : BitVec 13) (o4 : BitVec 4),
    let size := 2 ^ z.toNat
    let va := s.x a + o.signExtend 64
    let vc := s.x a + BitVec.ofNat 64 (8 * o4.toNat)
    let bytes := fun (h off n : Nat) => natOfBytes ((s.work h).spad.bytes off n)
    (∀ h off, Plain s → LocalAt s va size false h off → (s.work h).poisonedAt off size = false →
      exec (.ldl z d a sg o) s = .next (writeX s 2 d
        (if sg = 1 then BitVec.ofInt 64 (toSigned (8 * size) (bytes h off size)) else BitVec.ofNat 64 (bytes h off size))))
    ∧ (∀ h off, Plain s → LocalAt s vc 8 false h off → (s.work h).poisonedAt off 8 = false →
      exec (.ldlDCompact o4 d a) s = .next (writeX s 1 d (BitVec.ofNat 64 (bytes h off 8))))
    ∧ (∀ h off, LocalAt s va size false h off → (s.work h).poisonedAt off size = true →
      exec (.ldl z d a sg o) s = .next (s.terminate s.cur.1 s.cur.2 1 va))
    ∧ (∀ h off, Plain s → LocalAt s va size true h off →
      exec (.stl z d a o) s = .next ((s.localStore h off (bytesOfNat size (s.x d).toNat)).retire 2))
    ∧ (∀ h off, s.clashes s.cur.1 s.cur.2 [(h, off, size)] = true →
      (LocalOk s va size false h off → Holds (.ldl z d a sg o) s (.blocked .drain))
      ∧ (LocalOk s va size true h off → Holds (.stl z d a o) s (.blocked .drain)))
    ∧ (∀ (write : Bool) (i : Instr), i = (if write then .stl z d a o else .ldl z d a sg o) →
        let bad := (va.toNat % size ≠ 0, ∀ h off, s.localTarget s.cur.1 va = some (h, off) →
          regionOk s.me.sup (s.work h).power off write = false)
        let w := s.watchHit s.cur.1 s.cur.2 va.toNat size (if write then 4 else 2)
        (bad.1 ∧ ¬ bad.2 → TrapsOn i s [0x06] w va) ∧ (¬ bad.1 ∧ bad.2 → TrapsOn i s [0x07] w va)
        ∧ (bad.1 ∧ bad.2 → TrapsOn i s [0x06, 0x07] w va)
        ∧ ∀ n, w = some n → ¬ bad.1 → ¬ bad.2 → TrapsOn i s [] w va)

/-- The frame of STL (R147). -/
def Obligations.LocalStoreFrame : Prop :=
  ∀ (s : State) (z : BitVec 2) (d a : XReg) (o : BitVec 13) (h off : Nat),
    let size := 2 ^ z.toNat
    Plain s → SpadsOk s → s.me.stepArm = false → LocalAt s (s.x a + o.signExtend 64) size true h off →
    ∃ t, exec (.stl z d a o) s = .next t ∧ SameButFlow s.me t.me ∧ (∀ b, t.mem.get b = s.mem.get b)
      ∧ (∀ i < size, (t.work h).spad.get (off + i) = BitVec.ofNat 8 ((s.x d).toNat / 256 ^ i))
      ∧ (∀ g b, (g ≠ h ∨ b < off ∨ off + size ≤ b) → (t.work g).spad.get b = (s.work g).spad.get b)

/-- VLDL and VGATHL (R148), lane by lane under the mask of R124. -/
def Obligations.VectorLocalLoad : Prop :=
  ∀ (s : State) (d : BitVec 5) (a b : BitVec 6) (p : BitVec 3) (core off : Nat → Nat),
    let act := s.me.pred p
    Plain s → s.me.stepArm = false → d.toNat < 22 →
    ∀ q ∈ [(Instr.vldl d a p, fun i => linearAddr a s.me s.me.x i), (.vgathl d a b p, fun i => indexedAddr a b s.me s.me.x i)],
      (∀ i < 64, act.getLsbD i = true → LocalAt s (q.2 i) 4 false (core i) (off i)
        ∧ (s.work (core i)).poisonedAt (off i) 4 = false) →
      ∃ t, exec q.1 s = .next t ∧ SameBytes s t ∧ OnlyMe s t ∧ SameButV d.toNat s.me t.me
        ∧ ∀ i < 64, lane (t.me.vreg d.toNat) i =
            if act.getLsbD i then BitVec.ofNat 32 (natOfBytes ((s.work (core i)).spad.bytes (off i) 4))
            else lane (s.me.vreg d.toNat) i

/-- VSTL and VSCATL (R148). -/
def Obligations.VectorLocalStore : Prop :=
  ∀ (s : State) (d : BitVec 5) (a b : BitVec 6) (p : BitVec 3) (core off : Nat → Nat),
    let act := s.me.pred p
    Plain s → SpadsOk s → s.me.stepArm = false →
    ∀ q ∈ [(Instr.vstl d a p, fun i => linearAddr a s.me s.me.x i), (.vscatl d a b p, fun i => indexedAddr a b s.me s.me.x i)],
      (∀ i < 64, act.getLsbD i = true → LocalAt s (q.2 i) 4 true (core i) (off i)) →
      ∃ t, exec q.1 s = .next t ∧ (∀ x, t.mem.get x = s.mem.get x) ∧ (∀ n, t.me.vreg n = s.me.vreg n) ∧ t.me.x = s.me.x
        ∧ (∀ i < 64, act.getLsbD i = true → (∀ j < 64, i < j → act.getLsbD j = true → core i ≠ core j ∨ off i ≠ off j) →
            (t.work (core i)).spad.bytes (off i) 4 = bytesOfNat 4 (lane (s.me.vreg d.toNat) i).toNat)
        ∧ ∀ g x, (∀ i < 64, act.getLsbD i = true → core i ≠ g ∨ x < off i ∨ off i + 4 ≤ x) →
            (t.work g).spad.get x = (s.work g).spad.get x

/-- The barrier instructions (R152) on the object of R150, the phases of that object (R150, R151), the release of BARRIVE (R153, R235), the order of R240 and poison (R363). -/
def Obligations.BarrierObjects : Prop :=
  (∀ (s : State) (a b d : XReg) (off : Nat),
    let g := s.cur.1
    let y := s.x b
    let n : BitVec 16 := y.setWidth 16
    let o := readBar (s.work g).spad off
    let put := fun (o : BarObj) => Host.Outcome.next ((s.localStore g off o.bytes).retire 2)
    let clean := (s.work g).poisonedAt off 16 = false
    let ends := Host.Outcome.next (s.terminate g s.cur.2 1 (s.x a))
    Plain s →
    (BarAt s (s.x a) true off → n ≠ 0 → y.toNat < 2 ^ 17 → exec (.binit a b) s = put ⟨0, n, n, false, y.getLsbD 16, 0⟩)
    ∧ (BarAt s (s.x a) true off → ¬ clean → exec (.barrive a) s = ends ∧ (y.toNat < 2 ^ 31 → exec (.bexpect a b) s = ends))
    ∧ (BarAt s (s.x a) false off → ¬ clean → y.toNat < 2 ^ 16 → exec (.bwait a b) s = ends ∧ exec (.btest a b d) s = ends)
    ∧ (BarAt s (s.x a) true off → clean →
      (y.toNat < 2 ^ 31 → o.tx + y.toNat < 2 ^ 31 → exec (.bexpect a b) s = put { o with tx := o.tx + y.toNat }.check)
      ∧ (y.toNat < 2 ^ 31 → 2 ^ 31 ≤ o.tx + y.toNat → Traps (.bexpect a b) s 0x0B (s.x a))
      ∧ (o.pending ≠ 0 → s.me.drained = true → exec (.barrive a) s = put { o with pending := o.pending - 1 }.check)
      ∧ (o.pending ≠ 0 → s.me.drained = false → Holds (.barrive a) s (.blocked .drain))
      ∧ (o.pending = 0 → Traps (.barrive a) s 0x0B (s.x a)))
    ∧ (BarAt s (s.x a) false off → clean → y.toNat < 2 ^ 16 →
      (o.phaseDone n = true → exec (.bwait a b) s = .next (s.retire 2))
      ∧ (o.phaseDone n = false → Holds (.bwait a b) s (.waiting (.phase off n)))
      ∧ exec (.btest a b d) s = .next (writeX s 2 d
          (pack [(0, bitOf (o.phaseDone n)), (1, bitOf o.ov), (16, o.count.toNat), (32, ofSigned 32 o.tx)]))))
  ∧ (∀ o : BarObj, (o.pending = 0 ∧ o.tx = 0 → o.check = { o with count := o.count + 1, pending := o.init })
      ∧ (¬ (o.pending = 0 ∧ o.tx = 0) → o.check = o))
    ∧ (∀ (o : BarObj) (n : Nat), 0 < o.tx → o.tx < n → o.pending = 0 →
        o.credit n = ({ o with count := o.count + 1, pending := o.init, ov := true, tx := o.tx - n }, true))
    ∧ (∀ (o : BarObj) (n : Nat), o.tx = n → o.pending = 0 →
        o.credit n = ({ o with count := o.count + 1, pending := o.init, tx := 0 }, false))
    ∧ (∀ (o : BarObj) (n : Nat), ¬ (o.pending = 0 ∧ 0 < o.tx ∧ o.tx < n) → ¬ (o.pending = 0 ∧ o.tx = n) → -(2 ^ 31) ≤ o.tx - n →
        o.credit n = ({ o with tx := o.tx - n }, false))
    ∧ (∀ (o : BarObj) (n : Nat), o.tx - n < -(2 ^ 31) → ¬ (0 < o.tx ∧ o.pending = 0) →
        o.credit n = ({ o with tx := -(2 ^ 31), ov := true }, false))
    ∧ (∀ o : BarObj, o.phaseDone o.count = false ∧ o.phaseDone (o.count - 1) = true
        ∧ { o with count := o.count + 1 }.phaseDone o.count = true)

/-- LDG and STG (R229), the AMOs (R232), the store-acknowledge counter (R233), the request queue (R195); the checks of R208 and R227. -/
def Obligations.GlobalRequests : Prop :=
  ∀ (s t : State) (z : BitVec 2) (d a b c : XReg) (sg : BitVec 1) (o : BitVec 13) (pa : Nat),
    let size := 2 ^ z.toNat
    let va := s.x a + o.signExtend 64
    let room := s.requestRoom s.cur.1 = true
    (Plain t → GlobalAt s va .read size false t pa → room →
      let u := t.send1 (newRequest t pa (.load size (sg == 1)) (some d))
      exec (.ldg z d a sg o) s = .next ((u.setMe (u.me.owe t.nextId [d])).retire 2))
    ∧ (Plain s → GlobalAt s va .write size false t pa → room →
      let u := t.fresh.setMe { t.me with acks := t.me.acks ++ [t.nextId] }
      exec (.stg z d a o) s = .next ((u.enqueue t.cur.1
        ⟨.mem [newRequest t pa (.store (bytesOfNat size (s.x d).toNat)) none], t.cur.2, []⟩).retire 2))
    ∧ (GlobalAt s va .read size false t pa → ¬ room → Holds (.ldg z d a sg o) s (.blocked .sendQueue))
    ∧ (Plain s → GlobalAt s va .write size false t pa → ¬ room → Holds (.stg z d a o) s (.blocked .sendQueue))
    ∧ (∀ e, GlobalStops s va .read size false t e → exec (.ldg z d a sg o) s = .next (t.stop e))
    ∧ (∀ e, Plain s → GlobalStops s va .write size false t e → exec (.stg z d a o) s = .next (t.stop e))
    ∧ (∀ (k : Access) (n : Nat) (f : Bool), va.toNat % n ≠ 0 → ∃ u cs w, GlobalStops s va k n f u (.fail (0x06 :: cs) w va))
    ∧ (s.speculative s.cur.1 s.cur.2 = false →
        ∀ q ∈ [(Instr.amoAdd z d a b, (0 : BitVec 4), amoBytes z), (.amoMin z d a b, 1, amoBytes z), (.amoMax z d a b, 2, amoBytes z),
          (.amoAnd z d a b, 3, amoBytes z), (.amoOr z d a b, 4, amoBytes z), (.amoXor z d a b, 5, amoBytes z),
          (.amoSwap z d a b, 6, amoBytes z), (.amoCas z d a b c, 7, amoBytes z), (.amoFadd d a b, 8, 4)],
        (GlobalAt s (s.x a) .amo q.2.2 (q.2.1 == 8) t pa → room →
          let u := t.send1 (newRequest t pa (.amo q.2.1 q.2.2 (t.amoOperand q.2.2 b) (if q.2.1 = 7 then t.amoOperand q.2.2 c else 0)) (some d))
          exec q.1 s = .next ((u.setMe (u.me.owe t.nextId (if q.2.2 = 16 then [d, d + 1] else [d]))).retire 2))
        ∧ (GlobalAt s (s.x a) .amo q.2.2 (q.2.1 == 8) t pa → ¬ room → Holds q.1 s (.blocked .sendQueue))
        ∧ (∀ e, GlobalStops s (s.x a) .amo q.2.2 (q.2.1 == 8) t e → exec q.1 s = .next (t.stop e)))

/-- An access is performed at its home and not at issue (R228), so issuing it moves no byte. -/
def Obligations.GlobalIssueFrame : Prop :=
  ∀ (s t : State) (z : BitVec 2) (d a b c : XReg) (sg : BitVec 1) (o : BitVec 13) (pa : Nat), s.me.stepArm = false →
    s.requestRoom s.cur.1 = true → Plain s → s.speculative s.cur.1 s.cur.2 = false →
    let va := s.x a + o.signExtend 64
    let frame := fun (i : Instr) => ∃ u, exec i s = .next u ∧ SameBytes s u
      ∧ SameButFlow { s.me with owed := u.me.owed, acks := u.me.acks, amos := u.me.amos } u.me
    (GlobalAt s va .read (2 ^ z.toNat) false t pa → frame (.ldg z d a sg o))
    ∧ (GlobalAt s va .write (2 ^ z.toNat) false t pa → frame (.stg z d a o))
    ∧ (GlobalAt s (s.x a) .amo (amoBytes z) false t pa → ∀ i ∈ [Instr.amoAdd z d a b, .amoMin z d a b, .amoMax z d a b,
        .amoAnd z d a b, .amoOr z d a b, .amoXor z d a b, .amoSwap z d a b, .amoCas z d a b c], frame i)
    ∧ (GlobalAt s (s.x a) .amo 4 true t pa → frame (.amoFadd d a b))

/-- The access at its home (R228, R231, R232), the order of service (R353), ownership (R143, R350; that a failure answers so is the choice of log entry 90, and that an agent which is powered off answers nothing that of log entry 114), poison (R363), the retry reply (R357); the functions of the AMOs (R30, R232). -/
def Obligations.HomeAccess : Prop :=
  (∀ (s : State) (k : Nat) (r : MemReq), Tab.find s.net.reqs k = some r → s.firstToHome k r = true → s.mem.wf = true →
    (s.homeOff r.pa = true → exec (.memoryAccess k) s = .next s)
    ∧ (s.homeOff r.pa = false →
    let turned := s.homeAway r.g r.pa || s.homeBusy r.pa
    (∀ h off, homeOf r.pa = .vault h off → s.poison = [] → s.itsTurn k r = true →
      ∃ t, exec (.memoryAccess k) s = .next t ∧ Tab.find t.net.reqs k = none
        ∧ ((∃ n sg, r.op = .load n sg) ∨ (∃ bs, r.op = .store bs) ∨ (∃ f n b c, r.op = .amo f n b c) ∨ (∃ ps, r.op = .vload ps) →
            ∀ g a, (t.work g).spad.get a = (s.work g).spad.get a)
        ∧ (∀ ps, r.op = .vload ps → ∀ a, t.mem.get a = s.mem.get a)
        ∧ (∀ n sg, r.op = .load n sg → Tab.find t.net.replies k = some ⟨r, s.mem.bytes r.pa n, true, false⟩
            ∧ ∀ a, t.mem.get a = s.mem.get a)
        ∧ (∀ bs, r.op = .store bs → Tab.find t.net.replies k = some ⟨r, [], true, false⟩
            ∧ ∀ a, t.mem.get a = if r.pa ≤ a ∧ a < r.pa + bs.length then bs.getD (a - r.pa) 0 else s.mem.get a)
        ∧ (∀ f n b c, r.op = .amo f n b c →
            Tab.find t.net.replies k = some ⟨r, s.mem.bytes r.pa n, true, false⟩
            ∧ ∀ a, t.mem.get a = if r.pa ≤ a ∧ a < r.pa + n then
                (bytesOfNat n (amoResult f n (natOfBytes (s.mem.bytes r.pa n)) b c)).getD (a - r.pa) 0
              else s.mem.get a))
    ∧ (turned = false → s.itsTurn k r = false → exec (.memoryAccess k) s = .next s)
    ∧ (turned = false → s.itsTurn k r = true → s.reaches (s.tag r.g) r.pa = false →
      ∃ t, exec (.memoryAccess k) s = .next t ∧ SameBytes s t ∧ Tab.find t.net.reqs k = none
        ∧ (∀ n sg, r.op = .load n sg → Tab.find t.net.replies k = some ⟨r, List.replicate n 0, true, true⟩)
        ∧ (∀ bs, r.op = .store bs → Tab.find t.net.replies k = some ⟨r, [], false, false⟩)
        ∧ (∀ f n b c, r.op = .amo f n b c → Tab.find t.net.replies k = some ⟨r, List.replicate n 0, false, false⟩))
    ∧ (turned = true →
      ∃ t, exec (.memoryAccess k) s = .next t ∧ SameBytes s t ∧ Tab.find t.net.reqs k = none
        ∧ Tab.find t.net.retries k = some (s.cycle r.g + 512, .mem [r]))))
  ∧ ∀ (size old b c : Nat), old < 2 ^ (8 * size) → b < 2 ^ (8 * size) →
    let sg := toSigned (8 * size)
    amoResult 0 size old b c = (old + b) % 2 ^ (8 * size)
    ∧ sg (amoResult 1 size old b c) = min (sg old) (sg b) ∧ sg (amoResult 2 size old b c) = max (sg old) (sg b)
    ∧ amoResult 3 size old b c = old &&& b ∧ amoResult 4 size old b c = old ||| b ∧ amoResult 5 size old b c = old ^^^ b
    ∧ amoResult 6 size old b c = b
    ∧ amoResult 7 size old b c = if old = c then b else old

/-- Replies (R229), acknowledgements (R233), windows (R196), poison (R363) and failures (R364); DRAIN (R234) and FENCE (R235). -/
def Obligations.RepliesAndAcknowledgements : Prop :=
  (∀ (s : State) (k : Nat) (a : MemReply), Tab.find s.net.replies k = some a → Unlogged s a.req.g →
    let r := a.req
    let c := s.ctx r.g r.c
    let acked := s.takeReply k a
    let taken := acked.sampled r.g 0 (s.cycle r.g - r.born) 1
    let owed := c.owed.filter fun o => o.1 != r.id
    let amos := c.amos.filter fun i => i != r.id
    (∀ n sg d, r.op = .load n sg → r.dest = some d → r.late = [] → n ≤ 8 → c.owed.contains (r.id, d) = true → a.ok = true →
        a.poison = false →
        exec (.loadReply k) s = .next (taken.setCtx r.g r.c { c with
          x := c.x.set d.toNat (extendTo n sg (natOfBytes a.data)) d.isLt, owed := owed, amos := amos }))
    ∧ (∀ f n b b' d, r.op = .amo f n b b' → r.dest = some d → c.owed.contains (r.id, d) = true → a.ok = true → a.poison = false →
        (n ≤ 8 → exec (.loadReply k) s = .next (taken.setCtx r.g r.c { c with
          x := c.x.set d.toNat (BitVec.ofNat 64 (natOfBytes a.data)) d.isLt, owed := owed, amos := amos }))
        ∧ (n = 16 → c.owed.contains (r.id, d + 1) = true → exec (.loadReply k) s = .next (taken.setCtx r.g r.c { c with
          x := (c.x.set d.toNat (BitVec.ofNat 64 (natOfBytes (a.data.take 8))) d.isLt).set (d + 1).toNat
            (BitVec.ofNat 64 (natOfBytes (a.data.drop 8))) (d + 1).isLt, owed := owed, amos := amos })))
    ∧ (∀ ps e, r.op = .vload ps → (c.ring.find? fun x => x.seq == r.seq && x.pieces.contains r.id) = some e → loadDest e.instr < 22 →
        r.late = [] → (ps.map fun q => q.2).Nodup → (∀ q ∈ ps, q.2 < 64) → a.ok = true → a.poison = false →
        c.amos.contains r.id = false →
        ∃ t, exec (.loadReply k) s = .next t ∧ SameBytes s t ∧ (t.ctx r.g r.c).x = c.x
          ∧ (∀ n, n ≠ loadDest e.instr → (t.ctx r.g r.c).vreg n = c.vreg n)
          ∧ (∀ j, (h : j < ps.length) → lane ((t.ctx r.g r.c).vreg (loadDest e.instr)) ps[j].2
              = BitVec.ofNat 32 (natOfBytes ((a.data.drop (4 * j)).take 4)))
          ∧ (∀ i < 64, i ∉ ps.map (fun q => q.2) →
              lane ((t.ctx r.g r.c).vreg (loadDest e.instr)) i = lane (c.vreg (loadDest e.instr)) i)
          ∧ ∀ x ∈ (t.ctx r.g r.c).ring, x.seq = r.seq → r.id ∉ x.pieces)
    ∧ (∀ n sg d, r.op = .load n sg → r.dest = some d → n ≤ 8 → c.owed.contains (r.id, d) = false → c.amos.contains r.id = true → a.ok = true →
        exec (.loadReply k) s = .next (taken.setCtx r.g r.c { c with owed := owed, amos := amos }))
    ∧ (r.isStore = false → c.awaits r = false → exec (.loadReply k) s = .next taken)
    ∧ (r.isStore = false → c.awaits r = true → a.ok = false →
        exec (.loadReply k) s = .next (taken.terminate r.g r.c 2 (BitVec.ofNat 64 r.pa)))
    ∧ (r.isStore = false → c.awaits r = true → c.amos.contains r.id = false → a.ok = true → a.poison = true →
        exec (.loadReply k) s = .next (taken.terminate r.g r.c 1 (BitVec.ofNat 64 r.pa)))
    ∧ (r.isStore = true → c.acks.contains r.id = true →
        let acked := acked.setCtx r.g r.c (({ c with acks := c.acks.filter fun i => i != r.id } : Ctx).pieceDone r.seq r.id)
        (a.ok = true → exec (.storeAck k) s = .next acked)
        ∧ (a.ok = false → exec (.storeAck k) s = .next (acked.terminate r.g r.c 2 (BitVec.ofNat 64 r.pa))))
    ∧ (r.isStore = true → c.acks.contains r.id = false → exec (.storeAck k) s = .next acked))
  ∧ ∀ (s : State) (k : BitVec 2) (sc : BitVec 3),
      (s.me.acks = [] → exec .drain s = .next (s.retire 2))
      ∧ (s.me.acks ≠ [] → Holds .drain s (.blocked .drain))
      ∧ ((k.getLsbD 1 = true → s.me.drained = true) → (k.getLsbD 0 = true → s.me.loadsDone = true) →
          exec (.fence k sc) s = .next (s.retire 2))
      ∧ (k.getLsbD 1 = true → s.me.drained = false → Holds (.fence k sc) s (.blocked .drain))
      ∧ (s.me.drained = true ↔ s.me.loadsDone = true ∧ s.me.acks = [])
      ∧ (s.me.loadsDone = true ↔ s.me.owed = [] ∧ s.me.amos = [] ∧ ∀ e ∈ s.me.ring, e.unit = 0 → e.st ≠ .running)
      ∧ (k.getLsbD 1 = false → k.getLsbD 0 = true → s.me.loadsDone = false → Holds (.fence k sc) s (.blocked .loads))

/-- The vector global instructions (R230) and their pieces (R231). That the pieces of one instruction take one entry of the send queue is the choice of the model (log entry 106). -/
def Obligations.VectorGlobal : Prop :=
  ∀ (s : State) (d : BitVec 5) (a b : BitVec 6) (p : BitVec 3), Plain s → NextFree s →
    let g := s.cur.1
    let c := s.cur.2
    let act := s.me.pred p
    let none_ : Nat → List (Nat × Byte) := fun _ => []
    ∀ q ∈ [(Instr.vldg d a p, false, 64, linearAddr a s.me s.me.x), (.vgathg d a b p, false, 4, indexedAddr a b s.me s.me.x),
        (.vstg d a p, true, 32, linearAddr a s.me s.me.x), (.vscatg d a b p, true, 4, indexedAddr a b s.me s.me.x)],
      let i := q.1
      let store := q.2.1
      let e := s.me.newEntry i 0
      (s.requestRoom g = false → Holds i s (.blocked .sendQueue))
      ∧ (s.requestRoom g = true → s.me.stepArm = false → ∀ t ps,
          (s.setMe (s.me.push e)).lanesGlobal g c (if store then .write else .read) q.2.2.2 (fun _ => true)
            (activeLanes act) = (t, ps, []) →
          let data := fun n => [(0, bytesOfNat 4 (lane (s.me.vreg d.toNat) n).toNat)]
          let rs := pieceRequests g c e s.me.event (s.cycle g) (if store then some data else none) none_ s.nextId (groupLanes q.2.2.1 ps)
          let ids := rs.map fun r => r.id
          ∃ u, exec i s = .next u ∧ SameBytes s u ∧ u.me.x = s.me.x ∧ u.me.v = s.me.v
            ∧ (u.work g).requests = (if ps = [] then (s.work g).requests else (s.work g).requests ++ [⟨.mem rs, c, []⟩])
            ∧ u.me.acks = (if store then s.me.acks ++ ids else s.me.acks)
            ∧ u.me.ring = s.me.ring ++ [{ e with
                pieces := ids, finished := ids.isEmpty, kept := store, st := if ps = [] then .done else .running }])

/-- The integer instructions (R129), VABS and VNEG (R127), under the mask of R124. -/
def Obligations.VectorInteger : Prop :=
  ∀ (s : State) (d : BitVec 5) (a b : BitVec 6) (p f : BitVec 3), s.me.stepArm = false → d.toNat < 22 →
    let w := fmtWidth f
    ∀ q ∈ [(Instr.viadd d a b p f, f, fun x y => x + y), (.vimul d a b p f, f, fun x y => x * y),
        (.vand d a b p, 5, fun x y => x &&& y), (.vor d a b p, 5, fun x y => x ||| y), (.vxor d a b p, 5, fun x y => x ^^^ y),
        (.vshl d a b p f, f, fun x y => x * 2 ^ (y % w)), (.vshr d a b p f, f, fun x y => x / 2 ^ (y % w)),
        (.vshrA d a b p f, f, fun x y => ofSigned w (toSigned w x / (2 ^ (y % w) : Nat))),
        (.vabs d a p f, f, fun x _ => x % 2 ^ (w - 1)), (.vneg d a p f, f, fun x _ => x ^^^ 2 ^ (w - 1))],
      let fm : Fmt := q.2.1
      let src := fun (r : BitVec 6) i j => elem fm (lane (srcLanes s.me s.me.x r fm) i) j
      ∃ t, exec q.1 s = .next t ∧ OnlyMe s t ∧ SameBytes s t ∧ SameButV d.toNat s.me t.me ∧ t.me.fpflags = s.me.fpflags
        ∧ t.me.rng = s.me.rng
        ∧ ∀ i < 64,
            if (s.me.pred p).getLsbD i then
              ∀ j < elemsPerLane fm, elem fm (lane (t.me.vreg d.toNat) i) j =
                q.2.2 (src a i j) (src b i j) % 2 ^ fmtWidth fm
            else lane (t.me.vreg d.toNat) i = lane (s.me.vreg d.toNat) i

/-- The moves (R131) and packs (R133). -/
def Obligations.VectorMoves : Prop :=
  ∀ (s : State) (d : BitVec 5) (a b l : BitVec 6) (p f : BitVec 3), s.me.stepArm = false → d.toNat < 22 →
    let act := s.me.pred p
    let va := srcLanes s.me s.me.x a 5
    let vb := srcLanes s.me s.me.x b 5
    let w := fmtWidth f
    let fa := fun i j => elem f (lane (srcLanes s.me s.me.x a f) i) j
    let fb := fun i j => elem f (lane (srcLanes s.me s.me.x b f) i) j
    ∀ q ∈ [(Instr.vmov d a p, act, fun i => lane va i), (.vbcast d a l p, act, fun _ => lane va l.toNat),
        (.vperm d a b p, act, fun i => lane va ((lane vb i).toNat % 64)),
        (.vsel d a b p, BitVec.allOnes 64, fun i => if act.getLsbD i then lane va i else lane vb i),
        (.vpack d a b p f, act, fun i => BitVec.ofNat 32
          ((lane (s.me.vreg d.toNat) i).toNat / 2 ^ (2 * w) + fa i 0 * 2 ^ (32 - 2 * w) + fb i 0 * 2 ^ (32 - w))),
        (.vunpack d a l p f, act, fun i =>
          if fmtIsInt f then BitVec.ofInt 32 (toSigned w (fa i l.toNat)) else BitVec.ofNat 32 (fa i l.toNat))],
      ∃ t, exec q.1 s = .next t ∧ OnlyMe s t ∧ SameBytes s t ∧ SameButV d.toNat s.me t.me ∧ t.me.fpflags = s.me.fpflags
        ∧ t.me.rng = s.me.rng
        ∧ ∀ i < 64, lane (t.me.vreg d.toNat) i = if q.2.1.getLsbD i then q.2.2 i else lane (s.me.vreg d.toNat) i

/-- The elementwise FP instructions (R127), rounding (R107), draws (R111), flags (R112). -/
def Obligations.VectorFloat : Prop :=
  ∀ (s : State) (d : BitVec 5) (a b c : BitVec 6) (p f : BitVec 3), s.me.stepArm = false → d.toNat < 22 → NextFree s →
    let m := RMode.ofReg s.me.rnd
    let src := fun (r : BitVec 6) => srcLanes s.me s.me.x r f
    let act := s.me.pred p
    let old := s.me.vreg d.toNat
    let lanes := fun (g : Nat → Nat → Acc → Nat × Acc) => mapLanes act old (fun i acc => laneOf f (g i) acc) ⟨0, s.me.rng⟩
    let fp := fun (n : Nat) (z : VReg) (op : Val → Val → Val → Exact) => lanes fun i j acc =>
      let x := elem f (lane (src a) i) j
      let y := elem f (lane (src b) i) j
      let w := elem f (lane z i) j
      (acc.raise (Flags.when (([x, y, w].take n).any (isSignalling f)) flagNV)).round f m (op (value f x) (value f y) (value f w))
    let pick := fun (max : Bool) => lanes fun i j acc =>
      let o := fMinMax f max (elem f (lane (src a) i) j) (elem f (lane (src b) i) j)
      (o.1 % 2 ^ fmtWidth f, acc.raise o.2)
    let down := m == .rdn
    let does := fun (i : Instr) (r : VReg × Acc) => ∃ t, exec i s = .next t ∧ OnlyMe s t ∧ SameBytes s t
      ∧ SameButV d.toNat s.me t.me ∧ t.me.vreg d.toNat = r.1 ∧ t.me.fpflags = raiseIn s.me.fpflags r.2.flags ∧ t.me.rng = r.2.rng
      ∧ ∃ e, t.me.ring = s.me.ring ++ [e] ∧ e.instr = i ∧ e.finished = true
          ∧ e.cause.toNat = flagCause (raiseIn s.me.fpflags r.2.flags) r.2.flags
          ∧ e.st = (if e.cause = 0 then .done else .faulted)
    does (.vadd d a b p f) (fp 2 old fun x y _ => x.add down y)
    ∧ does (.vsub d a b p f) (fp 2 old fun x y _ => x.add down y.neg)
    ∧ does (.vmul d a b p f) (fp 2 old fun x y _ => x.mul y)
    ∧ does (.vdiv d a b p f) (fp 2 old fun x y _ => x.div y)
    ∧ does (.vfma d a b p f) (fp 3 old fun x y z => Val.fma down x y z)
    ∧ does (.vfms d a b p f) (fp 3 old fun x y z => Val.fma down x y z.neg)
    ∧ does (.vfmaPrefixed d a b c p f) (fp 3 (src c) fun x y z => Val.fma down x y z)
    ∧ does (.vfmsPrefixed d a b c p f) (fp 3 (src c) fun x y z => Val.fma down x y z.neg)
    ∧ does (.vsqrt d a p f) (fp 1 old fun x _ _ => x.sqrt)
    ∧ does (.vmin d a b p f) (pick false) ∧ does (.vmax d a b p f) (pick true)

/-- VCMP (R130), and p0 (R122). -/
def Obligations.VectorCompare : Prop :=
  (∀ (s : State) (d : BitVec 5) (a b : BitVec 6) (p f : BitVec 3), s.me.stepArm = false → (d.setWidth 3 : BitVec 3) ≠ 0 →
    ∀ q ∈ [(Instr.vcmpEq d a b p f, Cmp.eq), (.vcmpNe d a b p f, .ne), (.vcmpLt d a b p f, .lt), (.vcmpLe d a b p f, .le),
        (.vcmpGt d a b p f, .gt), (.vcmpGe d a b p f, .ge)],
      let src := fun (r : BitVec 6) i j => elem f (lane (srcLanes s.me s.me.x r f) i) j
      ∃ t, exec q.1 s = .next t ∧ OnlyMe s t ∧ SameBytes s t ∧ t.me.x = s.me.x ∧ t.me.v = s.me.v
        ∧ (∀ n : BitVec 3, n ≠ d.setWidth 3 → t.me.pred n = s.me.pred n)
        ∧ ∀ i < 64, (t.me.pred (d.setWidth 3)).getLsbD i = true ↔
            (s.me.pred p).getLsbD i = true ∧ ∀ j < elemsPerLane f, (cmpElem f q.2 (src a i j) (src b i j)).1 = true)
    ∧ (∀ (f : Fmt) (x y : Nat), fmtIsInt f = true →
        let sg := toSigned (fmtWidth f)
        (cmpElem f .eq x y).1 = decide (sg x = sg y) ∧ (cmpElem f .ne x y).1 = decide (sg x ≠ sg y)
        ∧ (cmpElem f .lt x y).1 = decide (sg x < sg y) ∧ (cmpElem f .le x y).1 = decide (sg x ≤ sg y)
        ∧ (cmpElem f .gt x y).1 = decide (sg y < sg x) ∧ (cmpElem f .ge x y).1 = decide (sg y ≤ sg x))
    ∧ (∀ (k : Ctx) (w : BitVec 64) (n m : BitVec 3), k.pred 0 = BitVec.allOnes 64 ∧ k.setP 0 w = k
        ∧ (n ≠ 0 → (k.setP n w).pred n = w) ∧ (m ≠ n → (k.setP n w).pred m = k.pred m))

/-- The reductions (R118, R128), VCVT (R132, with the conversions of R113), VTLU (R137; that T[255] is given as it stands, a NaN among them, is the choice of log entry 103), VROPE (R138, R139). -/
def Obligations.VectorReduceConvert : Prop :=
  ∀ (s : State) (d : BitVec 5) (a b : BitVec 6) (r fs p f t3 : BitVec 3), s.me.stepArm = false → d.toNat < 22 → NextFree s →
    let m := RMode.ofReg s.me.rnd
    let act := s.me.pred p
    let old := s.me.vreg d.toNat
    let start : Acc := ⟨0, s.me.rng⟩
    let src := fun (q : BitVec 6) (fm : Fmt) => srcLanes s.me s.me.x q fm
    let ins := fun (unit : Nat) => (List.range 64).map fun i => if act.getLsbD i then (lane (src a 0) i).toNat else unit
    let all := fun (q : List Nat × Acc) => (Vector.replicate 64 (BitVec.ofNat 32 (q.1.headD 0)), q.2)
    let does := fun (i : Instr) (q : VReg × Acc) => ∃ t, exec i s = .next t ∧ OnlyMe s t ∧ SameBytes s t
      ∧ SameButV d.toNat s.me t.me ∧ t.me.vreg d.toNat = q.1 ∧ t.me.fpflags = raiseIn s.me.fpflags q.2.flags ∧ t.me.rng = q.2.rng
    let pairs := (List.range 32).filter fun j => act.getLsbD (2 * j)
    let far := ∃ j ∈ pairs, 2 ^ 24 ≤ (lane (src b 5) (2 * j)).toNat
    does (.vredadd d a p) (all (treeFrom (fun x y c => (c.raise (sigFlag 0 [x, y])).round 0 m ((value 0 x).add (m == .rdn) (value 0 y)))
      6 (ins 0x80000000) start))
    ∧ does (.vredmax d a p) (all (treeFrom (fun x y c => ((fMinMax 0 true x y).1, c.raise (fMinMax 0 true x y).2))
      6 (ins 0xFF800000) start))
    ∧ does (.vcvt d a r fs p f) (mapLanes act old (fun i c =>
        let x := fun j => elem fs (lane (src a fs) i) j
        if fmtWidth f = fmtWidth fs then laneOf f (fun j c => cvtElem fs f (RMode.ofField r s.me.rnd) (x j) c) c
        else let q := cvtElem fs f (RMode.ofField r s.me.rnd) (x 0) c
          (BitVec.ofNat 32 q.1, q.2)) start)
    ∧ (f = 0 → does (.vtlu d a t3 p f) (mapLanes act old (fun i c => laneOf 0 (fun j c =>
        lookup32 (s.work s.cur.1).tables t3.toNat (elem 0 (lane (src a 0) i) j) c) c) start))
    ∧ (f = 1 → does (.vtlu d a t3 p f) (mapLanes act old (fun i c => laneOf 1 (fun j c =>
        let y := lookup32 (s.work s.cur.1).tables t3.toNat (elem 1 (lane (src a 1) i) j * 2 ^ 16) c
        y.2.round 1 .rne (value 0 y.1, 0)) c) start))
    ∧ (¬ far → let q := ropePairs (src a 0) (src b 5) pairs start
        does (.vrope d a b p) (vregOf ((List.range 64).map fun i => match q.1.find? fun e => e.1 == i with
          | some e => e.2
          | none => lane old i), q.2))
    ∧ (far → ∃ t, exec (.vrope d a b p) s = .next t ∧ OnlyMe s t ∧ SameBytes s t ∧ t.me.v = s.me.v ∧ t.me.fpflags = s.me.fpflags
        ∧ t.me.ring = s.me.ring ++ [{ s.me.newEntry (.vrope d a b p) 0 with st := .faulted, cause := 0x0E }])
    ∧ (∀ (fs fm : Fmt) (rm : RMode) (x : Nat) (c : Acc), x < 2 ^ fmtWidth fs →
        let q := cvtElem fs fm rm x c
        (fmtIsInt fs = true → fmtIsInt fm = true → q.2.flags = c.flags
          ∧ toSigned (fmtWidth fm) q.1 = max (-(2 ^ (fmtWidth fm - 1))) (min (2 ^ (fmtWidth fm - 1) - 1) (toSigned (fmtWidth fs) x)))
        ∧ (fmtIsInt fs = false → fs = fm → q.1 = (if isNaN fs x then canonNaN fs else x)
          ∧ q.2.flags = c.flags ||| Flags.when (isSignalling fs x) flagNV)
        ∧ (fmtIsInt fs = false → fmtIsInt fm = true → isNaN fs x = true → q.1 = 0 ∧ q.2.flags = c.flags ||| flagNV))
    ∧ (∀ (tm : Memory) (t x : Nat) (c : Acc),
        let entry := fun (i : Nat) => natOfBytes (tm.bytes (tableAt t + 16 + 4 * i) 4)
        let base := natOfBytes (tm.bytes (tableAt t) 4)
        let step : Int := toSigned 8 (tm.get (tableAt t + 4)).toNat
        let u := (c.raise (Flags.when (isSignalling 0 base) flagNV)).round 0 .rne ((value 0 x).add false (value 0 base).neg)
        let v := u.2.round 0 .rne ((value 0 u.1).mul (Val.dyadic false 1 (-step)))
        let at_ := fun (n d : Nat) =>
          let lo := entry (n / d)
          let hi := entry (n / d + 1)
          let dl := (v.2.raise (Flags.when ([lo, hi].any (isSignalling 0)) flagNV)).round 0 .rne ((value 0 hi).add false (value 0 lo).neg)
          dl.2.round 0 .rne (Val.fma false (.num false (n % d) d) (value 0 dl.1) (value 0 lo))
        (isNaN 0 x = true → lookup32 tm t x c = (canonNaN 0, c.raise (Flags.when (isSignalling 0 x) flagNV)))
        ∧ (isNaN 0 x = false →
          (value 0 v.1 = .nan → lookup32 tm t x c = (canonNaN 0, v.2))
          ∧ (value 0 v.1 = .inf false → lookup32 tm t x c = (entry 255, v.2))
          ∧ (value 0 v.1 = .inf true → lookup32 tm t x c = at_ 0 1)
          ∧ (∀ n d, value 0 v.1 = .num true n d → lookup32 tm t x c = at_ 0 1)
          ∧ (∀ n d, value 0 v.1 = .num false n d → lookup32 tm t x c = if 255 * d ≤ n then (entry 255, v.2) else at_ n d)))
    ∧ (∀ (va vb : VReg) (j : Nat) (rest : List Nat) (c : Acc),
        let x := (lane va (2 * j)).toNat
        let y := (lane va (2 * j + 1)).toNat
        let th := (lane vb (2 * j)).toNat * ropeFreq.getD j 0 % 2 ^ 48
        let interp := fun (n : Nat) (c : Acc) =>
          let dl := c.round 0 .rne ((value 0 (sineEntry (n + 1))).add false (value 0 (sineEntry n)).neg)
          dl.2.round 0 .rne (Val.fma false (.num false (th / 2 ^ 14 % 2 ^ 24) (2 ^ 24)) (value 0 dl.1) (value 0 (sineEntry n)))
        let sn := interp (th / 2 ^ 38) (c.raise (Flags.when ([x, y].any (isSignalling 0)) flagNV))
        let cs := interp (th / 2 ^ 38 + 256) sn.2
        let sum := fun (u w : Val) (c : Acc) =>
          let g := (value 0 x).mul u
          let h := (value 0 y).mul w
          c.round 0 .rne ((g.1.add false h.1).1, g.2 ||| h.2 ||| (g.1.add false h.1).2)
        let r0 := sum (value 0 cs.1) (value 0 sn.1).neg cs.2
        let r1 := sum (value 0 sn.1) (value 0 cs.1) r0.2
        let more := ropePairs va vb rest r1.2
        ropePairs va vb [] c = ([], c)
        ∧ ropePairs va vb (j :: rest) c = ((2 * j, BitVec.ofNat 32 r0.1) :: (2 * j + 1, BitVec.ofNat 32 r1.1) :: more.1, more.2))

/-- VCVTN (R115 to R117, R134) and its counter form (R135); one record at a time (R54, R140). That the counter form asks its counter only where there is an outlier is the choice of log entry 87, and which record stores meet a watchpoint when that of log entry 13 (R217). -/
def Obligations.Narrowing : Prop :=
  (∀ (s : State) (d : BitVec 5) (a b : BitVec 6) (p f : BitVec 3) (n : BitVec 12), s.me.stepArm = false → d.toNat < 22 →
    s.speculative s.cur.1 s.cur.2 = false → NextFree s →
    let act := s.me.pred p
    let va := srcLanes s.me s.me.x a 0
    let vb := srcLanes s.me s.me.x b 0
    let q := narrowLanes f va vb (activeLanes act)
    let recs := q.2.1.map (outlierRecord s.me.x[0] va)
    (∀ n' w, s.recordWatched s.cur.1 s.cur.2 q.2.1.length = some (n', w) →
      ∃ t, exec (.vcvtn d a b p f) s = .next t ∧ SameBytes s t ∧ t.me.v = s.me.v ∧ t.me.fpflags = s.me.fpflags
        ∧ t.me.ring = s.me.ring ++ [{ s.me.newEntry (.vcvtn d a b p f) 0 with
            st := .faulted, cause := 0x08, fault := w, comparator := some n' }])
    ∧ ∀ i ∈ [Instr.vcvtn d a b p f, .vcvtnCounter d a b p f n],
      (i = .vcvtn d a b p f → s.recordWatched s.cur.1 s.cur.2 q.2.1.length = none) →
      ∃ t, exec i s = .next t ∧ OnlyMe s t ∧ SameBytes s t ∧ SameButV d.toNat s.me t.me
        ∧ (∀ j < 64, lane (t.me.vreg d.toNat) j =
            if act.getLsbD j then BitVec.ofNat 32 (narrowScaled (lane va j).toNat (lane vb j).toNat f).1 else lane (s.me.vreg d.toNat) j)
        ∧ t.me.fpflags = raiseIn s.me.fpflags q.2.2
        ∧ (recs ≠ [] → t.me.ring = s.me.ring ++ [{ s.me.newEntry i 0 with records := recs, raised := q.2.2 }])
        ∧ (recs = [] → ∃ u, t.me.ring = s.me.ring ++ [u] ∧ u.records = [] ∧ u.finished = true
            ∧ u.st = if flagCause t.me.fpflags q.2.2 = 0 then .done else .faulted))
  ∧ (∀ (s : State) (g c : Nat) (seq : Byte) (e : RingEntry) (r : List Byte) (rest : List (List Byte)),
      (s.ctx g c).ring.find? (fun x => x.seq == seq) = some e → e.st = .running → e.records = r :: rest → s.works g = true →
      let k := s.ctx g c
      let w := s.work g
      let next := field (w.olcnt.setWidth 64) 0 16
      let cap := field (w.olcnt.setWidth 64) 16 16
      let goes := fun (t : State) => exec (.ringEntryComplete g c seq) s = .next t
      (∀ d a b p f, e.instr = .vcvtn d a b p f →
        (next < cap → ∀ t, s.storeRecord g k.sup next r = .ok t →
          goes ((t.setWork g { t.work g with olcnt := (t.work g).olcnt + 1 }).recordDone g c seq))
        ∧ (next < cap → ∀ x ad, s.storeRecord g k.sup next r = .error (x, ad) → goes (s.recordFails g c seq x ad))
        ∧ (cap ≤ next → goes (s.recordDropped g c seq)))
      ∧ ∀ d a b p f n, e.instr = .vcvtnCounter d a b p f n → e.pieces = [] →
          let t := s.tag g
          let key := counterKey t (chipOf g) n.toNat
          (s.counter t key = none → goes (s.recordFails g c seq 0x0A 0))
          ∧ ∀ q, s.counter t key = some q →
              (q.exhausted = true → goes (s.recordFails g c seq 0x0A 0))
              ∧ (q.exhausted = false → ∃ u, goes u ∧ SameBytes s u ∧ u.counter t key = some q.enter
                  ∧ Tab.find u.net.ops s.nextId = some ⟨g, c, t, key, .token, q.gen, .wire (inputWire g q.w), k.pending, .append seq, s.cycle g⟩))
  ∧ ∀ (s : State) (g c : Nat) (seq : Byte) (e : RingEntry) (r : List Byte) (rest : List (List Byte)),
      (s.ctx g c).ring.find? (fun x => x.seq == seq) = some e → e.records = r :: rest →
      (∃ u, ((s.recordDone g c seq).ctx g c).ring.find? (fun x => x.seq == seq) = some u ∧ u.records = rest)
      ∧ ((s.recordDropped g c seq).ctx g c).fpflags = raiseIn (s.ctx g c).fpflags flagOL
      ∧ ∀ n sup t, s.storeRecord g sup n r = .ok t → ∃ h off,
          s.localAccess g sup (BitVec.ofNat 64 ((s.work g).olbase.toNat + 16 * n)) 16 true = .ok (h, off) ∧ t = s.localStore h off r

/-- The messaging instructions (R197 to R201) and WAITCH (R95). -/
def Obligations.Messages : Prop :=
  ∀ (s : State) (a b d x : XReg) (n : BitVec 2) (v r m : BitVec 1) (c : BitVec 6) (l : BitVec 12) (dst : Nat), Plain s →
    s.speculative s.cur.1 s.cur.2 = false →
    let g := s.cur.1
    let open_ := c ≠ 4 ∧ c ≠ 6 ∧ (channelPrivileged c = true → s.me.sup = true)
    let regs := (payloadRegs n).flatMap fun x => wordBytes (s.x x)
    let msg := fun (payload : List Byte) (bad : List Nat) (vt : Word) =>
      s.message g s.cur.2 dst (s.x a) c.toNat payload bad (r == 1) (v == 1) vt
    let waits := if r = 1 then s.me.pending else []
    let sends := fun (i : Instr) (len : Nat) (q : Msg) =>
      (s.requestRoom g = true → q.replyChannel = 0 →
        exec i s = .next ((s.enqueue g ⟨.msg q, s.cur.2, waits⟩).retire len))
      ∧ (s.requestRoom g = true → q.replyChannel ≠ 0 → ∀ k, (s.work g).freeCell = some k →
        exec i s = .next (((s.setWork g { s.work g with cells := Tab.put (s.work g).cells k ⟨0, false, none⟩ }).enqueue g
          ⟨.msg (q.withCell k), s.cur.2, waits⟩).retire len))
      ∧ (q.replyChannel ≠ 0 → (s.work g).freeCell = none → Holds i s (.blocked .cell))
      ∧ (s.requestRoom g = false → q.replyChannel = 0 ∨ (s.work g).freeCell ≠ none → Traps i s 0x09 0)
    (open_ → s.checkDest g (s.x a) = some dst → sends (.send a b n v r c) 2 (msg regs [] (s.x b)))
    ∧ (open_ → s.checkDest g (s.x a) = some dst → l.toNat ≤ 2016 → ∀ ps, s.payloadAccess (s.x b) l.toNat 0 = .ok ps →
        (l ≠ 0 → s.watchHit g s.cur.2 (s.x b).toNat l.toNat 2 = none) →
        s.clashes g s.cur.2 (ps.map fun q => (q.1, q.2, 1)) = false →
        sends (.sendl a b c l x v r) 4 (msg (ps.map fun q => (s.work q.1).spad.get q.2) (s.payloadBad ps) (s.x x)))
    ∧ (open_ → (s.checkDest g (s.x a)).isSome = true → l.toNat ≤ 2016 → l ≠ 0 →
        ∀ cause ad, s.payloadAccess (s.x b) l.toNat 0 = .error (cause, ad) →
        TrapsOn (.sendl a b c l x v r) s [cause] (s.watchHit g s.cur.2 (s.x b).toNat l.toNat 2) ad)
    ∧ (open_ → s.checkDest g (s.x a) = none → Traps (.send a b n v r c) s 0x04 0)
    ∧ (∀ u, s.me.cur = some u → u.msg.replyChannel ≠ 0 → u.answered = false → s.replyRoom g = true →
        exec (.reply n) s = .next (((s.queueReply g s.cur.2 (s.replyMsg g s.cur.2 u.msg regs) s.me.pending).markAnswered u).retire 2))
    ∧ (∀ u, s.me.cur = some u → u.msg.replyChannel ≠ 0 → u.answered = false → s.replyRoom g = false → Holds (.reply n) s (.blocked .replyQueue))
    ∧ (s.me.cur = none → Traps (.reply n) s 0x04 0 ∧ Traps (.msgrd d a) s 0x04 0)
    ∧ (∀ u, s.me.cur = some u → (s.x a).toNat < 4 → exec (.msgrd d a) s = .next (writeX s 2 d (u.msg.head (s.x a).toNat)))
    ∧ ((c.toNat < 8 → s.me.sup = true) → exec (.chmask m c) s = .next ((s.setMask g c.toNat (m == 1)).retire 2))
    ∧ (c.toNat < 8 → Traps (.waitch c) s 0x04 0)
    ∧ (8 ≤ c.toNat → s.me.cur = none → Holds (.waitch c) s (.waiting (.channel c)))
    ∧ (8 ≤ c.toNat → ∀ u, s.me.cur = some u → (u.owes = true → s.replyRoom g = true) →
        let s1 := s.dropMsg g { u with slot := none }
        exec (.waitch c) s = .next ((s1.setMe { s1.me with cur := none, slot := u.slot }).hold (.waiting (.channel c))))

/-- The head flit (R187). -/
def Obligations.MessageHead : Prop :=
  ∀ (s : State) (g c dst : Nat) (d vt : Word) (ch : Nat) (payload : List Byte) (bad : List Nat) (rel timed : Bool),
    ch < 64 → payload.length ≤ 2016 →
    let m := s.message g c dst d ch payload bad rel timed vt
    field m.d0 0 12 = field d 0 12 ∧ field m.d0 12 6 = field d 12 6 ∧ field m.d0 18 6 = ch ∧ field m.d0 24 6 = field d 18 6
    ∧ field m.d0 30 6 = s.tag g ∧ field m.d0 36 12 = payload.length ∧ m.d0.getLsbD 48 = rel ∧ m.d0.getLsbD 49 = timed
    ∧ m.d0.getLsbD 53 = !bad.isEmpty ∧ m.d1 = s.ident g c ∧ m.d2 = (if timed then vt else 0) ∧ m.payload = payload

/-- The start of a handler (R191), the registers that no rule sets (R41), the control registers (R51), privilege (R204). -/
def Obligations.HandlerStartState : Prop :=
  ∀ (s : State) (g c n : Nat) (m : Msg) (cell : Option Nat), (s.work g).retainedFor m.channel = none →
    field (s.handler g m.channel).ctl 5 4 = 0 → (s.work g).allot 0 = some (0, s.work g) →
    let t := s.startHandler g c n m cell id
    let k := t.ctx g c
    k.st = .ready ∧ k.pc = (s.handler g m.channel).entry ∧ k.role = .handler (BitVec.ofNat 6 m.channel)
    ∧ k.x[1] = m.d1 &&& 0xFFFFFF ∧ k.x[2] = m.flags ∧ k.x[3] = BitVec.ofNat 64 (0x70000 + 0x800 * n)
    ∧ k.x[4] = BitVec.ofNat 64 m.length ∧ k.x[5] = m.word 0 ∧ k.x[6] = m.word 1 ∧ k.x[7] = m.word 2 ∧ k.x[8] = m.word 3
    ∧ k.x[0] = 0 ∧ (∀ i : Fin 16, 9 ≤ i.val → k.x[i] = 0)
    ∧ k.vt = m.d2 ∧ k.fpflags = 0 ∧ k.rnd = 0 ∧ k.cur = some ⟨m, some n, false, cell⟩
    ∧ k.sup = decide (m.channel = 0 ∨ m.channel = 2 ∨ m.channel = 7)
    ∧ ∀ h d, (h ≠ g ∨ d ≠ c) → t.ctx h d = s.ctx h d

/-- Injection (R193, R195), arrival (R189), spill (R190), landing and release (R194), the host window (R202), delivery (R191). That a spilled message takes the lowest free place is the choice of log entry 94, and that spilling needs OXBOW.E that of 32; the wait for the messages that a restore sends again is that of 46, a message that a WAITCH takes counts for a retained allotment by 121, and the package of a host window is that of 120. -/
def Obligations.MessageEvents : Prop :=
  ∀ (s t : State) (g k : Nat) (m : Msg) (src : Source),
    (∀ reply e r rest, let s1 := if (s.work g).flitsWait reply then s.fillFlits g reply else s
        (s1.work g).sendQueue reply = e :: r → s1.entryReady g e = true → s1.retried g reply = 0 →
        s1.injectItem g e.item = some (t, rest) →
        exec (.sendInjection g reply) s = .next (t.setWork g ((t.work g).setQueue reply (match rest with
          | some i => { e with item := i } :: r
          | none => r))))
    ∧ (Tab.find s.net.msgs k = some m → s.firstOfWay k m = true → s.takes m.dst m.tag = true → s.itsArrival k m = true →
        (m.tag ≠ s.tag m.dst ∨ s.holds m.tag m.dst = false → exec (.messageArrival k) s = .next (s.discardMsg k m))
        ∧ (m.tag = s.tag m.dst → s.holds m.tag m.dst = true → s.needsVt m = false → (s.work m.dst).ejection.length < 16 →
          let u := (s.landed k).fresh
          exec (.messageArrival k) s = .next (u.setWork m.dst { u.work m.dst with
            ejection := (u.work m.dst).ejection ++ [{ m with stamp := s.nextId }],
            retained := (u.work m.dst).retained.map fun r => if r.ch.toNat = m.channel then { r with met := true } else r })))
    ∧ (∀ r, (s.work g).ejection = m :: r → s.heldBack g m.channel = true → s.waiters g m.channel = [] →
        (s.work g).oxbow.getLsbD 0 = true → (s.work g).spill.length < 1024 →
        ∃ u n, exec (.messageSpill g) s = .next u ∧ (u.work g).ejection = r ∧ (u.work g).spill = (s.work g).spill ++ [(n, m)]
          ∧ (∀ e ∈ (s.work g).spill, e.1 ≠ n) ∧ (∀ j < n, ∃ e ∈ (s.work g).spill, e.1 = j)
          ∧ (s.mem.wf = true →
              u.mem.bytes (s.oxbowAddr g (0x160000 + 2048 * n)) (32 + m.payload.length) = m.headBytes ++ m.payload))
    ∧ (∀ c, Tab.find s.net.answers k = some m → s.firstOfWay k m = true → s.takes m.dst m.tag = true → s.itsArrival k m = true →
        m.tag = s.tag m.dst → s.holds m.tag m.dst = true → s.needsVt m = false → Tab.find (s.work m.dst).cells m.cell = some c →
        let u := (s.landed k).fresh
        let w := (u.work m.dst).landReply { m with stamp := s.nextId }
        exec (.replyLanding k) s = .next (u.setWork m.dst { w with
          retained := w.retained.map fun r => if r.ch.toNat = m.channel then { r with met := true } else r })
        ∧ Tab.find w.cells m.cell = some { c with injected := false, reply := some { m with stamp := s.nextId } }
        ∧ (c.injected = false → w.windows = (s.work m.dst).windows)
        ∧ (c.injected = true → c.cls < 5 →
            w.window c.cls = ((s.work m.dst).window c.cls).back (m.d0.getLsbD 54)))
    ∧ (∀ n c t', Tab.find s.net.releases k = some (t', g, n) →
        let u := s.withNet fun t => { t with releases := Tab.drop t.releases k }
        let w := (s.work g).releaseCell n
        (s.imageOf t' g = none → s.tag g = t' → Tab.find (s.work g).cells n = some c →
          exec (.cellRelease k) s = .next (u.setWork g w) ∧ Tab.find w.cells n = none
          ∧ (c.injected = true → c.cls < 5 →
              w.window c.cls = { (s.work g).window c.cls with used := ((s.work g).window c.cls).used - 1 }))
        ∧ (∀ i, s.imageOf t' g = some i → exec (.cellRelease k) s = .next (u.setCore g { u.core g with
            image := some { i with work := i.work.releaseCell n } })))
    ∧ (∀ due, Tab.find s.net.retries k = some (due, .msg m) → due ≤ s.cycle m.src →
        exec (.retryResend k) s = .next ((s.withNet fun n => { n with retries := Tab.drop n.retries k }).withNet fun n =>
          { n with msgs := Tab.put n.msgs k m }))
    ∧ (∀ i, s.flying k = some m → (s.core m.dst).image = some i → i.tag.toNat = m.tag → s.firstOfWay k m = true →
        s.itsArrival k m = true → s.waitsOut m = false →
        let put := fun (at_ : Nat) (i : Image) => exec (.evictedMessage k) s =
          .next ((((s.landed k).headerTakes m).setCore m.dst { s.core m.dst with image := some i }).areaStore m.dst at_ m)
        (m.onReply = false → i.bytes + m.areaBytes ≤ 57344 →
          put (8192 + i.bytes) { i with msgs := i.msgs ++ [(k, m)], bytes := i.bytes + m.areaBytes })
        ∧ (m.onReply = true → put (128 * m.cell) { i with msgs := i.msgs ++ [(k, m)], work := i.work.replyPlace m })
        ∧ (m.onReply = false → 57344 < i.bytes + m.areaBytes → exec (.evictedMessage k) s = .next ((s.landed k).withNet fun n =>
            { n with retries := Tab.put n.retries k (s.cycle m.src + 512, .msg m) })))
    ∧ (s.flying k = some m → s.waitsOut m = true → exec (.evictedMessage k) s = .next s)
    ∧ (∀ tag h off data, tag < 64 → let w := tag + 64 * h
        ((s.chip h).ready = false → exec (.hostWindowWrite w off data) s = .next s)
        ∧ ((s.chip h).ready = true → data ≠ [] → data.length % 8 = 0 → data.length ≤ 512 → off % 512 = 0 → off < 2 ^ 27 →
          (off / 512 % 64 = 1 ∨ 8 ≤ off / 512 % 64) → (∀ x ∈ s.partCores tag, s.logMode x ≠ 2) → s.reach tag h (off / 2 ^ 15) = some g →
          exec (.hostWindowWrite w off data) s = .next (s.putMsg (hostMsg tag h (off / 2 ^ 15) (off / 512 % 64) g data)))
        ∧ ((s.chip h).ready = true → data.length % 8 ≠ 0 ∨ 512 < data.length ∨ off % 512 ≠ 0 →
          exec (.hostWindowWrite w off data) s = .next (s.discardHost tag)))
    ∧ (∀ n, hostWindowRead n = List.replicate n 0)
    ∧ ((s.work g).at src k = some m → s.nextJob g = some (.handler src k) →
        exec (.handlerStart g src k) s = .next (s.serve g src k m id))
    ∧ (∀ c, (s.work g).at (placeOf k).1 (placeOf k).2 = some m → s.freeCtx g = some c →
        s.nextJob g = some (.late (placeOf k).1 (placeOf k).2) →
        let u := s.serve g (placeOf k).1 (placeOf k).2 m id
        (u.ctx g c).role ≠ .free →
        exec (.lateMessage g k) s = .next (u.takeTrap g c (lateTrap (s.handler g m.channel).entry m.d2)))
    ∧ (∀ c n, (s.work g).at src k = some m → s.longest g (s.waiters g m.channel) = some c →
        (s.ctx g c).slot.or (s.work g).freeSlot = some n → s.serves g = true → s.waitchTakes g m = true →
        s.firstWaiting g m = true → s.behind g m = false → Unlogged s g → m.bad.contains 0 = false →
        let s1 := (s.setWork g ((s.work g).take src k)).deliver g c n m (cellOf src k)
        let s2 := s1.setCtx g c { s1.ctx g c with
          st := .ready, resumedWait := true, watch := 0, since := s.cycle g, age := s.cycle g, bump := 0 }
        exec (.waitchDelivery g src k) s = .next (s2.as g c fun t => t.retire 2))

/-- The table of R162 with the range of R163. -/
def Obligations.BalancersAndExits : Prop :=
  ∀ (k : Counter) (i j : Nat) (v : Int), i < k.bal.length → j < k.c.length → k.holes.length = k.c.length →
    let b := bitOf ((k.bal[i]?).getD false)
    let c := (k.c[j]?).getD 0
    let hs := (k.holes[j]?).getD []
    let free := valueOk (j + k.w * c) = true
    let x := k.exitFor v
    let xs := (k.holes[x]?).getD []
    let gone := v < 0 ∨ v ≥ (x : Int) + k.w * (k.c[x]?).getD 0 ∨ v ∈ xs
    (k.tokenAt i).1 = k.w + 2 * i + b ∧ ((k.tokenAt i).2.bal[i]?) = some (b == 0)
    ∧ (k.antiAt i).1 = k.w + 2 * i + (1 - b) ∧ (k.tokenAt i).2.antiAt i = ((k.tokenAt i).1, k)
    ∧ (hs = [] → free → (k.exitToken j).1 = some (j + k.w * c) ∧ ((k.exitToken j).2.c[j]?) = some (c + 1)
        ∧ (k.exitToken j).2.exitAnti j = (some (j + k.w * c), k))
    ∧ (∀ h r, hs = h :: r → (k.exitToken j).1 = some h ∧ (k.exitToken j).2.c = k.c ∧ ((k.exitToken j).2.holes[j]?) = some r)
    ∧ (hs = [] → ¬ free → k.exitToken j = (none, { k with exhausted := true }))
    ∧ (valueOk (j + k.w * (c - 1)) = true → (k.exitAnti j).1 = some (j + k.w * (c - 1))
        ∧ ((k.exitAnti j).2.c[j]?) = some (c - 1) ∧ ((k.exitAnti j).2.holes[j]?) = some (hs.erase (j + k.w * (c - 1))))
    ∧ (valueOk (j + k.w * (c - 1)) = false → k.exitAnti j = (none, { k with exhausted := true }))
    ∧ (gone → k.exitCancel v = (2, k))
    ∧ (¬ gone → xs.length = 4 → k.exitCancel v = (1, k))
    ∧ (¬ gone → xs.length ≠ 4 → k.exitCancel v = (0, { k with holes := listSet k.holes x (v :: xs) }))

/-- The counter instructions (R173 to R179), with the checks of R157 and R163 and the states of R167. That CREAD gives the sum of all exits at one instant is the choice of log entry 105; R177 lets operations leave between its reads. -/
def Obligations.CounterInstructions : Prop :=
  ∀ (s : State) (d a b : XReg) (w : BitVec 3) (p : BitVec 2) (key : Nat) (k : Counter), s.speculative s.cur.1 s.cur.2 = false →
    let g := s.cur.1
    let t := s.tag g
    let x := s.x a
    let y := s.x b
    let found := field x 18 46 = 0 ∧ key = counterKey t (field x 12 6) (field x 0 12) ∧ s.counter t key = some k
    let sent := fun (kind : FabricKind) (wire : Nat) (q : Counter) =>
      (((s.setCounter t key q).withNet fun n => { n with
        ops := Tab.put n.ops s.nextId ⟨g, s.cur.2, t, key, kind, k.gen, .wire wire, s.me.pending, .reg d, s.cycle g⟩ }).fresh).hold
          (.blocked (.fabric s.nextId))
    let armed := (k.pennant = .opened ∨ k.pennant = .armed ∧ field y 0 47 = 0)
    (∀ n u, Unlogged s g → s.newCounter t g p.toNat (2 ^ w.toNat) = some (n, u) →
      exec (.cnew d p w) s = .next (writeX u 2 d (pack [(0, n % 4096), (12, g / 2560)])))
    ∧ (Unlogged s g → s.newCounter t g p.toNat (2 ^ w.toNat) = none →
      exec (.cnew d p w) s = .next (writeX s 2 d (BitVec.allOnes 64)))
    ∧ (s.chunkEnd g s.cur.2 1 none = none → exec (.cnew d p w) s = .next ((s.stalled g s.cur.2 1).hold (.blocked .turn)))
    ∧ (field x 18 46 ≠ 0 → ∀ i ∈ [Instr.cfree a, .ctake d a, .cgive d a, .ccancel d a b, .carm a b, .cwait a b], Traps i s 0x04 0)
    ∧ (field x 18 46 = 0 → s.counter t (counterKey t (field x 12 6) (field x 0 12)) = none →
      ∀ i ∈ [Instr.cfree a, .ctake d a, .cgive d a, .ccancel d a b, .cread d a], Traps i s 0x0A 0)
    ∧ (found → k.exhausted = true → ∀ i ∈ [Instr.ctake d a, .cgive d a, .ccancel d a b], Traps i s 0x0A 0)
    ∧ (found → k.exhausted = false →
      exec (.ctake d a) s = .next (sent .token (inputWire g k.w) k.enter)
      ∧ exec (.cgive d a) s = .next (sent .anti (inputWire g k.w) k.enter)
      ∧ (valueOk y.toInt = true →
          exec (.ccancel d a b) s = .next (sent (.cancel y.toInt) (((network k.w).1[k.exitFor y.toInt]?).getD 0) k))
      ∧ (Unlogged s g → valueOk y.toInt = false → exec (.ccancel d a b) s = .next (writeX s 2 d 2))
      ∧ (Unlogged s g → field y 47 16 = 0 → armed → ∃ q, k.arm (field y 0 47) (y.getLsbD 63) = some q
          ∧ exec (.carm a b) s = .next ((s.setCounter t key q).retire 2))
      ∧ (field y 47 16 = 0 → ¬ armed → Traps (.carm a b) s 0x0A 0)
      ∧ (Unlogged s g → field y 16 48 = 0 → (k.p.toNat + 65535 - field y 0 16) % 65536 < 32768 → exec (.cwait a b) s = .next (s.retire 2))
      ∧ (field y 16 48 = 0 → ¬ (k.p.toNat + 65535 - field y 0 16) % 65536 < 32768 →
          Holds (.cwait a b) s (.waiting (.pennant key (BitVec.ofNat 16 (field y 0 16))))))
    ∧ (field y 47 16 ≠ 0 → Traps (.carm a b) s 0x04 0) ∧ (field y 16 48 ≠ 0 → Traps (.cwait a b) s 0x04 0)
    ∧ (Unlogged s g → field x 19 45 = 0 → s.counter t (counterKey t (field x 12 6) (field x 0 12)) = some k →
      exec (.cread d a) s = .next (writeX s 2 d (if x.getLsbD 18 then
        pack [(0, k.p.toNat), (16, k.pennant.code), (18, bitOf k.rep), (19, bitOf k.exhausted)]
      else BitVec.ofInt 64 (k.c.foldl (· + ·) 0))))
    ∧ (Unlogged s g → found → s.quiescent t key = true → exec (.cfree a) s = .next ((s.freeCounter t key).retire 2))
    ∧ (found → s.quiescent t key = false → Holds (.cfree a) s (.blocked (.free key)))

/-- The steps at balancers and exits (R162, R163), exit reports (R170), replies (R175), and the pennant machine (R167). That the generation closes for every input in one step is the choice of log entry 104, and that a counter error marks the grid of a crew dispatcher exhausted that of 88. -/
def Obligations.CounterEvents : Prop :=
  ∀ (s : State) (n : Nat) (o : FabricOp) (q : Counter) (w : Nat), Tab.find s.net.ops n = some o → s.counter o.tag o.key = some q →
    let moved := fun (u : State) (p : FabricPos) => u.withNet fun t => { t with ops := Tab.put t.ops n { o with pos := p } }
    let report := fun (d : Int) => (⟨o.g, o.c, o.tag, o.key, o.gen, o.waits, d⟩ : ExitReport)
    let j := exitOf q.w w
    let at_ := s.count o.tag 5 1
    (o.pos = .wire w → ∀ i, feeds q.w w = some i →
      (o.kind = .token → exec (.balancerToken n) s =
        .next ((moved (s.setCounter o.tag o.key (q.tokenAt i).2) (.wire (q.tokenAt i).1)).count o.tag 5 1))
      ∧ (o.kind = .anti → exec (.balancerAntitoken n) s =
        .next ((moved (s.setCounter o.tag o.key (q.antiAt i).2) (.wire (q.antiAt i).1)).count o.tag 5 1)))
    ∧ (o.pos = .wire w → feeds q.w w = none →
      (o.kind = .token → (∀ v q1, q.exitToken j = (some v, q1) → exec (.exitToken n) s =
          .next ((moved (at_.setCounter o.tag o.key q1) (.back true (BitVec.ofInt 64 v))).exitReport (report 1)))
        ∧ (∀ q1, q.exitToken j = (none, q1) → exec (.exitToken n) s =
          .next ((moved (at_.setCounter o.tag o.key q1) (.back false 0)).exitReport (report 0))))
      ∧ (o.kind = .anti → (∀ v q1, q.exitAnti j = (some v, q1) → exec (.exitAntitoken n) s =
          .next ((moved (at_.setCounter o.tag o.key q1) (.back true (BitVec.ofInt 64 v))).exitReport (report (-1))))
        ∧ (∀ q1, q.exitAnti j = (none, q1) → exec (.exitAntitoken n) s =
          .next ((moved (at_.setCounter o.tag o.key q1) (.back false 0)).exitReport (report 0))))
      ∧ (∀ v, o.kind = .cancel v → exec (.exitCancel n) s =
          .next (moved (at_.setCounter o.tag o.key (q.exitCancel v).2) (.back true (BitVec.ofNat 64 (q.exitCancel v).1)))))
    ∧ (∀ v d, (s.ctx o.g o.c).st = .blocked (.fabric n) → Unlogged s o.g → o.use = .reg d →
      let t := s.withNet fun u => { u with ops := Tab.drop u.ops n }
      let u0 := t.setCtx o.g o.c { t.ctx o.g o.c with st := .ready, since := t.cycle o.g, age := t.cycle o.g, bump := 0 }
      let u := if o.kind = .token then u0.sampled o.g 1 (s.cycle o.g - o.born) 1 else u0
      (o.pos = .back true v → exec (.fabricReply n) s = .next (u.as o.g o.c fun u => writeX u 2 d v))
      ∧ (o.pos = .back false v → exec (.fabricReply n) s = .next (u.as o.g o.c fun u => u.trap 0x0A)))
    ∧ (∀ ok v, o.pos = .back ok v →
      let gone := s.withNet fun u => { u with ops := Tab.drop u.ops n }
      (o.use = .done → exec (.fabricReply n) s = .next gone)
      ∧ (∀ q, o.use = .append q → (∃ e ∈ (s.ctx o.g o.c).ring, e.seq = q ∧ n ∈ e.pieces) →
          exec (.fabricReply n) s = .next (gone.slotAnswer o.g o.c q ok v))
      ∧ (o.use = .crew → exec (.fabricReply n) s = .next (gone.mapFor o.tag o.g fun w => w.claimed o.key ok v))
      ∧ ∀ (w : Work) (gr : Grid), w.claim = some (.asked gr) → gr.counter = o.key →
          (ok = true → 0 ≤ v.toInt → v.toInt < gr.launch.n → (w.claimed o.key ok v).claim = some (.got v.toNat gr))
          ∧ (¬ (0 ≤ v.toInt ∧ v.toInt < gr.launch.n) → (w.claimed o.key ok v).claim = none
              ∧ ∀ q ∈ (w.claimed o.key ok v).grids, q.counter = o.key → q.exhausted = true))
    ∧ (∀ (t key : Nat) (k : Counter), s.net.reports = [] → s.counter t key = some k →
      (k.pennant = .armed → (k.target : Int) ≤ (k.genCount k.p).net →
        ∃ u, exec (.generationClose t key) s = .next u ∧ u.counter t key = some { k with gen := k.p + 1, pennant := .closing })
      ∧ (k.pennant = .closing → (k.genCount k.p).entered = (k.genCount k.p).left →
        ∃ u k1, exec (.pennantRaise t key) s = .next u ∧ u.counter t key = some k1 ∧ k1.p = k.p + 1 ∧ k1.c = k.c ∧ k1.bal = k.bal
          ∧ k1.gen = k.gen ∧ k1.pennant = (if k.rep then .armed else .opened)))

/-- The instructions of virtual time (R329, R335, R336) and LPBIND (R315, R316). That SWATER and STRUNC wait for a publication under way is the choice of the model (log entry 92); the cause of a refused IRREV record and of its misaligned store is the reading of log entry 40, and the wait of an LPBIND that unbinds that of 58. -/
def Obligations.VirtualTimeInstructions : Prop :=
  ∀ (s : State) (a b d : XReg) (q : BitVec 8) (p : BitVec 1) (c : BitVec 6),
    let g := s.cur.1
    let x := s.x a
    exec (.vtget d) s = .next (writeX s 2 d s.me.vt)
    ∧ exec (.gvtrd d q) s = .next (writeX s 2 d ((s.part (s.tag g)).domain q.toNat).gvt)
    ∧ (Plain s → exec (.vtset a) s = .next ((s.setMe { s.me with vt := x }).retire 2))
    ∧ (¬ Plain s → Traps (.vtset a) s 0x04 0)
    ∧ (∀ slot lp, s.lpAt g x.toNat = some (slot, lp) →
      (lp.stream = true → exec (.scursor d a p) s = .next (writeX s 2 d (if p = 1 then lp.play else lp.lvt)))
      ∧ (lp.stream = false → Traps (.scursor d a p) s 0x04 0)
      ∧ (lp.stream = false ∨ (∀ n e, s.me.event = some (n, e) → n ≠ slot) → exec (.ckpt a) s = .next ((s.setLp g slot { lp with mark := true }).retire 2)))
    ∧ (s.lpAt g x.toNat = none → Traps (.scursor d a p) s 0x04 0 ∧ Traps (.ckpt a) s 0x04 0)
    ∧ (s.speculative g s.cur.2 = false →
      let next := ((s.part (s.tag g)).domain q.toNat).next
      ((∀ v, next = some v → v ≤ x) →
        exec (.swater a q) s = .next ((s.mapDomain (s.tag g) q.toNat fun u => { u with water := x }).retire 2))
      ∧ (∀ v, next = some v → x < v → Holds (.swater a q) s (.blocked .commit))
      ∧ (s.lpAt g x.toNat = none → Traps (.strunc a b) s 0x04 0)
      ∧ (∀ slot lp, s.lpAt g x.toNat = some (slot, lp) → (∀ n e, s.me.event = some (n, e) → n ≠ slot) → lp.stream = true →
        s.me.rolled = false →
        (s.x b ≤ lp.play ∨ s.x b < s.gvt g lp.domain → Traps (.strunc a b) s 0x0F 0)
        ∧ (¬ (s.x b ≤ lp.play ∨ s.x b < s.gvt g lp.domain) →
          (s.publishes (s.tag g) lp.domain (s.x b) = true → Holds (.strunc a b) s (.blocked .commit))
          ∧ (s.publishes (s.tag g) lp.domain (s.x b) = false → ∀ t, s.rollback g slot (s.x b) = (t, true) →
            t.rolledBack g slot = true → exec (.strunc a b) s = .next (t.retire 2))))
      ∧ (c.toNat < 8 → Traps (.lpbind a c) s 0x04 0)
      ∧ (8 ≤ c.toNat → s.me.vectorsDone = false → Holds (.lpbind a c) s (.blocked .quiet))
      ∧ (8 ≤ c.toNat → s.me.vectorsDone = true → x = BitVec.allOnes 64 → ∀ slot lp, s.lpOf g c.toNat = some (slot, lp) →
        exec (.lpbind a c) s =
          .next ((s.setLp g slot { lp with unbind := (lp.unbind ++ [c.toNat]).eraseDups }).hold (.blocked (.unbind c))))
      ∧ (8 ≤ c.toNat → s.me.vectorsDone = true → x ≠ BitVec.allOnes 64 → x.getLsbD 23 = false →
        ∀ off, s.localAccess g s.me.sup x 1 false = .ok (g, off) → off % 64 = 0 → off + 256 ≤ 0x70000 →
        (s.handler g c.toNat).valid = true → (s.handler g c.toNat).optimistic = true →
        (s.clashes g s.cur.2 [(g, off, 256)] = true → Holds (.lpbind a c) s (.blocked .drain))
        ∧ (s.clashes g s.cur.2 [(g, off, 256)] = false →
          (∀ slot lp, s.lpAt g off = some (slot, lp) → s.lpOf g c.toNat = none → lp.domain = field (s.handler g c.toNat).ctl 16 8 →
            exec (.lpbind a c) s = .next (((s.setLp g slot { lp with channels := lp.channels ++ [c.toNat] }).meetAntis g slot c.toNat).retire 2))
          ∧ (s.lpAt g off = none → s.lpOf g c.toNat = none → ∀ lp slot t lp1,
            readDescriptor ((s.work g).spad.bytes off 256) off c.toNat (field (s.handler g c.toNat).ctl 16 8) = some lp →
            firstBelow (fun n => (s.lp g n).isNone) 16 = some slot → (s.setLp g slot lp).snapshot g slot lp.lvt = .ok t →
            t.lp g slot = some lp1 → exec (.lpbind a c) s = .next (((t.setLp g slot { lp1 with ready := false }).meetAntis g slot c.toNat).retire 2)))))
    ∧ (∀ off off', s.localAccess g s.me.sup x 32 false = .ok (g, off) → s.localAccess g s.me.sup (x + 32) 32 false = .ok (g, off') →
        s.watchHit g s.cur.2 x.toNat 64 2 = none → x.getLsbD 23 = false →
        let record := s.readIrrev g s.cur.2 s.me.sup ((s.work g).spad.bytes off 64)
        let clash := s.clashes g s.cur.2 [(g, off, 64)]
        let bad := (s.work g).poisonedAt off 64
        (clash = true → Holds (.irrev a) s (.blocked .drain))
        ∧ (clash = false → bad = true → exec (.irrev a) s = .next (s.terminate g s.cur.2 1 x))
        ∧ (Plain s → clash = false → bad = false →
          (∀ cause, record = .error cause → Traps (.irrev a) s cause 0)
          ∧ (∀ m rel t, record = .ok (.message m rel) → m.replyChannel = 0 →
              s.queueMsg g s.cur.2 m (if rel then s.me.pending else []) = some t → exec (.irrev a) s = .next (t.playNow.retire 2))
          ∧ (∀ va bs, record = .ok (.store va bs) →
              (∀ t pa, s.globalAccess g s.cur.2 va .write bs.length false false = (t, .ok pa) → s.requestRoom g = true →
                exec (.irrev a) s = .next (((t.sendStores [(pa, bs)]).playNow).retire 2))
              ∧ ∀ t e, s.globalAccess g s.cur.2 va .write bs.length false false = (t, .error e) → exec (.irrev a) s = .next (t.stop e))))

/-- The steps of LPs (R316, R319, R323 to R325), of rounds (R327), and of publication (R322, R328). Choices and deductions of the model here: the publication in one step for all cores (log entry 71), the snapshot in one step with qc1 empty (35), the release of the annihilated message and its cell (39), the rollback that waits for a publication under way (92), what a freed event leaves (37), the messages that a restore sends again first (46). -/
def Obligations.VirtualTimeEvents : Prop :=
  ∀ (s t u : State) (g slot k n : Nat) (lp : Lp) (m : Msg), s.lp g slot = some lp →
    let here := m.dst = g ∧ s.firstOfWay k m = true ∧ s.takes g m.tag = true ∧ s.itsArrival k m = true ∧ m.tag = s.tag g
    (∀ src c z, s.nextEvent g slot = some (none, src, k, m) → s.freeCtx g = some c → (s.work g).freeSlot = some z →
      s.nextJob g = some (.event slot) → Unlogged s g → m.bad.contains 0 = false →
      let s1 := (s.setWork g ((s.work g).take src k)).startHandler g c z m (cellOf src k) id
      exec (.lpEventStart g slot) s = .next ((s1.beginEvent g slot c m (s1.safeAt g lp m.d2)).workFound g))
    ∧ (s.flying k = some m → s.lpOf m.dst m.channel = some (slot, lp) → here →
      (m.anti = false → s.isStraggler g lp m = true → s.publishes m.tag lp.domain m.d2 = false →
        exec (.stragglerRollback g k) s = .next (s.rollback g slot m.d2).1)
      ∧ (m.anti = true → ((s.work g).pendingOf lp).all (fun e => !m.matchesAnti e.2.2) = true →
          lp.events.all (fun e => !(!e.safe && m.matchesAnti e.msg)) = true →
        exec (.antiMessageArrival g k n) s = .next ((s.landed k).setLp g slot { lp with antis := lp.antis ++ [m] }))
      ∧ (m.anti = false → ∀ x, (lp.antis.find? fun x => x.matchesAnti m) = some x →
        exec (.antiMessageArrival g k n) s =
          .next (((s.landed k).setLp g slot { lp with antis := lp.antis.erase x }).releaseFor g m)))
    ∧ (∀ src z, earliest ((s.work g).pendingOf lp) = some (src, z, m) → s.runs g = true → lp.idle = true → lp.snapDue = true →
      lp.snapRoom = true → s.gvt g lp.domain < m.d2 → Tab.look [] (s.work g).queues 1 = [] → s.snapshot g slot m.d2 = .ok t →
      exec (.checkpointSnapshot g slot) s = .next t)
    ∧ (lp.unbind ≠ [] → s.lpDone g lp = true → (lp.channels.filter fun c => !lp.unbind.contains c) ≠ [] →
      exec (.lpUnbind g slot) s =
        .next (s.setLp g slot { lp with channels := lp.channels.filter fun c => !lp.unbind.contains c, unbind := [] }))
    ∧ (lp.unbind ≠ [] → s.lpDone g lp = true → (lp.channels.filter fun c => !lp.unbind.contains c) = [] →
      ∃ v, exec (.lpUnbind g slot) s = .next v ∧ v.lp g slot = none ∧ ∀ j, j ≠ slot → v.lp g j = s.lp g j)
    ∧ (s.isStraggler g lp m = true ↔ s.isLate g lp m = false ∧ m.d2 < lp.lvt ∧ ∃ e ∈ lp.events, e.safe = false ∧ m.d2 ≤ e.vt)
    ∧ (∀ tag d : Nat, (s.part tag).cores ≠ [] → (s.part tag).resetDue = false →
      (((s.part tag).domain d).next = none → ((s.part tag).domain d).began + (s.part tag).gvtPeriod ≤ s.cycle (s.dispatcher tag) →
        exec (.gvtRound tag d) s = .next (s.mapDomain tag d fun q =>
          { q with next := some (s.roundResult tag d), began := s.cycle (s.dispatcher tag) }))
      ∧ (∀ v, ((s.part tag).domain d).next = some v → s.canPublish tag = true →
        let l := sumOf ((s.domainLps tag d).map fun e => e.2.2.commits.length)
        (s.commitUpTo tag d v l = (u, true) →
          exec (.gvtPublication tag d) s =
            .next (((u.publishAt v (u.domainLps tag d)).mapDomain tag d fun q => { q with gvt := v, next := none }).lagSampled tag))
        ∧ (s.commitUpTo tag d v l = (u, false) → exec (.gvtPublication tag d) s = .next u)))

/-- R327: GVT never falls, and is a lower bound on what can still arrive. -/
def Obligations.RoundLowerBound : Prop :=
  ∀ (s : State) (t d : Nat),
    let q := (s.part t).domain d
    let r := s.roundResult t d
    q.gvt ≤ r
    ∧ (q.gvt < r → r ≤ q.water ∧ (∀ v ∈ s.flyingTimes t d, r ≤ v) ∧ ∀ g ∈ s.partCores t, ∀ v ∈ s.coreTimes t d g, r ≤ v)

/-- Queues (R272, R276), capture and exact checks (R273, R284, R293), the ring (R209). -/
def Obligations.CommandIssue : Prop :=
  ∀ (s : State) (a b c : XReg) (q f v m : BitVec 1) (ix : BitVec 6) (t : BitVec 2) (mask : BitVec 4) (sh ea eb : BitVec 3), Plain s →
    let g := s.cur.1
    let w := s.work g
    let x := s.x a
    let y := s.x b
    let qc := if q = 0 then Queue.qc0 else .qc1
    let entry := w.spad.bytes (tmapAt ix.toNat) 64
    let bar := s.barOperand (s.x c)
    let ranges := fun l => s.matCauses l
    let sacc := [(x, 8, 8 * (32 * 2 ^ sh.toNat / 32)), (y, 16, 2048)]
    let gather := (x.toNat % 16 = 0 ∧ x.toNat < 0x80000 ∧ x.toNat % 0x80000 + 64 ≤ 0x70000
      ∧ ∃ l, s.imageAccess g s.me.sup (x &&& ~~~15) 4 0 = .ok l)
    (∀ e ∈ ([(.copy q a b c ix t f, [qc], .copy x y (s.x c) entry t (f == 1), bar = [] ∧ w.poison = []),
        (.pagein q a b c, [qc], .pagein x y (s.x c), bar = []),
        (.gatherkv a c, [.qg], .gather x (s.x c), bar = [] ∧ gather),
        (.efence mask, maskQueues mask, .fence mask, True),
        (.mloadb a sh eb, [.qm], .mloadb x sh eb, ranges [(x, 16, fmtBytes eb 65536)] = []),
        (.mma sh ea eb m, [.qm], .mma sh ea eb (m == 1) s.myFeeders, True),
        (.sacc a b sh, [.qm], .sacc x y sh, ranges sacc = []),
        (.aswap, [.qm], .aswap, True),
        (.aread a b, [.qm], .aread x y, y.toNat % 1024 = 0 ∧ y.toNat < 16384 ∧ ranges [(x, 16, 4096)] = []),
        (.azero v, [.qm], .azero (v == 1), True),
        (.ofix a b c, [.qm], .ofix x y (s.x c), y.toNat ≤ 65535 ∧ ranges [(x, 16, 16 * y.toNat), (s.x c, 16, 2048)] = [])] :
        List (Instr × List Queue × CmdBody × Prop)), e.2.2.2 →
      (w.fullQueue e.2.1 = none → s.me.stepArm = false →
        ∃ u n, exec e.1 s = .next u ∧ SameBytes s u ∧ (u.work g).matrix = w.matrix ∧ u.me.ring = s.me.ring ++ [n]
          ∧ n.st = .running ∧ SameButFlow { s.me with ring := u.me.ring, nextSeq := u.me.nextSeq } u.me
          ∧ (∀ p ∈ e.2.1, (u.work g).queue p = w.queue p ++ [s.command e.2.2.1])
          ∧ ∀ p, p ∉ e.2.1 → (u.work g).queue p = w.queue p)
      ∧ ∀ p, w.fullQueue e.2.1 = some p → Holds e.1 s (.blocked (.command p)))
    ∧ (bar ≠ [] → exec (.copy q a b c ix t f) s = .next (s.trapAll bar) ∧ exec (.pagein q a b c) s = .next (s.trapAll bar))
    ∧ (ranges sacc ≠ [] → exec (.sacc a b sh) s = .next (s.trapAll (ranges sacc)))

/-- Engines (R274, R275, R285, R288), watchpoints (R217), credits (R151, R284), fences (R276), walks (R340, R342), poison (R363). That the fetch and the write of a block are a step each, numbered by moveNo, is the choice of log entry 18; which accesses of a command meet a watchpoint is the reading of 13, and when a command credits that of 86. -/
def Obligations.EngineEvents : Prop :=
  ∀ (s t : State) (g n : Nat) (q : Queue) (m : Cmd),
    let act := fun (x : State) (c : CmdState) => x.mapCmd g m.id fun y => { y with st := c }
    let u := s.turned g q
    (g < Config.coreNumbers → (s.work g).nextIn q = some m → s.chosen g q = some (g, q) →
      (m.st = .queued → s.engineBusy (engineQueues g q) = true → exec (.commandActivation (moveNo g 0) q) s = .next (act u .shadow))
      ∧ (s.engineBusy (engineQueues g q) = false →
        (∀ p, m.st = .paused p → exec (.commandActivation (moveNo g 0) q) s = .next (act u (.active p)))
        ∧ (m.st = .queued →
          (∀ p, u.plan g m = (t, .ok p) → t.cmdWatch g m = none → t.planRoom g m p = true →
            exec (.commandActivation (moveNo g 0) q) s = .next (t.beginPlan g m p))
          ∧ (∀ p i a, u.plan g m = (t, .ok p) → t.cmdWatch g m = some (i, a) → exec (.commandActivation (moveNo g 0) q) s =
              .next (((t.pull g i).failCmd g q m 0x08 a).cmdEntry g m fun e => { e with comparator := some i }))
          ∧ (∀ cause a, u.plan g m = (t, .error (.fault cause a)) →
            (cause ≠ 0x07 ∨ t.watchAt g m a = none → exec (.commandActivation (moveNo g 0) q) s = .next (t.failCmd g q m cause a))
            ∧ (cause = 0x07 → ∀ i, t.watchAt g m a = some i → exec (.commandActivation (moveNo g 0) q) s = .next
                (((t.pull g i).failCmd g q m cause a).cmdEntry g m fun e => { e with more := e.more ||| BitVec.ofNat 23 (2 ^ 0x08) })))
          ∧ (∀ va k f, u.plan g m = (t, .error (.park va k f)) →
            exec (.commandActivation (moveNo g 0) q) s = .next (act (t.recordFault g va k f true) .parked))
          ∧ (∀ a, u.plan g m = (t, .error (.poison a)) → exec (.commandActivation (moveNo g 0) q) s = .next (t.poisonCmd g m a))
          ∧ (u.plan g m = (t, .error .retry) → exec (.commandActivation (moveNo g 0) q) s = .next u)
          ∧ (∀ k ms, u.plan g m = (t, .error (.walk k ms)) → t.cmdWatch g m = none →
            exec (.commandActivation (moveNo g 0) q) s =
              .next ((act t (.walking k)).setWork g { (act t (.walking k)).work g with misses := ms })))))
    ∧ (∀ r, (s.work g).queue q = m :: r →
      (∀ p i tr k, g < Config.coreNumbers → m.st = .active p → s.engineRuns g q = true → i < p.moves.length → p.moves[i]? = some tr →
        let go := fun (tr : Transfer) => act s (.active { p with moves := listSet p.moves i tr })
        let move := exec (.commandActivation (moveNo g (k * p.moves.length + i + 1)) q) s
        (tr.ready = [] → tr.dsts ≠ [] → ∀ x xs rest, nextSrcs tr.srcs = (x :: xs, rest) →
          (∀ y ∈ x :: xs, s.srcReady g y = true) →
          let got := (x :: xs).foldl (fun (v : Moved) y => v.append (s.readSrc g y)) tr.got
          (∀ h off l, x = .spad h off l → move = .next (go { tr with srcs := rest, got := got }))
          ∧ (∀ pa l, x = .phys pa l → tr.srcs.head? = some x →
            (s.pieceTurn g pa = true → move = .next ((go { tr with srcs := rest, got := got }).served pa (s.tag g) 1))
            ∧ (s.pieceTurn g pa = false → move = .next s)))
        ∧ (∀ d, tr.ready[k % tr.ready.length]? = some d → s.dstReady g d.2.2 = true →
          let ds := tr.dsts.filter fun e => e.2.2.block == d.2.2.block
          let tr1 := { tr with dsts := tr.dsts.filter fun e => e.2.2.block != d.2.2.block }
          let n := sumOf (ds.map tr.counted)
          let done := fun (u : State) => if n = 0 then u else u.countBytes (u.tag g) n
          let put := fun (u : State) => u.mapCmd g m.id fun y => { y with st := .active (p.move i tr1) }
          (∀ e ∈ ds, s.dstFails g e.2.2 = none) →
          (∀ h off, d.2.2 = .spad h off → move = .next (done (put (s.putDsts g tr.got ds))))
          ∧ (∀ pa, d.2.2 = .phys pa → p.lines = [] → ds.head? = some d → s.pieceTurn g pa = true →
            (∀ e ∈ ds, (tr.got.part e.1 e.2.1).bad.any id = false) →
            let v := put (s.putDsts g tr.got ds)
            move = .next (done (v.served pa (v.tag g) 1)))
          ∧ (ds = [d] → s.putDsts g tr.got ds = s.putDst g d.2.2 (tr.got.part d.1 d.2.1))))
      ∧ (∀ w p k, g < Config.coreNumbers → m.st = .walking w → (s.work g).misses = [] → s.works g = true → s.plan g m = (t, .ok p) →
          t.cmdWatch g m = none → t.planRoom g m p = true → exec (.commandActivation (moveNo g (k + 1)) q) s = .next (t.beginPlan g m p))
      ∧ (∀ p off, m.st = .active p → m.body.bar = some off → 0 < p.credits m.body n → s.engineRuns g q = true →
          regionOk true (s.work g).power off false = true →
          let o := (readBar (s.work g).spad off).credit (p.credits m.body n)
          s.creditRoom g m off o.1 = true →
          let v := act (s.creditBar g m off o.1) (.active { p with owes := p.owes - p.credits m.body n })
          ((o.2 && o.1.te) = false → exec (.engineCredit g q n) s = .next v)
          ∧ ((o.2 && o.1.te) = true → m.attached = true → exec (.engineCredit g q n) s =
              .next (v.cmdEntry g m fun e => if e.cause = 0 then { e with cause := 0x0B, fault := BitVec.ofNat 64 off } else e)))
      ∧ (let ends := ((∀ w, m.body ≠ .fence w) ∧ m.st.ended = true ∧ s.engineRuns g q = true)
            ∨ ∃ w, m.body = .fence w ∧ (s.work g).fencePasses m w = true ∧ s.runs g = true
        ends →
          (s.lateEntry g m = none →
            exec (.commandCompletion g q) s = .next ((s.dropCmd g m.id).cmdEntry g m RingEntry.complete))
          ∧ (s.lateEntry g m ≠ none → exec (.commandCompletion g q) s =
              .next (((act s .faulted).cmdEntry g m fun e => { e with st := .faulted, finished := true }).holdBehind g m))))
    ∧ (∀ e es, (s.work g).misses = e :: es → s.requestRoom g = true → s.works g = true →
        exec (.tierMissEvent g) s = .next ((s.setWork g { s.work g with misses := es }).enqueue g ⟨.msg e, e.sctx, []⟩))

/-- MMA (R296) and its refusals (R290). -/
def Obligations.MmaPartials : Prop :=
  ∀ (x : Matrix) (shape fa fb : BitVec 3) (masked : Bool),
    let valid := if masked then x.rowMask else 255
    (shape = x.shape → fb = x.fmt → x.mmaPoison fa valid = false → ∃ y, x.mma shape fa fb masked = .ok y
      ∧ y.full = true ∧ y.pshape = shape ∧ y.pvalid = valid ∧ y.working = x.working ∧ y.visible = x.visible ∧ y.cells = x.cells
      ∧ y.rows = x.rows
      ∧ ∀ e, e < 16384 → y.partials.fp e = if valid.getLsbD (e / 2048) then
          (blockSum fa x.fmt (x.pairs fa (e / 2048) (e % 2048 / shapeN x.shape) (e % 2048 % shapeN x.shape))).1 % 2 ^ 32
        else x.partials.fp e)
    ∧ (shape ≠ x.shape ∨ fb ≠ x.fmt → x.mma shape fa fb masked = .error (.fault 0x15 0))

/-- In-network reductions (R236 to R238). That a contribution whose root the partition holds no longer is answered with a failure is the choice of log entry 90. -/
def Obligations.Reductions : Prop :=
  ∀ (s : State) (a b d : XReg) (k root : Nat) (q : Contribution), s.speculative s.cur.1 s.cur.2 = false →
    let g := s.cur.1
    let x := s.x a
    let slot := field x 18 4
    let key := s.tag q.g * 16 + q.slot
    let answered := fun (u : State) (ok : Bool) => u.withNet fun n => { n with
      nreds := Tab.drop n.nreds k, replies := Tab.put n.replies k (q.ack ok) }
    (s.groupRoot x = some root → s.requestRoom g = true →
      let s1 := s.fresh.enqueue g ⟨.nred ⟨s.nextId, root, slot, field x 24 16, s.me.vreg b.toNat, g, s.cur.2⟩, s.cur.2, s.me.pending⟩
      exec (.nred a b) s = .next ((s1.setMe { s1.me with acks := s1.me.acks ++ [s.nextId] }).retire 2))
    ∧ (s.groupRoot x = some root → s.requestRoom g = false → Holds (.nred a b) s (.blocked .sendQueue))
    ∧ (s.groupRoot x = none → Traps (.nred a b) s 0x04 0 ∧ Traps (.nredw d a) s 0x04 0)
    ∧ (s.groupRoot x = some root → root ≠ g → Traps (.nredw d a) s 0x04 0)
    ∧ (s.groupRoot x = some g → ∀ r rs, s.rounds g slot = r :: rs → r.c = r.n → 0 < r.c → s.roundWaiters g slot = [] →
        let s1 := s.setRounds (s.tag g) g slot rs
        exec (.nredw d a) s =
          .next ((s1.setMe (s1.me.setV d.toNat (Vector.ofFn fun i : Fin 64 => (r.lanes.get i).result))).retire 2))
    ∧ (s.groupRoot x = some g → s.rounds g slot = [] → Holds (.nredw d a) s (.waiting (.round slot d)))
    ∧ (Tab.find s.net.nreds k = some q →
      let on := (s.chip (chipOf q.root)).off = false
      let lives := on ∧ s.holds (s.tag q.g) q.root = true ∧ (s.core q.root).dbg.checked = false ∧ (s.core q.root).dbg.fenced = false
      (lives → ∀ l, joinRounds q.n q.v (Tab.look [] (s.core q.root).nred key) = some l →
        exec (.nredContribution k) s = .next ((answered (s.setRounds (s.tag q.g) q.root q.slot l) true).count (s.tag q.g) 6 1))
      ∧ (on → s.holds (s.tag q.g) q.root = false → exec (.nredContribution k) s = .next (answered s false)))

/-- R239: the result is the same for every order of arrival, because every addition is exact. -/
def Obligations.ReductionOrder : Prop :=
  ∀ (r : Round) (v w : VReg), (r.join v).join w = (r.join w).join v

/-- EQWAIT (R277), MSTAT (R302), TMAPSET (R5, R279), TBLLD (R149), and the order of a context with its own accesses (R240). That TBLLD executes when it issues is the reading of log entry 16, and that poison of what TBLLD and TMAPSET copy terminates nothing that of 110. -/
def Obligations.TablesAndStatus : Prop :=
  (∀ (s : State) (a : XReg) (q : BitVec 2) (i : BitVec 6),
    let g := s.cur.1
    let w := s.work g
    let p := if q = 0 then Queue.qc0 else if q = 1 then .qc1 else if q = 2 then .qg else .qm
    let mine := (w.queue .qm).filter fun m => m.attached && m.c == s.cur.2
    (w.queue p = [] → exec (.eqwait q) s = .next (s.retire 2))
    ∧ (w.queue p ≠ [] → Holds (.eqwait q) s (.waiting (.commands p ((w.queue p).map fun m => m.id))))
    ∧ (mine = [] → exec (.mstat a) s =
        .next (writeX (s.setWork g { w with matrix := { w.matrix with flags := 0 } }) 2 a w.matrixStatus))
    ∧ (mine ≠ [] → Holds (.mstat a) s (.waiting (.matrix (mine.map fun m => m.id))))
    ∧ (s.speculative g s.cur.2 = false →
        let x := s.x a
        let off := field x 0 19
        let bs := w.spad.bytes off 64
        let at_ := 0x78000 + 64 * i.toNat
        let cs := s.tmapCauses g s.me.sup x
        let hit := s.watchHit g s.cur.2 x.toNat 64 2
        let legal := (readTmap bs).legal = true
        let clash := s.clashes g s.cur.2 [(g, off, 64)]
        (cs = [] ↔ x.toNat % 16 = 0 ∧ x.getLsbD 23 = false ∧ ∃ l, s.imageAccess g s.me.sup (x &&& ~~~15) 4 0 = .ok l)
        ∧ (x.toNat % 16 ≠ 0 → (0x06, x) ∈ cs)
        ∧ (cs ≠ [] → hit = none → exec (.tmapset a i) s = .next (s.trapAll cs))
        ∧ (cs ≠ [] → ∀ n, hit = some n → exec (.tmapset a i) s = .next ((s.pull g n).trapAll (cs ++ [(0x08, x)])))
        ∧ (cs = [] → clash = true → Holds (.tmapset a i) s (.blocked .drain))
        ∧ (cs = [] → clash = false → ¬ legal → hit = none → Traps (.tmapset a i) s 0x04 0)
        ∧ (cs = [] → clash = false → legal → ∀ n, hit = some n → exec (.tmapset a i) s = .next (s.watchTrap 0x08 n x))
        ∧ (cs = [] → clash = false → legal → hit = none → ∃ t, exec (.tmapset a i) s = .next t
          ∧ (SpadsOk s → s.me.stepArm = false → t.me = (s.retire 2).me ∧ ∀ n, (t.work g).spad.get n =
              if at_ ≤ n ∧ n < at_ + 64 then
                (let j := n - at_
                if j < 46 ∨ j = 48 then bs.getD j 0 else if j = 46 then bs.getD j 0 &&& 3 else if j = 47 then bs.getD j 0 &&& 1 else 0)
              else w.spad.get n))))
  ∧ ∀ (s : State) (t : BitVec 5) (a : BitVec 6), NextFree s →
      let g := s.cur.1
      let base := baseReg s.me.x a
      s.speculative g s.cur.2 = false →
      (base.toNat % 16 ≠ 0 → Traps (.tblld t a) s 0x06 base)
      ∧ (base.toNat % 16 = 0 → s.clashes g s.cur.2 (s.blockSpans g base 65) = true → Holds (.tblld t a) s (.blocked .drain))
      ∧ (base.toNat % 16 = 0 → s.clashes g s.cur.2 (s.blockSpans g base 65) = false → s.me.stepArm = false →
          s.imageAccess g s.me.sup base 65 0 = .ok () → s.watchHit g s.cur.2 base.toNat 1040 2 = none →
          (s.work g).tables.wf = true →
          ∃ u, exec (.tblld t a) s = .next u ∧ SameBytes s u ∧ u.me.x = s.me.x ∧ u.me.v = s.me.v
            ∧ (∀ n, n < 1040 → ∀ h off, s.localTarget g (base + BitVec.ofNat 64 (16 * (n / 16))) = some (h, off) →
                (u.work g).tables.get (tableAt t.toNat + n) =
                  if 5 ≤ n ∧ n < 16 then 0 else (s.work h).spad.get (off + n % 16))
            ∧ (∀ n, n < tableAt t.toNat ∨ tableAt t.toNat + 1040 ≤ n → (u.work g).tables.get n = (s.work g).tables.get n)
            ∧ u.me.ring = s.me.ring ++ [{ s.me.newEntry (.tblld t a) 0 with st := .done, finished := true }])

/-- TLBINV (R259), TLBSYNC (R260), FBREAD and FBPOP (R257), REPLAYALL (R258), BMCINV (R339), XLATE (R262). That XLATE waits for the context's own accesses is the reading of log entry 27, and what TLBSYNC waits for that of 28. -/
def Obligations.TranslationInstructions : Prop :=
  ∀ (s : State) (a d : XReg) (b : BitVec 1) (w k : BitVec 2) (e : BitVec 3),
    let g := s.cur.1
    let t := s.tag g
    let x := s.x a
    let v := x.toNat % 2 ^ 57
    let l := (s.cluster g).faults.filter fun f => f.tag == t
    let removes := fun (i : Instr) (q : TlbEntry → Bool) =>
      (∃ u, exec i s = .next u) ∧ ∀ u, exec i s = .next u → s.me.stepArm = false →
        (∀ h, h / 2560 = g / 2560 → (∀ z ∈ (u.core h).itlb ++ (u.core h).dtlb ++ (u.cluster h).tlb, q z = false)
          ∧ ∀ z ∈ (s.core h).dtlb, q z = false → z ∈ (u.core h).dtlb)
    (s.me.sup = false → ∀ i ∈ [Instr.tlbinvPage a b, .tlbinvPart a b, .tlbinvAll, .tlbsync, .fbread d w e, .fbpop, .replayall,
        .bmcinv a], Traps i s 0x05 0)
    ∧ (s.me.sup = true →
      (canonical x = true → removes (.tlbinvPage a 0) fun z => z.tag == t && v / 2 ^ z.bits * 2 ^ z.bits == z.va)
      ∧ removes (.tlbinvPart a 0) (fun z => z.tag == t)
      ∧ ((s.part t).hyper = true → removes .tlbinvAll (fun _ => true)
        ∧ (x.toNat < 64 → removes (.tlbinvPart a 1) fun z => z.tag == x.toNat)
        ∧ (field x 6 6 = 0 → field x 56 8 = 0 → removes (.tlbinvPage a 1) fun z =>
            z.tag == field x 0 6 && field x 12 44 * 4096 / 2 ^ z.bits2 * 2 ^ z.bits2 == z.ia))
      ∧ ((s.part t).hyper = false → Traps .tlbinvAll s 0x05 0)
      ∧ (let waits := s.accessesBefore (g / 2560) s.me.inv = true ∨ s.anyCmd (g / 2560) t (fun m => m.usesBefore s.me.inv) = true
        (¬ waits → exec .tlbsync s = .next ((s.setMe { s.me with inv := 0 }).retire 2)) ∧ (waits → Holds .tlbsync s (.blocked .tlbsync)))
      ∧ exec (.fbread d 3 e) s = .next (writeX s 2 d (pack [(0, l.length), (4, bitOf ((s.cluster g).dropped.contains t))]))
      ∧ (w ≠ 3 → ∀ f, l[e.toNat]? = some f → exec (.fbread d w e) s = .next (writeX s 2 d (f.word w.toNat)))
      ∧ (w ≠ 3 → l[e.toNat]? = none → exec (.fbread d w e) s = .next (writeX s 2 d 0))
      ∧ exec .fbpop s = .next ((s.setCluster g { s.cluster g with
          faults := dropFirst (fun f => f.tag == t) (s.cluster g).faults }).retire 2)
      ∧ (s.me.drained = true →
          let q := s.cluster g
          let u := fun (n : List Nat) => (clusterCores g).foldl (fun u h => u.replayAt t h)
            (s.setCluster g { q with dropped := q.dropped.filter fun z => z != t, notice := n })
          (l = [] → exec .replayall s = .next ((u (q.notice.filter fun z => z != t)).retire 2))
          ∧ (l ≠ [] → exec .replayall s = .next (((u ((q.notice.filter fun z => z != t) ++ [t])).sendNotice g).retire 2)))
      ∧ (s.me.drained = false → Holds .replayall s (.blocked .drain))
      ∧ ((x = BitVec.allOnes 64 ∨ x.toNat % 4 = 0) →
        let named := fun (z : Nat) => x == BitVec.allOnes 64 || z == x.toNat
        let u := s.flushMaps (g / 2560) fun z => z.1 == t && named z.2.1
        let ids := (((u.chipWorks (g / 2560)).filter fun z => z.1 == t).flatMap fun z =>
          z.2.commands.filter fun m => m.gathersFrom named).map fun m => m.id
        (s.me.drained = false → Holds (.bmcinv a) s (.blocked .drain))
        ∧ (s.me.drained = true → ids = [] → exec (.bmcinv a) s = .next (u.retire 2))
        ∧ (s.me.drained = true → ids ≠ [] → exec (.bmcinv a) s = .next (u.hold (.blocked (.gathers ids)))))
      ∧ (x ≠ BitVec.allOnes 64 → x.toNat % 4 ≠ 0 → Traps (.bmcinv a) s 0x06 x))
    ∧ (s.me.drained = true →
      (∀ z, s.walk g (!s.me.sup) x (xlateKind k) = .ok z →
        exec (.xlate d a k) s = .next (writeX (s.chargeWalk g x) 2 d (pack [(0, z.pa + x.toNat % 2 ^ z.bits), (56, pageCode z.bits)])))
      ∧ ∀ f, s.walk g (!s.me.sup) x (xlateKind k) = .error f →
        exec (.xlate d a k) s = .next (writeX (s.chargeWalk g x) 2 d (pack [(0, f.why.toNat), (2, bitOf f.stage2), (3, f.level.toNat), (63, 1)])))
    ∧ (s.me.drained = false → Holds (.xlate d a k) s (.blocked .drain))

/-- The in-place route of R205 and R206, the frame of R212, the mask of R208. That the routine starts at slot 0 of the line that TRAPVEC names is the reading of log entry 5. -/
def Obligations.TrapEntry : Prop :=
  ∀ (s : State) (cause : Nat) (fault : Word), 0 < cause → cause < 23 → s.cur.2 < 24 → SpadsOk s → s.me.settled = true → s.me.replay = false →
    s.me.ring = [] → s.me.framed = [] → s.me.loops.length ≤ 4 → s.frameLive s.cur.1 (frameAddr s.cur.2) = false →
    (s.work s.cur.1).trapvec ≠ 0 →
    let t := s.trap cause fault
    let g := s.cur.1
    let f := 0x79000 + 0x400 * s.cur.2
    let word := fun n => (t.work g).spad.word (f + n)
    t.me.pc = entryPC (s.work g).trapvec ∧ t.me.sup = true ∧ t.me.loops = [] ∧ t.me.st = .ready
    ∧ t.me.cause.toNat = cause ∧ t.me.tseq = 0 ∧ t.me.settling = f
    ∧ t.me.x = s.me.x ∧ t.me.v = s.me.v ∧ t.me.p = s.me.p ∧ t.me.fpflags = s.me.fpflags ∧ t.me.rnd = s.me.rnd ∧ t.me.rng = s.me.rng
    ∧ t.me.vt = s.me.vt ∧ t.me.mbox = s.me.mbox
    ∧ word 0 = s.me.pc ∧ word 8 = fault
    ∧ field (word 0x18) 0 8 = cause ∧ (word 0x18).getLsbD 8 = false ∧ (word 0x18).getLsbD 9 = s.me.sup
    ∧ field (word 0x18) 10 5 = s.cur.2 ∧ (word 0x18).getLsbD 15 = true ∧ field (word 0x20) 8 6 = 0
    ∧ word 0x28 = BitVec.ofNat 64 (2 ^ cause) ∧ (∀ i : Fin 16, word (0x40 + 8 * i.val) = s.me.x[i])
    ∧ word 0x120 = BitVec.ofNat 64 s.me.loops.length
    ∧ (∀ a, t.mem.get a = s.mem.get a) ∧ (∀ a, (a < f ∨ f + 0x400 ≤ a) → (t.work g).spad.get a = (s.work g).spad.get a)
    ∧ (∀ h, h ≠ g → t.work h = s.work h) ∧ (∀ c, c ≠ s.cur.2 → t.ctx g c = s.ctx g c)

/-- The routes of R205, the wait of R210, and several causes at once (R208, R217). That a trap is only noted while stores, loads or AMOs are under way is the reading of log entry 9, and that its report enters the network at once the choice of 11. -/
def Obligations.TrapRoutes : Prop :=
  ∀ (s : State) (cause : Nat) (fault : Word), cause < 23 →
    let t := s.trap cause fault
    let g := s.cur.1
    let c := s.cur.2
    let f := 0x79000 + 0x400 * c
    let told := fun (double : Bool) => [BitVec.ofNat 64 f, pack [(0, c), (5, bitOf double)], BitVec.ofNat 64 cause, s.me.pc]
    (s.me.settled = false ∨ s.me.replay = true → OnlyMe s t ∧ SameBytes s t ∧ t.me = { s.me with trap := some (s.trapInfo cause fault), st := .ready })
    ∧ (s.me.settled = true → s.me.replay = false → s.me.ring = [] → (s.handler g 0).valid = true → s.me.role ≠ .handler 0 →
      (s.frameLive g f = true → SameBytes s t ∧ t.me.st = .waiting .settle ∧ t.me.pc = s.me.pc ∧ t.me.settling = f
        ∧ Tab.find t.net.msgs s.nextId = some (s.bearing ((s.deviceMsg g c g 0 (told true)).marked s.nextId)))
      ∧ (s.frameLive g f = false → (s.work g).trapvec = 0 → t.me.st = .waiting .settle ∧ t.me.pc = s.me.pc ∧ t.me.settling = f
        ∧ Tab.find t.net.msgs s.nextId = some (s.bearing ((s.deviceMsg g c g 0 (told false)).marked s.nextId))))
    ∧ (s.me.settled = true → s.me.replay = false → (s.handler g 0).valid = false → (s.frameLive g f = true ∨ (s.work g).trapvec = 0) →
        (t.part (s.tag g)).resetDue = true)
    ∧ ∀ (cs : List (Nat × Word)) (i : Nat) (a : Word), cs ≠ [] → (∀ e ∈ cs, e.1 < 23) →
        let taken := fun (u : State) (ds : List (Nat × Word)) (v : State) => ∃ e ∈ ds, (∀ d ∈ ds, e.1 ≤ d.1) ∧ ∃ m : BitVec 23,
          (∀ n, n < 23 → (m.getLsbD n = true ↔ ∃ d ∈ ds, d.1 = n)) ∧ v = u.takeTrap g c { u.trapInfo e.1 e.2 with mask := m }
        taken s cs (s.trapAll cs)
        ∧ taken s (cs.map fun e => (e.1, a)) (s.accessTrap (cs.map fun e => e.1) none a)
        ∧ taken (s.pull g i) ((cs.map fun e => (e.1, a)) ++ [(0x08, a)]) (s.accessTrap (cs.map fun e => e.1) (some i) a)

/-- Entry (R205, R206, R212) and return (R216) are inverse where the routine changes nothing. -/
def Obligations.TrapThenEret : Prop :=
  ∀ (s : State) (cause : Nat) (fault : Word), 0 < cause → cause < 23 → s.cur.2 < 24 → SpadsOk s → s.me.settled = true → s.me.replay = false →
    s.me.ring = [] → s.me.framed = [] → s.me.loops.length ≤ 4 → s.frameLive s.cur.1 (frameAddr s.cur.2) = false →
    (s.work s.cur.1).trapvec ≠ 0 → s.me.pc.getLsbD 0 = false →
    ∃ u, exec .eret (s.trap cause fault) = .next u ∧ u.cur = s.cur ∧ u.me.pc = s.me.pc ∧ u.me.st = .ready ∧ u.me.x = s.me.x
      ∧ u.me.loops = s.me.loops ∧ u.me.sup = s.me.sup ∧ u.me.v = s.me.v ∧ u.me.p = s.me.p ∧ u.me.fpflags = s.me.fpflags
      ∧ u.me.rnd = s.me.rnd ∧ u.me.rng = s.me.rng ∧ u.me.vt = s.me.vt ∧ u.me.mbox = s.me.mbox
      ∧ u.frameLive s.cur.1 (frameAddr s.cur.2) = false ∧ ∀ a, u.mem.get a = s.mem.get a

/-- TRAP and BRK (R214), RESUME (R215), ERET (R216), and the steps of a context (R13, R66, R79, R209, R210, R219, R255). The loop end check before the frame of TRAP, and the single step over TRAP with the lower code and both mask bits, are the reading of log entry 82; the order of replays is that of 111, and a parked context that takes a late trap at once the choice of 124. -/
def Obligations.TrapInstructions : Prop :=
  ∀ (s : State) (g c : Nat) (a : XReg) (code : BitVec 10) (q : BitVec 8),
    let k := s.ctx g c
    let x := s.x a
    let live := fun (n : Nat) => s.frameLive s.cur.1 (frameAddr n) = true
    (let e := endCheck s.me.loops s.me.pc (nextSeq s.me.pc 2)
      let u := s.setMe { s.me with
        pc := e.1, loops := e.2, ibuf := s.me.bufferAt e.1, arrived := none, watchOff := false, chunk := s.me.chunk + 1 }
      (s.me.stepArm = false → exec (.trap code) s =
        .next (u.takeTrap s.cur.1 s.cur.2 { s.trapInfo 0x14 0 with resume := e.1, code := code }))
      ∧ (s.me.stepArm = true → exec (.trap code) s = .next (u.takeTrap s.cur.1 s.cur.2
        { s.trapInfo 0x12 0 with resume := e.1, code := code, mask := BitVec.ofNat 23 (2 ^ 0x12 + 2 ^ 0x14) })))
    ∧ exec (.brk code) s = .next (s.takeTrap s.cur.1 s.cur.2 { s.trapInfo 0x13 0 with code := code })
    ∧ (s.me.sup = false → Traps (.resume a) s 0x05 0 ∧ Traps .eret s 0x05 0)
    ∧ (s.me.sup = true →
      (frameOwner x = none → Traps (.resume a) s 0x04 0)
      ∧ (frameOwner (BitVec.ofNat 64 s.me.settling) = none → Traps .eret s 0x04 0)
      ∧ (∀ n, frameOwner x = some n → ¬ live n → Traps (.resume a) s 0x04 0)
      ∧ (∀ n, frameOwner (BitVec.ofNat 64 s.me.settling) = some n → (¬ live n ∨ (s.frameWord s.cur.1 (frameAddr n) 0).getLsbD 0 = true) →
        Traps .eret s 0x04 0)
      ∧ (∀ n, frameOwner (BitVec.ofNat 64 s.me.settling) = some n → live n →
          (s.frameWord s.cur.1 (frameAddr n) 0).getLsbD 0 = false → field (s.frameWord s.cur.1 (frameAddr n) 0x120) 0 3 ≤ 4 →
          field (s.frameWord s.cur.1 (frameAddr n) 0x20) 8 6 = 0 → n ≠ s.cur.2 → s.me.drained = false → Holds .eret s (.blocked .drain))
      ∧ ∀ n, frameOwner x = some n → live n → field (s.frameWord s.cur.1 (frameAddr n) 0x120) 0 3 ≤ 4 → (s.ctx s.cur.1 n).framed = [] →
        let w := s.work s.cur.1
        let t := s.setWork s.cur.1 { w with
          spad := w.spad.putWord (frameAddr n + 0x18) (w.spad.word (frameAddr n + 0x18) ||| 0x10000) }
        exec (.resume a) s = .next ((t.setMe { t.me with settling := frameAddr n }).retire 2))
    ∧ (∀ e, (k.ring.find? fun e => e.seq == q) = some e →
      (e.st = .done → exec (.ringEntryComplete g c q) s =
        .next (s.setCtx g c { k with ring := dropFirst (fun x => x.seq == q) k.ring }))
      ∧ (e.st = .faulted → k.trap = none → exec (.ringEntryComplete g c q) s =
        .next (s.setCtx g c { k with trap := some (lateInfo e k.pc) }))
      ∧ (e.st = .running → s.works g = true →
        (e.records = [] → exec (.ringEntryComplete g c q) s = .next s)
        ∧ (∀ d a b p f, e.instr = .vcvtn d a b p f → ∀ z zs, e.records = z :: zs →
          exec (.ringEntryComplete g c q) s = .next (s.appendRecord g c e z))
        ∧ (∀ d a b p f n, e.instr = .vcvtnCounter d a b p f n → e.records ≠ [] → e.pieces = [] →
          exec (.ringEntryComplete g c q) s = .next (s.askSlot g c (counterKey (s.tag g) (chipOf g) n.toNat) e.seq))))
    ∧ (∀ t, k.trap = some t → k.settled = true → k.mustReturn = false → s.runs g = true → (k.replay = true → s.nextReplay g c = none) →
      exec (.trapEntry g c) s = .next (s.enterTrap g c (if t.late then { t with resume := k.pc } else t)))
    ∧ (let limit := (s.work g).wdlimit.toNat * 1024
      limit ≠ 0 → k.role ≠ .free → limit ≤ k.watch →
        (k.watchTrap = true → exec (.watchdog g c) s = .next (s.resetPart g))
        ∧ (k.watchTrap = false → k.sup = false → k.mustReturn = false →
          (k.trap = none → (k.st = .ready ∨ ∃ b, k.st = .blocked b) → exec (.watchdog g c) s = .next (s.as g c fun t => t.trap 0x11))
          ∧ ∀ t, k.trap = some t →
            let low := t.late = true ∨ 0x11 < t.cause.toNat
            ∃ z : TrapInfo, exec (.watchdog g c) s = .next (s.setCtx g c { k with trap := some z }) ∧ z.mask = t.mask ||| BitVec.ofNat 23 (2 ^ 0x11)
              ∧ (low → z.cause = 0x11 ∧ z.late = false ∧ z.resume = k.pc) ∧ (¬ low → z = { t with mask := z.mask })))
    ∧ (k.role ≠ .free → s.waitOver g c k = true → s.runs g = true →
      let u := s.setCtx g c { k with st := .ready, since := s.cycle g, age := s.cycle g, bump := 0 }
      (∀ va, k.st = .waiting (.join va) → exec (.waitWake g c) s = .next u)
      ∧ (∀ slot d, k.st = .waiting (.round slot d) → exec (.waitWake g c) s = .next (u.as g c fun t => t.takeRound slot d))
      ∧ ((∃ b p, k.st = .waiting (.phase b p)) ∨ (Unlogged s g ∧ (k.st = .waiting .over ∨ ∃ y n, k.st = .waiting (.pennant y n)))
          ∨ (∃ y l, k.st = .waiting (.commands y l)) ∨ (∃ ch, k.st = .blocked (.unbind ch)) ∨ (∃ l, k.st = .blocked (.gathers l)) → exec (.waitWake g c) s = .next (u.as g c fun t => t.retire 2)))
    ∧ (k.role ≠ .free → k.st = .ready → k.age + 256 * (k.bump + 1) ≤ s.cycle g → k.bump < s.base g c →
      exec (.classPromotion g c) s = .next (s.setCtx g c { k with bump := k.bump + 1 }))
    ∧ (k.role ≠ .free → k.st = .ready → k.trap = none → s.runs g = true → exec (.fetchLine g c) s = .next (s.fetchFor g c).1)
    ∧ (k.replay = true → k.role ≠ .free → s.runs g = true →
      (k.st = .parked → k.parked = .instr → exec (.contextReplay g c) s = .next (s.setCtx g c { k with
          st := .ready, parked := .none, since := s.cycle g, age := s.cycle g, bump := 0, arrived := none,
          replay := k.ring.any fun x => x.st == .held }))
      ∧ (k.st ≠ .parked →
        (∀ e, s.nextReplay g c = some e → exec (.contextReplay g c) s = .next (s.rerun g c e))
        ∧ (s.nextReplay g c = none → s.replayDone g c = true →
          exec (.contextReplay g c) s = .next (s.setCtx g c { k with replay := false, arrived := none }))))

/-- LAUNCH (R100), FORK (R86, R87), JOIN (R89), BAR (R91), HALT (R92, R93), MIGRATE (R97, R98). That a misaligned join record sets the bit of 0x06 beside those of the other causes is the reading of log entry 17, that JOIN reads the count at its home at each look that of 68, and that MIGRATE goes from a safe event that of 64. -/
def Obligations.WorkInstructions : Prop :=
  ∀ (s t : State) (a : XReg) (d m : BitVec 16) (k : BitVec 6) (pa dst : Nat),
    let g := s.cur.1
    let c := s.cur.2
    let x := s.x a
    let w := s.work g
    let calm := fun (u : State) => u.me.vectorsDone = true ∧ u.me.drained = true ∧ u.requestRoom g = true ∧ u.me.cur = none
      ∧ u.me.event = none ∧ u.me.banks = none ∧ u.cur = s.cur
    let gone := fun (u : State) => u.free g c
    let sent := fun (u : State) => gone (u.enqueue g ⟨.msg (u.message g c dst
          (pack [(0, (u.logical (u.tag g) (dst / 2560)).idxOf (dst % 2560)), (12, dst / 2560)]) 5
          (u.me.migration (nextSeq u.me.pc 2) m) [] false false 0), c, []⟩)
    (s.speculative g c = false →
      (x.toNat % 128 ≠ 0 → Traps (.launch a) s 0x06 x)
      ∧ (x.toNat % 128 = 0 →
        (s.me.drained = false → Holds (.launch a) s (.blocked .drain))
        ∧ (s.me.drained = true → s.reach (s.tag g) 0 0 = none → Traps (.launch a) s 0x04 0)
        ∧ (s.me.drained = true → s.reach (s.tag g) 0 0 = some dst →
          (s.requestRoom g = false → Holds (.launch a) s (.blocked .sendQueue))
          ∧ (s.requestRoom g = true → exec (.launch a) s =
            .next ((s.enqueue g ⟨.msg (s.message g c dst 0 1 (wordBytes x) [] false false 0), c, []⟩).retire 2))))
      ∧ (x.toNat % 16 ≠ 0 →
        (s.globalAccess g c x .amo 4 true false = (t, .ok pa) →
          exec (.fork a d) s = .next (t.accessTrap [0x06] (s.watchHit g c x.toNat 4 (Access.kinds .amo)) x))
        ∧ (s.globalAccess g c x .read 4 true false = (t, .ok pa) →
          exec (.join a) s = .next (t.accessTrap [0x06] (s.watchHit g c x.toNat 4 (Access.kinds .read)) x))
        ∧ ∀ cs i ad,
          let all := if 0x06 ∈ cs then cs else 0x06 :: cs
          (s.globalAccess g c x .amo 4 true false = (t, .error (.fail cs i ad)) → exec (.fork a d) s = .next (t.stop (.fail all i ad)))
          ∧ (s.globalAccess g c x .read 4 true false = (t, .error (.fail cs i ad)) → exec (.join a) s = .next (t.stop (.fail all i ad))))
      ∧ (x.toNat % 16 = 0 → s.globalAccess g c x .amo 4 true false = (t, .ok pa) → s.requestRoom g = true → w.dequeRoom = true →
          let u := t.joinAdd pa 1 true
          let f := u.me.forked (s.me.pc + BitVec.ofInt 64 (2 * d.toInt)) x
          exec (.fork a d) s = .next ((((u.setMe f.2).pushDeque g f.1).workFound g).retire 2))
      ∧ (∀ e : DequeEntry, (w.deque.length < 64 → s.pushDeque g e = s.setWork g { w with deque := w.deque ++ [e] })
        ∧ ∀ old r, w.deque = old :: r → 64 ≤ w.deque.length → s.pushDeque g e =
            ({ s with mem := s.mem.store (s.oxbowAddr g (128 * ((w.spillTop + w.spilled) % 8192))) old.bytes } : State).setWork g
              { w with deque := r ++ [e], spilled := w.spilled + 1 })
      ∧ (x.toNat % 16 = 0 → s.globalAccess g c x .read 4 true false = (t, .ok pa) →
        (s.me.drained = false → Holds (.join a) s (.blocked .loads))
        ∧ (s.me.drained = true → s.physPoison pa 4 = true → exec (.join a) s = .next (s.terminate g c 1 x))
        ∧ (s.me.drained = true → s.physPoison pa 4 = false →
          (t.countZero g pa = true → exec (.join a) s = .next (t.retire 2))
          ∧ (t.countZero g pa = false → exec (.join a) s = .next (t.hold (.waiting (.join x))))))
      ∧ (Unlogged s g → calm s → s.me.role ≠ .child → s.me.join = 0 →
        exec .halt s = .next ((gone s).strandHalted g none s.me.role)
        ∧ exec .haltCompact s = .next ((gone s).strandHalted g none s.me.role)
        ∧ exec (.haltK k) s = .next ((gone s).strandHalted g (some k) s.me.role)))
    ∧ ((∀ id j, s.me.role ≠ .strand id j) → Traps .bar s 0x04 0)
    ∧ (∀ id j q, s.me.role = .strand id j → Tab.find w.crews id = some q → q.arrived.contains j = false →
      (s.me.drained = false → Holds .bar s (.blocked .drain))
      ∧ (s.me.drained = true → exec .bar s = .next (((s.setWork g { w with
          crews := Tab.put w.crews id { q with arrived := q.arrived ++ [j] } }).hold (.waiting .barrier)).openBar g id)))
    ∧ (s.mayMigrate = false → Traps (.migrate a m) s 0x04 0 ∧ Traps (.migrateHome a m) s 0x04 0)
    ∧ (s.mayMigrate = true →
      (2 ^ 18 ≤ x.toNat → Traps (.migrate a m) s 0x04 0)
      ∧ (x.toNat < 2 ^ 18 → s.reach (s.tag g) (field x 12 6) (field x 0 12) = none → Traps (.migrate a m) s 0x04 0)
      ∧ (x.toNat < 2 ^ 18 → s.reach (s.tag g) (field x 12 6) (field x 0 12) = some dst →
        (calm s → exec (.migrate a m) s = .next (sent s))
        ∧ (s.me.vectorsDone = true → s.me.drained = false → Holds (.migrate a m) s (.blocked .drain)))
      ∧ (s.translate g (!s.me.sup) x .read = (t, .ok pa) →
        (vaultCore pa = none → exec (.migrateHome a m) s = .next (t.trap 0x04))
        ∧ (vaultCore pa = some dst → s.holds (s.tag g) dst = true → (s.core dst).dbg.fenced = false →
          (s.core dst).dbg.checked = false → calm t → exec (.migrateHome a m) s = .next (sent t))))

/-- The start of a crew (R69, R74), its image (R264) and its return (R265). The start at slot 0 of the entry line is the reading of log entry 5, and what a frame or a JOIN context of the crew does in an image is the choice of 95. -/
def Obligations.CrewStart : Prop :=
  (∀ (s : State) (g v : Nat) (gr : Grid) (b : Nat) (w : Work), (s.work g).allot gr.launch.banks = some (b, w) →
    gr.launch.s ≤ s.freeCount g →
    let t := s.startCrew g v gr
    ∃ q, Tab.find (t.work g).crews s.nextId = some q ∧ q.ctxs.length = gr.launch.s ∧ q.ctxs.Nodup ∧ q.index = BitVec.ofNat 64 v
      ∧ q.arrived = [] ∧ q.halted = [] ∧ q.bank = b
      ∧ (∀ c ∈ q.ctxs, c < 24 ∧ (s.ctx g c).role = .free)
      ∧ (∀ j < gr.launch.s, ∃ c, q.ctxs[j]? = some c ∧
          let k := t.ctx g c
          k.role = .strand s.nextId j ∧ k.st = .ready ∧ k.sup = false ∧ k.pc = entryPC gr.launch.entry ∧ k.x[1] = BitVec.ofNat 64 v
          ∧ k.x[2] = BitVec.ofNat 64 j ∧ k.x[3] = BitVec.ofNat 64 gr.launch.n ∧ k.x[4] = allotAddr b gr.launch.banks
          ∧ k.x[5] = allotSize gr.launch.banks ∧ k.mbox = gr.launch.mbox)
      ∧ ∀ c, c ∉ q.ctxs → t.ctx g c = s.ctx g c)
  ∧ ∀ (s : State) (g k n : Nat) (q : Crew) (i : SwapImage), q.bank + q.n ≤ 14 → SpadsOk s → s.mem.wf = true →
      let w := s.work g
      let at_ := fun (n : Nat) => vaultAddr g (field w.oxbow 23 15 * 2 ^ 23 + 0x360000 + n * 0x100000)
      (firstBelow (fun n => (Tab.find w.swapped n).isNone) 4 = some n → s.movable g q = true →
        let cs := s.strands g k q
        let v := s.swapOut g k q
        (∃ j, Tab.find (v.work g).swapped n = some j ∧ j.number = k ∧ j.crew = q ∧ j.since = s.cycle g ∧ j.ready = false
          ∧ j.cmds = w.crewCommands k ∧ j.poison = w.bankPoison q.bank q.n)
        ∧ Tab.find (v.work g).crews k = none ∧ (v.work g).power = w.power &&& ~~~bankMask q.bank q.n
        ∧ (∀ c ∈ cs, (v.ctx g c).role = .free) ∧ (∀ c, c ∉ cs → v.ctx g c = s.ctx g c)
        ∧ (∀ b, b < 0x8000 * q.n → v.mem.get (at_ n + 0x41000 + b) = w.spad.get (0x8000 * q.bank + b))
        ∧ v.mem.word (at_ n) = q.index ∧ v.mem.word (at_ n + 8) = pack [(0, q.grid.counter % 4096), (12, q.grid.counter / 4096 % 64)]
        ∧ v.mem.word (at_ n + 0x10) = pack [(0, q.ctxs.length), (8, q.bank), (12, q.n)]
        ∧ v.mem.word (at_ n + 0x20) = BitVec.ofNat 64 (s.cycle g) ∧ v.mem.word (at_ n + 0x28) = 2)
      ∧ (i.crew = q → let v := s.readmit g n i
        Tab.find (v.work g).swapped n = none ∧ (v.work g).power = w.power ||| bankMask q.bank q.n
        ∧ (∃ j, Tab.find (v.work g).crews i.number = some j ∧ j.index = q.index ∧ j.grid = q.grid ∧ j.bank = q.bank ∧ j.n = q.n
          ∧ j.arrived = q.arrived ∧ j.halted = q.halted ∧ j.keep = q.keep)
        ∧ (∀ b, b < 0x8000 * q.n → (v.work g).spad.get (0x8000 * q.bank + b) = s.mem.get (at_ n + 0x41000 + b))
        ∧ (∀ p ∈ i.poison, p ∈ (v.work g).poison) ∧ v.mem.word (at_ n + 0x28) = 0)

/-- The dispatchers (R72, R74, R75, R362), retained banks (R93), stealing (R86, R88), JOIN (R90), migration (R99), crew swap (R264, R265, R267), arrival slots (R145). The empty answer of the router of an evicted or foreign core is the choice of log entry 97, the order of JOIN contexts that of 96, the generator of a migrant carried as 0 the reading of 123, and the privileges of the dispatcher that of 44. What swapOut and readmit leave is stated with the start of crews. -/
def Obligations.WorkEvents : Prop :=
  ∀ (s u : State) (t g k c n : Nat) (m : Msg) (l : Launch) (gr : Grid) (q : Crew) (e : DequeEntry) (i : SwapImage),
    let w := s.work g
    let p := s.part t
    (p.markDue ≠ 0 → s.journals t = false →
      exec (.jfenceMark t) s = .next (s.setPart t { p with deltas := Tab.put p.deltas 0 (p.markDue - 1) }))
    ∧ (w.ejected k = some m → m.channel = 1 → s.serves g = true → w.freeSlot = some n →
      let v := s.fillSlot g n m
      (∀ d, s.dispatchCore (s.tag g) = some d → d ≠ g → exec (.launchForward g k) s =
        .next ((v.setWork g ((v.work g).take .ejection k)).inject { m with d0 := m.d0 &&& ~~~0x3FFFF, dst := d }))
      ∧ (s.dispatchCore t = some g → ((w.ejection.take k).any fun q => q.channel == 1) = false → p.waiting = none →
        exec (.launchMessage t k) s = .next ((v.consume g k m).launch t (m.word 0))))
    ∧ (let addr := m.d0
      let r := s.readVirt (s.dispatcher t) false addr 128
      (addr.toNat % 128 ≠ 0 → s.launch t addr = s.rejectLaunch t addr 0 2)
      ∧ (addr.toNat % 128 = 0 → (∀ f, r.2 = .error f → s.launch t addr = r.1.rejectLaunch t addr 0 1)
        ∧ ∀ bs, r.2 = .ok bs →
          let l := readLaunch addr bs
          let domain := numAt bs 17 1
          (r.1.targetOk t l.target = false → s.launch t addr = r.1.rejectLaunch t addr l.cookie 0)
          ∧ (r.1.targetOk t l.target = true → launchLegal l domain = false → s.launch t addr = r.1.complete t l 1)
          ∧ (launchLegal l domain = true ↔
              entryAligned l.entry = true ∧ l.n < 2 ^ 47 ∧ 1 ≤ l.s ∧ l.s ≤ 16 ∧ domain ≤ 3 ∧ l.banks ≤ 14)
          ∧ (r.1.targetOk t l.target = true → launchLegal l domain = true → r.1.journals t = false → l.n ≠ 0 →
            (∀ v, r.1.startGrid t l = some v → s.launch t addr = v)
            ∧ (r.1.startGrid t l = none → s.launch t addr = r.1.setPart t { r.1.part t with waiting := some l }))))
    ∧ (p.waiting = some l → s.startGrid t l = some u → exec (.dispatchRetry t) s = .next (u.setPart t { u.part t with waiting := none }))
    ∧ (Tab.find s.net.descs k = some (g, gr) → (s.net.descs.any fun x => decide (x.1 < k) && x.2.1 == g) = false →
      exec (.gridDescriptor k) s = .next ((s.withNet fun z => { z with descs := Tab.drop z.descs k }).mapFor (gr.counter / 2 ^ 18) g
        fun w => { w with grids := w.grids ++ [gr] }))
    ∧ (s.nextJob g = some .crew →
      (∀ v, w.claim = some (.got v gr) → exec (.crewAdmission g) s =
        .next (((s.setWork g { w with claim := none }).startCrew g v gr).workFound g))
      ∧ (w.claim = none → w.nextGrid = some gr → exec (.crewAdmission g) s =
        .next ((s.setWork g { w with claim := some (.asked gr) }).enqueue g
          ⟨.op ⟨g, 31, s.tag g, gr.counter, .token, 0, .wire 0, [], .crew, s.cycle g⟩, 31, []⟩)))
    ∧ (Tab.find w.crews k = some q → q.halted.length = q.ctxs.length → w.crewBusy k = false → s.requestRoom g = true →
      let v := s.setWork g { w.leaveBanks q.keep q.bank q.n (s.cycle g) with crews := Tab.drop w.crews k }
      exec (.crewDone g k) s = .next (v.enqueue g ⟨.op ⟨g, 31, v.tag g, q.grid.done, .token, 0, .wire 0, [], .done, s.cycle g⟩, 31, []⟩))
    ∧ (∀ r, w.retained[k]? = some r → r.met = false → bankMask r.bank r.n &&& w.lpBanks = 0 → r.since + 2 ^ 20 ≤ s.cycle g →
      exec (.retainTimeout g k) s = .next (s.setWork g (({ w with retained := w.retained.eraseIdx k } : Work).powerDown r.bank r.n)))
    ∧ (∀ r x, p.runs[k]? = some r → s.counter t r.done = some x → x.raised 0 = true → s.quiescent t r.done = true →
      s.quiescent t r.counter = true →
      let s1 := ((s.freeCounter t r.counter).freeCounter t r.done).complete t r.launch 0
      let s2 := s1.setPart t (({ s1.part t with runs := (s1.part t).runs.eraseIdx k } : Partition).sent r.launch.jid)
      exec (.gridCompletion t k) s = .next (s2.tellEnd r.counter (s2.partCores t)))
    ∧ (Tab.find s.net.ends k = some (g, n) → (s.net.descs.any fun x => decide (x.1 < k) && x.2.1 == g && x.2.2.counter == n) = false →
      exec (.gridEnd k) s = .next ((s.withNet fun z => { z with ends := Tab.drop z.ends k }).mapFor (n / 2 ^ 18) g fun w =>
        { w with grids := w.grids.filter fun q => q.counter != n }))
    ∧ (s.popBottom g = some (e, u) → s.freeCtx g = some c → s.nextJob g = some .child →
      let v := (u.workFound g).setCtx g c (childStart e (u.cycle g))
      (e.bad = [] → exec (.forkChildStart g) s = .next v) ∧ (e.bad ≠ [] → exec (.forkChildStart g) s = .next (v.terminate g c 1 e.entry)))
    ∧ (∀ v, (s.victims g)[w.steal.tried]? = some v → s.idleThief g = true → s.requestRoom g = true → w.steal.notBefore ≤ s.cycle g →
      exec (.stealRequest g) s = .next ((s.setWork g { w with steal := { w.steal with asked := some v, stale := false } }).enqueue g ⟨.steal v, 31, []⟩))
    ∧ (Tab.find s.net.steals k = some (n, g) →
      let v := s.withNet fun z => { z with steals := Tab.drop z.steals k }
      (s.takes g (s.tag n) = false → exec (.stealServe k) s = .next (v.inject (s.stealMsg g n none)))
      ∧ (s.takes g (s.tag n) = true → s.tag g = s.tag n → s.runs g = true → s.requestRoom g = true →
        (w.dequeSize = 0 → exec (.stealServe k) s = .next (v.enqueue g ⟨.msg (s.stealMsg g n none), 31, []⟩))
        ∧ (∀ r, w.spilled = 0 → w.deque = e :: r →
          (inDomain e.domain.toNat g n = true → exec (.stealServe k) s =
            .next ((v.setWork g { w with deque := r }).enqueue g ⟨.msg (s.stealMsg g n (some e)), 31, []⟩))
          ∧ (inDomain e.domain.toNat g n = false → exec (.stealServe k) s =
            .next (v.enqueue g ⟨.msg (s.stealMsg g n none), 31, []⟩)))))
    ∧ (s.stealReply k = some (g, n, m) →
      (m.payload = [] →
        let v := s.consume g n m
        let z := (v.work g).steal
        exec (.stealReply k) s = .next (v.setWork g { v.work g with
          steal := if z.stale then { z with asked := none, stale := false } else
            ⟨none, false, z.tried + 1, if (s.victims g).length ≤ z.tried + 1 then s.cycle g + 1024 else z.notBefore⟩ }))
      ∧ (∀ z, m.payload ≠ [] → s.freeCtx g = some c → w.freeSlot = some z → s.nextJob g = some (.stolen k) →
        let v := (s.fillSlot g z m).consume g n m
        let v1 := (v.setWork g { v.work g with steal := ⟨none, false, 0, 0⟩ }).setCtx g c (childStart (readEntry m.payload) (s.cycle g))
        (m.bad = [] → exec (.stealReply k) s = .next v1)
        ∧ (m.bad ≠ [] → exec (.stealReply k) s = .next (v1.terminate g c 1 (readEntry m.payload).entry))))
    ∧ (s.idleThief g = true → w.steal.notBefore ≤ s.cycle g → (s.victims g).length ≤ w.steal.tried → 0 < w.steal.tried →
      exec (.stealRound g) s = .next (s.setWork g { w with steal := { w.steal with tried := 0 } }))
    ∧ (s.longest g (s.joiners g) = some c → s.freeCtx g = none → w.oxbow.getLsbD 0 = true → s.serves g = true →
      (s.ctx g c).ring = [] → (s.ctx g c).settled = true → Tab.find w.joinOut c = none →
      let v := (s.setWork g { w with joinOut := Tab.put w.joinOut c (s.packCtx g c) }).liftFrame g c
      v.popBottom g = some (e, u) → e.bad = [] → exec (.joinSwapOut g) s = .next (u.setCtx g c (childStart e (u.cycle g))))
    ∧ (∀ x va, Tab.find w.joinOut k = some x → s.freeCtx g = some c → x.st = .waiting (.join va) → s.joined g x va = true →
      s.serves g = true → exec (.joinReadmit g k) s = .next ((s.setWork g { w with joinOut := Tab.drop w.joinOut k }).putBack g c x))
    ∧ (w.ejected k = some m → s.freeCtx g = some c → w.freeSlot = some n → s.nextJob g = some (.migration k) →
      let v := (((s.fillSlot g n m).consume g k m).setCtx g c (migrant m.payload (s.cycle g))).workFound g
      (m.bad = [] → exec (.migrationArrival g k) s = .next v)
      ∧ (m.bad ≠ [] → exec (.migrationArrival g k) s = .next (v.terminate g c 1 0)))
    ∧ (Tab.find w.crews k = some q → s.swapWanted g k = true → s.canLeave g k q = true → s.serves g = true →
      exec (.crewSwapOut g k) s = .next (s.swapOut g k q))
    ∧ (w.swaps = true → s.starved g = true → s.serves g = true → s.crewsIdle g = true →
      s.oldestCrew g (w.crews.filter fun e => !(s.strands g e.1 e.2).isEmpty && s.movable g e.2) = some (k, q) →
      s.canLeave g k q = true → exec (.idleCrewSwap g) s = .next (s.swapOut g k q))
    ∧ (s.nextJob g = some (.readmit n) → Tab.find w.swapped n = some i →
      exec (.crewReadmission g) s = .next ((s.readmit g n i).workFound g))

/-- Eviction (R357), restore (R360), reset (R361), the journal (R362), tenant counts (R354), registers (R226, R314, R349), weirs (R352, R353), walks (R247, R249). Choices and deductions of the model here: the parts of an image and their layout (log entry 45), the messages that a restore sends again (46), what a reset keeps and when one that renumbers happens (47), the journal entries that are launched again (48), one floor for every agent (91), the arrival of a request at its weir (7), walks that are served at once (107), the start of the evict routine (81, 127). -/
def Obligations.PartitionEvents : Prop :=
  ∀ (s : State) (g t i off : Nat) (v va : Word) (kd : BitVec 2),
    let k := s.core g
    let p := s.part t
    let acc : Access := if kd = 0 then .read else if kd = 1 then .write else if kd = 2 then .fetch else .amo
    (k.evicting = none → s.canEvict g = true → exec (.eviction g) s = .next (s.setCore g { k with evicting := some .stopping }))
    ∧ (k.evicting = some .stopping → s.stopped g = true → (s.cluster g).halted = false → (s.cluster g).ftest.getLsbD 0 = false →
      let w := k.work.stopEngines
      let u := s.ctxsOut g w
      ((s.part (s.tag g)).evictvec = 0 → exec (.eviction g) s = .next (u.imaged g w none))
      ∧ ((s.part (s.tag g)).evictvec ≠ 0 → exec (.eviction g) s = .next (u.setCore g { k with
          work := { w.bare with ctxs := [(0, routineCtx (s.part (s.tag g)).evictvec (s.cycle g))] },
          evicting := some (.routine (s.cycle g) w.aside) })))
    ∧ (∀ n w, k.evicting = some (.routine n w) → s.onWay g = false →
      ((s.ctx g 0).role = .free → exec (.eviction g) s = .next (s.imaged g (w.withRoutine k.work) none))
      ∧ (n + 8192 ≤ s.cycle g → exec (.evictRoutineTimeout g) s = .next (s.imaged g (w.withRoutine k.work) (some (s.ctx g 0)))))
    ∧ (∀ w left, s.mem.wf = true → let u := s.imaged g w left
      (u.work g = Work.reset ∧ (u.core g).evicting = none ∧ ∃ m, (u.core g).image = some m ∧ m.tag = k.ptag ∧ m.msgs = [] ∧ m.replay = false)
      ∧ u.mem.word (vaultAddr g Config.vaultUser) = k.ptag.setWidth 64
      ∧ u.mem.word (vaultAddr g Config.vaultUser + 8) = BitVec.ofNat 64 (s.cycle g))
    ∧ (∀ m, k.image = some m → s.vacated g m.tag.toNat = true →
      s.holds m.tag.toNat g = true → k.evicting = none → (s.cluster g).halted = false → (s.cluster g).ftest.getLsbD 0 = false →
      k.dbg.checked = false →
      let w0 := m.work.readBack s.mem (vaultAddr g Config.vaultUser) (s.cycle g)
      let w := if m.replay then w0.replayAll else w0
      let u := s.setCore g { k with
        work := { w with flits := w.flits ++ k.work.flits }, ptag := m.tag, image := none, evicting := none }
      let v := match m.counters with
        | some c => u.addCounters m.tag.toNat c
        | none => u
      let r := v.redeliver g m.msgs
      exec (.restore g) s = .next r
      ∧ ((m.msgs.map fun e => e.1).Nodup →
        (∀ e ∈ m.msgs, if e.2.onReply then Tab.find r.net.answers e.1 = some e.2 else Tab.find r.net.msgs e.1 = some e.2)
        ∧ ∀ e ∈ m.msgs, e.1 ∈ (r.work g).redeliver))
    ∧ (∀ (w : Work) (m : Memory) (a n o : Nat), m.wf = true → w.spad.wf = true → o < 0x80000 →
      ((w.stripped.readBack (w.layOut a m) a n).spad.get o = w.spad.get o) ∧ (∀ b < a + 0x65000, (w.layOut a m).get b = m.get b)
      ∧ ((∀ e ∈ w.cells, e.1 < 64 ∧ ∀ x, e.2.reply = some x → x.payload.length ≤ 96) →
          (w.ejection.flatMap fun x => x.headBytes ++ x.payload).length ≤ 57344 → w.deque.length ≤ 64 → w.lps.length ≤ 16 →
          ([Queue.qc0, .qc1, .qg, .qm].flatMap w.queue).length ≤ 128 → ∀ b, a + 0x150000 ≤ b → (w.layOut a m).get b = m.get b))
    ∧ (s.partCores t ≠ [] →
      let u := s.resetPartition t
      (s.renumbers t = false ∨ (∀ h ∈ s.partCores t, s.onWay h = false) → exec (.partitionReset t) s = .next u)
      ∧ (s.renumbers t = true → (∃ h ∈ s.partCores t, s.onWay h = true) →
        exec (.partitionReset t) s = .next (s.setPart t { p with resetDue := true }))
      ∧ ((u.part t).counters = [] ∧ (u.part t).domains = [] ∧ (u.part t).runs = [] ∧ (u.part t).waiting = none ∧ (u.part t).resetDue = false
        ∧ (u.part t).journal = p.journal ∧ (u.part t).evictvec = p.evictvec ∧ (u.part t).replayDue = p.journal.getLsbD 0)
      ∧ (∀ h, (∀ e ∈ (u.core h).itlb ++ (u.core h).dtlb, e.tag ≠ t) ∧ (h ∉ s.partCores t → u.work h = s.work h))
      ∧ (∀ h ∈ s.partCores t, s.tag h = t → s.imageOf t h = none → (s.core h).evicting = none →
        let w := u.work h
        w.ctxs = [] ∧ w.power = 0 ∧ w.queues = [] ∧ w.crews = [] ∧ w.grids = [] ∧ w.lps = [] ∧ w.swapped = [] ∧ w.deque = [] ∧ w.spill = []
        ∧ w.handlers = (s.work h).handlers ∧ w.trapvec = (s.work h).trapvec ∧ w.tables = (s.work h).tables
        ∧ w.matrix = (s.work h).matrix))
    ∧ (s.partCores t = [] → exec (.partitionReset t) s = .next s)
    ∧ (p.replayDue = true → p.resetDue = false → ∀ d u e, s.dispatchCore t = some d →
      (s.setPart t { p with replayDue := false }).readVirt d true (p.journal &&& ~~~0xFFF) 4096 = (u, .error e) →
      exec (.journalReplay t) s = .next u)
    ∧ (p.replayDue = true → p.resetDue = false → ∀ d u bs, s.dispatchCore t = some d →
      (s.setPart t { p with replayDue := false }).readVirt d true (p.journal &&& ~~~0xFFF) 4096 = (u, .ok bs) →
      let n := min 511 (p.jcount - max p.lastFence p.jstart)
      let ws := ((List.range n).map fun j => wordAt bs (8 * placeBack (journalPlace (wordAt bs 0)) j)).reverse.filterMap journaled
      exec (.journalReplay t) s = .next (ws.foldl (fun u a => u.report d 31 d 1 [a]) u))
    ∧ (i < 8 → exec (.tencntFlush t i) s = .next (s.setPart t (p.flush s.stepNo i)))
    ∧ exec (.tcsyncFlush t) s = .next (s.setPart t (p.flushAll s.stepNo))
    ∧ (off < 2 ^ 20 → off % 8 = 0 → exec (.registerWrite g off v) s = .next (s.writeReg g off v).1)
    ∧ (let w := k.work
      let d := k.dbg
      let put := fun (off : Nat) (u : State) => exec (.registerWrite g off v) s = .next u
      (∀ c < 64, let h := s.handler g c
        put (0x10000 + 16 * c) (s.setWork g { w with handlers := Tab.put w.handlers c { h with entry := v } })
        ∧ put (0x10008 + 16 * c) (s.setWork g { w with handlers := Tab.put w.handlers c { h with ctl := v &&& 0xFF01FF } }))
      ∧ put 0x10400 (s.setWork g { w with wdlimit := v.setWidth 32 })
      ∧ put 0x10800 (s.setWork g { w with s1root := v &&& 0x00FFFFFFFFFFF001 })
      ∧ (field v 23 15 * 2 ^ 23 ≤ 0xB000000 → put 0x10810 (s.setWork g { w with oxbow := v &&& 0x3FFF800001 }))
      ∧ (0xB000000 < field v 23 15 * 2 ^ 23 → put 0x10810 s)
      ∧ (∀ i < 8, put (0x20000 + 16 * i) (s.setDebug g { d with addr := Tab.put d.addr i v })
        ∧ put (0x20008 + 16 * i) (s.setDebug g { d with ctl := Tab.put d.ctl i (v &&& 0x1FFFFFFFF) }))
      ∧ put 0x20308 (s.setDebug g { d with rlhead := v &&& 0xFFFFFFFF })
      ∧ (v.getLsbD 0 = true → put 0x20B00 (s.setCluster g { s.cluster g with ftest := (s.cluster g).ftest ||| 8 }))
      ∧ ∀ off ∈ [0x10808, 0x11000, 0x11008, 0x11030, 0x11040, 0x12000, 0x20208, 0x20408, 0x20800, 0x20B08], put off s)
    ∧ (s.isDispatch g = true →
      let q := s.part (s.tag g)
      exec (.gvtperWrite g v) s = .next (s.setPart (s.tag g) { q with gvtper := v.setWidth 16 })
      ∧ exec (.dispatchRegisterWrite g 0x11010 v) s = .next (s.setPart (s.tag g) { q with
          journal := v &&& ~~~0xFFE, jstart := if v &&& ~~~0xFFE = q.journal then q.jstart else q.jcount })
      ∧ (v.toNat % 128 = 0 → exec (.dispatchRegisterWrite g 0x11020 v) s = .next (s.setPart (s.tag g) { q with evictvec := v })))
    ∧ (let full := fun (w : Weir) => { w with tokens := s.parts.filterMap fun e => if s.floorOf e.1 = 0 then none else some (e.1, s.floorOf e.1) }
      (g < 163840 → exec (.weirPeriod g) s = .next (s.setCore g { k with weir := full k.weir }))
      ∧ ∀ c x, c < 64 → x < 256 → exec (.weirPeriod (163840 + 256 * c + x)) s = .next (s.setChip c { s.chip c with
          weirs := Tab.put (s.chip c).weirs x (full (Tab.look ⟨[], 0⟩ (s.chip c).weirs x)) }))
    ∧ (∀ (w : Weir) (l : List Waiting), ((∀ e ∈ l, e.tag < 64) → l ≠ [] → (w.next l).isSome = true) ∧ ∀ n, w.next l = some n →
      ∃ r ∈ l, r.id = n ∧ (∀ e ∈ l.takeWhile (fun e => e.id != n), e.tag ≠ r.tag)
        ∧ ((∃ e ∈ heads l, w.pays e.tag e.cost = true) → w.pays r.tag r.cost = true))
    ∧ (∀ e, s.walk g false va acc = .ok e → exec (.pageWalk g va kd) s = .next ((s.chargeWalk g va).fillTlb g acc e))
    ∧ (∀ f, s.walk g false va acc = .error f → exec (.pageWalk g va kd) s = .next (s.chargeWalk g va))

/-- Errors (R365 to R367), the halyard (R369), replay (R373), monitors (R374), self-test (R375), margins (R377), security (R378, R379). Choices and deductions of the model here: the notify core and the name in its notice (log entry 50), limits and digests that are free values (80, 3), samples that the schedule takes (112), an alarm of the acting package alone (114), a second machine check (49), a host message in the replay log (33). -/
def Obligations.ErrorAndDebugEvents : Prop :=
  ∀ (s : State) (g cl m port off : Nat) (u ix : BitVec 8) (ok : Bool) (sy : BitVec 32) (v : Word) (rs : List (BitVec 32))
    (bs : List Byte),
    let d := (s.core g).dbg
    let q := s.cluster (cl * 16)
    let c := s.chip (port / 64)
    (u.toNat ≤ 5 → u ≠ 1 → ok = true → exec (.arrayError g u ix ok sy off) s = .next (s.setCore g ((s.core g).logError u ix sy)))
    ∧ (ok = true → exec (.arrayError g 1 ix ok sy off) s =
        .next ((s.setCore g ((s.core g).logError 1 ix sy)).countError g (ix.toNat % 32)))
    ∧ (ok = false → ∃ t, exec (.arrayError g 1 ix ok sy off) s = .next t ∧ vaultAddr g (off % Config.vaultEnd) / 64 ∈ t.poison
        ∧ ∀ l ∈ s.poison, l ∈ t.poison)
    ∧ (u.toNat ≤ 5 → u ≠ 1 → ok = false → exec (.arrayError g u ix ok sy off) s = .next (s.machineCheck g u ix sy off))
    ∧ exec (.machineCheck g u ix sy off) s = .next (s.machineCheck g u ix sy off)
    ∧ (q.haltDue = some v → s.halyardTag cl = none →
      exec (.halyardHalt cl v) s = .next (s.setCluster (cl * 16) { q with halted := true, haltDue := none }))
    ∧ (q.haltDue = some v → ∀ t h, s.halyardTag cl = some t → s.reach t (field q.notify 28 6) (field q.notify 16 12) = some h →
      let u := s.setCluster (cl * 16) { q with halted := true, haltDue := none }
      exec (.halyardHalt cl v) s = .next (u.inject { u.deviceMsg h 31 h 7 [v] with d1 := u.ident q.puller 31, src := q.puller }))
    ∧ (q.halted = false → exec (.halyardResume cl) s = .next s)
    ∧ (q.halted = true → ∃ u, exec (.halyardResume cl) s = .next u ∧ u.cluster (cl * 16) = { q with halted := false }
        ∧ (∀ h ∈ clusterCores (cl * 16), ∀ c, u.ctx h c = (s.ctx h c).putWindows)
        ∧ ∀ h, h ∉ clusterCores (cl * 16) → u.core h = s.core h)
    ∧ (q.ftest.getLsbD 3 = true → q.halted = false → q.ftest.getLsbD 0 = true →
      exec (.ftestStart cl) s = .next (s.setCluster (cl * 16) { q with ftest := 5 }))
    ∧ (q.ftest.getLsbD 3 = true → q.halted = false → q.ftest.getLsbD 0 = false →
      let quiet := q.faults = [] ∧ ∀ h ∈ clusterCores (cl * 16), s.testable h = true
      (quiet → exec (.ftestStart cl) s = .next (s.setCluster (cl * 16) { q with ftest := 1 }))
      ∧ (¬ quiet → exec (.ftestStart cl) s = .next (s.setCluster (cl * 16) { q with ftest := (q.ftest &&& 2) ||| 4 })))
    ∧ (q.ftest.getLsbD 0 = true → exec (.ftestComplete cl rs) s =
      .next ((List.range 16).foldl (fun t i => t.testResult (cl * 16 + i) ((rs[i]?).getD 1))
        (s.setCluster (cl * 16) { q with ftest := (q.ftest &&& 12) ||| 2, tlb := [], blockMap := [] })))
    ∧ exec (.dramceClear g) s = .next (s.setDebug g { d with dramce := [] })
    ∧ (v.getLsbD 0 = true → exec (.mcrecClear g v) s =
      .next (s.setDebug g { d with mcrec := Tab.put d.mcrec 0 (Tab.look 0 d.mcrec 0 &&& ~~~1) }))
    ∧ (m < 2 → exec (.monitorClear g m) s = .next (s.setDebug g { d with
        mons := Tab.put d.mons m (d.mon m).clear, due := d.due.filter fun x => x.mon != m }))
    ∧ (∀ x, (d.due.find? fun x => x.mon == m && x.val == v) = some x → exec (.monitorSample g m v) s = .next (s.setDebug g { d with
        mons := Tab.put d.mons m ((d.mon m).sample v.toNat x.times), due := dropFirst (fun y => y == x) d.due }))
    ∧ ((d.due.find? fun x => x.mon == m && x.val == v) = none → exec (.monitorSample g m v) s = .next s)
    ∧ (bs.length = 10 →
      let old := padTo 16 (Tab.look [] c.ports (port % 64))
      let sum := fun (i n : Nat) => bytesOfNat n (min (256 ^ n - 1) (numAt old i n + numAt bs i n))
      let r := bs.take 4 ++ sum 4 4 ++ sum 8 2 ++ (old.drop 10).take 6
      let past := Config.freeMargin r && !Config.freeMargin old
      exec (.marginMeasurement port bs) s = .next (s.setChip (port / 64) { c with
        ports := Tab.put c.ports (port % 64) r, replace := c.replace || past, told := c.told && !past }))
    ∧ exec (.portRecordClear port) s = .next (s.setChip (port / 64) { c with ports := Tab.drop c.ports (port % 64) })
    ∧ (∀ cause, exec (.securityAlarm cause) s = .next (s.alarm s.here))
    ∧ (∀ h, let t := s.alarm h
      let x := s.chip h
      t.chip h = { x with alarm := true, replace := true, told := false, erased := x.erased || x.policy }
      ∧ (∀ n, n ≠ h → t.chip n = s.chip n) ∧ (∀ g, t.core g = s.core g)
      ∧ ∀ n, t.part n = if Tab.look [] (s.part n).cores h = [] then s.part n else { s.part n with resetDue := true })
    ∧ ((Tab.look 0 d.mcrec 0).getLsbD 0 = false →
      let t := s.machineCheck g u ix sy off
      let r := fun (n : Nat) => Tab.look 0 (t.core g).dbg.mcrec n
      (t.core g).errlog = ((s.core g).logError u ix sy).errlog ∧ (t.core g).dbg.checked = true
      ∧ r 0 = pack [(0, 1), (8, u.toNat), (16, ix.toNat), (32, sy.toNat)] ∧ r 1 = BitVec.ofNat 64 (off % 2 ^ 38)
      ∧ r 2 = BitVec.ofNat 64 (s.cycle g) ∧ r 3 = pack [(0, dieOf g), (3, clusterIn g), (8, positionOf g), (12, g % 2560)]
      ∧ (s.holds (s.tag g) g = true → (t.part (s.tag g)).resetDue = true) ∧ t.mem = s.mem ∧ ∀ h, h ≠ g → t.core h = s.core h)
    ∧ (∀ x : BitVec 32, let t := s.testResult g x
      let z := (t.core g).dbg
      z.ftstat = (x.setWidth 64 &&& 0xFF003F) ||| pack [(24, bitOf (d.fenced || !x.getLsbD 0))] ∧ z.fenced = (d.fenced || !x.getLsbD 0)
      ∧ (t.work g).spad = [] ∧ (t.work g).poison = [] ∧ (t.work g).tables = [] ∧ (t.core g).itlb = [] ∧ (t.core g).dtlb = []
      ∧ (x.getLsbD 0 = true → t.chip (g / 2560) = s.chip (g / 2560))
      ∧ (x.getLsbD 0 = false → (t.chip (g / 2560)).replace = true ∧ (s.isDispatch g = true → (t.part (s.tag g)).resetDue = true)))
    ∧ (bs.length = 32 → (s.chip s.here).erased = false →
      let signed := s.signedBytes bs
      exec (.attest bs) s = .next ((s.out (.report (signed ++ padTo 2420 ((Config.freeSignature s.here s.nextId signed).take 2420)))).fresh)
      ∧ signed.length = 456 ∧ signed.take 32 = bs ∧ (signed.drop 128).take 8 = wordBytes (s.health s.here))
    ∧ (∀ ch data, s.hostRecord g = some (ch, data) → s.logMode g = 2 → s.logReached g = true → d.again ≠ some (field d.rlhead 0 32) →
      (s.work g).ejection.length < 16 →
      let t := (s.setDebug g { d with again := some (field d.rlhead 0 32) }).fresh
      exec (.loggedHostDelivery g) s = .next (t.setWork g { t.work g with
        ejection := (t.work g).ejection ++
          [{ hostMsg (s.tag g) (g / 2560) (s.logicalOf g) ch g data with stamp := s.nextId }],
        retained := (t.work g).retained.map fun r => if r.ch.toNat = ch then { r with met := true } else r }))
    ∧ (s.logReached g = true ↔ s.mem.word (s.logBase g + 16 * field d.rlhead 0 32)
        = BitVec.ofNat 64 ((s.part (s.tag g)).sequence (s.tag g)).1)

/-- The host link (R380, R382), devices and ports (R384, R385), management (R351, R386), bring-up (R387), clocks and cooling (R388). Choices and deductions of the model here: host accesses that reach nothing (log entry 52), the status report and commands that are not signed (53), what a package reset keeps (54), routes (51), one floor for every agent (91), the shutdown of the acting package (114), bring-up that goes on after a failed check (128), images that need no key (129), the clocks of islands (66), the link not enabled at reset (67). -/
def Obligations.ManagementEvents : Prop :=
  ∀ (s : State) (t n off port lim fl : Nat) (data : List Byte) (h : Bool) (cores : List Nat),
    let p := s.part t
    let k := s.chip s.here
    (∀ x, let y := s.chip x
      (y.ready = true → n < 16 → ∀ base ps, Tab.find y.apertures n = some (t, base) → p.cores ≠ [] → off + data.length ≤ 2 ^ 32 →
        s.hostPieces t h (pieces64 (base + off) data.length) = some ps →
        (s.hostTurn t h ps = true → exec (.hostMemoryAccess t (n + 32 * x) off h data) s =
          .next ((if h then s.hostStore ps data else s.out (.hostRead (s.readPieces ps))).chargePieces t h ps))
        ∧ (s.hostTurn t h ps = false → exec (.hostMemoryAccess t (n + 32 * x) off h data) s = .next s))
      ∧ (n < 32 → y.ready = false ∨ n = 16 → exec (.hostMemoryAccess t (n + 32 * x) off h data) s =
        .next (if h then s else s.out (.hostRead (List.replicate data.length 0))))
      ∧ (t < 64 → (t, n) ∈ y.doorbells → exec (.msixDoorbell (t + 64 * x) n) s =
        .next ((s.setChip x { y with doorbells := y.doorbells.erase (t, n) }).out (.msix x (32 * t + n))))
      ∧ (t < 64 → (t, n) ∉ y.doorbells → exec (.msixDoorbell (t + 64 * x) n) s = .next s))
    ∧ (∀ pa bs r, s.hostStore ((pa, bs.length) :: r) (bs ++ data) =
        State.hostStore (if s.storeFails pa then s else (s.writePhys pa bs).markPoison pa bs.length false) r data)
    ∧ (let c := s.chip (port / 64)
      let s1 := s.setChip (port / 64) { c with portsDown := (c.portsDown ++ [port % 64]).eraseDups }
      let lost := fun (e : Nat × Contribution) => s.goesOver port e.2.g (e.2.root / 2560)
      let back := Tab.each (fun _ (a : MemReply) => if s.crosses port a.req then a.req.failure else a) s.net.replies
      let back1 := (s.net.reqs.filter fun e => s.crosses port e.2).foldl (fun r e => Tab.put r e.1 e.2.failure) back
      exec (.portFailure port) s = .next (s1.withNet fun z => { z with
        reqs := z.reqs.filter fun e => !s.crosses port e.2, nreds := z.nreds.filter fun e => !lost e,
        replies := (s.net.nreds.filter lost).foldl (fun r e => Tab.put r e.1 (e.2.ack false)) back1 }))
    ∧ (∃ u, exec (.cxlDeviceFailure n) s = .next u ∧ n % 256 ∈ (u.chip (n / 256)).lost)
    ∧ (formLegal t cores lim fl = true → p.cores = [] → cores.all (s.takable t) = true → (h = true → s.hyperThere t cores = false) → s.floorsFit t fl = true →
      ∃ u, exec (.partitionForm t h cores lim fl) s = .next u ∧ u.part t = { Partition.reset with
          cores := coreMap cores, hyper := h, limit := lim, floor := BitVec.ofNat 16 fl, discards := p.discards }
        ∧ (∀ g ∈ cores, u.core g = { s.core g with ptag := BitVec.ofNat 6 t })
        ∧ ∀ g, g ∉ cores → u.core g = s.core g)
    ∧ (formLegal t cores lim fl = true → s.floorsFit t fl = true → p.cores ≠ [] → (p.hyper = true → s.hyperThere t cores = false) →
      let rests := ∀ g ∈ changed p.cores (coreMap cores),
        (g ∈ s.partCores t → s.atRest g = true ∧ s.tag g = t ∧ s.imageOf t g = none) ∧ (g ∉ s.partCores t → s.takable t g = true)
      (rests → ∃ u, exec (.partitionResize t cores lim fl) s = .next u
        ∧ u.part t = { p.flushAll s.stepNo with cores := coreMap cores, limit := lim, floor := BitVec.ofNat 16 fl })
      ∧ (¬ rests → exec (.partitionResize t cores lim fl) s = .next s))
    ∧ (s.partCores t ≠ [] → (∀ g ∈ s.partCores t, s.tag g = t ∧ s.atRest g = true ∧ s.imageOf t g = none) →
      ∃ u, exec (.partitionRelease t) s = .next u ∧ u.part t = { Partition.reset with discards := p.discards })
    ∧ (let q := s.cluster (n * 16)
      exec (.selfTestCommand n) s = .next (s.setCluster (n * 16) { q with ftest := q.ftest ||| 8 }))
    ∧ (∃ u, exec .statusHealth s = .next u ∧ u.outputs = s.outputs ++ [.report s.status] ∧ (u.chip s.here).told = true
        ∧ ∀ t, (u.part t).discards = 0)
    ∧ (k.erased = false ∨ Config.freeKeyless data = true →
      exec (.firmwareUpdate data true) s = .next (s.setChip s.here { k with firmware := some data }))
    ∧ (k.erased = true → Config.freeKeyless data = false → exec (.firmwareUpdate data true) s = .next s)
    ∧ exec (.firmwareUpdate data false) s = .next (s.alarm s.here)
    ∧ (k.replace = true → k.told = false → exec .replaceRequest s = .next (s.out .replace))
    ∧ exec .packageReset s = .next (s.restart s.here)
    ∧ (let u := s.restart n
      let y := s.chip n
      (∀ g, g / 2560 = n → (u.core g).work = Work.reset ∧ (u.core g).ptag = 0 ∧ (u.core g).image = none ∧ (u.core g).errlog = 0
        ∧ (u.core g).dbg.fenced = (s.core g).dbg.fenced)
      ∧ (∀ g, g / 2560 ≠ n → u.core g = s.core g) ∧ u.mem = s.mem ∧ (∀ t, Tab.look [] (u.part t).cores n = [])
      ∧ ((s.parts.map fun e => e.1).Nodup → ∀ t, (u.part t).discards = (s.part t).discards)
      ∧ (u.chip n).firmware = none ∧ (u.chip n).resetAt = s.now
      ∧ (∀ i, y.firmware = some i → (y.erased = false ∨ Config.freeKeyless i = true) → (u.chip n).image = i)
      ∧ (y.firmware = none → (u.chip n).image = y.image))
    ∧ (∀ found : Bringup, found.failed = [] → ∃ u, exec (.powerOn n found) s = .next u
        ∧ (∀ g o, g < 163840 → g / 2560 = n → o < Config.vaultEnd → u.mem.get (vaultAddr g o) = 0)
        ∧ (u.chip n).off = false ∧ (u.chip n).ready = true ∧ (u.chip n).policy = found.policy ∧ (u.chip n).portsDown = []
        ∧ (u.chip n).apertures = aperturesOf found.windows ∧ (found.measured = false → (u.chip n).alarm = true)
        ∧ (found.measured = true → (u.chip n).alarm = (s.chip n).alarm))
    ∧ (4 ≤ n → n ≤ 16 → ∃ u, exec (.islandClockChange port n) s = .next u ∧ u = s.setClock port n
        ∧ ∀ g, (islandOf g = port → u.coreClock g = n) ∧ (islandOf g ≠ port → u.coreClock g = s.coreClock g) ∧ u.cycle g = s.cycle g)
    ∧ (∀ g, g < 163840 → g = chipOf g * 2560 + 320 * dieOf g + 16 * clusterIn g + positionOf g ∧ dieOf g < 8 ∧ clusterIn g < 20
        ∧ positionOf g < 16 ∧ meshColumn g < 16 ∧ meshRow g < 20 ∧ islandOf g / 128 = chipOf g)
    ∧ exec (.thermalThrottle cores) s =
      .next (cores.foldl (fun u i => u.setClock i (max 4 ((u.chip (i / 128)).clock (i % 128) - 1))) s)
    ∧ ∃ u, exec .thermalShutdown s = .next u ∧ (u.chip s.here).off = true ∧ (u.chip s.here).replace = true
      ∧ (u.chip s.here).told = false ∧ ∀ x, x ≠ s.here → u.chip x = s.chip x

end
end

