-- ==== Sys2Proof/Laws/Memory.lean ====
section
/-! SUPPORT. What the operations on bytes and tables do: the canonical form is kept, a write is read back, and a write
leaves every other address alone. -/

namespace Sys2Proof.Machine

/-! ### The canonical form -/

theorem Memory.wfFrom_cons (lo k : Nat) (v : Byte) (r : Memory) :
    Memory.wfFrom lo ((k, v) :: r) = true ↔ lo ≤ k ∧ v ≠ 0 ∧ Memory.wfFrom (k + 1) r = true := by
  simp [Memory.wfFrom, and_assoc]

theorem Memory.wfFrom_mono {lo lo' : Nat} {m : Memory} (h : Memory.wfFrom lo m = true) (hl : lo' ≤ lo) :
    Memory.wfFrom lo' m = true := by
  cases m with
  | nil => rfl
  | cons c r =>
    obtain ⟨k, v⟩ := c
    rw [Memory.wfFrom_cons] at h ⊢
    exact ⟨hl.trans h.1, h.2⟩

theorem Memory.wfFrom_set {m : Memory} {lo a : Nat} (v : Byte) (h : Memory.wfFrom lo m = true) (hl : lo ≤ a) :
    Memory.wfFrom lo (m.set a v) = true := by
  induction m generalizing lo with
  | nil =>
    unfold Memory.set
    split
    · rfl
    · rename_i hv
      exact (Memory.wfFrom_cons ..).2 ⟨hl, hv, rfl⟩
  | cons c r ih =>
    obtain ⟨k, w⟩ := c
    obtain ⟨h1, h2, h3⟩ := (Memory.wfFrom_cons ..).1 h
    unfold Memory.set
    split
    · rename_i hk
      split
      · exact h
      · rename_i hv
        exact (Memory.wfFrom_cons ..).2 ⟨hl, hv, (Memory.wfFrom_cons ..).2 ⟨hk, h2, h3⟩⟩
    · split
      · rename_i hk
        split
        · exact Memory.wfFrom_mono h3 (by omega)
        · rename_i hv
          subst hk
          exact (Memory.wfFrom_cons ..).2 ⟨hl, hv, h3⟩
      · exact (Memory.wfFrom_cons ..).2 ⟨h1, h2, ih h3 (by omega)⟩

/-- Writing a byte keeps the canonical form. -/
theorem Memory.wf_set {m : Memory} (a : Nat) (v : Byte) (h : m.wf = true) : (m.set a v).wf = true :=
  Memory.wfFrom_set v h (Nat.zero_le a)

/-- Writing bytes keeps the canonical form. -/
theorem Memory.wf_store {m : Memory} (a : Nat) (bs : List Byte) (h : m.wf = true) : (m.store a bs).wf = true := by
  induction bs generalizing m a with
  | nil => exact h
  | cons b r ih => exact ih (a + 1) (Memory.wf_set a b h)

/-- Writing a doubleword keeps the canonical form. -/
theorem Memory.wf_putWord {m : Memory} (a : Nat) (w : Word) (h : m.wf = true) : (m.putWord a w).wf = true :=
  Memory.wf_store a _ h

/-- Writing doublewords keeps the canonical form. -/
theorem Memory.wf_putWords {m : Memory} (a : Nat) (ws : List Word) (h : m.wf = true) : (m.putWords a ws).wf = true := by
  induction ws generalizing m a with
  | nil => exact h
  | cons w r ih => exact ih (a + 8) (Memory.wf_putWord a w h)

theorem Memory.wfFrom_filter {m : Memory} {lo : Nat} (q : Host.Cell → Bool) (h : Memory.wfFrom lo m = true) :
    Memory.wfFrom lo (m.filter q) = true := by
  induction m generalizing lo with
  | nil => rfl
  | cons c r ih =>
    obtain ⟨k, v⟩ := c
    obtain ⟨h1, h2, h3⟩ := (Memory.wfFrom_cons ..).1 h
    by_cases hq : q (k, v) = true
    · simp only [List.filter, hq]
      exact (Memory.wfFrom_cons ..).2 ⟨h1, h2, ih h3⟩
    · simp only [List.filter, Bool.not_eq_true _ ▸ hq]
      exact Memory.wfFrom_mono (ih h3) (by omega)

/-- Dropping addresses keeps the canonical form. -/
theorem Memory.wf_filter {m : Memory} (q : Host.Cell → Bool) (h : m.wf = true) : Memory.wf (m.filter q) = true :=
  Memory.wfFrom_filter q h

/-- Clearing bytes keeps the canonical form. -/
theorem Memory.wf_clear {m : Memory} (a n : Nat) (h : m.wf = true) : (m.clear a n).wf = true :=
  Memory.wfFrom_filter _ h

/-! ### Read after write -/

theorem Memory.get_below {m : Memory} {lo a : Nat} (h : Memory.wfFrom lo m = true) (ha : a < lo) : m.get a = 0 := by
  cases m with
  | nil => rfl
  | cons c r =>
    obtain ⟨k, v⟩ := c
    have h1 := ((Memory.wfFrom_cons ..).1 h).1
    simp [Memory.get, show a < k by omega]

theorem Memory.get_setFrom {m : Memory} {lo : Nat} (a b : Nat) (v : Byte) (h : Memory.wfFrom lo m = true) :
    (m.set a v).get b = if b = a then v else m.get b := by
  induction m generalizing lo with
  | nil =>
    by_cases hv : v = 0
    · simp [Memory.set, hv, Memory.get]
    · simp only [Memory.set, if_neg hv]
      by_cases hb : b = a
      · simp [Memory.get, hb]
      · simp [Memory.get, hb]
  | cons c r ih =>
    obtain ⟨k, w⟩ := c
    obtain ⟨h1, h2, h3⟩ := (Memory.wfFrom_cons ..).1 h
    rcases Nat.lt_trichotomy a k with hk | hk | hk
    · by_cases hv : v = 0
      · simp only [Memory.set, hk, hv, if_true]
        by_cases hb : b = a
        · simp [hb, Memory.get, hk]
        · simp [hb]
      · simp only [Memory.set, hk, hv, if_true, if_false]
        by_cases hb : b = a
        · simp [hb, Memory.get]
        · by_cases hlt : b < a
          · simp [hb, Memory.get, hlt, show b < k by omega]
          · simp [hb, Memory.get, hlt]
    · subst hk
      have ih' := Memory.get_below h3 (Nat.lt_succ_self a)
      by_cases hv : v = 0
      · simp only [Memory.set, lt_irrefl, hv, if_true, if_false]
        by_cases hb : b = a
        · simp [hb, ih']
        · by_cases hlt : b < a
          · simp [hb, Memory.get, hlt, Memory.get_below h3 (show b < a + 1 by omega)]
          · simp [hb, Memory.get, hlt]
      · simp only [Memory.set, lt_irrefl, if_neg hv, if_true, if_false]
        by_cases hb : b = a
        · simp [Memory.get, hb]
        · simp [Memory.get, hb]
    · have e1 : ¬ a < k := by omega
      have e2 : a ≠ k := by omega
      simp only [Memory.set, e1, e2, if_false]
      by_cases hlt : b < k
      · simp [Memory.get, hlt, show b ≠ a by omega]
      · by_cases hbk : b = k
        · simp [Memory.get, hbk, show k ≠ a by omega]
        · simp [Memory.get, hlt, hbk, ih h3]

/-- A byte that is written is read back, and every other byte is as before. -/
theorem Memory.get_set {m : Memory} (a b : Nat) (v : Byte) (h : m.wf = true) :
    (m.set a v).get b = if b = a then v else m.get b := Memory.get_setFrom a b v h

/-- Bytes that are written are read back, and every other byte is as before. -/
theorem Memory.get_store {m : Memory} (a b : Nat) (bs : List Byte) (h : m.wf = true) :
    (m.store a bs).get b = if a ≤ b ∧ b < a + bs.length then bs.getD (b - a) 0 else m.get b := by
  induction bs generalizing m a with
  | nil => simp [Memory.store]
  | cons v r ih =>
    simp only [Memory.store]
    rw [ih (a + 1) (Memory.wf_set a v h), Memory.get_set a b v h]
    simp only [List.length_cons]
    by_cases h1 : a + 1 ≤ b ∧ b < a + 1 + r.length
    · have h2 : a ≤ b ∧ b < a + (r.length + 1) := by omega
      obtain ⟨n, rfl⟩ : ∃ n, b = a + 1 + n := ⟨b - (a + 1), by omega⟩
      simp only [h1, h2, and_self, if_true]
      simp [show a + 1 + n - a = n + 1 by omega]
    · by_cases hb : b = a
      · subst hb
        simp
      · have h2 : ¬ (a ≤ b ∧ b < a + (r.length + 1)) := by omega
        simp only [h1, h2, hb, if_false]

theorem Memory.get_filterFrom {m : Memory} {lo : Nat} (q : Nat → Bool) (b : Nat) (h : Memory.wfFrom lo m = true) :
    Memory.get (m.filter fun c => q c.1) b = if q b then m.get b else 0 := by
  induction m generalizing lo with
  | nil => simp [Memory.get]
  | cons c r ih =>
    obtain ⟨k, v⟩ := c
    have h3 := ((Memory.wfFrom_cons ..).1 h).2.2
    by_cases hk : q k = true
    · simp only [List.filter, hk, Memory.get]
      by_cases hlt : b < k
      · simp [hlt]
      · by_cases hb : b = k
        · simp [hb, hk]
        · simp [hlt, hb, ih h3]
    · have hk' : q k = false := by simpa using hk
      simp only [List.filter, hk', Memory.get]
      rw [ih h3]
      by_cases hlt : b < k
      · simp [hlt, Memory.get_below h3 (show b < k + 1 by omega)]
      · by_cases hb : b = k
        · simp [hb, hk']
        · simp [hlt, hb]

/-- Cleared bytes read 0, and every other byte is as before. -/
theorem Memory.get_clear {m : Memory} (a n b : Nat) (h : m.wf = true) :
    (m.clear a n).get b = if a ≤ b ∧ b < a + n then 0 else m.get b := by
  have := Memory.get_filterFrom (fun k => decide (k < a) || decide (a + n ≤ k)) b h
  simp only [Memory.clear] at this ⊢
  rw [this]
  by_cases h1 : a ≤ b ∧ b < a + n
  · simp [h1, show ¬ b < a by omega, show ¬ a + n ≤ b by omega]
  · by_cases h2 : b < a
    · simp [h1, h2]
    · simp [h1, show a + n ≤ b by omega]

/-- Writing listed bytes one after the other keeps the canonical form. -/
theorem Memory.wf_foldl_set {α : Type} (f : α → Nat × Byte) (l : List α) {m : Memory} (h : m.wf = true) :
    (l.foldl (fun m e => m.set (f e).1 (f e).2) m).wf = true := by
  induction l generalizing m with
  | nil => exact h
  | cons e r ih => exact ih (Memory.wf_set _ _ h)

/-- Copying bytes from another memory keeps the canonical form. -/
theorem Memory.wf_copyFrom {m : Memory} (a : Nat) (src : Memory) (b n : Nat) (h : m.wf = true) :
    (m.copyFrom a src b n).wf = true :=
  Memory.wf_foldl_set (fun e : Host.Cell => (a + (e.1 - b), e.2)) _ (Memory.wf_clear a n h)

/-- Laying bytes at an address keeps the canonical form. -/
theorem Memory.wf_lay {m : Memory} (a : Nat) (bs : List Byte) (h : m.wf = true) : (m.lay a bs).wf = true :=
  Memory.wf_foldl_set (fun e : Byte × Nat => (a + e.2, e.1)) _ (Memory.wf_clear a bs.length h)

/-- Listed bytes written from another place: a byte that is not 0 there arrives, and where none stands nothing changes. -/
theorem Memory.get_foldl_set {lo a b : Nat} (x : Nat) (l : Memory) {m : Memory} (h : m.wf = true) (hl : Memory.wfFrom lo l = true)
    (hb : b ≤ lo) :
    (l.foldl (fun m e => m.set (a + (e.1 - b)) e.2) m).get x =
      if a ≤ x ∧ l.get (b + (x - a)) ≠ 0 then l.get (b + (x - a)) else m.get x := by
  induction l generalizing m lo with
  | nil => simp [Memory.get]
  | cons e r ih =>
    obtain ⟨k, v⟩ := e
    obtain ⟨h1, h2, h3⟩ := (Memory.wfFrom_cons ..).1 hl
    have hr : Memory.get r k = 0 := Memory.get_below h3 (by omega)
    rw [List.foldl_cons, ih (Memory.wf_set _ _ h) h3 (by omega), Memory.get_set _ _ _ h]
    simp only [Memory.get]
    by_cases hx : a ≤ x
    · by_cases hk : b + (x - a) = k
      · have hxa : x = a + (k - b) := by omega
        simp [hk, hr, hx, ← hxa]
        exact fun h => absurd h h2
      · have hxa : x ≠ a + (k - b) := by omega
        by_cases hlt : b + (x - a) < k
        · simp [hlt, hxa, Memory.get_below h3 (show b + (x - a) < k + 1 by omega)]
        · simp [hlt, hk, hxa]
    · have hxa : x ≠ a + (k - b) := by omega
      simp [hx, hxa]

/-- Bytes copied from another memory read as they stand there, and every other byte is as before. -/
theorem Memory.get_copyFrom {m src : Memory} (a b n x : Nat) (h : m.wf = true) (hs : src.wf = true) :
    (m.copyFrom a src b n).get x = if a ≤ x ∧ x < a + n then src.get (b + (x - a)) else m.get x := by
  have hg := Memory.get_filterFrom (fun k => decide (b ≤ k) && decide (k < b + n)) (b + (x - a)) hs
  have hf : Memory.wfFrom b (src.cells b n) = true := by
    have : ∀ (l : Memory) (lo : Nat), Memory.wfFrom lo l = true → (∀ e ∈ l, b ≤ e.1) → Memory.wfFrom b l = true := by
      intro l lo h1 h2
      cases l with
      | nil => rfl
      | cons e r =>
        obtain ⟨_, h4, h5⟩ := (Memory.wfFrom_cons ..).1 h1
        exact (Memory.wfFrom_cons ..).2 ⟨h2 e (by simp), h4, h5⟩
    exact this _ 0 (Memory.wf_filter _ hs) (fun e he => by
      have := (List.mem_filter.1 he).2
      simp at this
      exact this.1)
  unfold Memory.copyFrom
  rw [Memory.get_foldl_set x _ (Memory.wf_clear a n h) hf le_rfl, Memory.get_clear a n x h]
  have hg' : (src.cells b n).get (b + (x - a)) = _ := hg
  simp only [hg']
  by_cases hx : a ≤ x
  · by_cases hn : x < a + n
    · have h2 : b + (x - a) < b + n := by omega
      by_cases hz : src.get (b + (x - a)) = 0
      · simp [hx, hn, h2, hz]
      · simp [hx, hn, h2]
        exact Eq.symm
    · have h2 : ¬ b + (x - a) < b + n := by omega
      simp [hx, hn, h2]
  · simp [hx]

/-- Bytes written and read back from the same address are the bytes written. -/
theorem Memory.bytes_store {m : Memory} (a : Nat) (bs : List Byte) (h : m.wf = true) :
    (m.store a bs).bytes a bs.length = bs := by
  have key : ∀ (n i : Nat) (t : List Byte), t = bs.drop i → t.length = n →
      (m.store a bs).bytes (a + i) n = t := by
    intro n
    induction n with
    | zero => intro i t _ hn; simp [Memory.bytes, List.length_eq_zero_iff.1 hn]
    | succ n ih =>
      intro i t ht hn
      have hi : i < bs.length := by
        rw [ht, List.length_drop] at hn
        omega
      have hd := List.drop_eq_getElem_cons hi
      rw [← ht] at hd
      have hr := ih (i + 1) (bs.drop (i + 1)) rfl (by simp only [List.length_drop] at hn ⊢; rw [ht, List.length_drop] at hn; omega)
      simp only [Memory.bytes]
      rw [show a + i + 1 = a + (i + 1) by omega, hr, hd, Memory.get_store a (a + i) bs h]
      simp [hi, List.getD_eq_getElem?_getD]
  exact key bs.length 0 bs (by simp) rfl

theorem natOfBytes_bytesOfNat (n k : Nat) : natOfBytes (bytesOfNat n k) = k % 256 ^ n := by
  induction n generalizing k with
  | zero => simp [bytesOfNat, natOfBytes, Nat.mod_one]
  | succ n ih =>
    simp only [bytesOfNat, natOfBytes, ih, BitVec.toNat_ofNat]
    rw [show (256 : Nat) ^ (n + 1) = 2 ^ 8 * 256 ^ n by ring, Nat.mod_mul]; rfl

theorem length_bytesOfNat (n k : Nat) : (bytesOfNat n k).length = n := by
  induction n generalizing k with
  | zero => rfl
  | succ n ih => simp [bytesOfNat, ih]

/-- A doubleword that is written is read back. -/
theorem Memory.word_putWord {m : Memory} (a : Nat) (w : Word) (h : m.wf = true) : (m.putWord a w).word a = w := by
  have := Memory.bytes_store (m := m) a (bytesOfNat 8 w.toNat) h
  rw [length_bytesOfNat] at this
  simp only [Memory.word, Memory.putWord, this, natOfBytes_bytesOfNat]
  apply BitVec.eq_of_toNat_eq
  simp only [BitVec.toNat_ofNat]
  have := w.isLt
  omega

/-! ### Tables -/

@[simp] theorem Tab.find_put {α : Type} (t : Tab α) (k j : Nat) (a : α) :
    Tab.find (Tab.put t k a) j = if j = k then some a else Tab.find t j := by
  induction t with
  | nil => simp [Tab.put, Tab.find, eq_comm]
  | cons e r ih =>
    obtain ⟨n, b⟩ := e
    unfold Tab.put
    split
    · by_cases h : j = k
      · simp [Tab.find, h]
      · simp [Tab.find, h, Ne.symm h]
    · split
      · rename_i hn
        subst hn
        by_cases h : j = n
        · simp [Tab.find, h]
        · simp [Tab.find, h, Ne.symm h]
      · rename_i hn
        by_cases h : n = j
        · subst h
          simp [Tab.find, hn]
        · simp [Tab.find, h, ih]

@[simp] theorem Tab.look_put {α : Type} (d : α) (t : Tab α) (k j : Nat) (a : α) :
    Tab.look d (Tab.put t k a) j = if j = k then a else Tab.look d t j := by
  unfold Tab.look
  rw [Tab.find_put]
  split <;> rfl

@[simp] theorem Tab.find_drop {α : Type} (t : Tab α) (k j : Nat) :
    Tab.find (Tab.drop t k) j = if j = k then none else Tab.find t j := by
  induction t with
  | nil => simp [Tab.drop, Tab.find]
  | cons e r ih =>
    obtain ⟨n, b⟩ := e
    by_cases hn : n = k
    · subst hn
      simp only [Tab.drop, if_true, ih]
      by_cases h : j = n
      · simp [h]
      · simp [Tab.find, h, Ne.symm h]
    · by_cases h : n = j
      · subst h
        simp [Tab.drop, Tab.find, hn]
      · simp [Tab.drop, Tab.find, hn, h, ih]

end Sys2Proof.Machine
end

