-- ==== Sys2Proof/Laws/State.lean ====
section
/-! SUPPORT. One lemma per field of the state per update: what an update leaves as it was. -/

namespace Sys2Proof.Machine

@[simp] theorem State.setCore_mem (s : State) (g : Nat) (k : Core) : (s.setCore g k).mem = s.mem := rfl
@[simp] theorem State.setCore_poison (s : State) (g : Nat) (k : Core) : (s.setCore g k).poison = s.poison := rfl
@[simp] theorem State.setCore_clusters (s : State) (g : Nat) (k : Core) : (s.setCore g k).clusters = s.clusters := rfl
@[simp] theorem State.setCore_parts (s : State) (g : Nat) (k : Core) : (s.setCore g k).parts = s.parts := rfl
@[simp] theorem State.setCore_chips (s : State) (g : Nat) (k : Core) : (s.setCore g k).chips = s.chips := rfl
@[simp] theorem State.setCore_net (s : State) (g : Nat) (k : Core) : (s.setCore g k).net = s.net := rfl
@[simp] theorem State.setCore_cur (s : State) (g : Nat) (k : Core) : (s.setCore g k).cur = s.cur := rfl
@[simp] theorem State.setCore_now (s : State) (g : Nat) (k : Core) : (s.setCore g k).now = s.now := rfl
@[simp] theorem State.setCore_stepNo (s : State) (g : Nat) (k : Core) : (s.setCore g k).stepNo = s.stepNo := rfl
@[simp] theorem State.setCore_nextId (s : State) (g : Nat) (k : Core) : (s.setCore g k).nextId = s.nextId := rfl
@[simp] theorem State.setCore_schedule (s : State) (g : Nat) (k : Core) : (s.setCore g k).schedule = s.schedule := rfl
@[simp] theorem State.setCore_outputs (s : State) (g : Nat) (k : Core) : (s.setCore g k).outputs = s.outputs := rfl

@[simp] theorem State.setWork_mem (s : State) (g : Nat) (k : Work) : (s.setWork g k).mem = s.mem := rfl
@[simp] theorem State.setWork_poison (s : State) (g : Nat) (k : Work) : (s.setWork g k).poison = s.poison := rfl
@[simp] theorem State.setWork_clusters (s : State) (g : Nat) (k : Work) : (s.setWork g k).clusters = s.clusters := rfl
@[simp] theorem State.setWork_parts (s : State) (g : Nat) (k : Work) : (s.setWork g k).parts = s.parts := rfl
@[simp] theorem State.setWork_chips (s : State) (g : Nat) (k : Work) : (s.setWork g k).chips = s.chips := rfl
@[simp] theorem State.setWork_net (s : State) (g : Nat) (k : Work) : (s.setWork g k).net = s.net := rfl
@[simp] theorem State.setWork_cur (s : State) (g : Nat) (k : Work) : (s.setWork g k).cur = s.cur := rfl
@[simp] theorem State.setWork_now (s : State) (g : Nat) (k : Work) : (s.setWork g k).now = s.now := rfl
@[simp] theorem State.setWork_stepNo (s : State) (g : Nat) (k : Work) : (s.setWork g k).stepNo = s.stepNo := rfl
@[simp] theorem State.setWork_nextId (s : State) (g : Nat) (k : Work) : (s.setWork g k).nextId = s.nextId := rfl
@[simp] theorem State.setWork_schedule (s : State) (g : Nat) (k : Work) : (s.setWork g k).schedule = s.schedule := rfl
@[simp] theorem State.setWork_outputs (s : State) (g : Nat) (k : Work) : (s.setWork g k).outputs = s.outputs := rfl

@[simp] theorem State.setCtx_mem (s : State) (g c : Nat) (k : Ctx) : (s.setCtx g c k).mem = s.mem := rfl
@[simp] theorem State.setCtx_poison (s : State) (g c : Nat) (k : Ctx) : (s.setCtx g c k).poison = s.poison := rfl
@[simp] theorem State.setCtx_clusters (s : State) (g c : Nat) (k : Ctx) : (s.setCtx g c k).clusters = s.clusters := rfl
@[simp] theorem State.setCtx_parts (s : State) (g c : Nat) (k : Ctx) : (s.setCtx g c k).parts = s.parts := rfl
@[simp] theorem State.setCtx_chips (s : State) (g c : Nat) (k : Ctx) : (s.setCtx g c k).chips = s.chips := rfl
@[simp] theorem State.setCtx_net (s : State) (g c : Nat) (k : Ctx) : (s.setCtx g c k).net = s.net := rfl
@[simp] theorem State.setCtx_cur (s : State) (g c : Nat) (k : Ctx) : (s.setCtx g c k).cur = s.cur := rfl
@[simp] theorem State.setCtx_now (s : State) (g c : Nat) (k : Ctx) : (s.setCtx g c k).now = s.now := rfl
@[simp] theorem State.setCtx_stepNo (s : State) (g c : Nat) (k : Ctx) : (s.setCtx g c k).stepNo = s.stepNo := rfl
@[simp] theorem State.setCtx_nextId (s : State) (g c : Nat) (k : Ctx) : (s.setCtx g c k).nextId = s.nextId := rfl
@[simp] theorem State.setCtx_schedule (s : State) (g c : Nat) (k : Ctx) : (s.setCtx g c k).schedule = s.schedule := rfl
@[simp] theorem State.setCtx_outputs (s : State) (g c : Nat) (k : Ctx) : (s.setCtx g c k).outputs = s.outputs := rfl

@[simp] theorem State.setMe_mem (s : State) (k : Ctx) : (s.setMe k).mem = s.mem := rfl
@[simp] theorem State.setMe_poison (s : State) (k : Ctx) : (s.setMe k).poison = s.poison := rfl
@[simp] theorem State.setMe_clusters (s : State) (k : Ctx) : (s.setMe k).clusters = s.clusters := rfl
@[simp] theorem State.setMe_parts (s : State) (k : Ctx) : (s.setMe k).parts = s.parts := rfl
@[simp] theorem State.setMe_chips (s : State) (k : Ctx) : (s.setMe k).chips = s.chips := rfl
@[simp] theorem State.setMe_net (s : State) (k : Ctx) : (s.setMe k).net = s.net := rfl
@[simp] theorem State.setMe_cur (s : State) (k : Ctx) : (s.setMe k).cur = s.cur := rfl
@[simp] theorem State.setMe_now (s : State) (k : Ctx) : (s.setMe k).now = s.now := rfl
@[simp] theorem State.setMe_stepNo (s : State) (k : Ctx) : (s.setMe k).stepNo = s.stepNo := rfl
@[simp] theorem State.setMe_nextId (s : State) (k : Ctx) : (s.setMe k).nextId = s.nextId := rfl
@[simp] theorem State.setMe_schedule (s : State) (k : Ctx) : (s.setMe k).schedule = s.schedule := rfl
@[simp] theorem State.setMe_outputs (s : State) (k : Ctx) : (s.setMe k).outputs = s.outputs := rfl

@[simp] theorem State.setCluster_mem (s : State) (g : Nat) (k : Cluster) : (s.setCluster g k).mem = s.mem := rfl
@[simp] theorem State.setCluster_poison (s : State) (g : Nat) (k : Cluster) : (s.setCluster g k).poison = s.poison := rfl
@[simp] theorem State.setCluster_cores (s : State) (g : Nat) (k : Cluster) : (s.setCluster g k).cores = s.cores := rfl
@[simp] theorem State.setCluster_parts (s : State) (g : Nat) (k : Cluster) : (s.setCluster g k).parts = s.parts := rfl
@[simp] theorem State.setCluster_chips (s : State) (g : Nat) (k : Cluster) : (s.setCluster g k).chips = s.chips := rfl
@[simp] theorem State.setCluster_net (s : State) (g : Nat) (k : Cluster) : (s.setCluster g k).net = s.net := rfl
@[simp] theorem State.setCluster_cur (s : State) (g : Nat) (k : Cluster) : (s.setCluster g k).cur = s.cur := rfl
@[simp] theorem State.setCluster_now (s : State) (g : Nat) (k : Cluster) : (s.setCluster g k).now = s.now := rfl
@[simp] theorem State.setCluster_stepNo (s : State) (g : Nat) (k : Cluster) : (s.setCluster g k).stepNo = s.stepNo := rfl
@[simp] theorem State.setCluster_nextId (s : State) (g : Nat) (k : Cluster) : (s.setCluster g k).nextId = s.nextId := rfl
@[simp] theorem State.setCluster_schedule (s : State) (g : Nat) (k : Cluster) : (s.setCluster g k).schedule = s.schedule := rfl
@[simp] theorem State.setCluster_outputs (s : State) (g : Nat) (k : Cluster) : (s.setCluster g k).outputs = s.outputs := rfl

@[simp] theorem State.setPart_mem (s : State) (t : Nat) (k : Partition) : (s.setPart t k).mem = s.mem := rfl
@[simp] theorem State.setPart_poison (s : State) (t : Nat) (k : Partition) : (s.setPart t k).poison = s.poison := rfl
@[simp] theorem State.setPart_cores (s : State) (t : Nat) (k : Partition) : (s.setPart t k).cores = s.cores := rfl
@[simp] theorem State.setPart_clusters (s : State) (t : Nat) (k : Partition) : (s.setPart t k).clusters = s.clusters := rfl
@[simp] theorem State.setPart_chips (s : State) (t : Nat) (k : Partition) : (s.setPart t k).chips = s.chips := rfl
@[simp] theorem State.setPart_net (s : State) (t : Nat) (k : Partition) : (s.setPart t k).net = s.net := rfl
@[simp] theorem State.setPart_cur (s : State) (t : Nat) (k : Partition) : (s.setPart t k).cur = s.cur := rfl
@[simp] theorem State.setPart_now (s : State) (t : Nat) (k : Partition) : (s.setPart t k).now = s.now := rfl
@[simp] theorem State.setPart_stepNo (s : State) (t : Nat) (k : Partition) : (s.setPart t k).stepNo = s.stepNo := rfl
@[simp] theorem State.setPart_nextId (s : State) (t : Nat) (k : Partition) : (s.setPart t k).nextId = s.nextId := rfl
@[simp] theorem State.setPart_schedule (s : State) (t : Nat) (k : Partition) : (s.setPart t k).schedule = s.schedule := rfl
@[simp] theorem State.setPart_outputs (s : State) (t : Nat) (k : Partition) : (s.setPart t k).outputs = s.outputs := rfl

@[simp] theorem State.setChip_mem (s : State) (h : Nat) (k : Chip) : (s.setChip h k).mem = s.mem := rfl
@[simp] theorem State.setChip_poison (s : State) (h : Nat) (k : Chip) : (s.setChip h k).poison = s.poison := rfl
@[simp] theorem State.setChip_cores (s : State) (h : Nat) (k : Chip) : (s.setChip h k).cores = s.cores := rfl
@[simp] theorem State.setChip_clusters (s : State) (h : Nat) (k : Chip) : (s.setChip h k).clusters = s.clusters := rfl
@[simp] theorem State.setChip_parts (s : State) (h : Nat) (k : Chip) : (s.setChip h k).parts = s.parts := rfl
@[simp] theorem State.setChip_net (s : State) (h : Nat) (k : Chip) : (s.setChip h k).net = s.net := rfl
@[simp] theorem State.setChip_cur (s : State) (h : Nat) (k : Chip) : (s.setChip h k).cur = s.cur := rfl
@[simp] theorem State.setChip_now (s : State) (h : Nat) (k : Chip) : (s.setChip h k).now = s.now := rfl
@[simp] theorem State.setChip_stepNo (s : State) (h : Nat) (k : Chip) : (s.setChip h k).stepNo = s.stepNo := rfl
@[simp] theorem State.setChip_nextId (s : State) (h : Nat) (k : Chip) : (s.setChip h k).nextId = s.nextId := rfl
@[simp] theorem State.setChip_schedule (s : State) (h : Nat) (k : Chip) : (s.setChip h k).schedule = s.schedule := rfl
@[simp] theorem State.setChip_outputs (s : State) (h : Nat) (k : Chip) : (s.setChip h k).outputs = s.outputs := rfl

@[simp] theorem State.setX_mem (s : State) (r : XReg) (v : Word) : (s.setX r v).mem = s.mem := rfl
@[simp] theorem State.setX_poison (s : State) (r : XReg) (v : Word) : (s.setX r v).poison = s.poison := rfl
@[simp] theorem State.setX_clusters (s : State) (r : XReg) (v : Word) : (s.setX r v).clusters = s.clusters := rfl
@[simp] theorem State.setX_parts (s : State) (r : XReg) (v : Word) : (s.setX r v).parts = s.parts := rfl
@[simp] theorem State.setX_chips (s : State) (r : XReg) (v : Word) : (s.setX r v).chips = s.chips := rfl
@[simp] theorem State.setX_net (s : State) (r : XReg) (v : Word) : (s.setX r v).net = s.net := rfl
@[simp] theorem State.setX_cur (s : State) (r : XReg) (v : Word) : (s.setX r v).cur = s.cur := rfl
@[simp] theorem State.setX_now (s : State) (r : XReg) (v : Word) : (s.setX r v).now = s.now := rfl
@[simp] theorem State.setX_stepNo (s : State) (r : XReg) (v : Word) : (s.setX r v).stepNo = s.stepNo := rfl
@[simp] theorem State.setX_nextId (s : State) (r : XReg) (v : Word) : (s.setX r v).nextId = s.nextId := rfl
@[simp] theorem State.setX_schedule (s : State) (r : XReg) (v : Word) : (s.setX r v).schedule = s.schedule := rfl
@[simp] theorem State.setX_outputs (s : State) (r : XReg) (v : Word) : (s.setX r v).outputs = s.outputs := rfl

@[simp] theorem State.hold_mem (s : State) (st : CtxState) : (s.hold st).mem = s.mem := rfl
@[simp] theorem State.hold_poison (s : State) (st : CtxState) : (s.hold st).poison = s.poison := rfl
@[simp] theorem State.hold_clusters (s : State) (st : CtxState) : (s.hold st).clusters = s.clusters := rfl
@[simp] theorem State.hold_parts (s : State) (st : CtxState) : (s.hold st).parts = s.parts := rfl
@[simp] theorem State.hold_chips (s : State) (st : CtxState) : (s.hold st).chips = s.chips := rfl
@[simp] theorem State.hold_net (s : State) (st : CtxState) : (s.hold st).net = s.net := rfl
@[simp] theorem State.hold_cur (s : State) (st : CtxState) : (s.hold st).cur = s.cur := rfl
@[simp] theorem State.hold_now (s : State) (st : CtxState) : (s.hold st).now = s.now := rfl
@[simp] theorem State.hold_stepNo (s : State) (st : CtxState) : (s.hold st).stepNo = s.stepNo := rfl
@[simp] theorem State.hold_nextId (s : State) (st : CtxState) : (s.hold st).nextId = s.nextId := rfl
@[simp] theorem State.hold_schedule (s : State) (st : CtxState) : (s.hold st).schedule = s.schedule := rfl
@[simp] theorem State.hold_outputs (s : State) (st : CtxState) : (s.hold st).outputs = s.outputs := rfl

@[simp] theorem State.fresh_mem (s : State) : (s.fresh).mem = s.mem := rfl
@[simp] theorem State.fresh_poison (s : State) : (s.fresh).poison = s.poison := rfl
@[simp] theorem State.fresh_cores (s : State) : (s.fresh).cores = s.cores := rfl
@[simp] theorem State.fresh_clusters (s : State) : (s.fresh).clusters = s.clusters := rfl
@[simp] theorem State.fresh_parts (s : State) : (s.fresh).parts = s.parts := rfl
@[simp] theorem State.fresh_chips (s : State) : (s.fresh).chips = s.chips := rfl
@[simp] theorem State.fresh_net (s : State) : (s.fresh).net = s.net := rfl
@[simp] theorem State.fresh_cur (s : State) : (s.fresh).cur = s.cur := rfl
@[simp] theorem State.fresh_now (s : State) : (s.fresh).now = s.now := rfl
@[simp] theorem State.fresh_stepNo (s : State) : (s.fresh).stepNo = s.stepNo := rfl
@[simp] theorem State.fresh_schedule (s : State) : (s.fresh).schedule = s.schedule := rfl
@[simp] theorem State.fresh_outputs (s : State) : (s.fresh).outputs = s.outputs := rfl

@[simp] theorem State.inject_mem (s : State) (m : Msg) : (s.inject m).mem = s.mem := rfl
@[simp] theorem State.inject_poison (s : State) (m : Msg) : (s.inject m).poison = s.poison := rfl
@[simp] theorem State.inject_cores (s : State) (m : Msg) : (s.inject m).cores = s.cores := rfl
@[simp] theorem State.inject_clusters (s : State) (m : Msg) : (s.inject m).clusters = s.clusters := rfl
@[simp] theorem State.inject_parts (s : State) (m : Msg) : (s.inject m).parts = s.parts := rfl
@[simp] theorem State.inject_chips (s : State) (m : Msg) : (s.inject m).chips = s.chips := rfl
@[simp] theorem State.inject_cur (s : State) (m : Msg) : (s.inject m).cur = s.cur := rfl
@[simp] theorem State.inject_now (s : State) (m : Msg) : (s.inject m).now = s.now := rfl
@[simp] theorem State.inject_stepNo (s : State) (m : Msg) : (s.inject m).stepNo = s.stepNo := rfl
@[simp] theorem State.inject_schedule (s : State) (m : Msg) : (s.inject m).schedule = s.schedule := rfl
@[simp] theorem State.inject_outputs (s : State) (m : Msg) : (s.inject m).outputs = s.outputs := rfl

@[simp] theorem Ctx.setX_role (k : Ctx) (r : XReg) (v : Word) : (k.setX r v).role = k.role := rfl
@[simp] theorem Ctx.setX_st (k : Ctx) (r : XReg) (v : Word) : (k.setX r v).st = k.st := rfl
@[simp] theorem Ctx.setX_pc (k : Ctx) (r : XReg) (v : Word) : (k.setX r v).pc = k.pc := rfl
@[simp] theorem Ctx.setX_ibuf (k : Ctx) (r : XReg) (v : Word) : (k.setX r v).ibuf = k.ibuf := rfl
@[simp] theorem Ctx.setX_arrived (k : Ctx) (r : XReg) (v : Word) : (k.setX r v).arrived = k.arrived := rfl
@[simp] theorem Ctx.setX_v (k : Ctx) (r : XReg) (v : Word) : (k.setX r v).v = k.v := rfl
@[simp] theorem Ctx.setX_p (k : Ctx) (r : XReg) (v : Word) : (k.setX r v).p = k.p := rfl
@[simp] theorem Ctx.setX_fpflags (k : Ctx) (r : XReg) (v : Word) : (k.setX r v).fpflags = k.fpflags := rfl
@[simp] theorem Ctx.setX_rnd (k : Ctx) (r : XReg) (v : Word) : (k.setX r v).rnd = k.rnd := rfl
@[simp] theorem Ctx.setX_rng (k : Ctx) (r : XReg) (v : Word) : (k.setX r v).rng = k.rng := rfl
@[simp] theorem Ctx.setX_vt (k : Ctx) (r : XReg) (v : Word) : (k.setX r v).vt = k.vt := rfl
@[simp] theorem Ctx.setX_mbox (k : Ctx) (r : XReg) (v : Word) : (k.setX r v).mbox = k.mbox := rfl
@[simp] theorem Ctx.setX_cause (k : Ctx) (r : XReg) (v : Word) : (k.setX r v).cause = k.cause := rfl
@[simp] theorem Ctx.setX_tseq (k : Ctx) (r : XReg) (v : Word) : (k.setX r v).tseq = k.tseq := rfl
@[simp] theorem Ctx.setX_loops (k : Ctx) (r : XReg) (v : Word) : (k.setX r v).loops = k.loops := rfl
@[simp] theorem Ctx.setX_sup (k : Ctx) (r : XReg) (v : Word) : (k.setX r v).sup = k.sup := rfl
@[simp] theorem Ctx.setX_settling (k : Ctx) (r : XReg) (v : Word) : (k.setX r v).settling = k.settling := rfl
@[simp] theorem Ctx.setX_stepArm (k : Ctx) (r : XReg) (v : Word) : (k.setX r v).stepArm = k.stepArm := rfl
@[simp] theorem Ctx.setX_watchOff (k : Ctx) (r : XReg) (v : Word) : (k.setX r v).watchOff = k.watchOff := rfl
@[simp] theorem Ctx.setX_ring (k : Ctx) (r : XReg) (v : Word) : (k.setX r v).ring = k.ring := rfl
@[simp] theorem Ctx.setX_framed (k : Ctx) (r : XReg) (v : Word) : (k.setX r v).framed = k.framed := rfl
@[simp] theorem Ctx.setX_nextSeq (k : Ctx) (r : XReg) (v : Word) : (k.setX r v).nextSeq = k.nextSeq := rfl
@[simp] theorem Ctx.setX_acks (k : Ctx) (r : XReg) (v : Word) : (k.setX r v).acks = k.acks := rfl
@[simp] theorem Ctx.setX_trap (k : Ctx) (r : XReg) (v : Word) : (k.setX r v).trap = k.trap := rfl
@[simp] theorem Ctx.setX_parked (k : Ctx) (r : XReg) (v : Word) : (k.setX r v).parked = k.parked := rfl
@[simp] theorem Ctx.setX_replay (k : Ctx) (r : XReg) (v : Word) : (k.setX r v).replay = k.replay := rfl
@[simp] theorem Ctx.setX_since (k : Ctx) (r : XReg) (v : Word) : (k.setX r v).since = k.since := rfl
@[simp] theorem Ctx.setX_parkedAt (k : Ctx) (r : XReg) (v : Word) : (k.setX r v).parkedAt = k.parkedAt := rfl
@[simp] theorem Ctx.setX_cur (k : Ctx) (r : XReg) (v : Word) : (k.setX r v).cur = k.cur := rfl
@[simp] theorem Ctx.setX_slot (k : Ctx) (r : XReg) (v : Word) : (k.setX r v).slot = k.slot := rfl
@[simp] theorem Ctx.setX_domain (k : Ctx) (r : XReg) (v : Word) : (k.setX r v).domain = k.domain := rfl
@[simp] theorem Ctx.setX_join (k : Ctx) (r : XReg) (v : Word) : (k.setX r v).join = k.join := rfl
@[simp] theorem Ctx.setX_banks (k : Ctx) (r : XReg) (v : Word) : (k.setX r v).banks = k.banks := rfl
@[simp] theorem Ctx.setX_resumedWait (k : Ctx) (r : XReg) (v : Word) : (k.setX r v).resumedWait = k.resumedWait := rfl
@[simp] theorem Ctx.setX_bump (k : Ctx) (r : XReg) (v : Word) : (k.setX r v).bump = k.bump := rfl
@[simp] theorem Ctx.setX_age (k : Ctx) (r : XReg) (v : Word) : (k.setX r v).age = k.age := rfl
@[simp] theorem Ctx.setX_watch (k : Ctx) (r : XReg) (v : Word) : (k.setX r v).watch = k.watch := rfl
@[simp] theorem Ctx.setX_watchTrap (k : Ctx) (r : XReg) (v : Word) : (k.setX r v).watchTrap = k.watchTrap := rfl
@[simp] theorem Ctx.setX_event (k : Ctx) (r : XReg) (v : Word) : (k.setX r v).event = k.event := rfl
@[simp] theorem Ctx.setX_chunk (k : Ctx) (r : XReg) (v : Word) : (k.setX r v).chunk = k.chunk := rfl
@[simp] theorem Ctx.setX_rolled (k : Ctx) (r : XReg) (v : Word) : (k.setX r v).rolled = k.rolled := rfl
@[simp] theorem Ctx.setX_inv (k : Ctx) (r : XReg) (v : Word) : (k.setX r v).inv = k.inv := rfl

@[simp] theorem Ctx.setV_role (k : Ctx) (n : Nat) (r : VReg) : (k.setV n r).role = k.role := rfl
@[simp] theorem Ctx.setV_st (k : Ctx) (n : Nat) (r : VReg) : (k.setV n r).st = k.st := rfl
@[simp] theorem Ctx.setV_pc (k : Ctx) (n : Nat) (r : VReg) : (k.setV n r).pc = k.pc := rfl
@[simp] theorem Ctx.setV_ibuf (k : Ctx) (n : Nat) (r : VReg) : (k.setV n r).ibuf = k.ibuf := rfl
@[simp] theorem Ctx.setV_arrived (k : Ctx) (n : Nat) (r : VReg) : (k.setV n r).arrived = k.arrived := rfl
@[simp] theorem Ctx.setV_x (k : Ctx) (n : Nat) (r : VReg) : (k.setV n r).x = k.x := rfl
@[simp] theorem Ctx.setV_p (k : Ctx) (n : Nat) (r : VReg) : (k.setV n r).p = k.p := rfl
@[simp] theorem Ctx.setV_fpflags (k : Ctx) (n : Nat) (r : VReg) : (k.setV n r).fpflags = k.fpflags := rfl
@[simp] theorem Ctx.setV_rnd (k : Ctx) (n : Nat) (r : VReg) : (k.setV n r).rnd = k.rnd := rfl
@[simp] theorem Ctx.setV_rng (k : Ctx) (n : Nat) (r : VReg) : (k.setV n r).rng = k.rng := rfl
@[simp] theorem Ctx.setV_vt (k : Ctx) (n : Nat) (r : VReg) : (k.setV n r).vt = k.vt := rfl
@[simp] theorem Ctx.setV_mbox (k : Ctx) (n : Nat) (r : VReg) : (k.setV n r).mbox = k.mbox := rfl
@[simp] theorem Ctx.setV_cause (k : Ctx) (n : Nat) (r : VReg) : (k.setV n r).cause = k.cause := rfl
@[simp] theorem Ctx.setV_tseq (k : Ctx) (n : Nat) (r : VReg) : (k.setV n r).tseq = k.tseq := rfl
@[simp] theorem Ctx.setV_loops (k : Ctx) (n : Nat) (r : VReg) : (k.setV n r).loops = k.loops := rfl
@[simp] theorem Ctx.setV_sup (k : Ctx) (n : Nat) (r : VReg) : (k.setV n r).sup = k.sup := rfl
@[simp] theorem Ctx.setV_settling (k : Ctx) (n : Nat) (r : VReg) : (k.setV n r).settling = k.settling := rfl
@[simp] theorem Ctx.setV_stepArm (k : Ctx) (n : Nat) (r : VReg) : (k.setV n r).stepArm = k.stepArm := rfl
@[simp] theorem Ctx.setV_watchOff (k : Ctx) (n : Nat) (r : VReg) : (k.setV n r).watchOff = k.watchOff := rfl
@[simp] theorem Ctx.setV_ring (k : Ctx) (n : Nat) (r : VReg) : (k.setV n r).ring = k.ring := rfl
@[simp] theorem Ctx.setV_framed (k : Ctx) (n : Nat) (r : VReg) : (k.setV n r).framed = k.framed := rfl
@[simp] theorem Ctx.setV_nextSeq (k : Ctx) (n : Nat) (r : VReg) : (k.setV n r).nextSeq = k.nextSeq := rfl
@[simp] theorem Ctx.setV_acks (k : Ctx) (n : Nat) (r : VReg) : (k.setV n r).acks = k.acks := rfl
@[simp] theorem Ctx.setV_owed (k : Ctx) (n : Nat) (r : VReg) : (k.setV n r).owed = k.owed := rfl
@[simp] theorem Ctx.setV_amos (k : Ctx) (n : Nat) (r : VReg) : (k.setV n r).amos = k.amos := rfl
@[simp] theorem Ctx.setV_trap (k : Ctx) (n : Nat) (r : VReg) : (k.setV n r).trap = k.trap := rfl
@[simp] theorem Ctx.setV_parked (k : Ctx) (n : Nat) (r : VReg) : (k.setV n r).parked = k.parked := rfl
@[simp] theorem Ctx.setV_replay (k : Ctx) (n : Nat) (r : VReg) : (k.setV n r).replay = k.replay := rfl
@[simp] theorem Ctx.setV_since (k : Ctx) (n : Nat) (r : VReg) : (k.setV n r).since = k.since := rfl
@[simp] theorem Ctx.setV_parkedAt (k : Ctx) (n : Nat) (r : VReg) : (k.setV n r).parkedAt = k.parkedAt := rfl
@[simp] theorem Ctx.setV_cur (k : Ctx) (n : Nat) (r : VReg) : (k.setV n r).cur = k.cur := rfl
@[simp] theorem Ctx.setV_slot (k : Ctx) (n : Nat) (r : VReg) : (k.setV n r).slot = k.slot := rfl
@[simp] theorem Ctx.setV_domain (k : Ctx) (n : Nat) (r : VReg) : (k.setV n r).domain = k.domain := rfl
@[simp] theorem Ctx.setV_join (k : Ctx) (n : Nat) (r : VReg) : (k.setV n r).join = k.join := rfl
@[simp] theorem Ctx.setV_banks (k : Ctx) (n : Nat) (r : VReg) : (k.setV n r).banks = k.banks := rfl
@[simp] theorem Ctx.setV_resumedWait (k : Ctx) (n : Nat) (r : VReg) : (k.setV n r).resumedWait = k.resumedWait := rfl
@[simp] theorem Ctx.setV_bump (k : Ctx) (n : Nat) (r : VReg) : (k.setV n r).bump = k.bump := rfl
@[simp] theorem Ctx.setV_age (k : Ctx) (n : Nat) (r : VReg) : (k.setV n r).age = k.age := rfl
@[simp] theorem Ctx.setV_watch (k : Ctx) (n : Nat) (r : VReg) : (k.setV n r).watch = k.watch := rfl
@[simp] theorem Ctx.setV_watchTrap (k : Ctx) (n : Nat) (r : VReg) : (k.setV n r).watchTrap = k.watchTrap := rfl
@[simp] theorem Ctx.setV_event (k : Ctx) (n : Nat) (r : VReg) : (k.setV n r).event = k.event := rfl
@[simp] theorem Ctx.setV_chunk (k : Ctx) (n : Nat) (r : VReg) : (k.setV n r).chunk = k.chunk := rfl
@[simp] theorem Ctx.setV_rolled (k : Ctx) (n : Nat) (r : VReg) : (k.setV n r).rolled = k.rolled := rfl
@[simp] theorem Ctx.setV_inv (k : Ctx) (n : Nat) (r : VReg) : (k.setV n r).inv = k.inv := rfl

@[simp] theorem Ctx.push_role (k : Ctx) (e : RingEntry) : (k.push e).role = k.role := rfl
@[simp] theorem Ctx.push_st (k : Ctx) (e : RingEntry) : (k.push e).st = k.st := rfl
@[simp] theorem Ctx.push_pc (k : Ctx) (e : RingEntry) : (k.push e).pc = k.pc := rfl
@[simp] theorem Ctx.push_ibuf (k : Ctx) (e : RingEntry) : (k.push e).ibuf = k.ibuf := rfl
@[simp] theorem Ctx.push_arrived (k : Ctx) (e : RingEntry) : (k.push e).arrived = k.arrived := rfl
@[simp] theorem Ctx.push_x (k : Ctx) (e : RingEntry) : (k.push e).x = k.x := rfl
@[simp] theorem Ctx.push_v (k : Ctx) (e : RingEntry) : (k.push e).v = k.v := rfl
@[simp] theorem Ctx.push_p (k : Ctx) (e : RingEntry) : (k.push e).p = k.p := rfl
@[simp] theorem Ctx.push_fpflags (k : Ctx) (e : RingEntry) : (k.push e).fpflags = k.fpflags := rfl
@[simp] theorem Ctx.push_rnd (k : Ctx) (e : RingEntry) : (k.push e).rnd = k.rnd := rfl
@[simp] theorem Ctx.push_rng (k : Ctx) (e : RingEntry) : (k.push e).rng = k.rng := rfl
@[simp] theorem Ctx.push_vt (k : Ctx) (e : RingEntry) : (k.push e).vt = k.vt := rfl
@[simp] theorem Ctx.push_mbox (k : Ctx) (e : RingEntry) : (k.push e).mbox = k.mbox := rfl
@[simp] theorem Ctx.push_cause (k : Ctx) (e : RingEntry) : (k.push e).cause = k.cause := rfl
@[simp] theorem Ctx.push_tseq (k : Ctx) (e : RingEntry) : (k.push e).tseq = k.tseq := rfl
@[simp] theorem Ctx.push_loops (k : Ctx) (e : RingEntry) : (k.push e).loops = k.loops := rfl
@[simp] theorem Ctx.push_sup (k : Ctx) (e : RingEntry) : (k.push e).sup = k.sup := rfl
@[simp] theorem Ctx.push_settling (k : Ctx) (e : RingEntry) : (k.push e).settling = k.settling := rfl
@[simp] theorem Ctx.push_stepArm (k : Ctx) (e : RingEntry) : (k.push e).stepArm = k.stepArm := rfl
@[simp] theorem Ctx.push_watchOff (k : Ctx) (e : RingEntry) : (k.push e).watchOff = k.watchOff := rfl
@[simp] theorem Ctx.push_framed (k : Ctx) (e : RingEntry) : (k.push e).framed = k.framed := rfl
@[simp] theorem Ctx.push_acks (k : Ctx) (e : RingEntry) : (k.push e).acks = k.acks := rfl
@[simp] theorem Ctx.push_owed (k : Ctx) (e : RingEntry) : (k.push e).owed = k.owed := rfl
@[simp] theorem Ctx.push_amos (k : Ctx) (e : RingEntry) : (k.push e).amos = k.amos := rfl
@[simp] theorem Ctx.push_trap (k : Ctx) (e : RingEntry) : (k.push e).trap = k.trap := rfl
@[simp] theorem Ctx.push_parked (k : Ctx) (e : RingEntry) : (k.push e).parked = k.parked := rfl
@[simp] theorem Ctx.push_replay (k : Ctx) (e : RingEntry) : (k.push e).replay = k.replay := rfl
@[simp] theorem Ctx.push_since (k : Ctx) (e : RingEntry) : (k.push e).since = k.since := rfl
@[simp] theorem Ctx.push_parkedAt (k : Ctx) (e : RingEntry) : (k.push e).parkedAt = k.parkedAt := rfl
@[simp] theorem Ctx.push_cur (k : Ctx) (e : RingEntry) : (k.push e).cur = k.cur := rfl
@[simp] theorem Ctx.push_slot (k : Ctx) (e : RingEntry) : (k.push e).slot = k.slot := rfl
@[simp] theorem Ctx.push_domain (k : Ctx) (e : RingEntry) : (k.push e).domain = k.domain := rfl
@[simp] theorem Ctx.push_join (k : Ctx) (e : RingEntry) : (k.push e).join = k.join := rfl
@[simp] theorem Ctx.push_banks (k : Ctx) (e : RingEntry) : (k.push e).banks = k.banks := rfl
@[simp] theorem Ctx.push_resumedWait (k : Ctx) (e : RingEntry) : (k.push e).resumedWait = k.resumedWait := rfl
@[simp] theorem Ctx.push_bump (k : Ctx) (e : RingEntry) : (k.push e).bump = k.bump := rfl
@[simp] theorem Ctx.push_age (k : Ctx) (e : RingEntry) : (k.push e).age = k.age := rfl
@[simp] theorem Ctx.push_watch (k : Ctx) (e : RingEntry) : (k.push e).watch = k.watch := rfl
@[simp] theorem Ctx.push_watchTrap (k : Ctx) (e : RingEntry) : (k.push e).watchTrap = k.watchTrap := rfl
@[simp] theorem Ctx.push_event (k : Ctx) (e : RingEntry) : (k.push e).event = k.event := rfl
@[simp] theorem Ctx.push_chunk (k : Ctx) (e : RingEntry) : (k.push e).chunk = k.chunk := rfl
@[simp] theorem Ctx.push_rolled (k : Ctx) (e : RingEntry) : (k.push e).rolled = k.rolled := rfl
@[simp] theorem Ctx.push_inv (k : Ctx) (e : RingEntry) : (k.push e).inv = k.inv := rfl

@[simp] theorem Ctx.setEntry_role (k : Ctx) (q : Byte) (f : RingEntry → RingEntry) : (k.setEntry q f).role = k.role := rfl
@[simp] theorem Ctx.setEntry_st (k : Ctx) (q : Byte) (f : RingEntry → RingEntry) : (k.setEntry q f).st = k.st := rfl
@[simp] theorem Ctx.setEntry_pc (k : Ctx) (q : Byte) (f : RingEntry → RingEntry) : (k.setEntry q f).pc = k.pc := rfl
@[simp] theorem Ctx.setEntry_ibuf (k : Ctx) (q : Byte) (f : RingEntry → RingEntry) : (k.setEntry q f).ibuf = k.ibuf := rfl
@[simp] theorem Ctx.setEntry_arrived (k : Ctx) (q : Byte) (f : RingEntry → RingEntry) : (k.setEntry q f).arrived = k.arrived := rfl
@[simp] theorem Ctx.setEntry_x (k : Ctx) (q : Byte) (f : RingEntry → RingEntry) : (k.setEntry q f).x = k.x := rfl
@[simp] theorem Ctx.setEntry_v (k : Ctx) (q : Byte) (f : RingEntry → RingEntry) : (k.setEntry q f).v = k.v := rfl
@[simp] theorem Ctx.setEntry_p (k : Ctx) (q : Byte) (f : RingEntry → RingEntry) : (k.setEntry q f).p = k.p := rfl
@[simp] theorem Ctx.setEntry_fpflags (k : Ctx) (q : Byte) (f : RingEntry → RingEntry) : (k.setEntry q f).fpflags = k.fpflags := rfl
@[simp] theorem Ctx.setEntry_rnd (k : Ctx) (q : Byte) (f : RingEntry → RingEntry) : (k.setEntry q f).rnd = k.rnd := rfl
@[simp] theorem Ctx.setEntry_rng (k : Ctx) (q : Byte) (f : RingEntry → RingEntry) : (k.setEntry q f).rng = k.rng := rfl
@[simp] theorem Ctx.setEntry_vt (k : Ctx) (q : Byte) (f : RingEntry → RingEntry) : (k.setEntry q f).vt = k.vt := rfl
@[simp] theorem Ctx.setEntry_mbox (k : Ctx) (q : Byte) (f : RingEntry → RingEntry) : (k.setEntry q f).mbox = k.mbox := rfl
@[simp] theorem Ctx.setEntry_cause (k : Ctx) (q : Byte) (f : RingEntry → RingEntry) : (k.setEntry q f).cause = k.cause := rfl
@[simp] theorem Ctx.setEntry_tseq (k : Ctx) (q : Byte) (f : RingEntry → RingEntry) : (k.setEntry q f).tseq = k.tseq := rfl
@[simp] theorem Ctx.setEntry_loops (k : Ctx) (q : Byte) (f : RingEntry → RingEntry) : (k.setEntry q f).loops = k.loops := rfl
@[simp] theorem Ctx.setEntry_sup (k : Ctx) (q : Byte) (f : RingEntry → RingEntry) : (k.setEntry q f).sup = k.sup := rfl
@[simp] theorem Ctx.setEntry_settling (k : Ctx) (q : Byte) (f : RingEntry → RingEntry) : (k.setEntry q f).settling = k.settling := rfl
@[simp] theorem Ctx.setEntry_stepArm (k : Ctx) (q : Byte) (f : RingEntry → RingEntry) : (k.setEntry q f).stepArm = k.stepArm := rfl
@[simp] theorem Ctx.setEntry_watchOff (k : Ctx) (q : Byte) (f : RingEntry → RingEntry) : (k.setEntry q f).watchOff = k.watchOff := rfl
@[simp] theorem Ctx.setEntry_framed (k : Ctx) (q : Byte) (f : RingEntry → RingEntry) : (k.setEntry q f).framed = k.framed := rfl
@[simp] theorem Ctx.setEntry_nextSeq (k : Ctx) (q : Byte) (f : RingEntry → RingEntry) : (k.setEntry q f).nextSeq = k.nextSeq := rfl
@[simp] theorem Ctx.setEntry_acks (k : Ctx) (q : Byte) (f : RingEntry → RingEntry) : (k.setEntry q f).acks = k.acks := rfl
@[simp] theorem Ctx.setEntry_owed (k : Ctx) (q : Byte) (f : RingEntry → RingEntry) : (k.setEntry q f).owed = k.owed := rfl
@[simp] theorem Ctx.setEntry_amos (k : Ctx) (q : Byte) (f : RingEntry → RingEntry) : (k.setEntry q f).amos = k.amos := rfl
@[simp] theorem Ctx.setEntry_trap (k : Ctx) (q : Byte) (f : RingEntry → RingEntry) : (k.setEntry q f).trap = k.trap := rfl
@[simp] theorem Ctx.setEntry_parked (k : Ctx) (q : Byte) (f : RingEntry → RingEntry) : (k.setEntry q f).parked = k.parked := rfl
@[simp] theorem Ctx.setEntry_replay (k : Ctx) (q : Byte) (f : RingEntry → RingEntry) : (k.setEntry q f).replay = k.replay := rfl
@[simp] theorem Ctx.setEntry_since (k : Ctx) (q : Byte) (f : RingEntry → RingEntry) : (k.setEntry q f).since = k.since := rfl
@[simp] theorem Ctx.setEntry_parkedAt (k : Ctx) (q : Byte) (f : RingEntry → RingEntry) : (k.setEntry q f).parkedAt = k.parkedAt := rfl
@[simp] theorem Ctx.setEntry_cur (k : Ctx) (q : Byte) (f : RingEntry → RingEntry) : (k.setEntry q f).cur = k.cur := rfl
@[simp] theorem Ctx.setEntry_slot (k : Ctx) (q : Byte) (f : RingEntry → RingEntry) : (k.setEntry q f).slot = k.slot := rfl
@[simp] theorem Ctx.setEntry_domain (k : Ctx) (q : Byte) (f : RingEntry → RingEntry) : (k.setEntry q f).domain = k.domain := rfl
@[simp] theorem Ctx.setEntry_join (k : Ctx) (q : Byte) (f : RingEntry → RingEntry) : (k.setEntry q f).join = k.join := rfl
@[simp] theorem Ctx.setEntry_banks (k : Ctx) (q : Byte) (f : RingEntry → RingEntry) : (k.setEntry q f).banks = k.banks := rfl
@[simp] theorem Ctx.setEntry_resumedWait (k : Ctx) (q : Byte) (f : RingEntry → RingEntry) : (k.setEntry q f).resumedWait = k.resumedWait := rfl
@[simp] theorem Ctx.setEntry_bump (k : Ctx) (q : Byte) (f : RingEntry → RingEntry) : (k.setEntry q f).bump = k.bump := rfl
@[simp] theorem Ctx.setEntry_age (k : Ctx) (q : Byte) (f : RingEntry → RingEntry) : (k.setEntry q f).age = k.age := rfl
@[simp] theorem Ctx.setEntry_watch (k : Ctx) (q : Byte) (f : RingEntry → RingEntry) : (k.setEntry q f).watch = k.watch := rfl
@[simp] theorem Ctx.setEntry_watchTrap (k : Ctx) (q : Byte) (f : RingEntry → RingEntry) : (k.setEntry q f).watchTrap = k.watchTrap := rfl
@[simp] theorem Ctx.setEntry_event (k : Ctx) (q : Byte) (f : RingEntry → RingEntry) : (k.setEntry q f).event = k.event := rfl
@[simp] theorem Ctx.setEntry_chunk (k : Ctx) (q : Byte) (f : RingEntry → RingEntry) : (k.setEntry q f).chunk = k.chunk := rfl
@[simp] theorem Ctx.setEntry_rolled (k : Ctx) (q : Byte) (f : RingEntry → RingEntry) : (k.setEntry q f).rolled = k.rolled := rfl
@[simp] theorem Ctx.setEntry_inv (k : Ctx) (q : Byte) (f : RingEntry → RingEntry) : (k.setEntry q f).inv = k.inv := rfl

@[simp] theorem Ctx.doneEntry_role (k : Ctx) (q : Byte) : (k.doneEntry q).role = k.role := rfl
@[simp] theorem Ctx.doneEntry_st (k : Ctx) (q : Byte) : (k.doneEntry q).st = k.st := rfl
@[simp] theorem Ctx.doneEntry_pc (k : Ctx) (q : Byte) : (k.doneEntry q).pc = k.pc := rfl
@[simp] theorem Ctx.doneEntry_ibuf (k : Ctx) (q : Byte) : (k.doneEntry q).ibuf = k.ibuf := rfl
@[simp] theorem Ctx.doneEntry_arrived (k : Ctx) (q : Byte) : (k.doneEntry q).arrived = k.arrived := rfl
@[simp] theorem Ctx.doneEntry_x (k : Ctx) (q : Byte) : (k.doneEntry q).x = k.x := rfl
@[simp] theorem Ctx.doneEntry_v (k : Ctx) (q : Byte) : (k.doneEntry q).v = k.v := rfl
@[simp] theorem Ctx.doneEntry_p (k : Ctx) (q : Byte) : (k.doneEntry q).p = k.p := rfl
@[simp] theorem Ctx.doneEntry_fpflags (k : Ctx) (q : Byte) : (k.doneEntry q).fpflags = k.fpflags := rfl
@[simp] theorem Ctx.doneEntry_rnd (k : Ctx) (q : Byte) : (k.doneEntry q).rnd = k.rnd := rfl
@[simp] theorem Ctx.doneEntry_rng (k : Ctx) (q : Byte) : (k.doneEntry q).rng = k.rng := rfl
@[simp] theorem Ctx.doneEntry_vt (k : Ctx) (q : Byte) : (k.doneEntry q).vt = k.vt := rfl
@[simp] theorem Ctx.doneEntry_mbox (k : Ctx) (q : Byte) : (k.doneEntry q).mbox = k.mbox := rfl
@[simp] theorem Ctx.doneEntry_cause (k : Ctx) (q : Byte) : (k.doneEntry q).cause = k.cause := rfl
@[simp] theorem Ctx.doneEntry_tseq (k : Ctx) (q : Byte) : (k.doneEntry q).tseq = k.tseq := rfl
@[simp] theorem Ctx.doneEntry_loops (k : Ctx) (q : Byte) : (k.doneEntry q).loops = k.loops := rfl
@[simp] theorem Ctx.doneEntry_sup (k : Ctx) (q : Byte) : (k.doneEntry q).sup = k.sup := rfl
@[simp] theorem Ctx.doneEntry_settling (k : Ctx) (q : Byte) : (k.doneEntry q).settling = k.settling := rfl
@[simp] theorem Ctx.doneEntry_stepArm (k : Ctx) (q : Byte) : (k.doneEntry q).stepArm = k.stepArm := rfl
@[simp] theorem Ctx.doneEntry_watchOff (k : Ctx) (q : Byte) : (k.doneEntry q).watchOff = k.watchOff := rfl
@[simp] theorem Ctx.doneEntry_framed (k : Ctx) (q : Byte) : (k.doneEntry q).framed = k.framed := rfl
@[simp] theorem Ctx.doneEntry_nextSeq (k : Ctx) (q : Byte) : (k.doneEntry q).nextSeq = k.nextSeq := rfl
@[simp] theorem Ctx.doneEntry_acks (k : Ctx) (q : Byte) : (k.doneEntry q).acks = k.acks := rfl
@[simp] theorem Ctx.doneEntry_owed (k : Ctx) (q : Byte) : (k.doneEntry q).owed = k.owed := rfl
@[simp] theorem Ctx.doneEntry_amos (k : Ctx) (q : Byte) : (k.doneEntry q).amos = k.amos := rfl
@[simp] theorem Ctx.doneEntry_trap (k : Ctx) (q : Byte) : (k.doneEntry q).trap = k.trap := rfl
@[simp] theorem Ctx.doneEntry_parked (k : Ctx) (q : Byte) : (k.doneEntry q).parked = k.parked := rfl
@[simp] theorem Ctx.doneEntry_replay (k : Ctx) (q : Byte) : (k.doneEntry q).replay = k.replay := rfl
@[simp] theorem Ctx.doneEntry_since (k : Ctx) (q : Byte) : (k.doneEntry q).since = k.since := rfl
@[simp] theorem Ctx.doneEntry_parkedAt (k : Ctx) (q : Byte) : (k.doneEntry q).parkedAt = k.parkedAt := rfl
@[simp] theorem Ctx.doneEntry_cur (k : Ctx) (q : Byte) : (k.doneEntry q).cur = k.cur := rfl
@[simp] theorem Ctx.doneEntry_slot (k : Ctx) (q : Byte) : (k.doneEntry q).slot = k.slot := rfl
@[simp] theorem Ctx.doneEntry_domain (k : Ctx) (q : Byte) : (k.doneEntry q).domain = k.domain := rfl
@[simp] theorem Ctx.doneEntry_join (k : Ctx) (q : Byte) : (k.doneEntry q).join = k.join := rfl
@[simp] theorem Ctx.doneEntry_banks (k : Ctx) (q : Byte) : (k.doneEntry q).banks = k.banks := rfl
@[simp] theorem Ctx.doneEntry_resumedWait (k : Ctx) (q : Byte) : (k.doneEntry q).resumedWait = k.resumedWait := rfl
@[simp] theorem Ctx.doneEntry_bump (k : Ctx) (q : Byte) : (k.doneEntry q).bump = k.bump := rfl
@[simp] theorem Ctx.doneEntry_age (k : Ctx) (q : Byte) : (k.doneEntry q).age = k.age := rfl
@[simp] theorem Ctx.doneEntry_watch (k : Ctx) (q : Byte) : (k.doneEntry q).watch = k.watch := rfl
@[simp] theorem Ctx.doneEntry_watchTrap (k : Ctx) (q : Byte) : (k.doneEntry q).watchTrap = k.watchTrap := rfl
@[simp] theorem Ctx.doneEntry_event (k : Ctx) (q : Byte) : (k.doneEntry q).event = k.event := rfl
@[simp] theorem Ctx.doneEntry_chunk (k : Ctx) (q : Byte) : (k.doneEntry q).chunk = k.chunk := rfl
@[simp] theorem Ctx.doneEntry_rolled (k : Ctx) (q : Byte) : (k.doneEntry q).rolled = k.rolled := rfl
@[simp] theorem Ctx.doneEntry_inv (k : Ctx) (q : Byte) : (k.doneEntry q).inv = k.inv := rfl

@[simp] theorem Ctx.faultEntry_role (k : Ctx) (q : Byte) (n : Nat) (a : Word) (b : Bool) : (k.faultEntry q n a b).role = k.role := rfl
@[simp] theorem Ctx.faultEntry_st (k : Ctx) (q : Byte) (n : Nat) (a : Word) (b : Bool) : (k.faultEntry q n a b).st = k.st := rfl
@[simp] theorem Ctx.faultEntry_pc (k : Ctx) (q : Byte) (n : Nat) (a : Word) (b : Bool) : (k.faultEntry q n a b).pc = k.pc := rfl
@[simp] theorem Ctx.faultEntry_ibuf (k : Ctx) (q : Byte) (n : Nat) (a : Word) (b : Bool) : (k.faultEntry q n a b).ibuf = k.ibuf := rfl
@[simp] theorem Ctx.faultEntry_arrived (k : Ctx) (q : Byte) (n : Nat) (a : Word) (b : Bool) : (k.faultEntry q n a b).arrived = k.arrived := rfl
@[simp] theorem Ctx.faultEntry_x (k : Ctx) (q : Byte) (n : Nat) (a : Word) (b : Bool) : (k.faultEntry q n a b).x = k.x := rfl
@[simp] theorem Ctx.faultEntry_v (k : Ctx) (q : Byte) (n : Nat) (a : Word) (b : Bool) : (k.faultEntry q n a b).v = k.v := rfl
@[simp] theorem Ctx.faultEntry_p (k : Ctx) (q : Byte) (n : Nat) (a : Word) (b : Bool) : (k.faultEntry q n a b).p = k.p := rfl
@[simp] theorem Ctx.faultEntry_fpflags (k : Ctx) (q : Byte) (n : Nat) (a : Word) (b : Bool) : (k.faultEntry q n a b).fpflags = k.fpflags := rfl
@[simp] theorem Ctx.faultEntry_rnd (k : Ctx) (q : Byte) (n : Nat) (a : Word) (b : Bool) : (k.faultEntry q n a b).rnd = k.rnd := rfl
@[simp] theorem Ctx.faultEntry_rng (k : Ctx) (q : Byte) (n : Nat) (a : Word) (b : Bool) : (k.faultEntry q n a b).rng = k.rng := rfl
@[simp] theorem Ctx.faultEntry_vt (k : Ctx) (q : Byte) (n : Nat) (a : Word) (b : Bool) : (k.faultEntry q n a b).vt = k.vt := rfl
@[simp] theorem Ctx.faultEntry_mbox (k : Ctx) (q : Byte) (n : Nat) (a : Word) (b : Bool) : (k.faultEntry q n a b).mbox = k.mbox := rfl
@[simp] theorem Ctx.faultEntry_cause (k : Ctx) (q : Byte) (n : Nat) (a : Word) (b : Bool) : (k.faultEntry q n a b).cause = k.cause := rfl
@[simp] theorem Ctx.faultEntry_tseq (k : Ctx) (q : Byte) (n : Nat) (a : Word) (b : Bool) : (k.faultEntry q n a b).tseq = k.tseq := rfl
@[simp] theorem Ctx.faultEntry_loops (k : Ctx) (q : Byte) (n : Nat) (a : Word) (b : Bool) : (k.faultEntry q n a b).loops = k.loops := rfl
@[simp] theorem Ctx.faultEntry_sup (k : Ctx) (q : Byte) (n : Nat) (a : Word) (b : Bool) : (k.faultEntry q n a b).sup = k.sup := rfl
@[simp] theorem Ctx.faultEntry_settling (k : Ctx) (q : Byte) (n : Nat) (a : Word) (b : Bool) : (k.faultEntry q n a b).settling = k.settling := rfl
@[simp] theorem Ctx.faultEntry_stepArm (k : Ctx) (q : Byte) (n : Nat) (a : Word) (b : Bool) : (k.faultEntry q n a b).stepArm = k.stepArm := rfl
@[simp] theorem Ctx.faultEntry_watchOff (k : Ctx) (q : Byte) (n : Nat) (a : Word) (b : Bool) : (k.faultEntry q n a b).watchOff = k.watchOff := rfl
@[simp] theorem Ctx.faultEntry_framed (k : Ctx) (q : Byte) (n : Nat) (a : Word) (b : Bool) : (k.faultEntry q n a b).framed = k.framed := rfl
@[simp] theorem Ctx.faultEntry_nextSeq (k : Ctx) (q : Byte) (n : Nat) (a : Word) (b : Bool) : (k.faultEntry q n a b).nextSeq = k.nextSeq := rfl
@[simp] theorem Ctx.faultEntry_acks (k : Ctx) (q : Byte) (n : Nat) (a : Word) (b : Bool) : (k.faultEntry q n a b).acks = k.acks := rfl
@[simp] theorem Ctx.faultEntry_owed (k : Ctx) (q : Byte) (n : Nat) (a : Word) (b : Bool) : (k.faultEntry q n a b).owed = k.owed := rfl
@[simp] theorem Ctx.faultEntry_amos (k : Ctx) (q : Byte) (n : Nat) (a : Word) (b : Bool) : (k.faultEntry q n a b).amos = k.amos := rfl
@[simp] theorem Ctx.faultEntry_trap (k : Ctx) (q : Byte) (n : Nat) (a : Word) (b : Bool) : (k.faultEntry q n a b).trap = k.trap := rfl
@[simp] theorem Ctx.faultEntry_parked (k : Ctx) (q : Byte) (n : Nat) (a : Word) (b : Bool) : (k.faultEntry q n a b).parked = k.parked := rfl
@[simp] theorem Ctx.faultEntry_replay (k : Ctx) (q : Byte) (n : Nat) (a : Word) (b : Bool) : (k.faultEntry q n a b).replay = k.replay := rfl
@[simp] theorem Ctx.faultEntry_since (k : Ctx) (q : Byte) (n : Nat) (a : Word) (b : Bool) : (k.faultEntry q n a b).since = k.since := rfl
@[simp] theorem Ctx.faultEntry_parkedAt (k : Ctx) (q : Byte) (n : Nat) (a : Word) (b : Bool) : (k.faultEntry q n a b).parkedAt = k.parkedAt := rfl
@[simp] theorem Ctx.faultEntry_cur (k : Ctx) (q : Byte) (n : Nat) (a : Word) (b : Bool) : (k.faultEntry q n a b).cur = k.cur := rfl
@[simp] theorem Ctx.faultEntry_slot (k : Ctx) (q : Byte) (n : Nat) (a : Word) (b : Bool) : (k.faultEntry q n a b).slot = k.slot := rfl
@[simp] theorem Ctx.faultEntry_domain (k : Ctx) (q : Byte) (n : Nat) (a : Word) (b : Bool) : (k.faultEntry q n a b).domain = k.domain := rfl
@[simp] theorem Ctx.faultEntry_join (k : Ctx) (q : Byte) (n : Nat) (a : Word) (b : Bool) : (k.faultEntry q n a b).join = k.join := rfl
@[simp] theorem Ctx.faultEntry_banks (k : Ctx) (q : Byte) (n : Nat) (a : Word) (b : Bool) : (k.faultEntry q n a b).banks = k.banks := rfl
@[simp] theorem Ctx.faultEntry_resumedWait (k : Ctx) (q : Byte) (n : Nat) (a : Word) (b : Bool) : (k.faultEntry q n a b).resumedWait = k.resumedWait := rfl
@[simp] theorem Ctx.faultEntry_bump (k : Ctx) (q : Byte) (n : Nat) (a : Word) (b : Bool) : (k.faultEntry q n a b).bump = k.bump := rfl
@[simp] theorem Ctx.faultEntry_age (k : Ctx) (q : Byte) (n : Nat) (a : Word) (b : Bool) : (k.faultEntry q n a b).age = k.age := rfl
@[simp] theorem Ctx.faultEntry_watch (k : Ctx) (q : Byte) (n : Nat) (a : Word) (b : Bool) : (k.faultEntry q n a b).watch = k.watch := rfl
@[simp] theorem Ctx.faultEntry_watchTrap (k : Ctx) (q : Byte) (n : Nat) (a : Word) (b : Bool) : (k.faultEntry q n a b).watchTrap = k.watchTrap := rfl
@[simp] theorem Ctx.faultEntry_event (k : Ctx) (q : Byte) (n : Nat) (a : Word) (b : Bool) : (k.faultEntry q n a b).event = k.event := rfl
@[simp] theorem Ctx.faultEntry_chunk (k : Ctx) (q : Byte) (n : Nat) (a : Word) (b : Bool) : (k.faultEntry q n a b).chunk = k.chunk := rfl
@[simp] theorem Ctx.faultEntry_rolled (k : Ctx) (q : Byte) (n : Nat) (a : Word) (b : Bool) : (k.faultEntry q n a b).rolled = k.rolled := rfl
@[simp] theorem Ctx.faultEntry_inv (k : Ctx) (q : Byte) (n : Nat) (a : Word) (b : Bool) : (k.faultEntry q n a b).inv = k.inv := rfl

@[simp] theorem Ctx.resumeAt_role (k : Ctx) (a : Word) : (k.resumeAt a).role = k.role := rfl
@[simp] theorem Ctx.resumeAt_x (k : Ctx) (a : Word) : (k.resumeAt a).x = k.x := rfl
@[simp] theorem Ctx.resumeAt_v (k : Ctx) (a : Word) : (k.resumeAt a).v = k.v := rfl
@[simp] theorem Ctx.resumeAt_p (k : Ctx) (a : Word) : (k.resumeAt a).p = k.p := rfl
@[simp] theorem Ctx.resumeAt_fpflags (k : Ctx) (a : Word) : (k.resumeAt a).fpflags = k.fpflags := rfl
@[simp] theorem Ctx.resumeAt_rnd (k : Ctx) (a : Word) : (k.resumeAt a).rnd = k.rnd := rfl
@[simp] theorem Ctx.resumeAt_rng (k : Ctx) (a : Word) : (k.resumeAt a).rng = k.rng := rfl
@[simp] theorem Ctx.resumeAt_vt (k : Ctx) (a : Word) : (k.resumeAt a).vt = k.vt := rfl
@[simp] theorem Ctx.resumeAt_mbox (k : Ctx) (a : Word) : (k.resumeAt a).mbox = k.mbox := rfl
@[simp] theorem Ctx.resumeAt_cause (k : Ctx) (a : Word) : (k.resumeAt a).cause = k.cause := rfl
@[simp] theorem Ctx.resumeAt_tseq (k : Ctx) (a : Word) : (k.resumeAt a).tseq = k.tseq := rfl
@[simp] theorem Ctx.resumeAt_loops (k : Ctx) (a : Word) : (k.resumeAt a).loops = k.loops := rfl
@[simp] theorem Ctx.resumeAt_sup (k : Ctx) (a : Word) : (k.resumeAt a).sup = k.sup := rfl
@[simp] theorem Ctx.resumeAt_settling (k : Ctx) (a : Word) : (k.resumeAt a).settling = k.settling := rfl
@[simp] theorem Ctx.resumeAt_stepArm (k : Ctx) (a : Word) : (k.resumeAt a).stepArm = k.stepArm := rfl
@[simp] theorem Ctx.resumeAt_watchOff (k : Ctx) (a : Word) : (k.resumeAt a).watchOff = k.watchOff := rfl
@[simp] theorem Ctx.resumeAt_ring (k : Ctx) (a : Word) : (k.resumeAt a).ring = k.ring := rfl
@[simp] theorem Ctx.resumeAt_framed (k : Ctx) (a : Word) : (k.resumeAt a).framed = k.framed := rfl
@[simp] theorem Ctx.resumeAt_nextSeq (k : Ctx) (a : Word) : (k.resumeAt a).nextSeq = k.nextSeq := rfl
@[simp] theorem Ctx.resumeAt_acks (k : Ctx) (a : Word) : (k.resumeAt a).acks = k.acks := rfl
@[simp] theorem Ctx.resumeAt_owed (k : Ctx) (a : Word) : (k.resumeAt a).owed = k.owed := rfl
@[simp] theorem Ctx.resumeAt_amos (k : Ctx) (a : Word) : (k.resumeAt a).amos = k.amos := rfl
@[simp] theorem Ctx.resumeAt_trap (k : Ctx) (a : Word) : (k.resumeAt a).trap = k.trap := rfl
@[simp] theorem Ctx.resumeAt_parked (k : Ctx) (a : Word) : (k.resumeAt a).parked = k.parked := rfl
@[simp] theorem Ctx.resumeAt_replay (k : Ctx) (a : Word) : (k.resumeAt a).replay = k.replay := rfl
@[simp] theorem Ctx.resumeAt_since (k : Ctx) (a : Word) : (k.resumeAt a).since = k.since := rfl
@[simp] theorem Ctx.resumeAt_parkedAt (k : Ctx) (a : Word) : (k.resumeAt a).parkedAt = k.parkedAt := rfl
@[simp] theorem Ctx.resumeAt_cur (k : Ctx) (a : Word) : (k.resumeAt a).cur = k.cur := rfl
@[simp] theorem Ctx.resumeAt_slot (k : Ctx) (a : Word) : (k.resumeAt a).slot = k.slot := rfl
@[simp] theorem Ctx.resumeAt_domain (k : Ctx) (a : Word) : (k.resumeAt a).domain = k.domain := rfl
@[simp] theorem Ctx.resumeAt_join (k : Ctx) (a : Word) : (k.resumeAt a).join = k.join := rfl
@[simp] theorem Ctx.resumeAt_banks (k : Ctx) (a : Word) : (k.resumeAt a).banks = k.banks := rfl
@[simp] theorem Ctx.resumeAt_resumedWait (k : Ctx) (a : Word) : (k.resumeAt a).resumedWait = k.resumedWait := rfl
@[simp] theorem Ctx.resumeAt_bump (k : Ctx) (a : Word) : (k.resumeAt a).bump = k.bump := rfl
@[simp] theorem Ctx.resumeAt_age (k : Ctx) (a : Word) : (k.resumeAt a).age = k.age := rfl
@[simp] theorem Ctx.resumeAt_watch (k : Ctx) (a : Word) : (k.resumeAt a).watch = k.watch := rfl
@[simp] theorem Ctx.resumeAt_watchTrap (k : Ctx) (a : Word) : (k.resumeAt a).watchTrap = k.watchTrap := rfl
@[simp] theorem Ctx.resumeAt_event (k : Ctx) (a : Word) : (k.resumeAt a).event = k.event := rfl
@[simp] theorem Ctx.resumeAt_chunk (k : Ctx) (a : Word) : (k.resumeAt a).chunk = k.chunk := rfl
@[simp] theorem Ctx.resumeAt_rolled (k : Ctx) (a : Word) : (k.resumeAt a).rolled = k.rolled := rfl
@[simp] theorem Ctx.resumeAt_inv (k : Ctx) (a : Word) : (k.resumeAt a).inv = k.inv := rfl

@[simp] theorem Ctx.flow_role (k : Ctx) (a : Word) (f : Option Word) : (k.flow a f).role = k.role := rfl
@[simp] theorem Ctx.flow_st (k : Ctx) (a : Word) (f : Option Word) : (k.flow a f).st = k.st := rfl
@[simp] theorem Ctx.flow_x (k : Ctx) (a : Word) (f : Option Word) : (k.flow a f).x = k.x := rfl
@[simp] theorem Ctx.flow_v (k : Ctx) (a : Word) (f : Option Word) : (k.flow a f).v = k.v := rfl
@[simp] theorem Ctx.flow_p (k : Ctx) (a : Word) (f : Option Word) : (k.flow a f).p = k.p := rfl
@[simp] theorem Ctx.flow_fpflags (k : Ctx) (a : Word) (f : Option Word) : (k.flow a f).fpflags = k.fpflags := rfl
@[simp] theorem Ctx.flow_rnd (k : Ctx) (a : Word) (f : Option Word) : (k.flow a f).rnd = k.rnd := rfl
@[simp] theorem Ctx.flow_rng (k : Ctx) (a : Word) (f : Option Word) : (k.flow a f).rng = k.rng := rfl
@[simp] theorem Ctx.flow_vt (k : Ctx) (a : Word) (f : Option Word) : (k.flow a f).vt = k.vt := rfl
@[simp] theorem Ctx.flow_mbox (k : Ctx) (a : Word) (f : Option Word) : (k.flow a f).mbox = k.mbox := rfl
@[simp] theorem Ctx.flow_cause (k : Ctx) (a : Word) (f : Option Word) : (k.flow a f).cause = k.cause := rfl
@[simp] theorem Ctx.flow_tseq (k : Ctx) (a : Word) (f : Option Word) : (k.flow a f).tseq = k.tseq := rfl
@[simp] theorem Ctx.flow_sup (k : Ctx) (a : Word) (f : Option Word) : (k.flow a f).sup = k.sup := rfl
@[simp] theorem Ctx.flow_settling (k : Ctx) (a : Word) (f : Option Word) : (k.flow a f).settling = k.settling := rfl
@[simp] theorem Ctx.flow_stepArm (k : Ctx) (a : Word) (f : Option Word) : (k.flow a f).stepArm = k.stepArm := rfl
@[simp] theorem Ctx.flow_ring (k : Ctx) (a : Word) (f : Option Word) : (k.flow a f).ring = k.ring := rfl
@[simp] theorem Ctx.flow_framed (k : Ctx) (a : Word) (f : Option Word) : (k.flow a f).framed = k.framed := rfl
@[simp] theorem Ctx.flow_nextSeq (k : Ctx) (a : Word) (f : Option Word) : (k.flow a f).nextSeq = k.nextSeq := rfl
@[simp] theorem Ctx.flow_acks (k : Ctx) (a : Word) (f : Option Word) : (k.flow a f).acks = k.acks := rfl
@[simp] theorem Ctx.flow_owed (k : Ctx) (a : Word) (f : Option Word) : (k.flow a f).owed = k.owed := rfl
@[simp] theorem Ctx.flow_amos (k : Ctx) (a : Word) (f : Option Word) : (k.flow a f).amos = k.amos := rfl
@[simp] theorem Ctx.flow_trap (k : Ctx) (a : Word) (f : Option Word) : (k.flow a f).trap = k.trap := rfl
@[simp] theorem Ctx.flow_parked (k : Ctx) (a : Word) (f : Option Word) : (k.flow a f).parked = k.parked := rfl
@[simp] theorem Ctx.flow_replay (k : Ctx) (a : Word) (f : Option Word) : (k.flow a f).replay = k.replay := rfl
@[simp] theorem Ctx.flow_since (k : Ctx) (a : Word) (f : Option Word) : (k.flow a f).since = k.since := rfl
@[simp] theorem Ctx.flow_parkedAt (k : Ctx) (a : Word) (f : Option Word) : (k.flow a f).parkedAt = k.parkedAt := rfl
@[simp] theorem Ctx.flow_cur (k : Ctx) (a : Word) (f : Option Word) : (k.flow a f).cur = k.cur := rfl
@[simp] theorem Ctx.flow_slot (k : Ctx) (a : Word) (f : Option Word) : (k.flow a f).slot = k.slot := rfl
@[simp] theorem Ctx.flow_domain (k : Ctx) (a : Word) (f : Option Word) : (k.flow a f).domain = k.domain := rfl
@[simp] theorem Ctx.flow_join (k : Ctx) (a : Word) (f : Option Word) : (k.flow a f).join = k.join := rfl
@[simp] theorem Ctx.flow_banks (k : Ctx) (a : Word) (f : Option Word) : (k.flow a f).banks = k.banks := rfl
@[simp] theorem Ctx.flow_resumedWait (k : Ctx) (a : Word) (f : Option Word) : (k.flow a f).resumedWait = k.resumedWait := rfl
@[simp] theorem Ctx.flow_bump (k : Ctx) (a : Word) (f : Option Word) : (k.flow a f).bump = k.bump := rfl
@[simp] theorem Ctx.flow_age (k : Ctx) (a : Word) (f : Option Word) : (k.flow a f).age = k.age := rfl
@[simp] theorem Ctx.flow_watch (k : Ctx) (a : Word) (f : Option Word) : (k.flow a f).watch = k.watch := rfl
@[simp] theorem Ctx.flow_watchTrap (k : Ctx) (a : Word) (f : Option Word) : (k.flow a f).watchTrap = k.watchTrap := rfl
@[simp] theorem Ctx.flow_event (k : Ctx) (a : Word) (f : Option Word) : (k.flow a f).event = k.event := rfl
@[simp] theorem Ctx.flow_chunk (k : Ctx) (a : Word) (f : Option Word) : (k.flow a f).chunk = k.chunk := rfl
@[simp] theorem Ctx.flow_rolled (k : Ctx) (a : Word) (f : Option Word) : (k.flow a f).rolled = k.rolled := rfl
@[simp] theorem Ctx.flow_inv (k : Ctx) (a : Word) (f : Option Word) : (k.flow a f).inv = k.inv := rfl

end Sys2Proof.Machine
end

