-- ==== Sys2Proof/Laws/Ops.lean ====
section
/-! SUPPORT. What the shared operations over cores, contexts and registers do: what a replaced part reads as, that a later
replacement wins, and what retiring and writing a register leave. -/

namespace Sys2Proof.Machine

/-! ### Tables replaced twice -/

@[simp] theorem Tab.put_put {α : Type} (t : Tab α) (k : Nat) (a b : α) : Tab.put (Tab.put t k a) k b = Tab.put t k b := by
  induction t with
  | nil => simp [Tab.put]
  | cons e r ih =>
    obtain ⟨n, c⟩ := e
    by_cases h1 : k < n
    · simp [Tab.put, h1]
    · by_cases h2 : n = k
      · simp [Tab.put, h2]
      · simp [Tab.put, h1, h2, ih]

/-! ### Parts of the machine -/

@[simp] theorem State.core_setCore (s : State) (g h : Nat) (k : Core) :
    (s.setCore g k).core h = if h = g then k else s.core h := by
  simp [State.core, State.setCore]

@[simp] theorem State.setCore_setCore (s : State) (g : Nat) (k l : Core) : (s.setCore g k).setCore g l = s.setCore g l := by
  simp [State.setCore]

@[simp] theorem State.core_setWork (s : State) (g h : Nat) (w : Work) :
    (s.setWork g w).core h = if h = g then { s.core g with work := w } else s.core h := by
  simp [State.setWork]

@[simp] theorem State.work_setCore (s : State) (g h : Nat) (k : Core) :
    (s.setCore g k).work h = if h = g then k.work else s.work h := by
  simp only [State.work, State.core_setCore]
  split <;> rfl

@[simp] theorem State.work_setWork (s : State) (g h : Nat) (w : Work) :
    (s.setWork g w).work h = if h = g then w else s.work h := by
  simp only [State.work, State.core_setWork]
  split <;> rfl

@[simp] theorem State.setWork_setWork (s : State) (g : Nat) (v w : Work) : (s.setWork g v).setWork g w = s.setWork g w := by
  simp [State.setWork]

@[simp] theorem State.ctx_setWork (s : State) (g h c : Nat) (w : Work) :
    (s.setWork g w).ctx h c = if h = g then Tab.look Ctx.reset w.ctxs c else s.ctx h c := by
  simp only [State.ctx, State.work_setWork]
  split <;> rfl

@[simp] theorem State.ctx_setCtx (s : State) (g c h d : Nat) (k : Ctx) :
    (s.setCtx g c k).ctx h d = if h = g ∧ d = c then k else s.ctx h d := by
  simp only [State.setCtx, State.ctx]
  by_cases h1 : h = g
  · subst h1
    by_cases h2 : d = c <;> simp [h2]
  · simp [h1]

@[simp] theorem State.work_setCtx (s : State) (g c h : Nat) (k : Ctx) :
    (s.setCtx g c k).work h = if h = g then { s.work g with ctxs := Tab.put (s.work g).ctxs c k } else s.work h := by
  simp [State.setCtx]

@[simp] theorem State.setCtx_setCtx (s : State) (g c : Nat) (k l : Ctx) : (s.setCtx g c k).setCtx g c l = s.setCtx g c l := by
  simp [State.setCtx]

@[simp] theorem State.me_setMe (s : State) (k : Ctx) : (s.setMe k).me = k := by
  simp [State.me, State.setMe]

@[simp] theorem State.setMe_setMe (s : State) (k l : Ctx) : (s.setMe k).setMe l = s.setMe l := by
  simp [State.setMe]

@[simp] theorem State.me_setCtx_cur (s : State) (k : Ctx) : (s.setCtx s.cur.1 s.cur.2 k).me = k := by
  simp [State.me]

@[simp] theorem State.setCtx_here (s : State) (k : Ctx) : s.setCtx s.cur.1 s.cur.2 k = s.setMe k := rfl

/-- The scratchpads do not change with a context. -/
@[simp] theorem State.spad_setCtx (s : State) (g c h : Nat) (k : Ctx) : ((s.setCtx g c k).work h).spad = (s.work h).spad := by
  rw [State.work_setCtx]
  split
  · rename_i h1
    rw [h1]
  · rfl

@[simp] theorem State.spad_setMe (s : State) (h : Nat) (k : Ctx) : ((s.setMe k).work h).spad = (s.work h).spad :=
  State.spad_setCtx ..

/-! ### Registers -/

@[simp] theorem Ctx.x_setX (k : Ctx) (r : XReg) (v : Word) : (k.setX r v).x.get r.toFin = v := by
  simp only [Ctx.setX, Vector.get, Vector.set]
  exact Array.getElem_set_self _

theorem Ctx.x_setX_ne (k : Ctx) {r q : XReg} (v : Word) (h : q ≠ r) : (k.setX r v).x.get q.toFin = k.x.get q.toFin := by
  have : r.toNat ≠ q.toNat := fun e => h (BitVec.eq_of_toNat_eq e.symm)
  simp only [Ctx.setX, Vector.get, Vector.set]
  exact Array.getElem_set_ne _ _ this

@[simp] theorem State.x_setX (s : State) (r : XReg) (v : Word) : (s.setX r v).x r = v := by
  simp [State.x, State.setX]

theorem State.x_setX_ne (s : State) {r q : XReg} (v : Word) (h : q ≠ r) : (s.setX r v).x q = s.x q := by
  simp [State.x, State.setX, Ctx.x_setX_ne _ _ h]

/-! ### Retiring (R15, R17, R83, R218) -/

/-- Retiring with no single step armed changes the flow of control of the executing context alone. -/
theorem State.retireTo_eq (s : State) (a : Word) (taken : Bool) (h : s.me.stepArm = false) :
    s.retireTo a taken =
      s.setMe { s.me.flow a (if taken then some s.me.pc else none) with chunk := (s.me.flow a none).chunk + 1 } := by
  simp only [State.retireTo, h]
  rfl

theorem State.retire_eq (s : State) (len : Nat) (h : s.me.stepArm = false) :
    s.retire len = s.setMe { s.me.flow (nextSeq s.me.pc len) none with chunk := s.me.chunk + 1 } := by
  simp only [State.retire, State.retireTo, h]
  rfl

/-- Writing a register and retiring, with no single step armed. -/
theorem writeX_eq (s : State) (len : Nat) (d : XReg) (v : Word) (h : s.me.stepArm = false) :
    writeX s len d v = s.setMe { (s.me.setX d v).flow (nextSeq s.me.pc len) none with chunk := s.me.chunk + 1 } := by
  have h1 : (s.setX d v).me.stepArm = false := by simp [State.setX, h]
  rw [writeX, State.retire_eq _ _ h1]
  simp [State.setX]

end Sys2Proof.Machine
end

