-- ==== Sys2Proof/Laws/Frame.lean ====
section
/-! SUPPORT. What traps, retiring, ends of contexts and stores leave of the memory and of the executing context, and that
every store to physical memory keeps the canonical form. -/

namespace Sys2Proof.Machine

/-! ### Operations that leave memory and the executing context alone -/

theorem foldl_kept {α β : Type} (p : State → β) (f : State → α → State) (h : ∀ s a, p (f s a) = p s) (l : List α) (s : State) :
    p (l.foldl f s) = p s := by
  induction l generalizing s with
  | nil => rfl
  | cons a r ih => rw [List.foldl_cons, ih, h]

@[simp] theorem State.report_mem (s : State) (g c dst : Nat) (ch : Nat) (ws : List Word) :
    (State.report s g c dst ch ws).mem = s.mem := by
  simp [State.report]
@[simp] theorem State.report_cur (s : State) (g c dst : Nat) (ch : Nat) (ws : List Word) :
    (State.report s g c dst ch ws).cur = s.cur := by
  simp [State.report]
@[simp] theorem State.resetPart_mem (s : State) (g : Nat) :
    (State.resetPart s g).mem = s.mem := by
  simp [State.resetPart]
@[simp] theorem State.resetPart_cur (s : State) (g : Nat) :
    (State.resetPart s g).cur = s.cur := by
  simp [State.resetPart]
@[simp] theorem State.reportTrap_mem (s : State) (g c : Nat) (t : TrapInfo) (double : Bool) :
    (State.reportTrap s g c t double).mem = s.mem := by
  unfold State.reportTrap
  split <;> simp
@[simp] theorem State.reportTrap_cur (s : State) (g c : Nat) (t : TrapInfo) (double : Bool) :
    (State.reportTrap s g c t double).cur = s.cur := by
  unfold State.reportTrap
  split <;> simp
@[simp] theorem State.enterTrap_mem (s : State) (g c : Nat) (t0 : TrapInfo) :
    (State.enterTrap s g c t0).mem = s.mem := by
  simp only [State.enterTrap]
  repeat' split
  all_goals simp
@[simp] theorem State.enterTrap_cur (s : State) (g c : Nat) (t0 : TrapInfo) :
    (State.enterTrap s g c t0).cur = s.cur := by
  simp only [State.enterTrap]
  repeat' split
  all_goals simp
@[simp] theorem State.takeTrap_mem (s : State) (g c : Nat) (t : TrapInfo) :
    (State.takeTrap s g c t).mem = s.mem := by
  unfold State.takeTrap
  split <;> simp
@[simp] theorem State.takeTrap_cur (s : State) (g c : Nat) (t : TrapInfo) :
    (State.takeTrap s g c t).cur = s.cur := by
  unfold State.takeTrap
  split <;> simp
@[simp] theorem State.trap_mem (s : State) (cause : Nat) (fault : Word) :
    (State.trap s cause fault).mem = s.mem := by
  simp [State.trap]
@[simp] theorem State.trap_cur (s : State) (cause : Nat) (fault : Word) :
    (State.trap s cause fault).cur = s.cur := by
  simp [State.trap]
@[simp] theorem State.trapAll_mem (s : State) (cs : List (Nat × Word)) :
    (State.trapAll s cs).mem = s.mem := by
  unfold State.trapAll
  split <;> simp
@[simp] theorem State.trapAll_cur (s : State) (cs : List (Nat × Word)) :
    (State.trapAll s cs).cur = s.cur := by
  unfold State.trapAll
  split <;> simp
@[simp] theorem State.illegal_mem (s : State) :
    (State.illegal s).mem = s.mem := by
  simp [State.illegal]
@[simp] theorem State.illegal_cur (s : State) :
    (State.illegal s).cur = s.cur := by
  simp [State.illegal]
@[simp] theorem State.privTrap_mem (s : State) :
    (State.privTrap s).mem = s.mem := by
  simp [State.privTrap]
@[simp] theorem State.privTrap_cur (s : State) :
    (State.privTrap s).cur = s.cur := by
  simp [State.privTrap]
@[simp] theorem State.retireTo_mem (s : State) (a : Word) (taken : Bool) :
    (State.retireTo s a taken).mem = s.mem := by
  unfold State.retireTo
  repeat' split
  all_goals simp
@[simp] theorem State.retireTo_cur (s : State) (a : Word) (taken : Bool) :
    (State.retireTo s a taken).cur = s.cur := by
  unfold State.retireTo
  repeat' split
  all_goals simp
@[simp] theorem State.retire_mem (s : State) (len : Nat) :
    (State.retire s len).mem = s.mem := by
  simp [State.retire]
@[simp] theorem State.retire_cur (s : State) (len : Nat) :
    (State.retire s len).cur = s.cur := by
  simp [State.retire]
@[simp] theorem writeX_mem (s : State) (len : Nat) (d : XReg) (v : Word) :
    (writeX s len d v).mem = s.mem := by
  simp [writeX]
@[simp] theorem writeX_cur (s : State) (len : Nat) (d : XReg) (v : Word) :
    (writeX s len d v).cur = s.cur := by
  simp [writeX]
@[simp] theorem finishFlags_mem (s : State) (g c : Nat) (e : RingEntry) (k : Ctx) (a : Acc) :
    (finishFlags s g c e k a).mem = s.mem := by
  simp [finishFlags]
@[simp] theorem finishFlags_cur (s : State) (g c : Nat) (e : RingEntry) (k : Ctx) (a : Acc) :
    (finishFlags s g c e k a).cur = s.cur := by
  simp [finishFlags]
@[simp] theorem State.dropMsg_mem (s : State) (g : Nat) (u : CurMsg) :
    (State.dropMsg s g u).mem = s.mem := by
  simp [State.dropMsg]
@[simp] theorem State.dropMsg_cur (s : State) (g : Nat) (u : CurMsg) :
    (State.dropMsg s g u).cur = s.cur := by
  simp [State.dropMsg]
@[simp] theorem State.releaseCur_mem (s : State) (g c : Nat) :
    (State.releaseCur s g c).mem = s.mem := by
  unfold State.releaseCur
  split <;> simp
@[simp] theorem State.releaseCur_cur (s : State) (g c : Nat) :
    (State.releaseCur s g c).cur = s.cur := by
  unfold State.releaseCur
  split <;> simp
@[simp] theorem State.vacate_mem (s : State) (g c : Nat) : (s.vacate g c).mem = s.mem := by
  simp [State.vacate]
@[simp] theorem State.reportDetached_mem (s : State) (g : Nat) (q : Queue) (m : Cmd) (cause : Nat) (a : Word) :
    (s.reportDetached g q m cause a).mem = s.mem := by
  simp [State.reportDetached]
@[simp] theorem State.free_mem (s : State) (g c : Nat) : (s.free g c).mem = s.mem := by
  unfold State.free
  rw [foldl_kept State.mem _ (fun _ _ => State.reportDetached_mem ..), State.vacate_mem]
@[simp] theorem State.vacate_cur (s : State) (g c : Nat) : (s.vacate g c).cur = s.cur := by
  simp [State.vacate]
@[simp] theorem State.reportDetached_cur (s : State) (g : Nat) (q : Queue) (m : Cmd) (cause : Nat) (a : Word) :
    (s.reportDetached g q m cause a).cur = s.cur := by
  simp [State.reportDetached]
@[simp] theorem State.free_cur (s : State) (g c : Nat) : (s.free g c).cur = s.cur := by
  unfold State.free
  rw [foldl_kept State.cur _ (fun _ _ => State.reportDetached_cur ..), State.vacate_cur]
@[simp] theorem State.dropBanks_mem (s : State) (g c : Nat) :
    (State.dropBanks s g c).mem = s.mem := by
  unfold State.dropBanks
  split <;> simp
@[simp] theorem State.dropBanks_cur (s : State) (g c : Nat) :
    (State.dropBanks s g c).cur = s.cur := by
  unfold State.dropBanks
  split <;> simp
@[simp] theorem State.askHalt_mem (s : State) (g : Nat) (cmp : Word) : (s.askHalt g cmp).mem = s.mem := by
  simp only [State.askHalt]
  split <;> simp
@[simp] theorem State.pull_mem (s : State) (g i : Nat) :
    (State.pull s g i).mem = s.mem := by
  unfold State.pull
  split <;> simp
@[simp] theorem State.askHalt_cur (s : State) (g : Nat) (cmp : Word) : (s.askHalt g cmp).cur = s.cur := by
  simp only [State.askHalt]
  split <;> simp
@[simp] theorem State.pull_cur (s : State) (g i : Nat) :
    (State.pull s g i).cur = s.cur := by
  unfold State.pull
  split <;> simp
@[simp] theorem State.watchTrap_mem (s : State) (cause i : Nat) (fault : Word) :
    (State.watchTrap s cause i fault).mem = s.mem := by
  simp [State.watchTrap]
@[simp] theorem State.watchTrap_cur (s : State) (cause i : Nat) (fault : Word) :
    (State.watchTrap s cause i fault).cur = s.cur := by
  simp [State.watchTrap]
@[simp] theorem State.localStore_mem (s : State) (h off : Nat) (bs : List Byte) :
    (State.localStore s h off bs).mem = s.mem := by
  simp [State.localStore]
@[simp] theorem State.localStore_cur (s : State) (h off : Nat) (bs : List Byte) :
    (State.localStore s h off bs).cur = s.cur := by
  simp [State.localStore]
@[simp] theorem State.setLp_mem (s : State) (g slot : Nat) (lp : Lp) :
    (State.setLp s g slot lp).mem = s.mem := by
  simp [State.setLp]
@[simp] theorem State.setLp_cur (s : State) (g slot : Nat) (lp : Lp) :
    (State.setLp s g slot lp).cur = s.cur := by
  simp [State.setLp]
@[simp] theorem State.holdItem_mem (s : State) (g slot : Nat) (e : LpEvent) (i : HeldItem) :
    (State.holdItem s g slot e i).mem = s.mem := by
  unfold State.holdItem
  split <;> simp
@[simp] theorem State.holdItem_cur (s : State) (g slot : Nat) (e : LpEvent) (i : HeldItem) :
    (State.holdItem s g slot e i).cur = s.cur := by
  unfold State.holdItem
  split <;> simp
@[simp] theorem State.scratchStore_mem (s : State) (g a : Nat) (bs : List Byte) :
    (State.scratchStore s g a bs).mem = s.mem := by
  unfold State.scratchStore
  split <;> simp
@[simp] theorem State.scratchStore_cur (s : State) (g a : Nat) (bs : List Byte) :
    (State.scratchStore s g a bs).cur = s.cur := by
  unfold State.scratchStore
  split <;> simp
@[simp] theorem State.scratchPart_mem (s : State) (g slot : Nat) (e : LpEvent) (p : Part) :
    (State.scratchPart s g slot e p).mem = s.mem := by
  unfold State.scratchPart
  repeat' split
  all_goals simp
@[simp] theorem State.scratchPart_cur (s : State) (g slot : Nat) (e : LpEvent) (p : Part) :
    (State.scratchPart s g slot e p).cur = s.cur := by
  unfold State.scratchPart
  repeat' split
  all_goals simp

@[simp] theorem State.endCrew_mem (s : State) (g cr : Nat) : (s.endCrew g cr).mem = s.mem := by
  unfold State.endCrew
  split
  · rfl
  · simp only [State.setWork_mem]
    rw [foldl_kept State.mem _ (fun s u => State.dropMsg_mem s g u), foldl_kept State.mem _ (fun s c => State.free_mem s g c)]

@[simp] theorem State.terminate_mem (s : State) (g c kind : Nat) (addr : Word) : (s.terminate g c kind addr).mem = s.mem := by
  simp only [State.terminate, State.report_mem]
  split <;> simp

/-! ### Stores to memory keep the canonical form -/

theorem State.writePhys_wf (s : State) (pa : Nat) (bs : List Byte) (h : s.mem.wf = true) : (s.writePhys pa bs).mem.wf = true := by
  unfold State.writePhys
  split
  · split
    · rwa [State.localStore_mem]
    · exact h
  · exact Memory.wf_store _ _ h

theorem State.writePieces_wf (s : State) (ps : List (Nat × Nat)) (bs : List Byte) (h : s.mem.wf = true) :
    (s.writePieces ps bs).mem.wf = true := by
  induction ps generalizing s bs with
  | nil => exact h
  | cons e r ih => exact ih _ _ (s.writePhys_wf _ _ h)

/-- A store to physical memory outside the scratchpad windows is read back by the same home; it leaves every other byte
alone (R225, R228). -/
theorem State.writePhys_mem_get (s : State) (pa b : Nat) (bs : List Byte) (h : s.mem.wf = true)
    (hw : ∀ g off, homeOf pa ≠ .window g off) :
    (s.writePhys pa bs).mem.get b = if pa ≤ b ∧ b < pa + bs.length then bs.getD (b - pa) 0 else s.mem.get b := by
  have e : s.writePhys pa bs = { s with mem := s.mem.store pa bs } := by
    unfold State.writePhys
    split
    · rename_i g off h1
      exact absurd h1 (hw g off)
    · rfl
  rw [e]
  exact Memory.get_store pa b bs h

@[simp] theorem State.markPoison_mem (s : State) (pa n : Nat) (bad : Bool) : (s.markPoison pa n bad).mem = s.mem := by
  unfold State.markPoison
  split
  · simp
  · simp only
    split
    · rfl
    · split <;> rfl

end Sys2Proof.Machine
end

