-- ==== Sys2Proof/Tests/Slice0.lean ====
section
/-! SUPPORT. Tests: well-formedness, a word of every instruction written out from the encoding tables of the spec,
hypotheses of the statements met by concrete states, and single steps. -/

namespace Sys2Proof.Tests

open Sys2Proof Sys2Proof.Machine

set_option maxRecDepth 100000
set_option Elab.async false

/-- A context in use, at slot 0 of a line, with some scalar registers. -/
def ctxOf (xs : List (XReg × Word)) : Ctx :=
  xs.foldl (fun k e => k.setX e.1 e.2) { Ctx.reset with role := .migrated, pc := 0x1010 }

/-- The machine after reset with a partition 1 of the cores of cluster 0 of package 0, and a context on core 0 that
executes. -/
def stateOf (k : Ctx) : State :=
  ({ State.reset with
      parts := [(1, { Partition.reset with cores := [(0, List.range 16)], limit := 512 })],
      cores := (List.range 16).map fun g => (g, { Core.reset with ptag := 1 }) } : State).setCtx 0 0 k

/-- That machine with scalar registers of the executing context. -/
def withX (xs : List (XReg × Word)) : State := stateOf (ctxOf xs)

/-- That machine with supervisor privilege. -/
def withSup (xs : List (XReg × Word)) : State := stateOf { ctxOf xs with sup := true }

/-- A memory that holds the given bytes at the given places. -/
def bytesAt (l : List (Nat × List Byte)) : Memory := l.foldl (fun m e => Memory.store m e.1 e.2) []


/-- The state that an instruction leaves. -/
def outNext (r : Host.Outcome State Fault Refusal) : State := match r with
  | .next t => t
  | _ => State.reset

/-! ### Well-formedness (R16, R18, R22, R23): a term that each check refuses, and terms on the legal side of each bound -/

theorem test_ill_formed_1 : ∀ i ∈ ([
      .ldl 3 1 2 1 0, .ldg 3 1 2 1 0, .amoAdd 0 1 2 3, .amoMin 1 1 2 3, .amoMax 0 1 2 3, .amoAnd 1 1 2 3,
      .amoOr 0 1 2 3, .amoXor 1 1 2 3, .amoSwap 1 1 2 3, .amoSwap 0 1 2 4, .amoSwap 0 2 2 3, .amoCas 1 2 4 6 8,
      .amoCas 0 1 4 6 8, .amoCas 0 2 4 7 8, .amoCas 0 2 4 6 9, .crd 1 0x004, .cwr 1 0x003, .cwr 1 0x012, .bCc 6 1 2 8,
      .bfx 1 2 63 1, .bfi 1 2 0x1F 33, .loop 1 2, .loopi 5 2, .haltK 7, .migrateHome 1 0x1F, .migrate 1 0xF800,
      .waitch 7, .getid 1 9, .vadd 22 1 2 0 0, .vadd 1 1 2 0 2, .vsub 1 1 2 0 5, .vmul 1 63 2 0 1, .vfma 22 1 2 0 0,
      .vfms 1 1 2 0 7, .vmin 1 1 2 0 6, .vmax 31 1 2 0 0, .vabs 22 1 0 0, .vneg 1 1 0 2, .vdiv 1 1 2 0 3, .vsqrt 1 1 0 4] : List Instr), i.wellFormed = false := by
  decide +kernel

theorem test_ill_formed_2 : ∀ i ∈ ([
      .vredadd 22 1 0, .vredmax 31 1 0, .viadd 1 1 2 0 0, .viadd 1 41 2 0 5, .viadd 1 53 2 0 7, .vimul 1 1 2 0 1,
      .vand 22 1 2 0, .vor 1 41 2 0, .vxor 1 1 43 0, .vshl 1 1 2 0 2, .vshr 1 1 2 0 3, .vshrA 1 1 2 0 4, .vsel 1 1 63 0,
      .vcmpEq 0 1 2 0 0, .vcmpNe 8 1 2 0 0, .vcmpLt 0 1 2 0 0, .vcmpLe 31 1 2 0 0, .vcmpGt 1 63 2 0 1,
      .vcmpGe 1 1 49 0 4, .vmov 22 1 0, .vbcast 1 41 3 0, .vperm 22 1 2 0, .vldl 22 17 0, .vldl 1 15 0, .vstl 1 32 0,
      .vgathl 1 17 16 0, .vgathl 1 17 38 0, .vscatl 1 17 31 0, .tblld 8 17, .tblld 1 15, .vldg 1 32 0, .vstg 22 17 0,
      .vgathg 1 17 16 0, .vscatg 1 17 38 0, .vtlu 1 1 3 0 5, .vrope 22 1 2 0, .vrope 1 1 41 0, .vcvt 1 1 6 0 0 0,
      .vcvt 22 1 0 0 0 0, .vcvtn 1 1 2 0 0] : List Instr), i.wellFormed = false := by
  decide +kernel

theorem test_ill_formed_3 : ∀ i ∈ ([
      .vcvtnCounter 1 1 2 0 5 9, .vpack 1 1 2 0 5, .vunpack 1 1 2 0 1, .vunpack 1 1 0 0 0, .vfmaPrefixed 1 1 2 63 0 1,
      .vfmsPrefixed 1 1 2 3 0 5, .sendl 1 2 4 8 0 1 0, .sendl 1 2 33 2017 0 1 0, .sendl 1 2 33 8 3 0 0, .mloadb 1 5 1,
      .mloadb 1 4 0, .mma 5 1 1 0, .mma 4 5 1 0, .mma 4 1 0 0, .sacc 1 2 5, .copy 0 1 2 3 4 0 1, .efence 0, .cnew 1 3 0,
      .cnew 1 0 7, .send 1 2 0 1 0 6, .send 1 2 0 0 0 33, .lpbind 1 7, .fence 0 4, .fence 3 5, .tlbinvPart 1 0,
      .xlate 1 2 3] : List Instr), i.wellFormed = false := by
  decide +kernel

theorem test_well_formed : ∀ i ∈ ([
      .ldl 3 1 2 0 0, .amoSwap 0 2 2 4, .amoCas 0 2 4 6 8, .crd 1 0x003, .cwr 1 0x002, .bCc 5 1 2 8, .bfx 1 2 63 0,
      .bfi 1 2 0x1F 32, .loop 1 3, .haltK 8, .migrate 1 0xF000, .getid 1 8, .vadd 21 1 2 0 1, .vmul 1 62 2 0 1,
      .viadd 1 53 2 0 6, .vcmpLt 7 63 2 0 0, .vldl 21 31 0, .vgathl 1 16 37 0, .tblld 7 16, .vcvt 1 1 5 0 0 0,
      .vcvtn 1 1 2 0 4, .vunpack 1 1 1 0 1, .sendl 1 2 33 2016 3 1 0, .mma 4 4 1 0, .copy 0 1 2 3 4 3 1, .cnew 1 2 6,
      .send 1 0 0 0 0 33, .fence 7 4, .tlbinvPart 0 0, .xlate 1 2 2] : List Instr), i.wellFormed = true := by
  decide +kernel

/-! ### Decoding: the fields of each word written out from R25 to R38, highest first -/

/-- Whether every word decodes to its instruction. -/
def decodesAll (l : List (Code × Instr)) : Bool := l.all fun q => (decode q.1).toOption == some q.2

theorem test_decode_compact : decodesAll [
    (.w16 (0x0#4 ++ 0x0#4 ++ 0x1#8), .nop),
    (.w16 (0x0#4 ++ 0x1#4 ++ 0x5#4 ++ 0x9#4), .movCompact 5 9),
    (.w16 (0x0#4 ++ 0x2#4 ++ 0x5#4 ++ 0x9#4), .addCompact 5 9),
    (.w16 (0x0#4 ++ 0x3#4 ++ 0x5#4 ++ 0x9#4), .subCompact 5 9),
    (.w16 (0x0#4 ++ 0x4#4 ++ 0x5#4 ++ 0x9#4), .andCompact 5 9),
    (.w16 (0x0#4 ++ 0x5#4 ++ 0x5#4 ++ 0x9#4), .orCompact 5 9),
    (.w16 (0x0#4 ++ 0x6#4 ++ 0x5#4 ++ 0x9#4), .xorCompact 5 9),
    (.w16 (0x3#4 ++ 0x0#4 ++ 0x5#4 ++ 0x9#4), .mulCompact 5 9),
    (.w16 (0x3#4 ++ 0x1#4 ++ 0x5#4 ++ 0x9#4), .minCompact 5 9),
    (.w16 (0x3#4 ++ 0x2#4 ++ 0x5#4 ++ 0x9#4), .maxCompact 5 9),
    (.w16 (0x3#4 ++ 0x3#4 ++ 0x5#4 ++ 0x9#4), .sltCompact 5 9),
    (.w16 (0x3#4 ++ 0x4#4 ++ 0x5#4 ++ 0x9#4), .seqCompact 5 9),
    (.w16 (0x3#4 ++ 0x5#4 ++ 0x5#4 ++ 0x9#4), .clzCompact 5 9),
    (.w16 (0x3#4 ++ 0x6#4 ++ 0x5#4 ++ 0x9#4), .popcCompact 5 9),
    (.w16 (0x3#4 ++ 0x7#4 ++ 0x5#4 ++ 0x9#4), .sltuCompact 5 9),
    (.w16 (0x3#4 ++ 0x8#4 ++ 0x5#4 ++ 0x9#4), .minuCompact 5 9),
    (.w16 (0x3#4 ++ 0x9#4 ++ 0x5#4 ++ 0x9#4), .maxuCompact 5 9),
    (.w16 (0x0#4 ++ 0x7#4 ++ 0x5#4 ++ 0xe#4), .addiCompact 5 0xE),
    (.w16 (0x0#4 ++ 0x8#4 ++ 0x5#4 ++ 0xe#4), .liCompact 5 0xE),
    (.w16 (0x0#4 ++ 0x9#4 ++ 0x5#4 ++ 0xe#4), .shlCompact 5 0xE),
    (.w16 (0x0#4 ++ 0xa#4 ++ 0x5#4 ++ 0xe#4), .shrCompact 5 0xE),
    (.w16 (0x0#4 ++ 0xb#4 ++ 0x5#4 ++ 0xe#4), .sraCompact 5 0xE),
    (.w16 (0x1#4 ++ 0x0#2 ++ 0x3f1#10), .jCompact 0x3F1),
    (.w16 (0x1#4 ++ 0x1#2 ++ 0x6#4 ++ 0x29#6), .bzCompact 6 0x29),
    (.w16 (0x1#4 ++ 0x2#2 ++ 0x6#4 ++ 0x29#6), .bnzCompact 6 0x29),
    (.w16 (0x2#4 ++ 0x3#4 ++ 0x5#4 ++ 0x9#4), .ldlDCompact 3 5 9),
    (.w16 (0x3#4 ++ 0xa#4 ++ 0x0#4 ++ 0x9#4), .jrCompact 9),
    (.w16 (0x3#4 ++ 0xb#4 ++ 0x0#8), .haltCompact),
    (.w16 (0x3#4 ++ 0xc#4 ++ 0x0#8), .yieldCompact),
    (.w16 (0x3#4 ++ 0xf#4 ++ 0xa5#8), .hint 0xA5)] = true := by decide +kernel

theorem test_decode_scalar : decodesAll [
    (.w32 (0x4#4 ++ 0x0#6 ++ 0x1#4 ++ 0x2#4 ++ 0x3#4 ++ 0x0#4 ++ 0x0#6), .add 1 2 3),
    (.w32 (0x4#4 ++ 0x1#6 ++ 0x1#4 ++ 0x2#4 ++ 0x3#4 ++ 0x0#4 ++ 0x0#6), .sub 1 2 3),
    (.w32 (0x4#4 ++ 0x2#6 ++ 0x1#4 ++ 0x2#4 ++ 0x3#4 ++ 0x0#4 ++ 0x0#6), .mul 1 2 3),
    (.w32 (0x4#4 ++ 0x3#6 ++ 0x1#4 ++ 0x2#4 ++ 0x3#4 ++ 0x0#4 ++ 0x0#6), .mulh 1 2 3),
    (.w32 (0x4#4 ++ 0x4#6 ++ 0x1#4 ++ 0x2#4 ++ 0x3#4 ++ 0x0#4 ++ 0x0#6), .mulhu 1 2 3),
    (.w32 (0x4#4 ++ 0x5#6 ++ 0x1#4 ++ 0x2#4 ++ 0x3#4 ++ 0x0#4 ++ 0x0#6), .div 1 2 3),
    (.w32 (0x4#4 ++ 0x6#6 ++ 0x1#4 ++ 0x2#4 ++ 0x3#4 ++ 0x0#4 ++ 0x0#6), .divu 1 2 3),
    (.w32 (0x4#4 ++ 0x7#6 ++ 0x1#4 ++ 0x2#4 ++ 0x3#4 ++ 0x0#4 ++ 0x0#6), .rem 1 2 3),
    (.w32 (0x4#4 ++ 0x8#6 ++ 0x1#4 ++ 0x2#4 ++ 0x3#4 ++ 0x0#4 ++ 0x0#6), .remu 1 2 3),
    (.w32 (0x4#4 ++ 0x9#6 ++ 0x1#4 ++ 0x2#4 ++ 0x3#4 ++ 0x0#4 ++ 0x0#6), .and 1 2 3),
    (.w32 (0x4#4 ++ 0xa#6 ++ 0x1#4 ++ 0x2#4 ++ 0x3#4 ++ 0x0#4 ++ 0x0#6), .or 1 2 3),
    (.w32 (0x4#4 ++ 0xb#6 ++ 0x1#4 ++ 0x2#4 ++ 0x3#4 ++ 0x0#4 ++ 0x0#6), .xor 1 2 3),
    (.w32 (0x4#4 ++ 0xc#6 ++ 0x1#4 ++ 0x2#4 ++ 0x3#4 ++ 0x0#4 ++ 0x0#6), .shl 1 2 3),
    (.w32 (0x4#4 ++ 0xd#6 ++ 0x1#4 ++ 0x2#4 ++ 0x3#4 ++ 0x0#4 ++ 0x0#6), .shr 1 2 3),
    (.w32 (0x4#4 ++ 0xe#6 ++ 0x1#4 ++ 0x2#4 ++ 0x3#4 ++ 0x0#4 ++ 0x0#6), .sra 1 2 3),
    (.w32 (0x4#4 ++ 0xf#6 ++ 0x1#4 ++ 0x2#4 ++ 0x3#4 ++ 0x0#4 ++ 0x0#6), .min 1 2 3),
    (.w32 (0x4#4 ++ 0x10#6 ++ 0x1#4 ++ 0x2#4 ++ 0x3#4 ++ 0x0#4 ++ 0x0#6), .max 1 2 3),
    (.w32 (0x4#4 ++ 0x11#6 ++ 0x1#4 ++ 0x2#4 ++ 0x3#4 ++ 0x0#4 ++ 0x0#6), .minu 1 2 3),
    (.w32 (0x4#4 ++ 0x12#6 ++ 0x1#4 ++ 0x2#4 ++ 0x3#4 ++ 0x0#4 ++ 0x0#6), .maxu 1 2 3),
    (.w32 (0x4#4 ++ 0x13#6 ++ 0x1#4 ++ 0x2#4 ++ 0x3#4 ++ 0x0#4 ++ 0x0#6), .slt 1 2 3),
    (.w32 (0x4#4 ++ 0x14#6 ++ 0x1#4 ++ 0x2#4 ++ 0x3#4 ++ 0x0#4 ++ 0x0#6), .sltu 1 2 3),
    (.w32 (0x4#4 ++ 0x15#6 ++ 0x1#4 ++ 0x2#4 ++ 0x3#4 ++ 0x0#4 ++ 0x0#6), .seq 1 2 3),
    (.w32 (0x4#4 ++ 0x16#6 ++ 0x1#4 ++ 0x2#4 ++ 0x0#4 ++ 0x0#4 ++ 0x0#6), .clz 1 2),
    (.w32 (0x4#4 ++ 0x17#6 ++ 0x1#4 ++ 0x2#4 ++ 0x0#4 ++ 0x0#4 ++ 0x0#6), .popc 1 2),
    (.w32 (0x4#4 ++ 0x18#6 ++ 0x1#4 ++ 0x2#4 ++ 0x0#4 ++ 0x0#4 ++ 0x0#6), .mov 1 2),
    (.w32 (0x4#4 ++ 0x19#6 ++ 0x1#4 ++ 0x2#4 ++ 0x3#4 ++ 0x4#4 ++ 0x0#6), .sel 1 2 3 4),
    (.w32 (0x4#4 ++ 0x1a#6 ++ 0x1#4 ++ 0x2#4 ++ 0x3#4 ++ 0x0#4 ++ 0x25#6), .addsh 1 2 3 37),
    (.w32 (0x5#4 ++ 0x0#5 ++ 0x7#4 ++ 0x8#4 ++ 0x5a5a#15), .addi 7 8 0x5A5A),
    (.w32 (0x5#4 ++ 0x1#5 ++ 0x7#4 ++ 0x8#4 ++ 0x5a5a#15), .andi 7 8 0x5A5A),
    (.w32 (0x5#4 ++ 0x2#5 ++ 0x7#4 ++ 0x8#4 ++ 0x5a5a#15), .ori 7 8 0x5A5A),
    (.w32 (0x5#4 ++ 0x3#5 ++ 0x7#4 ++ 0x8#4 ++ 0x5a5a#15), .xori 7 8 0x5A5A),
    (.w32 (0x5#4 ++ 0x4#5 ++ 0x7#4 ++ 0x8#4 ++ 0x0#9 ++ 0x29#6), .shlImm 7 8 41),
    (.w32 (0x5#4 ++ 0x5#5 ++ 0x7#4 ++ 0x8#4 ++ 0x0#9 ++ 0x29#6), .shrImm 7 8 41),
    (.w32 (0x5#4 ++ 0x6#5 ++ 0x7#4 ++ 0x8#4 ++ 0x0#9 ++ 0x29#6), .sraImm 7 8 41),
    (.w32 (0x5#4 ++ 0x7#5 ++ 0x7#4 ++ 0x5a5a5#19), .li 7 0x5A5A5),
    (.w32 (0x5#4 ++ 0x8#5 ++ 0x7#4 ++ 0x0#1 ++ 0x2#2 ++ 0xbeef#16), .lih 7 2 0xBEEF),
    (.w32 (0x5#4 ++ 0x9#5 ++ 0x7#4 ++ 0x8#4 ++ 0x0#3 ++ 0xb#6 ++ 0x14#6), .bfx 7 8 11 20),
    (.w32 (0x5#4 ++ 0xa#5 ++ 0x7#4 ++ 0x8#4 ++ 0x0#3 ++ 0xb#6 ++ 0x14#6), .bfi 7 8 11 20),
    (.w64 (0xb#4 ++ 0x0#4 ++ 0x3#4 ++ 0x8123456789abc#52), .li64 3 0x8123456789ABC)] = true := by decide +kernel

theorem test_decode_memory : decodesAll [
    (.w32 (0x6#4 ++ 0x0#4 ++ 0x1#2 ++ 0x4#4 ++ 0x6#4 ++ 0x1#1 ++ 0x1abc#13), .ldl 1 4 6 1 0x1ABC),
    (.w32 (0x6#4 ++ 0x1#4 ++ 0x2#2 ++ 0x4#4 ++ 0x6#4 ++ 0x0#1 ++ 0x1abc#13), .stl 2 4 6 0x1ABC),
    (.w32 (0x6#4 ++ 0x2#4 ++ 0x0#2 ++ 0x4#4 ++ 0x6#4 ++ 0x1#1 ++ 0x123#13), .ldg 0 4 6 1 0x0123),
    (.w32 (0x6#4 ++ 0x3#4 ++ 0x3#2 ++ 0x4#4 ++ 0x6#4 ++ 0x0#1 ++ 0x123#13), .stg 3 4 6 0x0123),
    (.w32 (0x6#4 ++ 0x4#4 ++ 0x3#2 ++ 0x5#4 ++ 0x6#4 ++ 0x7#4 ++ 0x0#4 ++ 0x0#4 ++ 0x0#2), .amoAdd 3 5 6 7),
    (.w32 (0x6#4 ++ 0x4#4 ++ 0x3#2 ++ 0x5#4 ++ 0x6#4 ++ 0x7#4 ++ 0x0#4 ++ 0x1#4 ++ 0x0#2), .amoMin 3 5 6 7),
    (.w32 (0x6#4 ++ 0x4#4 ++ 0x3#2 ++ 0x5#4 ++ 0x6#4 ++ 0x7#4 ++ 0x0#4 ++ 0x2#4 ++ 0x0#2), .amoMax 3 5 6 7),
    (.w32 (0x6#4 ++ 0x4#4 ++ 0x3#2 ++ 0x5#4 ++ 0x6#4 ++ 0x7#4 ++ 0x0#4 ++ 0x3#4 ++ 0x0#2), .amoAnd 3 5 6 7),
    (.w32 (0x6#4 ++ 0x4#4 ++ 0x3#2 ++ 0x5#4 ++ 0x6#4 ++ 0x7#4 ++ 0x0#4 ++ 0x4#4 ++ 0x0#2), .amoOr 3 5 6 7),
    (.w32 (0x6#4 ++ 0x4#4 ++ 0x3#2 ++ 0x5#4 ++ 0x6#4 ++ 0x7#4 ++ 0x0#4 ++ 0x5#4 ++ 0x0#2), .amoXor 3 5 6 7),
    (.w32 (0x6#4 ++ 0x4#4 ++ 0x3#2 ++ 0x5#4 ++ 0x6#4 ++ 0x7#4 ++ 0x0#4 ++ 0x6#4 ++ 0x0#2), .amoSwap 3 5 6 7),
    (.w32 (0x6#4 ++ 0x4#4 ++ 0x0#2 ++ 0x2#4 ++ 0x1#4 ++ 0x4#4 ++ 0x6#4 ++ 0x7#4 ++ 0x0#2), .amoCas 0 2 1 4 6),
    (.w32 (0x6#4 ++ 0x4#4 ++ 0x2#2 ++ 0x5#4 ++ 0x6#4 ++ 0x7#4 ++ 0x0#4 ++ 0x8#4 ++ 0x0#2), .amoFadd 5 6 7),
    (.w32 (0x6#4 ++ 0x5#4 ++ 0x0#2 ++ 0x5#4 ++ 0x0#4 ++ 0x0#2 ++ 0x103#12), .crd 5 0x103),
    (.w32 (0x6#4 ++ 0x6#4 ++ 0x0#2 ++ 0x0#4 ++ 0x6#4 ++ 0x0#2 ++ 0x200#12), .cwr 6 0x200)] = true := by decide +kernel

theorem test_decode_control : decodesAll [
    (.w32 (0x7#4 ++ 0x0#4 ++ 0x2#4 ++ 0x3#4 ++ 0x4#4 ++ 0xfa1#12), .bCc 2 3 4 0xFA1),
    (.w32 (0x7#4 ++ 0x1#4 ++ 0x0#4 ++ 0x3#4 ++ 0xfedc#16), .bz 3 0xFEDC),
    (.w32 (0x7#4 ++ 0x2#4 ++ 0x0#4 ++ 0x3#4 ++ 0xfedc#16), .bnz 3 0xFEDC),
    (.w32 (0x7#4 ++ 0x3#4 ++ 0xabcdef#24), .j 0xABCDEF),
    (.w32 (0x7#4 ++ 0x4#4 ++ 0xe#4 ++ 0x98765#20), .jal 14 0x98765),
    (.w32 (0x7#4 ++ 0x5#4 ++ 0x0#4 ++ 0xe#4 ++ 0x0#16), .jr 14),
    (.w32 (0x7#4 ++ 0x6#4 ++ 0x0#4 ++ 0x3#4 ++ 0x0#4 ++ 0x123#12), .loop 3 0x123),
    (.w32 (0x7#4 ++ 0x7#4 ++ 0x456#12 ++ 0x123#12), .loopi 0x456 0x123),
    (.w32 (0x7#4 ++ 0x8#4 ++ 0x0#24), .breakl),
    (.w32 (0x7#4 ++ 0x9#4 ++ 0x0#4 ++ 0x3#4 ++ 0x0#16), .launch 3),
    (.w32 (0x7#4 ++ 0xa#4 ++ 0x0#4 ++ 0x3#4 ++ 0xfedc#16), .fork 3 0xFEDC),
    (.w32 (0x7#4 ++ 0xb#4 ++ 0x0#4 ++ 0x3#4 ++ 0x0#16), .join 3),
    (.w32 (0x7#4 ++ 0xc#4 ++ 0x0#24), .bar),
    (.w32 (0x7#4 ++ 0xd#4 ++ 0x0#1 ++ 0x0#17 ++ 0x0#6), .halt),
    (.w32 (0x7#4 ++ 0xd#4 ++ 0x1#1 ++ 0x0#17 ++ 0x21#6), .haltK 33),
    (.w32 (0x7#4 ++ 0xe#4 ++ 0x0#4 ++ 0x0#20), .yield),
    (.w32 (0x7#4 ++ 0xe#4 ++ 0x1#4 ++ 0x3#4 ++ 0x8421#16), .migrateHome 3 0x8421),
    (.w32 (0x7#4 ++ 0xe#4 ++ 0x2#4 ++ 0x3#4 ++ 0x8421#16), .migrate 3 0x8421),
    (.w32 (0x7#4 ++ 0xe#4 ++ 0x3#4 ++ 0x0#14 ++ 0x21#6), .waitch 33),
    (.w32 (0x7#4 ++ 0xe#4 ++ 0x4#4 ++ 0x5#4 ++ 0x0#12 ++ 0x7#4), .getid 5 7)] = true := by decide +kernel

theorem test_decode_vector : decodesAll [
    (.w32 (0x8#4 ++ 0x0#5 ++ 0x15#5 ++ 0x21#6 ++ 0x12#6 ++ 0x5#3 ++ 0x1#3), .vadd 21 33 18 5 1),
    (.w32 (0x8#4 ++ 0x1#5 ++ 0x15#5 ++ 0x21#6 ++ 0x12#6 ++ 0x5#3 ++ 0x1#3), .vsub 21 33 18 5 1),
    (.w32 (0x8#4 ++ 0x2#5 ++ 0x15#5 ++ 0x21#6 ++ 0x12#6 ++ 0x5#3 ++ 0x1#3), .vmul 21 33 18 5 1),
    (.w32 (0x8#4 ++ 0x3#5 ++ 0x15#5 ++ 0x21#6 ++ 0x12#6 ++ 0x5#3 ++ 0x1#3), .vfma 21 33 18 5 1),
    (.w32 (0x8#4 ++ 0x4#5 ++ 0x15#5 ++ 0x21#6 ++ 0x12#6 ++ 0x5#3 ++ 0x1#3), .vfms 21 33 18 5 1),
    (.w32 (0x8#4 ++ 0x5#5 ++ 0x15#5 ++ 0x21#6 ++ 0x12#6 ++ 0x5#3 ++ 0x1#3), .vmin 21 33 18 5 1),
    (.w32 (0x8#4 ++ 0x6#5 ++ 0x15#5 ++ 0x21#6 ++ 0x12#6 ++ 0x5#3 ++ 0x1#3), .vmax 21 33 18 5 1),
    (.w32 (0x8#4 ++ 0x9#5 ++ 0x15#5 ++ 0x21#6 ++ 0x12#6 ++ 0x5#3 ++ 0x1#3), .vdiv 21 33 18 5 1),
    (.w32 (0x8#4 ++ 0x7#5 ++ 0x15#5 ++ 0x21#6 ++ 0x0#6 ++ 0x5#3 ++ 0x1#3), .vabs 21 33 5 1),
    (.w32 (0x8#4 ++ 0x8#5 ++ 0x15#5 ++ 0x21#6 ++ 0x0#6 ++ 0x5#3 ++ 0x1#3), .vneg 21 33 5 1),
    (.w32 (0x8#4 ++ 0xa#5 ++ 0x15#5 ++ 0x21#6 ++ 0x0#6 ++ 0x5#3 ++ 0x1#3), .vsqrt 21 33 5 1),
    (.w32 (0x8#4 ++ 0xb#5 ++ 0x15#5 ++ 0x21#6 ++ 0x0#6 ++ 0x5#3 ++ 0x0#3), .vredadd 21 33 5),
    (.w32 (0x8#4 ++ 0xc#5 ++ 0x15#5 ++ 0x21#6 ++ 0x0#6 ++ 0x5#3 ++ 0x0#3), .vredmax 21 33 5),
    (.w32 (0x9#4 ++ 0x0#5 ++ 0x15#5 ++ 0x21#6 ++ 0x12#6 ++ 0x5#3 ++ 0x6#3), .viadd 21 33 18 5 6),
    (.w32 (0x9#4 ++ 0x1#5 ++ 0x15#5 ++ 0x21#6 ++ 0x12#6 ++ 0x5#3 ++ 0x6#3), .vimul 21 33 18 5 6),
    (.w32 (0x9#4 ++ 0x5#5 ++ 0x15#5 ++ 0x21#6 ++ 0x12#6 ++ 0x5#3 ++ 0x6#3), .vshl 21 33 18 5 6),
    (.w32 (0x9#4 ++ 0x6#5 ++ 0x15#5 ++ 0x21#6 ++ 0x12#6 ++ 0x5#3 ++ 0x6#3), .vshr 21 33 18 5 6),
    (.w32 (0x9#4 ++ 0x7#5 ++ 0x15#5 ++ 0x21#6 ++ 0x12#6 ++ 0x5#3 ++ 0x6#3), .vshrA 21 33 18 5 6),
    (.w32 (0x9#4 ++ 0x2#5 ++ 0x15#5 ++ 0x21#6 ++ 0x12#6 ++ 0x5#3 ++ 0x5#3), .vand 21 33 18 5),
    (.w32 (0x9#4 ++ 0x3#5 ++ 0x15#5 ++ 0x21#6 ++ 0x12#6 ++ 0x5#3 ++ 0x5#3), .vor 21 33 18 5),
    (.w32 (0x9#4 ++ 0x4#5 ++ 0x15#5 ++ 0x21#6 ++ 0x12#6 ++ 0x5#3 ++ 0x5#3), .vxor 21 33 18 5),
    (.w32 (0x9#4 ++ 0x8#5 ++ 0x15#5 ++ 0x21#6 ++ 0x12#6 ++ 0x5#3 ++ 0x5#3), .vsel 21 33 18 5),
    (.w32 (0x9#4 ++ 0x11#5 ++ 0x15#5 ++ 0x21#6 ++ 0x12#6 ++ 0x5#3 ++ 0x5#3), .vperm 21 33 18 5),
    (.w32 (0x9#4 ++ 0x9#5 ++ 0x7#5 ++ 0x21#6 ++ 0x12#6 ++ 0x5#3 ++ 0x1#3), .vcmpEq 7 33 18 5 1),
    (.w32 (0x9#4 ++ 0xa#5 ++ 0x7#5 ++ 0x21#6 ++ 0x12#6 ++ 0x5#3 ++ 0x1#3), .vcmpNe 7 33 18 5 1),
    (.w32 (0x9#4 ++ 0xb#5 ++ 0x7#5 ++ 0x21#6 ++ 0x12#6 ++ 0x5#3 ++ 0x1#3), .vcmpLt 7 33 18 5 1),
    (.w32 (0x9#4 ++ 0xc#5 ++ 0x7#5 ++ 0x21#6 ++ 0x12#6 ++ 0x5#3 ++ 0x1#3), .vcmpLe 7 33 18 5 1),
    (.w32 (0x9#4 ++ 0xd#5 ++ 0x7#5 ++ 0x21#6 ++ 0x12#6 ++ 0x5#3 ++ 0x1#3), .vcmpGt 7 33 18 5 1),
    (.w32 (0x9#4 ++ 0xe#5 ++ 0x7#5 ++ 0x21#6 ++ 0x12#6 ++ 0x5#3 ++ 0x1#3), .vcmpGe 7 33 18 5 1),
    (.w32 (0x9#4 ++ 0xf#5 ++ 0x15#5 ++ 0x21#6 ++ 0x0#6 ++ 0x5#3 ++ 0x5#3), .vmov 21 33 5),
    (.w32 (0x9#4 ++ 0x10#5 ++ 0x15#5 ++ 0x21#6 ++ 0x3f#6 ++ 0x5#3 ++ 0x5#3), .vbcast 21 33 63 5)] = true := by decide +kernel

theorem test_decode_vector_memory : decodesAll [
    (.w32 (0xa#4 ++ 0x0#5 ++ 0x15#5 ++ 0x12#6 ++ 0x0#6 ++ 0x5#3 ++ 0x5#3), .vldl 21 18 5),
    (.w32 (0xa#4 ++ 0x1#5 ++ 0x15#5 ++ 0x12#6 ++ 0x0#6 ++ 0x5#3 ++ 0x5#3), .vstl 21 18 5),
    (.w32 (0xa#4 ++ 0x5#5 ++ 0x15#5 ++ 0x12#6 ++ 0x0#6 ++ 0x5#3 ++ 0x5#3), .vldg 21 18 5),
    (.w32 (0xa#4 ++ 0x6#5 ++ 0x15#5 ++ 0x12#6 ++ 0x0#6 ++ 0x5#3 ++ 0x5#3), .vstg 21 18 5),
    (.w32 (0xa#4 ++ 0x2#5 ++ 0x15#5 ++ 0x12#6 ++ 0x21#6 ++ 0x5#3 ++ 0x5#3), .vgathl 21 18 33 5),
    (.w32 (0xa#4 ++ 0x3#5 ++ 0x15#5 ++ 0x12#6 ++ 0x21#6 ++ 0x5#3 ++ 0x5#3), .vscatl 21 18 33 5),
    (.w32 (0xa#4 ++ 0x7#5 ++ 0x15#5 ++ 0x12#6 ++ 0x21#6 ++ 0x5#3 ++ 0x5#3), .vgathg 21 18 33 5),
    (.w32 (0xa#4 ++ 0x8#5 ++ 0x15#5 ++ 0x12#6 ++ 0x21#6 ++ 0x5#3 ++ 0x5#3), .vscatg 21 18 33 5),
    (.w32 (0xa#4 ++ 0x4#5 ++ 0x6#5 ++ 0x12#6 ++ 0x0#6 ++ 0x0#3 ++ 0x0#3), .tblld 6 18),
    (.w32 (0xa#4 ++ 0x9#5 ++ 0x15#5 ++ 0x21#6 ++ 0x0#3 ++ 0x6#3 ++ 0x5#3 ++ 0x0#3), .vtlu 21 33 6 5 0),
    (.w32 (0xa#4 ++ 0xa#5 ++ 0x15#5 ++ 0x21#6 ++ 0x12#6 ++ 0x5#3 ++ 0x0#3), .vrope 21 33 18 5),
    (.w32 (0xa#4 ++ 0xb#5 ++ 0x15#5 ++ 0x21#6 ++ 0x3#3 ++ 0x1#3 ++ 0x5#3 ++ 0x0#3), .vcvt 21 33 3 1 5 0),
    (.w32 (0xa#4 ++ 0xc#5 ++ 0x15#5 ++ 0x21#6 ++ 0x12#6 ++ 0x5#3 ++ 0x2#3), .vcvtn 21 33 18 5 2),
    (.w32 (0xa#4 ++ 0xd#5 ++ 0x15#5 ++ 0x21#6 ++ 0x12#6 ++ 0x5#3 ++ 0x2#3), .vpack 21 33 18 5 2),
    (.w32 (0xa#4 ++ 0xe#5 ++ 0x15#5 ++ 0x21#6 ++ 0x3#6 ++ 0x5#3 ++ 0x2#3), .vunpack 21 33 3 5 2)] = true := by decide +kernel

theorem test_decode_long : decodesAll [
    (.w64 (0xb#4 ++ 0x1#4 ++ 0x23#6 ++ 0x0#12 ++ 0x0#1 ++ 0x0#5 ++ 0x8#4 ++ 0x3#5 ++ 0x15#5 ++ 0x21#6 ++ 0x12#6 ++ 0x5#3 ++ 0x1#3), .vfmaPrefixed 21 33 18 35 5 1),
    (.w64 (0xb#4 ++ 0x1#4 ++ 0x23#6 ++ 0x0#12 ++ 0x0#1 ++ 0x0#5 ++ 0x8#4 ++ 0x4#5 ++ 0x15#5 ++ 0x21#6 ++ 0x12#6 ++ 0x5#3 ++ 0x1#3), .vfmsPrefixed 21 33 18 35 5 1),
    (.w64 (0xb#4 ++ 0x1#4 ++ 0x0#6 ++ 0xabc#12 ++ 0x1#1 ++ 0x0#5 ++ 0xa#4 ++ 0xc#5 ++ 0x15#5 ++ 0x21#6 ++ 0x12#6 ++ 0x5#3 ++ 0x2#3), .vcvtnCounter 21 33 18 5 2 0xABC),
    (.w64 (0xb#4 ++ 0x2#4 ++ 0x3#4 ++ 0x4#4 ++ 0x21#6 ++ 0xabc#12 ++ 0x9#4 ++ 0x1#1 ++ 0x1#1 ++ 0x0#24), .sendl 3 4 33 0xABC 9 1 1)] = true := by decide +kernel

theorem test_decode_matrix : decodesAll [
    (.w32 (0xc#4 ++ 0x0#4 ++ 0x5#4 ++ 0x0#4 ++ 0x0#4 ++ 0x3#3 ++ 0x0#3 ++ 0x2#3 ++ 0x0#3), .mloadb 5 3 2),
    (.w32 (0xc#4 ++ 0x1#4 ++ 0x0#4 ++ 0x0#4 ++ 0x0#4 ++ 0x3#3 ++ 0x1#3 ++ 0x2#3 ++ 0x1#3), .mma 3 1 2 1),
    (.w32 (0xc#4 ++ 0x2#4 ++ 0x5#4 ++ 0x6#4 ++ 0x0#4 ++ 0x3#3 ++ 0x0#3 ++ 0x0#3 ++ 0x0#3), .sacc 5 6 3),
    (.w32 (0xc#4 ++ 0x3#4 ++ 0x0#24), .aswap),
    (.w32 (0xc#4 ++ 0x4#4 ++ 0x5#4 ++ 0x6#4 ++ 0x0#4 ++ 0x0#12), .aread 5 6),
    (.w32 (0xc#4 ++ 0x5#4 ++ 0x0#12 ++ 0x0#9 ++ 0x1#3), .azero 1),
    (.w32 (0xc#4 ++ 0x6#4 ++ 0x5#4 ++ 0x6#4 ++ 0x7#4 ++ 0x0#12), .ofix 5 6 7),
    (.w32 (0xc#4 ++ 0x7#4 ++ 0x5#4 ++ 0x0#4 ++ 0x0#4 ++ 0x0#12), .mstat 5)] = true := by decide +kernel

theorem test_decode_queues : decodesAll [
    (.w32 (0xd#4 ++ 0x0#5 ++ 0x1#2 ++ 0x5#4 ++ 0x6#4 ++ 0x7#4 ++ 0x29#6 ++ 0x3#2 ++ 0x1#1), .copy 1 5 6 7 0x29 3 1),
    (.w32 (0xd#4 ++ 0x1#5 ++ 0x2#2 ++ 0x5#4 ++ 0x0#4 ++ 0x7#4 ++ 0x0#6 ++ 0x0#3), .gatherkv 5 7),
    (.w32 (0xd#4 ++ 0x2#5 ++ 0x1#2 ++ 0x5#4 ++ 0x6#4 ++ 0x7#4 ++ 0x0#6 ++ 0x0#3), .pagein 1 5 6 7),
    (.w32 (0xd#4 ++ 0x3#5 ++ 0x0#2 ++ 0x0#4 ++ 0x0#4 ++ 0x0#4 ++ 0x9#4 ++ 0x0#2 ++ 0x0#3), .efence 9),
    (.w32 (0xd#4 ++ 0x4#5 ++ 0x3#2 ++ 0x0#4 ++ 0x0#4 ++ 0x0#4 ++ 0x0#6 ++ 0x0#3), .eqwait 3),
    (.w32 (0xd#4 ++ 0x5#5 ++ 0x0#2 ++ 0x5#4 ++ 0x0#4 ++ 0x0#4 ++ 0x29#6 ++ 0x0#3), .tmapset 5 0x29),
    (.w32 (0xd#4 ++ 0x6#5 ++ 0x0#2 ++ 0x5#4 ++ 0x6#4 ++ 0x0#4 ++ 0x0#6 ++ 0x0#3), .binit 5 6),
    (.w32 (0xd#4 ++ 0x7#5 ++ 0x0#2 ++ 0x5#4 ++ 0x6#4 ++ 0x0#4 ++ 0x0#6 ++ 0x0#3), .bexpect 5 6),
    (.w32 (0xd#4 ++ 0x9#5 ++ 0x0#2 ++ 0x5#4 ++ 0x6#4 ++ 0x0#4 ++ 0x0#6 ++ 0x0#3), .bwait 5 6),
    (.w32 (0xd#4 ++ 0x8#5 ++ 0x0#2 ++ 0x5#4 ++ 0x0#4 ++ 0x0#4 ++ 0x0#6 ++ 0x0#3), .barrive 5),
    (.w32 (0xd#4 ++ 0xa#5 ++ 0x0#2 ++ 0x5#4 ++ 0x6#4 ++ 0x7#4 ++ 0x0#6 ++ 0x0#3), .btest 5 6 7)] = true := by decide +kernel

theorem test_decode_fabric_and_messages : decodesAll [
    (.w32 (0xe#4 ++ 0x0#6 ++ 0x5#4 ++ 0x0#4 ++ 0x0#4 ++ 0x0#5 ++ 0x1#2 ++ 0x4#3), .cnew 5 1 4),
    (.w32 (0xe#4 ++ 0x1#6 ++ 0x0#4 ++ 0x6#4 ++ 0x0#4 ++ 0x0#10), .cfree 6),
    (.w32 (0xe#4 ++ 0x2#6 ++ 0x5#4 ++ 0x6#4 ++ 0x0#4 ++ 0x0#10), .ctake 5 6),
    (.w32 (0xe#4 ++ 0x3#6 ++ 0x5#4 ++ 0x6#4 ++ 0x0#4 ++ 0x0#10), .cgive 5 6),
    (.w32 (0xe#4 ++ 0x4#6 ++ 0x5#4 ++ 0x6#4 ++ 0x7#4 ++ 0x0#10), .ccancel 5 6 7),
    (.w32 (0xe#4 ++ 0x5#6 ++ 0x5#4 ++ 0x6#4 ++ 0x0#4 ++ 0x0#10), .cread 5 6),
    (.w32 (0xe#4 ++ 0x6#6 ++ 0x0#4 ++ 0x6#4 ++ 0x7#4 ++ 0x0#10), .carm 6 7),
    (.w32 (0xe#4 ++ 0x7#6 ++ 0x0#4 ++ 0x6#4 ++ 0x7#4 ++ 0x0#10), .cwait 6 7),
    (.w32 (0xe#4 ++ 0x8#6 ++ 0x0#4 ++ 0x6#4 ++ 0x7#4 ++ 0x2#2 ++ 0x1#1 ++ 0x1#1 ++ 0x21#6), .send 6 7 2 1 1 33),
    (.w32 (0xe#4 ++ 0x9#6 ++ 0x0#4 ++ 0x0#4 ++ 0x0#4 ++ 0x2#2 ++ 0x0#8), .reply 2),
    (.w32 (0xe#4 ++ 0xa#6 ++ 0x5#4 ++ 0x6#4 ++ 0x0#4 ++ 0x0#10), .msgrd 5 6),
    (.w32 (0xe#4 ++ 0xb#6 ++ 0x0#4 ++ 0x0#4 ++ 0x0#4 ++ 0x0#3 ++ 0x1#1 ++ 0x21#6), .chmask 1 33),
    (.w32 (0xe#4 ++ 0xc#6 ++ 0x0#4 ++ 0x6#4 ++ 0x0#4 ++ 0x0#4 ++ 0x21#6), .lpbind 6 33),
    (.w32 (0xe#4 ++ 0xd#6 ++ 0x0#4 ++ 0x6#4 ++ 0x0#4 ++ 0x0#10), .vtset 6),
    (.w32 (0xe#4 ++ 0xe#6 ++ 0x5#4 ++ 0x0#4 ++ 0x0#4 ++ 0x0#10), .vtget 5),
    (.w32 (0xe#4 ++ 0xf#6 ++ 0x5#4 ++ 0x0#4 ++ 0x0#4 ++ 0x0#2 ++ 0xa5#8), .gvtrd 5 0xA5),
    (.w32 (0xe#4 ++ 0x10#6 ++ 0x0#4 ++ 0x6#4 ++ 0x0#4 ++ 0x0#10), .irrev 6),
    (.w32 (0xe#4 ++ 0x11#6 ++ 0x0#4 ++ 0x6#4 ++ 0x0#4 ++ 0x0#10), .ckpt 6),
    (.w32 (0xe#4 ++ 0x12#6 ++ 0x0#4 ++ 0x6#4 ++ 0x0#4 ++ 0x0#2 ++ 0xa5#8), .swater 6 0xA5),
    (.w32 (0xe#4 ++ 0x13#6 ++ 0x0#4 ++ 0x6#4 ++ 0x7#4 ++ 0x0#10), .strunc 6 7),
    (.w32 (0xe#4 ++ 0x14#6 ++ 0x5#4 ++ 0x6#4 ++ 0x0#4 ++ 0x0#9 ++ 0x1#1), .scursor 5 6 1),
    (.w32 (0xe#4 ++ 0x15#6 ++ 0x0#4 ++ 0x6#4 ++ 0x7#4 ++ 0x0#10), .nred 6 7),
    (.w32 (0xe#4 ++ 0x16#6 ++ 0x5#4 ++ 0x6#4 ++ 0x0#4 ++ 0x0#10), .nredw 5 6)] = true := by decide +kernel

theorem test_decode_system : decodesAll [
    (.w32 (0xf#4 ++ 0x0#6 ++ 0x0#4 ++ 0x0#4 ++ 0x0#4 ++ 0x2a5#10), .trap 0x2A5),
    (.w32 (0xf#4 ++ 0x3#6 ++ 0x0#4 ++ 0x0#4 ++ 0x0#4 ++ 0x2a5#10), .brk 0x2A5),
    (.w32 (0xf#4 ++ 0x1#6 ++ 0x0#4 ++ 0x0#4 ++ 0x0#4 ++ 0x0#10), .eret),
    (.w32 (0xf#4 ++ 0x2#6 ++ 0x0#4 ++ 0x6#4 ++ 0x0#4 ++ 0x0#10), .resume 6),
    (.w32 (0xf#4 ++ 0x4#6 ++ 0x0#4 ++ 0x0#4 ++ 0x0#4 ++ 0x0#5 ++ 0x3#2 ++ 0x4#3), .fence 3 4),
    (.w32 (0xf#4 ++ 0x5#6 ++ 0x0#4 ++ 0x0#4 ++ 0x0#4 ++ 0x0#10), .drain),
    (.w32 (0xf#4 ++ 0x6#6 ++ 0x0#4 ++ 0x6#4 ++ 0x0#4 ++ 0x0#7 ++ 0x1#1 ++ 0x0#2), .tlbinvPage 6 1),
    (.w32 (0xf#4 ++ 0x6#6 ++ 0x0#4 ++ 0x6#4 ++ 0x0#4 ++ 0x0#7 ++ 0x1#1 ++ 0x1#2), .tlbinvPart 6 1),
    (.w32 (0xf#4 ++ 0x6#6 ++ 0x0#4 ++ 0x0#4 ++ 0x0#4 ++ 0x0#7 ++ 0x1#1 ++ 0x2#2), .tlbinvAll),
    (.w32 (0xf#4 ++ 0x7#6 ++ 0x0#4 ++ 0x0#4 ++ 0x0#4 ++ 0x0#10), .tlbsync),
    (.w32 (0xf#4 ++ 0x8#6 ++ 0x5#4 ++ 0x0#4 ++ 0x0#4 ++ 0x0#5 ++ 0x2#2 ++ 0x6#3), .fbread 5 2 6),
    (.w32 (0xf#4 ++ 0x9#6 ++ 0x0#4 ++ 0x0#4 ++ 0x0#4 ++ 0x0#10), .fbpop),
    (.w32 (0xf#4 ++ 0xa#6 ++ 0x0#4 ++ 0x0#4 ++ 0x0#4 ++ 0x0#10), .replayall),
    (.w32 (0xf#4 ++ 0xb#6 ++ 0x5#4 ++ 0x6#4 ++ 0x0#4 ++ 0x0#8 ++ 0x2#2), .xlate 5 6 2),
    (.w32 (0xf#4 ++ 0xc#6 ++ 0x0#4 ++ 0x6#4 ++ 0x0#4 ++ 0x0#10), .bmcinv 6)] = true := by decide +kernel

/-! ### Hypotheses of the statements: a state and operands that meet those of each clause -/

def sRunA : State :=
  (match encode (.add 1 2 3) with | some c => (withX [(2, 5), (3, 6)]).placeWord c | none => State.reset)

def sRunB : State :=
  (match encode .eret with | some c => (withX []).placeWord c | none => State.reset)

def lineA : List Byte :=
  (lineOf ((encode (.add 1 2 3)).getD (.w16 0)))

def kHold : Ctx :=
  { ctxOf [] with ring := [{ (ctxOf []).newEntry (.vadd 1 2 3 0 0) 0 with st := .done }] }

def sOwe : State :=
  (let u := (sRunA.fetchFor 0 0).1; u.setMe { u.me with owed := [(4, 2)] })

def sOff : State :=
  State.reset.setChip 0 { Chip.reset with off := true }

def sDiv : State :=
  withX [(1, 7), (2, 0), (3, 0x8000000000000000), (4, 0xFFFFFFFFFFFFFFFF)]

def sLoop : State :=
  stateOf { ctxOf [(1, 2), (2, 0)] with loops := [⟨0x1010, 0x1018, 2⟩, ⟨0x1010, 0x1018, 1⟩, ⟨0x1000, 0x1100, 3⟩] }

def sLoop4 : State :=
  stateOf { ctxOf [(1, 2)] with loops := List.replicate 4 ⟨0x1000, 0x1100, 3⟩ }

def sLoop1 : State :=
  stateOf { ctxOf [] with loops := [⟨0x1010, 0x1018, 1⟩, ⟨0x1008, 0x1018, 3⟩] }

def sLoop2 : State :=
  stateOf { ctxOf [] with loops := [⟨0x1010, 0x1018, 1⟩, ⟨0x1008, 0x1020, 3⟩] }

def sLoop3 : State :=
  stateOf { ctxOf [] with loops := [⟨0x1010, 0x1018, 1⟩, ⟨0x1008, 0x1018, 1⟩, ⟨0x1000, 0x1020, 5⟩] }

def sLoopO : State :=
  sLoop.setMe { sLoop.me with pc := 0x1020 }

def sSup : State :=
  withSup [(1, 0x10), (2, 1), (3, 0xFFFFFFFFFFFFFFFF), (4, 5), (5, 17), (6, 0x1080)]

def sStrand : State :=
  let s := stateOf { ctxOf [] with role := .strand 7 3 }; s.setWork 0 { s.work 0 with
    crews := [(7, ⟨9, ⟨⟨0x80, 0, 1, 4, 0, 0, 0, 0, Vector.replicate 8 0, 1⟩, 0, 0, false⟩, 4, [0, 1, 2, 3], [], [], 0,
    none⟩)] }

def sLoc : State :=
  let s := withX [(1, 0x100), (2, 0xFFFFFFFFFFFFFFF1), (3, 5), (4, 0x101), (5, 0x70000), (6, 0x10002), (7, 0x1000000),
    (8, 0x120)]; s.setWork 0 { s.work 0 with power := 0x3FFF, spad := [(0x100, 0x81), (0x107, 0xFF), (0x110, 7)] }

def sLocW : State :=
  { sLoc with
    net := { sLoc.net with
    reqs := [(5, ⟨5, 0, 0, 0x3F00000104, .store [1, 2, 3, 4], none, 0, 0, false, none, [], 0, 0⟩)] } }

def sLocP : State :=
  sLoc.setWork 0 { sLoc.work 0 with poison := [8] }

def sLocD : State :=
  sLoc.setDebug 0 { (sLoc.core 0).dbg with addr := [(0, 0x100)], ctl := [(0, 0x21F)] }

def sVec : State :=
  stateOf { ctxOf [(1, 0x100), (2, 0x40)] with
    v := (Vector.replicate 22 VReg.zero).set 1 (Vector.ofFn fun i : Fin 64 => BitVec.ofNat 32 (8 * i.val)),
    p := (Vector.replicate 8 0).set 1 0x5 } |> fun s => s.setWork 0 { s.work 0 with
    power := 0x3FFF, spad := [(0x100, 0x81), (0x108, 3)] }

def sBar : State :=
  let s := withX [(1, 0x100), (2, 2), (3, 0x10002), (4, 0x7FFFFFFF), (5, 0), (6, 0xFFFF)]; s.setWork 0 { s.work 0 with
    power := 0x3FFF, spad := (Memory.store [] 0x100 (BarObj.bytes ⟨0, 2, 1, false, false, 1⟩)) }

def sBar0 : State :=
  sBar.setWork 0 { sBar.work 0 with spad := (Memory.store [] 0x100 (BarObj.bytes ⟨0, 2, 0, false, false, 1⟩)) }

def sBarOwed : State :=
  sBar.setMe { sBar.me with acks := [1] }

def sBarP : State :=
  sBar.setWork 0 { sBar.work 0 with poison := [8] }

def sGlo : State :=
  withX [(1, 0x1000), (2, 0xFFFFFFFFFFFFFFF1), (3, 5), (4, 0x1001), (6, 2), (7, 3)]

def sFull : State :=
  sGlo.setWork 0 { sGlo.work 0 with requests := List.replicate 32 ⟨.steal 1, 0, []⟩ }

def rq : MemReq :=
  ⟨5, 0, 0, 0x1000, .load 4 true, some 5, 0, 0x1010, false, none, [], 0, 0⟩

def sHome5 : State :=
  { sGlo with mem := [(0x1000, 0xFE), (0x1003, 0x80)], nextId := 9, net := { Net.reset with reqs := [(5, rq)] } }

def sHome6 : State :=
  { sGlo with
    mem := [(0x1000, 0xFE), (0x1003, 0x80)], nextId := 9, net := { Net.reset with
    reqs := [(6, { rq with id := 6, c := 1, op := .store [1, 2] })] } }

def sHome7 : State :=
  { sGlo with
    mem := [(0x1000, 0xFE), (0x1003, 0x80)], nextId := 9, net := { Net.reset with
    reqs := [(7, { rq with id := 7, c := 2, op := .amo 0 4 5 0 })] } }

def sAway : State :=
  let s := { sHome5 with net := { Net.reset with reqs := [(5, { rq with pa := 0x7F00001000 })] } };
    s.setCore 1 { s.core 1 with image := some ⟨1, Work.reset, none, 0, [], 0, false, none⟩, ptag := 2 }

def rqW : MemReq :=
  { rq with pa := 0xFFF00001000 }

def sAlien : State :=
  { sHome5 with net := { Net.reset with reqs := [(5, rqW)] } }

def sTurn : State :=
  { sHome5 with
    net := { Net.reset with reqs := [(5, rq), (8, { rq with id := 8, c := 2 })] }, now := Config.freeArrival 5 }

def sHoff : State :=
  sHome5.setChip 0 { sHome5.chip 0 with off := true }

def ans : MemReply :=
  ⟨rq, [0xFE, 0, 0, 0x80], true, false⟩

def sRep : State :=
  ({ sGlo with
    net := { Net.reset with
    replies := [(5, ans), (6, { ans with ok := false }), (7, { ans with poison := true }), (8,
    { ans with req := { rq with id := 8, op := .store [1] } }), (9, { ans with
    req := { rq with id := 9, op := .store [1] }, ok := false }), (10, { ans with req := { rq with id := 10, c := 3 } }),
    (11, { ans with req := { rq with id := 11, op := .store [1] } }), (12, { ans with
    req := { rq with id := 12 }, poison := true })] } } : State).setMe { sGlo.me with
    owed := [(5, 5)], acks := [8, 9], amos := [12] }

def ansA : MemReply :=
  { ans with req := { rq with id := 13, op := .amo 0 4 5 0 } }

def ansB : MemReply :=
  ⟨{ rq with id := 14, op := .amo 6 16 5 0, dest := some 8 }, bytesOfNat 8 3 ++ bytesOfNat 8 4, true, false⟩

def eVl : RingEntry :=
  { sGlo.me.newEntry (.vldg 3 17 1) 0 with st := .running, pieces := [15] }

def ansV : MemReply :=
  ⟨{ rq with id := 15, op := .vload [(0x1000, 2), (0x1004, 5)], dest := none, seq := eVl.seq },
    bytesOfNat 4 7 ++ bytesOfNat 4 9, true, false⟩

def sRep2 : State :=
  ({ sGlo with
    net := { Net.reset with
    replies := [(13, ansA), (14, ansB), (15, ansV)] } } : State).setMe { sGlo.me with
    owed := [(13, 5), (14, 8), (14, 9)], ring := [eVl] }

def sVg : State :=
  stateOf { ctxOf [(1, 0x1000)] with p := (Vector.replicate 8 0).set 1 0x8000000000000001 }

def sV : State :=
  let k := ctxOf [(0, 9), (1, 0x100), (2, 0x40)]; let s := stateOf { k with
    v := (((Vector.replicate 22 VReg.zero).set 1 (Vector.replicate 64 0x3F800000)).set 2 (Vector.replicate 64 0x40490FDB)).set 3 (Vector.replicate 64 0x01000000),
    p := (Vector.replicate 8 0).set 1 0x7 }; s.setWork 0 { s.work 0 with
    power := 0x3FFF, olcnt := 0, olbase := 0x200, spad := [] }

def sNv : State :=
  sV.setMe { sV.me with v := sV.me.v.set 2 ((Vector.replicate 64 0x40490FDB).set 1 0x7149F2CA) }

def sNvW : State :=
  (sNv.setDebug 0 { (sNv.core 0).dbg with
    addr := [(0, 0x200)], ctl := [(0, 0x21D)] }) |> fun s => s.setWork 0 { s.work 0 with olcnt := 0x20000 }

def rNar : List Byte :=
  List.replicate 16 7

def eNar : RingEntry :=
  { sV.me.newEntry (.vcvtn 4 2 1 1 2) 0 with records := [rNar, rNar] }

def sNar : State :=
  let s := sV.setMe { sV.me with ring := [eNar] }; s.setWork 0 { s.work 0 with olcnt := 0x20001 }

def sNar2 : State :=
  sNar.setWork 0 { sNar.work 0 with olcnt := 0x20002 }

def sNar3 : State :=
  sNar.setWork 0 { sNar.work 0 with olbase := 0x7FFF8 }

def eNac : RingEntry :=
  { sV.me.newEntry (.vcvtnCounter 4 2 1 1 2 9) 0 with records := [rNar] }

def qNac : Counter :=
  ⟨1, [0], [], [0], [[]], 0, 0, .opened, 0, false, false, []⟩

def sNac : State :=
  let s := sV.setMe { sV.me with ring := [eNac] }; s.setPart 1 { s.part 1 with
    counters := [(counterKey 1 0 9, qNac), (counterKey 1 0 10, { qNac with exhausted := true })] }

def eNad : RingEntry :=
  { eNac with instr := .vcvtnCounter 4 2 1 1 2 10 }

def eNae : RingEntry :=
  { eNac with instr := .vcvtnCounter 4 2 1 1 2 11 }

def sNad : State :=
  sNac.setMe { sNac.me with ring := [eNad] }

def sNae : State :=
  sNac.setMe { sNac.me with ring := [eNae] }

def sMsg : State :=
  let s := withX [(1, 0x000001), (2, 0x240001), (3, 0x100), (4, 3), (5, 0xAB), (6, 7), (7, 0x1000000)];
    (s.setWork 0 { s.work 0 with power := 0x3FFF, spad := [(0x100, 0x81)] })

def sCells : State :=
  sMsg.setWork 0 { sMsg.work 0 with
    cells := (List.range 64).map fun n => (n, ⟨0, false, none⟩), requests := List.replicate 32 ⟨.steal 1, 0, []⟩ }

def msgA : Msg :=
  ⟨0x900100009040001, 0xC0001, 5, 0x41, [1, 2, 3], 0, 1, 3, [], 0, 0⟩

def sCur : State :=
  sMsg.setMe { sMsg.me with cur := some ⟨msgA, some 2, false, none⟩ }

def sHan : State :=
  (State.setWork · 0 { sMsg.work 0 with
    handlers := [(0, ⟨0x3000, 1⟩), (2, ⟨0x3000, 1⟩), (9, ⟨0x2000, 1⟩), (10, ⟨0x2000, 3⟩)] }) sMsg

def msgB : Msg :=
  { msgA with d0 := 0x3040280001 }

def sEv : State :=
  ({ sHan with
    nextId := 20, now := 600, net := { Net.reset with
    msgs := [(5, msgB), (6, { msgB with d0 := 0x3080280001, sctx := 4 })], answers := [(7, { msgB with
    sctx := 5, d0 := 0x5003040280001, d3 := 0x40 })], releases := [(8, (1, 0, 3))], retries := [(9, (600,
    .msg msgB))] } } : State).setWork 0 { sHan.work 0 with
    requests := [⟨.steal 1, 0, []⟩], ejection := [msgB], oxbow := 1, cells := [(0, ⟨0, true, none⟩), (3, ⟨1, true,
    none⟩)] }

def msgR : Msg :=
  { msgB with sctx := 5, d0 := 0x5003040280001, d3 := 0x40 }

def sImgRel : State :=
  ({ sEv with net := { sEv.net with releases := [(8, (1, 0, 3))] } } : State).setCore 0 { sEv.core 0 with
    ptag := 2, image := some ⟨1, { Work.reset with cells := [(3, ⟨1, true, none⟩)] }, none, 0, [], 0, false, none⟩ }

def sImg : State :=
  sEv.setCore 0 { sEv.core 0 with image := some ⟨1, Work.reset, none, 0, [], 57309, false, none⟩ }

def imM : Image :=
  ⟨1, Work.reset, none, 0, [], 57309, false, none⟩

def sImgF : State :=
  sEv.setCore 0 { sEv.core 0 with image := some { imM with bytes := 57310 } }

def imR : Image :=
  { imM with work := { Work.reset with cells := [(0, ⟨0, true, none⟩)] } }

def sImgY : State :=
  sEv.setCore 0 { sEv.core 0 with image := some imR }

def sEvH : State :=
  sEv.setChip 0 { sEv.chip 0 with ready := true }

def msgC : Msg :=
  { msgB with d0 := 0x3040240001 }

def sServe : State :=
  sHan.setWork 0 { sHan.work 0 with ejection := [msgC] }

def sWait : State :=
  (sServe.setCtx 0 4 { ctxOf [] with st := .waiting (.channel 9) })

def lpA : Lp :=
  ⟨0x1000, 3, false, false, 1, 0, [9], 100, 0, 0, ⟨0x2000, 4096, 0, 0⟩, ⟨0x3000, 4096, 0, 0⟩, ⟨0x4000, 4096, 0, 0⟩,
    ⟨0x5000, 4096, 0, 0⟩, [], [], [], [], [], [], false, false, [], [], none, [], []⟩

def sImgV : State :=
  sImg.setCore 0 { sImg.core 0 with
    image := some ⟨1, { Work.reset with
    handlers := [(9, ⟨0x2000, 0x30005⟩)], lps := [(2, { lpA with
    lvt := 20, events := [⟨7, 20, { msgC with d2 := 20 }, 3, .processed, false, false, 0, 0, false⟩] })] }, none, 0, [],
    0, false, none⟩ }

def sLate : State :=
  let s := sServe.setWork 0 { sServe.work 0 with
    handlers := [(9, ⟨0x2000, 0x30005⟩)], lps := [(2, lpA)], ejection := [{ msgC with d2 := 4 }] };
    s.setPart 1 { s.part 1 with domains := [(3, ⟨5, 0, none, 0⟩)] }

def ctrA : Counter :=
  ⟨2, [0, 0, 0], [true], [5, 4], [[], [3, 1]], 0, 0, .opened, 0, false, false, []⟩

def ctrTop : Counter :=
  { ctrA with c := [2 ^ 46, -(2 ^ 46)], holes := [[], []] }

def key7 : Nat :=
  counterKey 1 0 7

def sCtr : State :=
  let s := withX [(1, 7), (2, 0x40007), (3, 8), (4, 0x100), (5, 5), (6, 0x8000000000000003), (7, 0x800000000000), (8,
    0xFFFF), (9, 0x10000)]; s.setPart 1 { s.part 1 with counters := [(key7, ctrA)] }

def sTurnC : State :=
  sCtr.setDebug 0 { (sCtr.core 0).dbg with rlctl := 2 }

def sCap : State :=
  sCtr.setPart 1 { sCtr.part 1 with limit := 0 }

def sWorn : State :=
  sCtr.setPart 1 { sCtr.part 1 with counters := [(key7, { ctrA with exhausted := true })] }

def sClos : State :=
  sCtr.setPart 1 { sCtr.part 1 with counters := [(key7, { ctrA with pennant := .closing, p := 1 })] }

def opT : FabricOp :=
  ⟨0, 0, 1, key7, .token, 0, .wire 0, [], .reg 5, 0⟩

def sOps : State :=
  ({ sCtr with
    net := { Net.reset with
    ops := [(1, opT), (2, { opT with kind := .anti }), (3, { opT with pos := .wire 2 }), (4, { opT with
    kind := .anti, pos := .wire 3 }), (5, { opT with kind := .cancel 5, pos := .wire 3 }), (6,
    { opT with pos := .back true 77 }), (7, { opT with
    c := 1,
    pos := .back false 0 })] } } : State) |> fun s => (s.setCtx 0 0 { s.ctx 0 0 with st := .blocked (.fabric 6) }).setCtx 0 1 { ctxOf [] with st := .blocked (.fabric 7) }

def sTop : State :=
  ({ sOps with
    net := { Net.reset with
    ops := [(1, { opT with pos := .wire 2 }), (2, { opT with
    kind := .anti, pos := .wire 3 })] } } : State).setPart 1 { sOps.part 1 with counters := [(key7, ctrTop)] }

def ctrArm : Counter :=
  { ctrA with pennant := .armed, target := 3, rep := true, gens := [(0, ⟨4, 4, 3⟩)] }

def sArm : State :=
  sCtr.setPart 1 { sCtr.part 1 with counters := [(key7, ctrArm)] }

def sRaise : State :=
  sCtr.setPart 1 { sCtr.part 1 with counters := [(key7, { ctrArm with gen := 1, pennant := .closing })] }

def grC : Grid :=
  ⟨⟨0x80, 0, 4, 1, 0, 0, 0, 0, Vector.replicate 8 0, 0⟩, key7, key7 + 1, false⟩

def eApp : RingEntry :=
  { sCtr.me.newEntry (.vcvtnCounter 4 2 1 1 2 7) 0 with records := [List.replicate 16 1], pieces := [8] }

def sUse : State :=
  ({ sOps with
    net := { Net.reset with
    ops := [(8, { opT with pos := .back true 2, use := .append eApp.seq }), (9, { opT with
    pos := .back true 3, use := .crew }), (10, { opT with pos := .back true 1, use := .done }), (11, { opT with
    pos := .back true 9,
    use := .crew })] } } : State) |> fun s => (s.setCtx 0 0 { s.ctx 0 0 with ring := [eApp] }).setWork 0 { s.work 0 with
    ctxs := (s.setCtx 0 0 { s.ctx 0 0 with ring := [eApp] }).work 0 |>.ctxs, claim := some (.asked grC), grids := [grC] }

def lpS : Lp :=
  { lpA with
    stream := true, play := 40, lvt := 50, bound := 0, events := [⟨7, 50, msgC, 3, .processed, false, false, 0, 0,
    false⟩] }

def sVt : State :=
  let s := withX [(1, 0x1000), (2, 0x1400), (3, 41), (4, 40), (5, 0xFFFFFFFFFFFFFFFF), (6, 0x1800), (7, 0x60), (8,
    0x80), (9, 0xC0)]; let w := { s.work 0 with
    power := 0x3FFF, handlers := [(9, ⟨0x2000, 0x30005⟩), (10, ⟨0x2000, 0x30005⟩), (11, ⟨0x2000, 0x30005⟩)], lps := [(2,
    lpS), (3, { lpA with desc := 0x1400, channels := [10] })], spad := bytesAt [(0x1808, [3]), (0x1820,
    bytesOfNat 4 0x2000 ++ bytesOfNat 4 64), (0x1830, bytesOfNat 4 0x3000 ++ bytesOfNat 4 2048), (0x60, bytesOfNat 8 3),
    (0x80, bytesOfNat 8 1 ++ bytesOfNat 8 1 ++ bytesOfNat 8 0x10009 ++ bytesOfNat 8 0 ++ [0xAB]), (0xC0,
    bytesOfNat 8 2 ++ bytesOfNat 8 0x1000 ++ bytesOfNat 8 0x10000 ++ bytesOfNat 8 0 ++ [0xCD])] };
    { s.setWork 0 w with parts := [(1, { s.part 1 with domains := [(3, ⟨5, 0, none, 0⟩)] })] }

def sSpec : State :=
  sVt.setMe { sVt.me with event := some (2, 7) } |> fun s => s.setWork 0 { s.work 0 with
    lps := [(2, { lpS with events := [⟨7, 50, msgC, 0, .running, false, false, 0, 0, false⟩] })] }

def sRun : State :=
  sVt.setMe { sVt.me with ring := [{ sVt.me.newEntry (.vldg 3 17 1) 0 with st := .running }] }

def lpN : Lp :=
  ((readDescriptor ((sVt.work 0).spad.bytes 0x1800 256) 0x1800 11 3).getD lpA)

def msgV : Msg :=
  { msgC with d0 := 0x2003040240001, d2 := 60, sctx := 6 }

def lpE : Lp :=
  { lpA with lvt := 20, events := [⟨7, 20, { msgV with d2 := 20 }, 3, .processed, false, false, 0, 0, false⟩] }

def sLp : State :=
  let s := { sVt with
    cores := [(0, { sVt.core 0 with work := { sVt.work 0 with lps := [(2, lpE)], ejection := [msgV] } })] }; s

def msgS : Msg :=
  { msgV with d2 := 10 }

def msgN : Msg :=
  { msgV with d0 := 0x12003040240001, d2 := 30 }

def lpW : Lp :=
  { lpE with antis := [{ msgN with d2 := 60 }] }

def sFly : State :=
  let s := { sLp with
    net := { Net.reset with msgs := [(3, msgS), (4, { msgN with sctx := 8 }), (5, { msgV with sctx := 9 })] } };
    s.setWork 0 { s.work 0 with lps := [(2, lpW)], ejection := [] }

def lpC : Lp :=
  { lpE with cint := 1, since := 1, regions := [⟨0x6000, 64, 3, 2, false, 0x1000⟩] }

def sChk : State :=
  sLp.setWork 0 { sLp.work 0 with lps := [(2, lpC)] }

def lpU : Lp :=
  { lpA with channels := [9, 10], unbind := [10] }

def sUnb : State :=
  let s := sVt.setWork 0 { sVt.work 0 with
    lps := [(2, lpU), (3, { lpA with channels := [11], unbind := [11] })], handlers := [] }; s

def sGvt : State :=
  { sLp with now := 3200, parts := [(1, { sLp.part 1 with domains := [(3, ⟨5, 70, none, 0⟩)] })] }

def sPub : State :=
  { sLp with parts := [(1, { sLp.part 1 with domains := [(3, ⟨5, 70, some 60, 0⟩)] })] }

def sStuck : State :=
  let s := sPub.setWork 0 { sPub.work 0 with
    lps := [(2, { lpE with commits := [⟨7, .send { msgB with d0 := 0x3040280001 } false, 64, 9, []⟩] })],
    requests := List.replicate 32 ⟨.steal 1, 0, []⟩ }; s

def sNext : State :=
  sVt.setPart 1 { sVt.part 1 with domains := [(3, ⟨5, 0, some 60, 0⟩)] }

def sLbW : State :=
  { sVt with
    net := { sVt.net with
    reqs := [(5, ⟨5, 0, 0, 0x3F00001004, .store [1, 2, 3, 4], none, 0, 0, false, none, [], 0, 0⟩)] } }

def sIrW : State :=
  { sVt with
    net := { sVt.net with
    reqs := [(5, ⟨5, 0, 0, 0x3F00000084, .store [1, 2, 3, 4], none, 0, 0, false, none, [], 0, 0⟩)] } }

def sIrP : State :=
  sVt.setWork 0 { sVt.work 0 with poison := [4] }

def tmWatch : List Byte :=
  (bytesOfNat 8 0x1000 ++ bytesOfNat 4 8 ++ bytesOfNat 4 8 ++ bytesOfNat 4 8 ++ bytesOfNat 4 0 ++ bytesOfNat 8 64 ++ bytesOfNat 8 0 ++ bytesOfNat 2 4 ++ bytesOfNat 2 2 ++ bytesOfNat 2 1 ++ [3,
    1] ++ List.replicate 16 0)

def sEng : State :=
  let s := withX [(1, 0x1000), (2, 0x2000), (3, 0xFFFFFFFFFFFFFFFF), (4, 0x1001), (5, 0x400), (6, 2), (7, 0x100), (8,
    0x1240000), (9, 0x1240001), (10, 0x40000001240001)]; s.setWork 0 { s.work 0 with
    power := 0x3FFF, spad := bytesAt [(0x100, BarObj.bytes ⟨0, 1, 0, false, false, 1⟩)] }

def sQf : State :=
  sEng.setWork 0 ((sEng.work 0).putQueue .qm (List.replicate 8 (sEng.command .aswap)))

def cmdS : Cmd :=
  { sEng.command .aswap with id := 77 }

def sAct : State :=
  sEng.setWork 0 (({ sEng.work 0 with
    matrix := { Matrix.reset with working := [(0, 7)] } } : Work).putQueue .qm [cmdS])

def cmdW : Cmd :=
  { sEng.command (.copy 0x0 0x4000 (BitVec.allOnes 64) tmWatch 0 false) with id := 77 }

def sWat : State :=
  let s := sEng.setMe { sEng.me with ring := [{ sEng.me.newEntry .aswap 1 with seq := sEng.me.nextSeq }] } |> fun s => s.setWork 0 ((s.work 0).putQueue .qc0 [cmdW]);
    s.setCore 0 { s.core 0 with dbg := { (s.core 0).dbg with ctl := [(3, 0x22D)], addr := [(3, 0x4010)] } }

def cmdF : Cmd :=
  { sEng.command (.mma 5 1 1 false []) with id := 77 }

def sBadMma : State :=
  sEng.setMe { sEng.me with ring := [{ sEng.me.newEntry .aswap 0 with st := .running }] } |> fun s => s.setWork 0 ((s.work 0).putQueue .qm [cmdF])

def cmdPk : Cmd :=
  { sEng.command (.pagein 0x1000 0x2000 (BitVec.allOnes 64)) with id := 77 }

def sEpk : State :=
  sEng.setMe { sEng.me with sup := true } |> fun s => s.setWork 0 ({ s.work 0 with
    s1root := 1, handlers := [(2, ⟨0x3000, 1⟩)] }.putQueue .qc0 [cmdPk])

def prA : Progress :=
  ⟨[⟨[.spad 0 0x100 8], ⟨[], []⟩, [(0, 4, .spad 0 0x200), (4, 4, .spad 0 0x204)], 8⟩], [], 0, [], 1, []⟩

def prB : Progress :=
  ⟨[⟨[], ⟨[1, 2, 3, 4, 5, 6], List.replicate 6 false⟩, [(0, 4, .spad 0 0x200), (4, 4, .spad 0 0x220)], 8⟩], [], 0, [],
    1, []⟩

def prM : Progress :=
  ⟨[⟨[.phys 0x1000 4], ⟨[], []⟩, [(0, 4, .spad 0 0x200)], 8⟩], [], 0, [], 1, []⟩

def pr1 : Progress :=
  ⟨[], [], 1, [], 1, []⟩

def pr0 : Progress :=
  ⟨[], [], 0, [], 1, []⟩

def cmdC : Cmd :=
  { sEng.command (.copy 0x0 0x4000 (BitVec.allOnes 64) tmWatch 0 false) with id := 77, st := .active prA }

def sMv : State :=
  sEng.setWork 0 ({ sEng.work 0 with spad := bytesAt [(0x100, [9, 8, 7, 6, 5, 4, 3, 2])] }.putQueue .qc0 [cmdC,
    { cmdW with id := 78 }])

def sPau : State :=
  sMv.setWork 0 ((sMv.work 0).putQueue .qc0 [{ cmdC with st := .paused prA }])

def sMvB : State :=
  sMv.setWork 0 ((sMv.work 0).putQueue .qc0 [{ cmdC with st := .active prB }])

def sMvM : State :=
  { sMv.setWork 0 ((sMv.work 0).putQueue .qc0 [{ cmdC with st := .active prM }]) with
    mem := bytesAt [(0x1000, [4, 3, 2, 1])] }

def rq3 : MemReq :=
  ⟨3, 5, 0, 0x1000, .load 4 false, none, 0, 0, false, none, [], 0, 0⟩

def sMvT : State :=
  { sMvM with now := Config.freeArrival 3, net := { sMvM.net with reqs := [(3, rq3)] } }

def prG : Progress :=
  ⟨[⟨[], ⟨[1, 2, 3, 4], List.replicate 4 false⟩, [(0, 4, .phys 0x1000)], 4⟩], [], 4, [], 1, []⟩

def sMvG : State :=
  sMv.setWork 0 ((sMv.work 0).putQueue .qc0 [{ cmdC with st := .active prG }])

def sWatF : State :=
  sWat.setWork 0 { sWat.work 0 with power := 0 }

def gRec : List Byte :=
  (bytesOfNat 8 0x2000 ++ bytesOfNat 4 16 ++ bytesOfNat 4 0 ++ bytesOfNat 2 1 ++ [0,
    0] ++ bytesOfNat 4 0 ++ bytesOfNat 8 0x4000 ++ bytesOfNat 8 0x5000 ++ List.replicate 24 0)

def cmdG : Cmd :=
  { sEng.command (.gather 0x100 (BitVec.allOnes 64)) with id := 77 }

def sGat : State :=
  sEng.setWork 0 ({ sEng.work 0 with spad := bytesAt [(0x100, gRec)] }.putQueue .qg [cmdG])

def sGatP : State :=
  sGat.setWork 0 { sGat.work 0 with poison := [8] }

def wkA : Walk :=
  ⟨readGather gRec, (0, 0x4000), (0, 0x5000), [0x40000001], []⟩

def sGatW : State :=
  sGat.setWork 0 ((sGat.work 0).putQueue .qg [{ cmdG with st := .walking wkA }])

def cmdR : Cmd :=
  { sEng.command (.pagein 0x7F00001000 0x2000 (BitVec.allOnes 64)) with id := 77 }

def sEnR : State :=
  let s := sEng.setWork 0 ((sEng.work 0).putQueue .qc0 [cmdR]); s.setCore 1 { s.core 1 with
    image := some ⟨1, Work.reset, none, 0, [], 0, false, none⟩, ptag := 2 }

def cmdP : Cmd :=
  { sEng.command (.pagein 0x1000 0x2000 0x100) with id := 77, st := .active pr1 }

def sCred : State :=
  sEng.setWork 0 (({ sEng.work 0 with
    spad := bytesAt [(0x100, BarObj.bytes ⟨0, 1, 5, false, false, 1⟩)] } : Work).putQueue .qc0 [cmdP])

def eOv : RingEntry :=
  { sEng.me.newEntry (.pagein 0 1 2 3) 2 with st := .running }

def pr5 : Progress :=
  ⟨[], [], 5, [], 1, []⟩

def cmdO : Cmd :=
  { cmdP with seq := eOv.seq, st := .active pr5 }

def sOver : State :=
  let s := sEng.setMe { sEng.me with ring := [eOv] }; s.setWork 0 (({ s.work 0 with
    spad := bytesAt [(0x100, BarObj.bytes ⟨0, 1, 0, false, true, 1⟩)] } : Work).putQueue .qc0 [cmdO])

def sLateC : State :=
  let s := sOver.setMe { sOver.me with ring := [{ eOv with cause := 0x0B, fault := 0x100 }] };
    s.setWork 0 ((s.work 0).putQueue .qc0 [{ cmdO with st := .active pr0 }])

def sDone : State :=
  sEng.setWork 0 ((sEng.work 0).putQueue .qc0 [{ cmdP with st := .active pr0 }])

def cmdE : Cmd :=
  { sEng.command (.fence 9) with id := 77 }

def sFence : State :=
  sEng.setWork 0 (((sEng.work 0).putQueue .qc0 [cmdE]).putQueue .qm [cmdE])

def sMiss : State :=
  sFence.setWork 0 { sFence.work 0 with misses := [msgA] }

def mxA : Matrix :=
  { Matrix.reset with shape := 3, fmt := 1, rowMask := 3, rows := [(0, 0x3C), (1, 0x3F)], cells := [(0, 0x3F)] }

def rndOne : Round :=
  { c := 1, n := 1, lanes := Vector.replicate 64 ⟨2 ^ 149, false, false, false, false⟩ }

def conA : Contribution :=
  ⟨5, 0x240001, 1, 2, Vector.replicate 64 0x3F800000, 0, 0⟩

def sRqf : State :=
  sEng.setWork 0 { sEng.work 0 with requests := List.replicate 32 ⟨.steal 1, 0, []⟩ }

def sRnd : State :=
  (sEng.setRounds 1 0 9 [rndOne])

def sCon : State :=
  { sEng with
    net := { Net.reset with
    nreds := [(5, { conA with root := 0, slot := 9 }), (6, { conA with root := 99, slot := 9 })] } }

def tmGood : List Byte :=
  (bytesOfNat 8 0x1000 ++ bytesOfNat 4 8 ++ bytesOfNat 4 8 ++ bytesOfNat 4 8 ++ bytesOfNat 4 0 ++ bytesOfNat 8 0 ++ bytesOfNat 8 0 ++ bytesOfNat 2 4 ++ bytesOfNat 2 2 ++ bytesOfNat 2 1 ++ [2,
    1] ++ List.replicate 16 0)

def sTab : State :=
  sEng.setWork 0 { sEng.work 0 with spad := bytesAt [(0x1000, tmGood), (0x2000, [1, 2, 3, 4, 5])] }

def sTabW : State :=
  sTab.setDebug 0 { (sTab.core 0).dbg with addr := [(2, 0x1000)], ctl := [(2, 0x21B)] }

def sTabC : State :=
  { sTab with
    net := { sTab.net with
    reqs := [(5, ⟨5, 0, 0, 0x3F00001004, .store [1, 2, 3, 4], none, 0, 0, false, none, [], 0, 0⟩)] } }

def tlbA : TlbEntry :=
  ⟨1, 0x3000, 12, 0x3000, 12, 0x5000, true, true, false, true⟩

def tlbB : TlbEntry :=
  { tlbA with tag := 2, va := 0x10000, bits := 16, ia := 0x40000, bits2 := 16 }

def fltA : FaultEntry :=
  ⟨0x4008, 1, 1, true, false, 3, 2, false, 0x77000⟩

def sTr : State :=
  let s := withSup [(1, 0x3008), (2, 1), (3, 0x40002), (4, 0xFFFFFFFFFFFFFFFF), (5, 2), (6, 0x1000), (7,
    0x8000000000000000)]; let s := (s.setCore 0 { s.core 0 with
    dtlb := [tlbA, tlbB], itlb := [tlbB] }).setCluster 0 { s.cluster 0 with
    tlb := [tlbA, tlbB], faults := [{ fltA with tag := 2 }, fltA], dropped := [2], blockMap := [(1, 0x1000, 3), (2,
    0x1000, 4)] }; s

def sTrH : State :=
  sTr.setPart 1 { sTr.part 1 with hyper := true }

def sTrN : State :=
  sTr.setPart 1 { sTr.part 1 with hyper := false }

def sTrB : State :=
  { sTr with net := { Net.reset with reqs := [(5, rq)] } }.setMe { sTr.me with inv := 9 }

def sTrE : State :=
  sTr.setCluster 0 { sTr.cluster 0 with faults := [], dropped := [] }

def sTrO : State :=
  sTr.setMe { sTr.me with acks := [5] }

def cmdY : Cmd :=
  { sEng.command (.gather 0x1000 (BitVec.allOnes 64)) with
    id := 77, st := .active ⟨[⟨[.phys 0x1000 4], ⟨[], []⟩, [(0, 4, .spad 0 0x200)], 4⟩], [], 0, [], 3, [0x1000]⟩ }

def sTrD : State :=
  let s := sTr.setMe { sTr.me with inv := 9 }; s.setWork 0 ((s.work 0).putQueue .qg [cmdY])

def sTv : State :=
  let s := stateOf { ctxOf [(1, 7), (2, 0x79000), (3, 0x79001), (4, 0x79400)] with loops := [⟨0x1010, 0x1018, 3⟩] };
    s.setWork 0 { s.work 0 with power := 0x3FFF, trapvec := 0x2000, handlers := [(0, ⟨0x3000, 1⟩)] }

def sUnset : State :=
  sTv.setMe { sTv.me with acks := [4] }

def sRpl : State :=
  sTv.setMe { sTv.me with replay := true }

def sNoVec : State :=
  sTv.setWork 0 { sTv.work 0 with trapvec := 0 }

def sTwice : State :=
  (sTv.trap 0x14 0)

def sNoHan : State :=
  sTwice.setWork 0 { sTwice.work 0 with handlers := [] }

def sTvS : State :=
  sTv.setMe { sTv.me with stepArm := true }

def sTvM : State :=
  sTv.setMe { sTv.me with pc := 0x1014 }

def sTs : State :=
  sTv.setMe { sTv.me with sup := true, settling := 0 }

def sTs1 : State :=
  sTs.setMe { sTs.me with settling := 0x79400 }

def entA : RingEntry :=
  { sTv.me.newEntry .aswap 0 with seq := 5, st := .done, finished := true }

def entB : RingEntry :=
  { entA with seq := 6, st := .faulted, cause := 9, more := 0x200, fault := 0x44 }

def sRing : State :=
  sTv.setMe { sTv.me with ring := [entA, entB] }

def sLateT : State :=
  sTv.setMe { sTv.me with trap := some (lateInfo entB 0x1000) }

def sDog : State :=
  (sTv.setMe { sTv.me with watch := 2048 }).setWork 0 { sTv.work 0 with
    wdlimit := 2, cells := [] } |> fun s => s.setMe { sTv.me with watch := 2048 }

def sDog2 : State :=
  sDog.setMe { sDog.me with watchTrap := true }

def sJn : State :=
  { sTv.setMe { sTv.me with st := .waiting (.join 0x6000) } with now := 5000 }

def sOld : State :=
  { sTv with now := 5000 }

def sPk : State :=
  sTv.setMe { sTv.me with st := .parked, parked := .instr, replay := true }

def sEvenO : State :=
  sTwice.setWork 0 { sTwice.work 0 with spad := (sTwice.work 0).spad.putWord 0x79000 0x1011 }

def sRel : State :=
  let s := sTwice.setCtx 0 1 { (sTwice.ctx 0 0) with settling := 0x79000, acks := [5] }; { s with cur := (0, 1) }

def entR : RingEntry :=
  { entA with seq := 7, st := .running }

def sRun7 : State :=
  sTv.setMe { sTv.me with ring := [entR] }

def sDogL : State :=
  sDog.setMe { sDog.me with trap := some (lateInfo entB 0x1000) }

def sPh : State :=
  sTv.setMe { sTv.me with st := .waiting (.phase 0x100 0xFFFF) }

def sOvr : State :=
  sTv.setMe { sTv.me with st := .waiting .over }

def sGath : State :=
  sTv.setMe { sTv.me with st := .blocked (.gathers [77]) }

def sRdW : State :=
  sRnd.setMe { sRnd.me with st := .waiting (.round 9 2) }

def entH : RingEntry :=
  { sTv.me.newEntry (.vmov 3 1 0) 0 with seq := 8, st := .held }

def sHl2 : State :=
  sTv.setMe { sTv.me with ring := [entH], replay := true }

def sRpD : State :=
  sTv.setMe { sTv.me with replay := true }

def sWk : State :=
  let s := withX [(1, 0x3000), (2, 0x3010), (3, 0x3001), (4, 5), (5, 0x40000), (6, 11), (7, 0x1000)];
    { s.setWork 0 { s.work 0 with power := 0x3FFF } with nextId := 50 }

def sWkM : State :=
  withX [(3, 0x3004), (5, 0x3001)]

def deZ : DequeEntry :=
  ⟨0x2010, 0x3010, 5, 6, 2, 1, 3, 0x12345678, Vector.replicate 8 7, []⟩

def sFull64 : State :=
  sWk.setWork 0 { sWk.work 0 with oxbow := 1, deque := List.replicate 64 deZ }

def sWkA : State :=
  sWk.setMe { sWk.me with acks := [3] }

def sWkP : State :=
  { sWk with poison := [0x3010 / 64] }

def sWkL : State :=
  sWk.setWork 0 { sWk.work 0 with requests := List.replicate 32 ⟨.steal 1, 0, []⟩ }

def sWkN : State :=
  sWk.setPart 1 { sWk.part 1 with cores := [] }

def sWkJ : State :=
  { sWk with mem := [(0x3011, 1)] }

def grA : Grid :=
  ⟨⟨0x8000, 0x2010, 4, 2, 1, 3, 0x90000, 77, Vector.replicate 8 9, 0⟩, 0x1001, 0x1002, false⟩

def crA : Crew :=
  ⟨2, grA, 3, [0, 3], [], [1], 1, none⟩

def sBrr : State :=
  let s := sWk.setMe { sWk.me with role := .strand 7 0 }; (s.setCtx 0 3 { ctxOf [] with
    role := .strand 7 1, st := .waiting .barrier }).setWork 0 { (s.setCtx 0 3 { ctxOf [] with
    role := .strand 7 1, st := .waiting .barrier }).work 0 with crews := [(7, crA)] }

def sBrU : State :=
  sBrr.setMe { sBrr.me with acks := [3] }

def sWkH : State :=
  (sWk.translate 0 (!sWk.me.sup) (sWk.x 7) .read).1

def sSt : State :=
  ({ stateOf (ctxOf []) with nextId := 60 } : State)

def sMk : State :=
  sSt.setPart 1 { sSt.part 1 with deltas := [(0, 2)], hyper := false }

def msgLn : Msg :=
  (sSt.message 0 0 2 2 1 (wordBytes 0x8000) [] false false 0)

def sFw : State :=
  sSt.setWork 2 { sSt.work 2 with ejection := [msgLn] }

def sLm : State :=
  sSt.setWork 0 { sSt.work 0 with ejection := [msgLn] }

def sLn : State :=
  { sSt with
    mem := bytesAt [(0x8000, bytesOfNat 8 0x2010 ++ bytesOfNat 8 4 ++ [2, 1, 0, 0, 0, 0, 0,
    0] ++ bytesOfNat 8 0x240000 ++ bytesOfNat 8 77 ++ bytesOfNat 8 0 ++ List.replicate 80 0)] }

def sLnT : State :=
  { sSt with
    mem := bytesAt [(0x8000, bytesOfNat 8 0x2010 ++ bytesOfNat 8 4 ++ [2, 1, 0, 0, 0, 0, 0,
    0] ++ bytesOfNat 8 0 ++ bytesOfNat 8 77 ++ bytesOfNat 8 0 ++ List.replicate 80 0)] }

def sLnL : State :=
  { sSt with
    mem := bytesAt [(0x8000, bytesOfNat 8 0x2010 ++ bytesOfNat 8 4 ++ [0, 1, 0, 0, 0, 0, 0,
    0] ++ bytesOfNat 8 0x240000 ++ bytesOfNat 8 77 ++ bytesOfNat 8 0 ++ List.replicate 80 0)] }

def sLnS : State :=
  sLn.setPart 1 { sLn.part 1 with limit := 0 }

def sLnX : State :=
  sLn.setWork 0 { sLn.work 0 with s1root := 0x200001 }

def sRt : State :=
  sSt.setPart 1 { sSt.part 1 with waiting := some grA.launch, limit := 100 }

def sDs : State :=
  ({ sSt with
    net := { Net.reset with
    descs := [(3, (0, grA))], ends := [(4, (0, 0x1001))], steals := [(5, (2, 0)), (6, (0, 1))] } } : State)

def sEn : State :=
  ({ sSt with
    net := { Net.reset with ends := [(4, (0, 0x1001))] } } : State).setWork 0 { sSt.work 0 with grids := [grA] }

def sAd : State :=
  sSt.setWork 0 { sSt.work 0 with grids := [{ grA with counter := key7 }] } |> fun s => s.setPart 1 { s.part 1 with
    counters := [(key7, ctrA)] }

def sAd2 : State :=
  sAd.setWork 0 { sAd.work 0 with claim := some (.got 2 grA) }

def sCd : State :=
  sAd.setWork 0 { sAd.work 0 with
    crews := [(7, { crA with grid := { grA with done := key7 }, halted := [1, 0] })], retained := [⟨9, 4, 2, 0, false⟩],
    power := 0x3FFF } |> fun s => { s with now := 2 ^ 21 }

def sGc : State :=
  sAd.setPart 1 { sAd.part 1 with
    runs := [⟨grA.launch, key7, counterKey 1 0 8⟩], counters := [(key7, ctrA), (counterKey 1 0 8,
    { ctrA with p := 1 })] }

def deA : DequeEntry :=
  ⟨0x2010, 0x3010, 5, 6, 2, 1, 3, 0x12345678, Vector.replicate 8 7, []⟩

def sFk : State :=
  sSt.setWork 0 { sSt.work 0 with deque := [deA, { deA with x2 := 9 }] }

def sFkB : State :=
  sFk.setWork 0 { sFk.work 0 with deque := [deA, { deA with bad := [1] }] }

def sTh : State :=
  sSt.setWork 0 { sSt.work 0 with grids := [{ grA with exhausted := true }] }

def sSv : State :=
  ({ sFk with net := { Net.reset with steals := [(5, (2, 0))] } } : State)

def sSvO : State :=
  sSv.setWork 0 { sSv.work 0 with deque := [{ deA with domain := 0 }] }

def sSvA : State :=
  sSv.setCore 0 { sSv.core 0 with image := some ⟨1, Work.reset, none, 0, [], 0, false, none⟩, ptag := 2 }

def msgSt : Msg :=
  { sSt.stealMsg 2 0 (some deA) with stamp := 5 }

def msgSe : Msg :=
  { sSt.stealMsg 2 0 none with stamp := 5 }

def sRp : State :=
  sSt.setWork 0 { sSt.work 0 with ejection := [msgSt] }

def msgSb : Msg :=
  { msgSt with bad := [1] }

def sRpB : State :=
  sSt.setWork 0 { sSt.work 0 with ejection := [msgSb] }

def sReS : State :=
  sSt.setWork 0 { sSt.work 0 with ejection := [msgSe], steal := ⟨some 2, true, 0, 7⟩ }

def sRe : State :=
  sSt.setWork 0 { sSt.work 0 with ejection := [msgSe], steal := ⟨some 2, false, 0, 7⟩ }

def sRd : State :=
  sTh.setWork 0 { sTh.work 0 with steal := ⟨none, false, 3000, 0⟩ }

def sJo : State :=
  let s := (List.range 24).foldl (fun (s : State) c => s.setCtx 0 c { ctxOf [] with st := if c == 5 then .waiting (.join 0x6000) else .ready }) { sSt with now := 100 };
    s.setWork 0 { s.work 0 with deque := [deA], oxbow := 1 }

def kJo : Ctx :=
  sJo.ctx 0 5

def sJr : State :=
  sSt.setWork 0 { sSt.work 0 with joinOut := [(5, kJo)] }

def msgM : Msg :=
  (sSt.message 0 0 0 0 5 ((ctxOf [(3, 5)]).migration 0x2010 0) [] false false 0)

def sMi : State :=
  sSt.setWork 0 { sSt.work 0 with ejection := [msgM] }

def sMiB : State :=
  sSt.setWork 0 { sSt.work 0 with ejection := [{ msgM with bad := [1] }] }

def sPs : State :=
  let s := { sSt with now := 9000 }; let s := s.setCtx 0 0 { ctxOf [] with
    role := .strand 7 0, st := .parked, parked := .instr }; let s := s.setCtx 0 3 { ctxOf [] with role := .strand 7 1 };
    s.setWork 0 { s.work 0 with crews := [(7, crA)], oxbow := 1, pswap := 0x101, power := 0x3FFF }

def sId : State :=
  let s := sPs.setCtx 0 0 { ctxOf [] with role := .strand 7 0, st := .waiting (.pennant 5 0) };
    let s := s.setCtx 0 3 { ctxOf [] with role := .strand 7 1, st := .waiting (.pennant 5 0) };
    s.setWork 0 { s.work 0 with grids := [{ grA with launch := { grA.launch with banks := 14 } }] }

def imA : SwapImage :=
  ((((outNext (execCrewSwapOut 0 7 sPs)).work 0).swapped.map fun e => e.2).head?.getD ⟨0, crA, [], [], [], [], 0,
    true⟩)

def sRa : State :=
  sSt.setWork 0 { sSt.work 0 with swapped := [(0, { imA with ready := true })], oxbow := 1 }

def sPsS : State :=
  sPs.setWork 0 { sPs.work 0 with spad := bytesAt [(0x8000, [1, 2, 3]), (0x1FFFF, [9])], poison := [0x8000 / 32] }

def sPsR : State :=
  sPsS.swapOut 0 7 crA

def imS : SwapImage :=
  ((Tab.find (sPsR.work 0).swapped 0).getD imA)

def sPa : State :=
  ({ stateOf { ctxOf [(1, 5)] with pc := 0x2010 } with now := 100, nextId := 70 } : State)

def sStp : State :=
  sPa.setCore 0 { sPa.core 0 with evicting := some .stopping }

def sStv : State :=
  sStp.setPart 1 { sStp.part 1 with evictvec := 0x2000 }

def sRou : State :=
  { (outNext (execEviction 0 sStv)).setCtx 0 0 Ctx.reset with now := 9000 }

def sPb : State :=
  (sPa.setWork 0 { sPa.work 0 with spad := [(0x105, 7), (0x6FFFF, 9)], power := 0x3FFF })

def sRst : State :=
  let u := (sPb.ctxsOut 0 (sPb.core 0).work).imaged 0 (sPb.core 0).work none;
    u.setCore 0 { u.core 0 with image := (u.core 0).image.map fun i => { i with counters := none } }

def imB : Image :=
  ((sRst.core 0).image.getD ⟨1, Work.reset, none, 100, [], 0, false, none⟩)

def sRstM : State :=
  let s := sRst.setPart 1 { sRst.part 1 with hyper := false };
    s.setCore 0 { s.core 0 with image := some { imB with msgs := [(61, msgB), (62, msgR)] } }

def sRen : State :=
  let s := sPa.setDebug 0 { (sPa.core 0).dbg with fenced := true }; { s with net := { s.net with reqs := [(5, rq)] } }

def sFullR : State :=
  let s := sPa.setPart 1 { sPa.part 1 with
    journal := 0x100001, evictvec := 0x80, counters := [(key7, ctrA)], waiting := some grA.launch, resetDue := true,
    hyper := true }; let s := s.setWork 0 { s.work 0 with
    power := 0x3FFF, queues := [(3, [cmdS])], crews := [(7, crA)], grids := [grA], lps := [(2, lpA)], deque := [deA],
    spill := [(0, msgB)], handlers := [(9, ⟨0x2000, 1⟩)], trapvec := 0x2000, tables := [(3, 7)] };
    let s := s.setCore 0 { s.core 0 with
    itlb := [⟨1, 0x1000, 12, 0x1000, 12, 0x1000, true, true, true, true⟩], dtlb := [⟨2, 0x1000, 12, 0x1000, 12, 0x1000,
    true, true, true, true⟩] }; s.setWork 700 { s.work 700 with power := 3 }

def sJou : State :=
  let s := sPa.setPart 1 { sPa.part 1 with replayDue := true, journal := 0x100001, jcount := 2 }; { s with
    mem := bytesAt [(0x100000, bytesOfNat 8 3), (0x100008, bytesOfNat 8 0x8000), (0x100010, bytesOfNat 8 0x9000)] }

def sJbad : State :=
  (sJou.setWork 0 { sJou.work 0 with s1root := 0x200001 })

def sFl : State :=
  sPa.setPart 1 { sPa.part 1 with deltas := [(2, 9)], tencnt := [(2, 5)] }

def wqs : List Waiting :=
  [⟨5, 1, 4⟩, ⟨8, 1, 2⟩, ⟨9, 2, 1⟩]

def sEr : State :=
  sPa.setCluster 0 { sPa.cluster 0 with haltDue := some 0x44, notify := 0x10000, puller := 5 }

def sErN : State :=
  sEr.setPart 1 { sEr.part 1 with cores := [(0, [1, 2])] }

def sHtd : State :=
  (sPa.setMe { sPa.me with xw := [(0, 0x33)] }).setCluster 0 { sPa.cluster 0 with halted := true }

def sFt : State :=
  (stateOf Ctx.reset).setCluster 0 { Cluster.reset with ftest := 8 }

def sFtB : State :=
  sPa.setCluster 0 { Cluster.reset with ftest := 8 }

def sFtA : State :=
  sPa.setCluster 0 { Cluster.reset with ftest := 9 }

def sFtR : State :=
  sFt.setCluster 0 { Cluster.reset with ftest := 1 }

def sMon : State :=
  sPa.setDebug 0 { (sPa.core 0).dbg with mons := [(1, ⟨3, 5, 9, [(2, 4)]⟩)], mcrec := [(0, 3)], due := [⟨1, 200, 2⟩] }

def sAl : State :=
  sPa.setChip 0 { sPa.chip 0 with policy := true, told := true }

def sHl : State :=
  let s := sPa.setDebug 0 { (sPa.core 0).dbg with rlctl := 2 }; { s with
    mem := ((s.mem.putWord (s.logBase 0) (BitVec.ofNat 64 ((s.part 1).sequence 1).1)).putWord (s.logBase 0 + 8) (pack [(52,
    9), (58, 0)])).putWord (s.logBase 0 + 16) 0x1234 }

def sHo : State :=
  sPa.setChip 0 { sPa.chip 0 with ready := true, apertures := [(3, (1, 0x10000))], doorbells := [(1, 5)] }

def sHoT : State :=
  { sHo with now := Config.freeArrival 5, net := { sHo.net with reqs := [(5, { rq with pa := 0x10008 })] } }

def sPf : State :=
  { sPa with
    net := { Net.reset with
    reqs := [(5, { rq with pa := 163840000000000 })], nreds := [(6, { conA with root := 2600 })], replies := [(7, ⟨rq,
    [0, 0, 0, 0], true, false⟩)] } }

def sFm : State :=
  outNext (execPartitionForm 2 true [0, 1, 2561] 100 50 State.reset)

def sRq : State :=
  sPa.setChip 0 { sPa.chip 0 with replace := true, told := false }

def sFmB : State :=
  sFm.setWork 1 { sFm.work 1 with power := 1, ejection := [msgB] }

def sEra : State :=
  sRq.setChip 0 { sRq.chip 0 with erased := true, firmware := none }

def sRes : State :=
  let s := sRq.setDebug 5 { (sRq.core 5).dbg with fenced := true }; let s := s.setPart 1 { s.part 1 with
    discards := 3, cores := [(0, [1]), (1, [2])] }; let s := s.setCore 2562 { s.core 2562 with ptag := 1 };
    s.setChip 0 { s.chip 0 with firmware := some [7, 8] }

def fnd : Bringup :=
  ⟨false, [], [], [(3, 1, 0x10000)], true⟩

theorem test_StepRuns :
    (sRunA.schedule = [.issue 0 0] ∧ ({ sRunA.tick with schedule := [] } : State).canIssue 0 0 = true ∧
      (let u : State := { sRunA.tick with schedule := [] }; let v : State := { u with cur := (0, 0) };
      let w := (v.fetchFor 0 0).1;
      w.picks 0 0 && match (v.fetchFor 0 0).2 with | some bs => (match issueCheck bs w.me.pc w.me.arrived.isSome with | .ok j => j == (.add 1 2 3) | .error _ => false) && w.watchHit w.cur.1 w.cur.2 w.me.pc.toNat 2 1 == none && w.me.holds (.add 1 2 3) == none | none => false) = true)
  ∧ (sRunB.schedule = [.issue 0 0] ∧ ({ sRunB.tick with schedule := [] } : State).canIssue 0 0 = true ∧
      (let u : State := { sRunB.tick with schedule := [] }; let v : State := { u with cur := (0, 0) };
      let w := (v.fetchFor 0 0).1;
      w.picks 0 0 && match (v.fetchFor 0 0).2 with | some bs => (match issueCheck bs w.me.pc w.me.arrived.isSome with | .ok j => j == .eret | .error _ => false) && Instr.supervisorOnly .eret && !w.me.sup | none => false) = true)
  ∧ (headerOk lineA = true ∧ (startBits lineA).testBit 0 = true ∧ (decodeBytes (lineA.drop 16)).toOption.isSome = true)
  ∧ (kHold.holds (.vadd 4 5 6 0 0) = none ∧ vSlot (.vadd 4 5 6 0 0) = true)
  ∧ ((match (sOwe.ctx 0 0).lineHeld with | some bs => (match issueCheck bs (sOwe.ctx 0 0).pc (sOwe.ctx 0 0).arrived.isSome with | .ok i => i == .add 1 2 3 | .error _ => false) | none => false) = true ∧
      (sOwe.ctx 0 0).st = .ready ∧ sOwe.watchHit 0 0 (sOwe.ctx 0 0).pc.toNat 2 1 = none ∧
      (sOwe.ctx 0 0).holds (.add 1 2 3) = some (.waiting (.load [2]))) := by
  refine ⟨?_, ?_, ?_, ?_, ?_⟩ <;> decide +kernel

theorem test_StepInv :
    sRunA.mem.wf = true ∧ (match step sRunA with | .next _ => true | _ => false) = true := by
  decide +kernel

theorem test_NeverStops :
    (sOff.chip (chipOf 5)).off = true := by
  decide +kernel

theorem test_DivisionNeverTraps :
    sDiv.x 2 = 0
  ∧ (sDiv.x 3 = 0x8000000000000000 ∧ sDiv.x 4 = 0xFFFFFFFFFFFFFFFF)
  ∧ (sDiv.x 4 ≠ 0 ∧ (¬ (sDiv.x 1 = 0x8000000000000000 ∧ sDiv.x 4 = 0xFFFFFFFFFFFFFFFF))) := by
  refine ⟨?_, ?_, ?_⟩ <;> decide +kernel

theorem test_ScalarFrame :
    sDiv.me.stepArm = false := by
  decide +kernel

theorem test_ScalarImmediate :
    (52 : BitVec 6).toNat + ((11 : BitVec 6).toNat + 1) ≤ 64 := by
  decide +kernel

theorem test_BranchFrame :
    sDiv.me.stepArm = false ∧ (∀ l ∈ sDiv.me.loops, l.stop ≠ 0x1020) := by
  decide +kernel

theorem test_SequentialFlow :
    ((0x107E : Word).toNat % 2 = 0 ∧ 16 ≤ (0x107E : Word).toNat % 128 ∧ (0x107E : Word).toNat % 128 + 2 * 1 = 128)
  ∧ (16 ≤ (0x1010 : Word).toNat % 128 ∧ (0x1010 : Word).toNat % 128 + 2 * 4 < 128) := by
  refine ⟨?_, ?_⟩ <;> decide +kernel

theorem test_LoopStart :
    sLoop.x 2 = 0
  ∧ (sLoop4.x 1 ≠ 0 ∧ sLoop4.me.loops.length = 4)
  ∧ (sLoop.x 1 ≠ 0 ∧ sLoop.me.loops.length ≠ 4 ∧ sLoop.me.loops = ⟨0x1010, 0x1018, 2⟩ :: [⟨0x1010, 0x1018, 1⟩, ⟨0x1000,
      0x1100, 3⟩] ∧ (0x1010 : Word) ≤ sLoop.me.pc ∧ sLoop.me.pc < 0x1018 ∧
      (0x1018 : Word) < sLoop.me.pc + BitVec.ofNat 64 (2 * (5 : BitVec 12).toNat))
  ∧ (sDiv.x 1 ≠ 0 ∧ sDiv.me.loops = []) := by
  refine ⟨?_, ?_, ?_, ?_⟩ <;> decide +kernel

theorem test_LoopEnd :
    (sLoop.me.stepArm = false ∧ (0x1018 : Word) = 0x1018 ∧ ((0x1010 : Word) ≤ sLoop.me.pc ∧ sLoop.me.pc < 0x1018) ∧
      (2 : Word) ≠ 1)
  ∧ (sLoop1.me.stepArm = false ∧ sLoop1.me.loops = ⟨0x1010, 0x1018, 1⟩ :: [⟨0x1008, 0x1018, 3⟩] ∧
      ((0x1008 : Word) ≤ sLoop1.me.pc ∧ sLoop1.me.pc < 0x1018) ∧ (3 : Word) ≠ 1)
  ∧ ((0x1018 : Word) ≠ 0x1020 ∧ sLoop2.me.loops = ⟨0x1010, 0x1018, 1⟩ :: [⟨0x1008, 0x1020, 3⟩])
  ∧ (sLoop3.me.stepArm = false ∧ sLoop3.me.loops = ⟨0x1010, 0x1018, 1⟩ :: [⟨0x1008, 0x1018, 1⟩, ⟨0x1000, 0x1020, 5⟩] ∧
      ((0x1010 : Word) ≤ sLoop3.me.pc ∧ sLoop3.me.pc < 0x1018))
  ∧ (sDiv.me.stepArm = false ∧ sDiv.me.loops = [])
  ∧ (sLoopO.me.stepArm = false ∧ (¬ ((0x1010 : Word) ≤ sLoopO.me.pc ∧ sLoopO.me.pc < 0x1018)))
  ∧ (0x1014 : Word) ≠ 0x1018 := by
  refine ⟨?_, ?_, ?_, ?_, ?_, ?_, ?_⟩ <;> decide +kernel

theorem test_ControlRegisterRead :
    (sSup.me.sup = true ∧ sSup.me.vectorsDone = true ∧ ((0x200 : BitVec 12), (sSup.work 0).trapvec, false,
      false) ∈ [((0x200 : BitVec 12), (sSup.work sSup.cur.1).trapvec, false, false)])
  ∧ (sStrand.me.role = .strand 7 3 ∧ (Tab.find (sStrand.work 0).crews 7).isSome = true)
  ∧ sSup.me.role = .migrated := by
  refine ⟨?_, ?_, ?_⟩ <;> decide +kernel

theorem test_ControlRegisterWrite :
    (sSup.speculative sSup.cur.1 sSup.cur.2 = false ∧ sSup.me.sup = true ∧ sSup.me.vectorsDone = true ∧
      field (sSup.x 2) 0 3 < 5 ∧ field (sSup.x 2) 0 32 ≠ 0 ∧ (sSup.x 1).toNat % 16 = 0 ∧ (sSup.x 6).toNat % 128 = 0 ∧
      field (sSup.x 1) 0 5 ≤ 16)
  ∧ (5 ≤ field (sSup.x 4) 0 3 ∧ field (sSup.x 5) 0 4 ≠ 0 ∧ 16 < field (sSup.x 5) 0 5 ∧ (sSup.x 1).toNat % 128 ≠ 0)
  ∧ (sDiv.speculative 0 0 = false ∧ sDiv.me.sup = false ∧ sDiv.me.vectorsDone = true ∧ field (sDiv.x 3) 0 3 < 5 ∧
      field (sDiv.x 1) 0 32 ≠ 0 ∧ (sDiv.x 3).toNat % 16 = 0)
  ∧ (sDiv.me.sup = false ∧ field (sDiv.x 2) 0 32 = 0 ∧ sDiv.speculative 0 0 = false) := by
  refine ⟨?_, ?_, ?_, ?_⟩ <;> decide +kernel

theorem test_LocalLoadStore :
    (Plain sLoc ∧ LocalAt sLoc (sLoc.x 1 + (0 : BitVec 13).signExtend 64) (2 ^ (3 : BitVec 2).toNat) false 0 0x100 ∧
      (sLoc.work 0).poisonedAt 0x100 8 = false)
  ∧ LocalAt sLoc (sLoc.x 1 + BitVec.ofNat 64 (8 * (2 : BitVec 4).toNat)) 8 false 0 0x110
  ∧ LocalAt sLoc (sLoc.x 1 + (0x10 : BitVec 13).signExtend 64) 2 true 0 0x110
  ∧ ((sLoc.x 4 + (0 : BitVec 13).signExtend 64).toNat % 2 ^ (1 : BitVec 2).toNat ≠ 0 ∧
      sLoc.localTarget sLoc.cur.1 (sLoc.x 4 + (0 : BitVec 13).signExtend 64) = some (0, 0x101) ∧
      regionOk sLoc.me.sup (sLoc.work 0).power 0x101 false = true)
  ∧ ((sLoc.x 7 + (0 : BitVec 13).signExtend 64).toNat % 2 ^ (3 : BitVec 2).toNat = 0 ∧
      sLoc.localTarget sLoc.cur.1 (sLoc.x 7 + (0 : BitVec 13).signExtend 64) = none)
  ∧ ((sLoc.x 7 + (1 : BitVec 13).signExtend 64).toNat % 2 ^ (3 : BitVec 2).toNat ≠ 0 ∧
      sLoc.localTarget sLoc.cur.1 (sLoc.x 7 + (1 : BitVec 13).signExtend 64) = none)
  ∧ (LocalOk sLocW (sLocW.x 1 + (0 : BitVec 13).signExtend 64) 8 false 0 0x100 ∧
      LocalOk sLocW (sLocW.x 1 + (0 : BitVec 13).signExtend 64) 8 true 0 0x100 ∧
      sLocW.clashes sLocW.cur.1 sLocW.cur.2 [(0, 0x100, 8)] = true)
  ∧ (LocalAt sLocP (sLocP.x 1 + (0 : BitVec 13).signExtend 64) 8 false 0 0x100 ∧
      (sLocP.work 0).poisonedAt 0x100 8 = true)
  ∧ (sLocD.watchHit sLocD.cur.1 sLocD.cur.2 (sLocD.x 1 + (0 : BitVec 13).signExtend 64).toNat 8 2 = some 0 ∧
      sLocD.localTarget 0 (sLocD.x 1 + (0 : BitVec 13).signExtend 64) = some (0, 0x100)) := by
  unfold Plain LocalAt LocalOk
  refine ⟨?_, ?_, ?_, ?_, ?_, ?_, ?_, ?_, ?_⟩ <;> decide +kernel

theorem test_LocalStoreFrame :
    Plain sLoc ∧ ((List.range 16).all fun g => (sLoc.work g).spad.wf) = true ∧ sLoc.me.stepArm = false ∧
      LocalAt sLoc (sLoc.x 1 + (0 : BitVec 13).signExtend 64) 8 true 0 0x100 := by
  unfold Plain LocalAt LocalOk
  decide +kernel

theorem test_VectorLocalLoad :
    Plain sVec ∧ sVec.me.stepArm = false ∧ (3 : BitVec 5).toNat < 22 ∧ sVec.me.pred 1 = 5 ∧
      LocalAt sVec (linearAddr 17 sVec.me sVec.me.x 0) 4 false 0 0x100 ∧
      LocalAt sVec (linearAddr 17 sVec.me sVec.me.x 2) 4 false 0 0x108 ∧
      LocalAt sVec (indexedAddr 17 1 sVec.me sVec.me.x 2) 4 false 0 0x110 ∧ (sVec.work 0).poisonedAt 0x100 4 = false := by
  unfold Plain LocalAt LocalOk
  decide +kernel

theorem test_VectorLocalStore :
    Plain sVec ∧ ((List.range 16).all fun g => (sVec.work g).spad.wf) = true ∧
      LocalAt sVec (linearAddr 17 sVec.me sVec.me.x 0) 4 true 0 0x100 ∧
      LocalAt sVec (indexedAddr 17 1 sVec.me sVec.me.x 2) 4 true 0 0x110 := by
  unfold Plain LocalAt LocalOk
  decide +kernel

theorem test_BarrierObjects :
    (Plain sBar ∧ BarAt sBar (sBar.x 1) true 0x100 ∧ ((sBar.x 3).setWidth 16 : BitVec 16) ≠ 0 ∧
      (sBar.x 3).toNat < 2 ^ 17)
  ∧ ((sBar.x 2).toNat < 2 ^ 31 ∧ (readBar (sBar.work 0).spad 0x100).tx + (sBar.x 2).toNat < 2 ^ 31)
  ∧ ((sBar.x 4).toNat < 2 ^ 31 ∧ 2 ^ 31 ≤ (readBar (sBar.work 0).spad 0x100).tx + (sBar.x 4).toNat)
  ∧ ((readBar (sBar.work 0).spad 0x100).pending ≠ 0 ∧ sBar.me.drained = true)
  ∧ ((readBar (sBarOwed.work 0).spad 0x100).pending ≠ 0 ∧ sBarOwed.me.drained = false ∧
      BarAt sBarOwed (sBarOwed.x 1) true 0x100)
  ∧ ((readBar (sBar0.work 0).spad 0x100).pending = 0 ∧ BarAt sBar0 (sBar0.x 1) true 0x100)
  ∧ (BarAt sBar (sBar.x 1) false 0x100 ∧ (sBar.x 6).toNat < 2 ^ 16 ∧
      (readBar (sBar.work 0).spad 0x100).phaseDone ((sBar.x 6).setWidth 16) = true)
  ∧ (readBar (sBar.work 0).spad 0x100).phaseDone ((sBar.x 5).setWidth 16) = false
  ∧ (Plain sBarP ∧ BarAt sBarP (sBarP.x 1) true 0x100 ∧ BarAt sBarP (sBarP.x 1) false 0x100 ∧
      (¬ ((sBarP.work 0).poisonedAt 0x100 16 = false)) ∧ (sBarP.x 2).toNat < 2 ^ 16)
  ∧ (sBar.work 0).poisonedAt 0x100 16 = false
  ∧ (((⟨0, 2, 0, false, false, 0⟩ : BarObj).pending = 0 ∧ (⟨0, 2, 0, false, false, 0⟩ : BarObj).tx = 0))
  ∧ (0 < (⟨0, 2, 0, false, false, 3⟩ : BarObj).tx ∧ (⟨0, 2, 0, false, false, 3⟩ : BarObj).tx < (5 : Nat))
  ∧ ((¬ ((⟨0, 2, 0, false, false, 9⟩ : BarObj).pending = 0 ∧ 0 < (⟨0, 2, 0, false, false, 9⟩ : BarObj).tx ∧ (⟨0, 2, 0,
      false, false, 9⟩ : BarObj).tx < (5 : Nat))) ∧ (¬ ((⟨0, 2, 0, false, false, 9⟩ : BarObj).pending = 0 ∧ (⟨0, 2, 0,
      false, false, 9⟩ : BarObj).tx = (5 : Nat))) ∧ -(2 ^ 31) ≤ (⟨0, 2, 0, false, false, 9⟩ : BarObj).tx - (5 : Nat)) := by
  unfold Plain BarAt
  refine ⟨?_, ?_, ?_, ?_, ?_, ?_, ?_, ?_, ?_, ?_, ?_, ?_, ?_⟩ <;> decide +kernel

theorem test_GlobalRequests :
    (Plain ((sGlo.globalAccess 0 0 (sGlo.x 1 + (0 : BitVec 13).signExtend 64) .read 8 true false).1) ∧
      GlobalAt sGlo (sGlo.x 1 + (0 : BitVec 13).signExtend 64) .read (2 ^ (3 : BitVec 2).toNat) false (sGlo.globalAccess 0 0 (sGlo.x 1 + (0 : BitVec 13).signExtend 64) .read (2 ^ (3 : BitVec 2).toNat) true false).1 0x1000 ∧
      sGlo.requestRoom sGlo.cur.1 = true)
  ∧ (Plain sGlo ∧
      GlobalAt sGlo (sGlo.x 1 + (0 : BitVec 13).signExtend 64) .write (2 ^ (3 : BitVec 2).toNat) false (sGlo.globalAccess 0 0 (sGlo.x 1 + (0 : BitVec 13).signExtend 64) .write (2 ^ (3 : BitVec 2).toNat) true false).1 0x1000 ∧
      sGlo.requestRoom sGlo.cur.1 = true)
  ∧ (Plain sFull ∧
      GlobalAt sFull (sFull.x 1 + (0 : BitVec 13).signExtend 64) .read (2 ^ (3 : BitVec 2).toNat) false (sFull.globalAccess 0 0 (sFull.x 1 + (0 : BitVec 13).signExtend 64) .read (2 ^ (3 : BitVec 2).toNat) true false).1 0x1000 ∧
      GlobalAt sFull (sFull.x 1 + (0 : BitVec 13).signExtend 64) .write (2 ^ (3 : BitVec 2).toNat) false (sFull.globalAccess 0 0 (sFull.x 1 + (0 : BitVec 13).signExtend 64) .write (2 ^ (3 : BitVec 2).toNat) true false).1 0x1000 ∧
      (¬ sFull.requestRoom sFull.cur.1 = true))
  ∧ (Plain sGlo ∧ (sGlo.x 4 + (0 : BitVec 13).signExtend 64).toNat % 2 ^ (1 : BitVec 2).toNat ≠ 0 ∧
      GlobalStops sGlo (sGlo.x 4 + (0 : BitVec 13).signExtend 64) .read (2 ^ (1 : BitVec 2).toNat) false (sGlo.globalAccess 0 0 (sGlo.x 4 + (0 : BitVec 13).signExtend 64) .read (2 ^ (1 : BitVec 2).toNat) true false).1 (.fail [0x06] none (sGlo.x 4 + (0 : BitVec 13).signExtend 64)) ∧
      GlobalStops sGlo (sGlo.x 4 + (0 : BitVec 13).signExtend 64) .write (2 ^ (1 : BitVec 2).toNat) false (sGlo.globalAccess 0 0 (sGlo.x 4 + (0 : BitVec 13).signExtend 64) .write (2 ^ (1 : BitVec 2).toNat) true false).1 (.fail [0x06] none (sGlo.x 4 + (0 : BitVec 13).signExtend 64)))
  ∧ (sGlo.speculative sGlo.cur.1 sGlo.cur.2 = false ∧
      GlobalAt sGlo (sGlo.x 1) .amo (amoBytes 3) false (sGlo.globalAccess 0 0 (sGlo.x 1) .amo (amoBytes 3) true false).1 0x1000 ∧
      GlobalAt sGlo (sGlo.x 1) .amo 4 true (sGlo.globalAccess 0 0 (sGlo.x 1) .amo 4 true true).1 0x1000 ∧
      sGlo.requestRoom sGlo.cur.1 = true)
  ∧ GlobalAt sGlo (sGlo.x 1) .amo (amoBytes 0) false (sGlo.globalAccess 0 0 (sGlo.x 1) .amo (amoBytes 0) true false).1 0x1000
  ∧ GlobalAt sFull (sFull.x 1) .amo (amoBytes 3) false (sFull.globalAccess 0 0 (sFull.x 1) .amo (amoBytes 3) true false).1 0x1000
  ∧ ((sGlo.x 4).toNat % amoBytes 3 ≠ 0 ∧
      GlobalStops sGlo (sGlo.x 4) .amo (amoBytes 3) false (sGlo.globalAccess 0 0 (sGlo.x 4) .amo (amoBytes 3) true false).1 (.fail [0x06] none (sGlo.x 4))) := by
  unfold Plain GlobalAt GlobalStops
  refine ⟨?_, ?_, ?_, ?_, ?_, ?_, ?_, ?_⟩ <;> decide +kernel

theorem test_GlobalIssueFrame :
    sGlo.me.stepArm = false ∧ sGlo.requestRoom sGlo.cur.1 = true ∧ Plain sGlo ∧
      sGlo.speculative sGlo.cur.1 sGlo.cur.2 = false ∧
      GlobalAt sGlo (sGlo.x 1 + (0 : BitVec 13).signExtend 64) .read (2 ^ (3 : BitVec 2).toNat) false (sGlo.globalAccess 0 0 (sGlo.x 1 + (0 : BitVec 13).signExtend 64) .read (2 ^ (3 : BitVec 2).toNat) true false).1 0x1000 ∧
      GlobalAt sGlo (sGlo.x 1 + (0 : BitVec 13).signExtend 64) .write (2 ^ (3 : BitVec 2).toNat) false (sGlo.globalAccess 0 0 (sGlo.x 1 + (0 : BitVec 13).signExtend 64) .write (2 ^ (3 : BitVec 2).toNat) true false).1 0x1000 ∧
      GlobalAt sGlo (sGlo.x 1) .amo (amoBytes 3) false (sGlo.globalAccess 0 0 (sGlo.x 1) .amo (amoBytes 3) true false).1 0x1000 ∧
      GlobalAt sGlo (sGlo.x 1) .amo 4 true (sGlo.globalAccess 0 0 (sGlo.x 1) .amo 4 true true).1 0x1000 := by
  unfold Plain GlobalAt
  decide +kernel

theorem test_HomeAccess :
    (Tab.find sHome5.net.reqs 5 = some rq ∧ sHome5.firstToHome 5 rq = true ∧ sHome5.mem.wf = true ∧
      homeOf 0x1000 = .vault 0 0x1000 ∧ sHome5.poison = [] ∧ sHome5.itsTurn 5 rq = true)
  ∧ (Tab.find sHome6.net.reqs 6 = some { rq with id := 6, c := 1, op := .store [1, 2] } ∧
      sHome6.firstToHome 6 { rq with id := 6, c := 1, op := .store [1, 2] } = true ∧ sHome6.mem.wf = true ∧
      homeOf 0x1000 = .vault 0 0x1000 ∧ sHome6.poison = [] ∧ sHome6.itsTurn 6 { rq with
      id := 6, c := 1, op := .store [1, 2] } = true)
  ∧ (Tab.find sHome7.net.reqs 7 = some { rq with id := 7, c := 2, op := .amo 0 4 5 0 } ∧
      sHome7.firstToHome 7 { rq with id := 7, c := 2, op := .amo 0 4 5 0 } = true ∧ sHome7.mem.wf = true ∧
      homeOf 0x1000 = .vault 0 0x1000 ∧ sHome7.poison = [] ∧ sHome7.itsTurn 7 { rq with
      id := 7, c := 2, op := .amo 0 4 5 0 } = true)
  ∧ (Tab.find sAway.net.reqs 5 = some { rq with pa := 0x7F00001000 } ∧
      sAway.firstToHome 5 { rq with pa := 0x7F00001000 } = true ∧ sAway.mem.wf = true ∧
      (sAway.homeAway 0 0x7F00001000 || sAway.homeBusy 0x7F00001000) = true)
  ∧ (Tab.find sAlien.net.reqs 5 = some rqW ∧ sAlien.firstToHome 5 rqW = true ∧
      (sAlien.homeAway rqW.g rqW.pa || sAlien.homeBusy rqW.pa) = false ∧ sAlien.itsTurn 5 rqW = true ∧
      sAlien.reaches (sAlien.tag rqW.g) rqW.pa = false)
  ∧ ((sTurn.homeAway 0 0x1000 || sTurn.homeBusy 0x1000) = false ∧ Tab.find sTurn.net.reqs 8 = some { rq with
      id := 8, c := 2 })
  ∧ (Tab.find sHoff.net.reqs 5 = some rq ∧ sHoff.firstToHome 5 rq = true ∧ sHoff.mem.wf = true ∧
      sHoff.homeOff 0x1000 = true ∧ sHome5.homeOff 0x1000 = false)
  ∧ (0x80 < 2 ^ (8 * 1) ∧ 1 < 2 ^ (8 * 1)) := by
  refine ⟨?_, ?_, ?_, ?_, ?_, ?_, ?_, ?_⟩ <;> decide +kernel

theorem test_RepliesAndAcknowledgements :
    (Tab.find sRep.net.replies 5 = some ans ∧ Unlogged sRep ans.req.g ∧ ans.req.op = .load 4 true ∧
      ans.req.dest = some 5 ∧ ans.req.late = [] ∧ (sRep.ctx 0 0).owed.contains (ans.req.id, 5) = true ∧ ans.ok = true ∧
      ans.poison = false)
  ∧ (Tab.find sRep.net.replies 12 = some { ans with req := { rq with id := 12 }, poison := true } ∧
      (sRep.ctx 0 0).owed.contains (12, 5) = false ∧ (sRep.ctx 0 0).amos.contains 12 = true)
  ∧ (Tab.find sRep.net.replies 10 = some { ans with req := { rq with id := 10, c := 3 } } ∧ ({ rq with
      id := 10, c := 3 } : MemReq).isStore = false ∧ (sRep.ctx 0 3).awaits { rq with id := 10, c := 3 } = false)
  ∧ (rq.isStore = false ∧ (sRep.ctx 0 0).awaits rq = true ∧ ({ ans with ok := false } : MemReply).ok = false)
  ∧ (({ ans with poison := true } : MemReply).poison = true ∧ (sRep.ctx 0 0).amos.contains 5 = false)
  ∧ (({ rq with id := 8, op := .store [1] } : MemReq).isStore = true ∧ (sRep.ctx 0 0).acks.contains 8 = true)
  ∧ (sRep.ctx 0 0).acks.contains 9 = true
  ∧ (sRep.ctx 0 0).acks.contains 11 = false
  ∧ (Tab.find sRep2.net.replies 13 = some ansA ∧ Unlogged sRep2 ansA.req.g ∧ (sRep2.ctx 0 0).owed.contains (13,
      5) = true ∧ ansA.ok = true ∧ ansA.poison = false)
  ∧ (Tab.find sRep2.net.replies 14 = some ansB ∧ (sRep2.ctx 0 0).owed.contains (14, 8) = true ∧
      (sRep2.ctx 0 0).owed.contains (14, 8 + 1) = true)
  ∧ (Tab.find sRep2.net.replies 15 = some ansV ∧
      ((sRep2.ctx 0 0).ring.find? fun x => x.seq == ansV.req.seq && x.pieces.contains 15) = some eVl ∧
      loadDest eVl.instr < 22 ∧ (([(0x1000, 2), (0x1004, 5)] : List (Nat × Nat)).map fun q => q.2).Nodup ∧
      (∀ q ∈ ([(0x1000, 2), (0x1004, 5)] : List (Nat × Nat)), q.2 < 64) ∧ (sRep2.ctx 0 0).amos.contains 15 = false)
  ∧ (sGlo.me.acks = [] ∧ sGlo.me.drained = true ∧ sGlo.me.loadsDone = true)
  ∧ (sRep.me.acks ≠ [] ∧ (3 : BitVec 2).getLsbD 1 = true ∧ sRep.me.drained = false ∧ (1 : BitVec 2).getLsbD 1 = false ∧
      (1 : BitVec 2).getLsbD 0 = true ∧ sRep.me.loadsDone = false) := by
  unfold Unlogged
  refine ⟨?_, ?_, ?_, ?_, ?_, ?_, ?_, ?_, ?_, ?_, ?_, ?_, ?_⟩ <;> decide +kernel

theorem test_VectorGlobal :
    (Plain sVg ∧ NextFree sVg ∧ sVg.requestRoom 0 = true ∧ sVg.me.stepArm = false ∧
      ((sVg.setMe (sVg.me.push (sVg.me.newEntry (.vldg 3 17 1) 0))).lanesGlobal 0 0 .read (linearAddr 17 sVg.me sVg.me.x) (fun _ => true) (activeLanes (sVg.me.pred 1))).2.2 = [])
  ∧ (sFull.requestRoom 0 = false ∧ Plain sFull)
  ∧ sVg.me.pred 2 = 0 := by
  unfold Plain NextFree
  refine ⟨?_, ?_, ?_⟩ <;> decide +kernel

theorem test_VectorInteger :
    sV.me.stepArm = false ∧ (4 : BitVec 5).toNat < 22 := by
  decide +kernel

theorem test_VectorMoves :
    sV.me.stepArm = false ∧ (21 : BitVec 5).toNat < 22 := by
  decide +kernel

theorem test_VectorFloat :
    (sV.me.stepArm = false ∧ (4 : BitVec 5).toNat < 22)
  ∧ NextFree sV := by
  unfold NextFree
  refine ⟨?_, ?_⟩ <;> decide +kernel

theorem test_VectorCompare :
    (sV.me.stepArm = false ∧ ((7 : BitVec 5).setWidth 3 : BitVec 3) ≠ 0)
  ∧ (fmtIsInt 7 = true ∧ (7 : BitVec 3) ≠ 0 ∧ (1 : BitVec 3) ≠ 7) := by
  refine ⟨?_, ?_⟩ <;> decide +kernel

theorem test_VectorReduceConvert :
    (sV.me.stepArm = false ∧ (21 : BitVec 5).toNat < 22 ∧ (0 : BitVec 3) = 0 ∧ (1 : BitVec 3) = 1 ∧
      (((List.range 32).filter fun j => (sV.me.pred 1).getLsbD (2 * j)).all fun j => decide ((lane (srcLanes sV.me sV.me.x 4 5) (2 * j)).toNat < 2 ^ 24)) = true)
  ∧ ((0 : Nat) ∈ (List.range 32).filter fun j => (sV.me.pred 1).getLsbD (2 * j) ∧
      2 ^ 24 ≤ (lane (srcLanes sV.me sV.me.x 3 5) 0).toNat)
  ∧ NextFree sV
  ∧ (0x80 < 2 ^ fmtWidth 7 ∧ fmtIsInt 7 = true ∧ fmtIsInt 6 = true)
  ∧ (fmtIsInt 0 = false ∧ isNaN 0 0x7F800001 = true ∧ 0x7F800001 < 2 ^ fmtWidth 0)
  ∧ (isNaN 0 0x3F000000 = false ∧ (match value 0 0x3F000000 with | .num false _ _ => true | _ => false) = true)
  ∧ (ropePairs (Vector.replicate 64 0x3F800000) VReg.zero [] ⟨0, 1⟩).1 = [] := by
  unfold NextFree
  refine ⟨?_, ?_, ?_, ?_, ?_, ?_, ?_⟩ <;> decide +kernel

theorem test_Narrowing :
    (sV.me.stepArm = false ∧ (4 : BitVec 5).toNat < 22 ∧ sV.speculative sV.cur.1 sV.cur.2 = false ∧ NextFree sV ∧
      (narrowLanes 2 (srcLanes sV.me sV.me.x 2 0) (srcLanes sV.me sV.me.x 1 0) (activeLanes (sV.me.pred 1))).2.1.map (outlierRecord sV.me.x[0] (srcLanes sV.me sV.me.x 2 0)) = [])
  ∧ (sNv.me.stepArm = false ∧
      (narrowLanes 2 (srcLanes sNv.me sNv.me.x 2 0) (srcLanes sNv.me sNv.me.x 1 0) (activeLanes (sNv.me.pred 1))).2.1.map (outlierRecord sNv.me.x[0] (srcLanes sNv.me sNv.me.x 2 0)) ≠ [])
  ∧ (sNvW.recordWatched 0 0 1 = some (0, 0x200) ∧ NextFree sNvW)
  ∧ ((sNar.ctx 0 0).ring.find? (fun x => x.seq == eNar.seq) = some eNar ∧ eNar.st = .running ∧
      eNar.records = rNar :: [rNar] ∧ sNar.works 0 = true ∧ eNar.instr = .vcvtn 4 2 1 1 2 ∧
      field ((sNar.work 0).olcnt.setWidth 64) 0 16 < field ((sNar.work 0).olcnt.setWidth 64) 16 16 ∧
      (sNar.storeRecord 0 sNar.me.sup 1 rNar).isOk = true)
  ∧ (field ((sNar2.work 0).olcnt.setWidth 64) 16 16 ≤ field ((sNar2.work 0).olcnt.setWidth 64) 0 16 ∧
      (sNar2.ctx 0 0).ring.find? (fun x => x.seq == eNar.seq) = some eNar ∧ sNar2.works 0 = true)
  ∧ ((sNar3.storeRecord 0 sNar3.me.sup 1 rNar).isOk = false ∧
      (sNar3.ctx 0 0).ring.find? (fun x => x.seq == eNar.seq) = some eNar ∧ sNar3.works 0 = true)
  ∧ ((sNac.ctx 0 0).ring.find? (fun x => x.seq == eNac.seq) = some eNac ∧ eNac.pieces = [] ∧
      eNac.records = rNar :: [] ∧ eNac.st = .running ∧ sNac.works 0 = true ∧
      sNac.counter 1 (counterKey 1 0 (9 : BitVec 12).toNat) = some qNac ∧ qNac.exhausted = false)
  ∧ (sNad.counter 1 (counterKey 1 0 (10 : BitVec 12).toNat) = some { qNac with exhausted := true } ∧
      sNae.counter 1 (counterKey 1 0 (11 : BitVec 12).toNat) = none) := by
  unfold NextFree
  refine ⟨?_, ?_, ?_, ?_, ?_, ?_, ?_, ?_⟩ <;> decide +kernel

theorem test_Messages :
    (Plain sMsg ∧ sMsg.speculative sMsg.cur.1 sMsg.cur.2 = false ∧ ((9 : BitVec 6) ≠ 4 ∧ (9 : BitVec 6) ≠ 6 ∧
      (channelPrivileged 9 = true → sMsg.me.sup = true)) ∧ sMsg.checkDest 0 (sMsg.x 1) = some 1 ∧
      sMsg.requestRoom 0 = true ∧ (sMsg.message 0 0 1 (sMsg.x 1) 9 [] [] false false 0).replyChannel = 0)
  ∧ (sMsg.checkDest 0 (sMsg.x 2) = some 1 ∧ (sMsg.message 0 0 1 (sMsg.x 2) 9 [] [] false false 0).replyChannel ≠ 0 ∧
      (sMsg.work 0).freeCell = some 0)
  ∧ (sCells.checkDest 0 (sCells.x 2) = some 1 ∧ (sCells.work 0).freeCell = none ∧ sCells.requestRoom 0 = false)
  ∧ ((1 : BitVec 12).toNat ≤ 2016 ∧
      (match sMsg.payloadAccess (sMsg.x 3) 1 0 with | .ok ps => ps == [(0, 0x100)] | _ => false) = true ∧
      sMsg.watchHit 0 0 (sMsg.x 3).toNat 1 2 = none)
  ∧ sMsg.checkDest 0 (sMsg.x 7) = none
  ∧ (sCur.me.cur = some ⟨msgA, some 2, false, none⟩ ∧ msgA.replyChannel ≠ 0 ∧ sCur.replyRoom 0 = true ∧
      (sCur.x 4).toNat < 4)
  ∧ (sMsg.me.cur = none ∧ ((9 : BitVec 6).toNat < 8 → sMsg.me.sup = true))
  ∧ ((7 : BitVec 6).toNat < 8 ∧ 8 ≤ (8 : BitVec 6).toNat)
  ∧ ((⟨msgA, some 2, false, none⟩ : CurMsg).owes = true → sCur.replyRoom 0 = true) := by
  unfold Plain
  refine ⟨?_, ?_, ?_, ?_, ?_, ?_, ?_, ?_, ?_⟩ <;> decide +kernel

theorem test_MessageHead :
    63 < 64 ∧ (List.replicate 2016 (0 : Byte)).length ≤ 2016 := by
  decide +kernel

theorem test_HandlerStartState :
    (sHan.work 0).retainedFor msgA.channel = none ∧ field (sHan.handler 0 msgA.channel).ctl 5 4 = 0 ∧
      (sHan.work 0).allot 0 = some (0, sHan.work 0) := by
  decide +kernel

theorem test_MessageEvents :
    ((sEv.work 0).sendQueue false = ⟨.steal 1, 0, []⟩ :: [] ∧ sEv.entryReady 0 ⟨.steal 1, 0, []⟩ = true ∧
      sEv.retried 0 false = 0 ∧ sEv.injectItem 0 (.steal 1) = some ((sEv.withNet fun n => { n with
      steals := [(20, (0, 1))] }).fresh, none))
  ∧ (Tab.find sEv.net.msgs 5 = some msgB ∧ sEv.firstOfWay 5 msgB = true ∧ sEv.takes msgB.dst msgB.tag = true ∧
      msgB.tag = sEv.tag msgB.dst ∧ sEv.needsVt msgB = false ∧ sEv.itsArrival 5 msgB = true ∧
      sEv.holds msgB.tag msgB.dst = true ∧ (sEv.work msgB.dst).ejection.length < 16)
  ∧ (Tab.find sEv.net.msgs 6 = some { msgB with d0 := 0x3080280001, sctx := 4 } ∧
      sEv.firstOfWay 6 { msgB with d0 := 0x3080280001, sctx := 4 } = true ∧ sEv.takes 0 2 = true ∧
      sEv.itsArrival 6 { msgB with d0 := 0x3080280001, sctx := 4 } = true ∧
      ({ msgB with d0 := 0x3080280001 } : Msg).tag ≠ sEv.tag msgB.dst)
  ∧ ((sEv.work 0).ejection = msgB :: [] ∧ sEv.heldBack 0 msgB.channel = true ∧ sEv.waiters 0 msgB.channel = [] ∧
      (sEv.work 0).oxbow.getLsbD 0 = true ∧ (sEv.work 0).spill.length < 1024)
  ∧ (Tab.find sEv.net.answers 7 = some msgR ∧ sEv.firstOfWay 7 msgR = true ∧ sEv.takes 0 msgR.tag = true ∧
      msgR.tag = sEv.tag 0 ∧ sEv.needsVt msgR = false ∧ sEv.itsArrival 7 msgR = true ∧ sEv.holds msgR.tag 0 = true ∧
      Tab.find (sEv.work 0).cells msgR.cell = some ⟨0, true, none⟩)
  ∧ (Tab.find sEv.net.releases 8 = some (sEv.tag 0, 0, 3) ∧ sEv.imageOf (sEv.tag 0) 0 = none ∧ (⟨1, true,
      none⟩ : Cell).injected = true ∧ Tab.find (sEv.work 0).cells 3 = some ⟨1, true, none⟩)
  ∧ (Tab.find sImgRel.net.releases 8 = some (1, 0, 3) ∧ (sImgRel.imageOf 1 0).isSome = true)
  ∧ (Tab.find sEv.net.retries 9 = some (600, .msg msgB) ∧ 600 ≤ sEv.now)
  ∧ (sImg.flying 5 = some msgB ∧ (sImg.core msgB.dst).image = some imM ∧ imM.tag.toNat = msgB.tag ∧
      sImg.firstOfWay 5 msgB = true ∧ sImg.itsArrival 5 msgB = true ∧ sImg.waitsOut msgB = false ∧ msgB.onReply = false ∧
      imM.bytes + msgB.areaBytes ≤ 57344)
  ∧ (sImgF.flying 5 = some msgB ∧ 57344 < 57310 + msgB.areaBytes ∧ sImgF.itsArrival 5 msgB = true ∧
      sImgF.waitsOut msgB = false)
  ∧ (sImgY.flying 7 = some msgR ∧ msgR.onReply = true ∧ sImgY.itsArrival 7 msgR = true ∧ sImgY.waitsOut msgR = false ∧
      imR.tag.toNat = msgR.tag)
  ∧ ((sEvH.chip 0).ready = true ∧ wordBytes 7 ≠ [] ∧ ((wordBytes 7).length % 8 = 0 ∧ (wordBytes 7).length ≤ 512) ∧
      512 * 9 % 512 = 0 ∧ 512 * 9 < 2 ^ 27 ∧ (512 * 9 / 512 % 64 = 1 ∨ 8 ≤ 512 * 9 / 512 % 64) ∧ (∀ h ∈ sEvH.partCores 1,
      sEvH.logMode h ≠ 2) ∧ sEvH.reach 1 0 (512 * 9 / 2 ^ 15) = some 0)
  ∧ ((sEv.chip 0).ready = false ∧ 1 < 64)
  ∧ ((sServe.work 0).at .ejection 0 = some msgC ∧ sServe.nextJob 0 = some (.handler .ejection 0))
  ∧ ((sWait.work 0).at .ejection 0 = some msgC ∧ sWait.longest 0 (sWait.waiters 0 msgC.channel) = some 4 ∧
      (sWait.ctx 0 4).slot.or (sWait.work 0).freeSlot = some 0 ∧ sWait.serves 0 = true ∧
      sWait.waitchTakes 0 msgC = true ∧ sWait.firstWaiting 0 msgC = true ∧ sWait.behind 0 msgC = false ∧
      Unlogged sWait 0 ∧ msgC.bad.contains 0 = false)
  ∧ (sImgV.waitsOut { msgB with d0 := 0x2003040240001 } = true ∧ sImgV.takes 0 1 = false)
  ∧ ((sLate.work 0).at (placeOf 0).1 (placeOf 0).2 = some { msgC with d2 := 4 } ∧ sLate.freeCtx 0 = some 1 ∧
      sLate.nextJob 0 = some (.late (placeOf 0).1 (placeOf 0).2) ∧
      ((sLate.serve 0 .ejection 0 { msgC with d2 := 4 } id).ctx 0 1).role ≠ .free) := by
  unfold Unlogged
  refine ⟨?_, ?_, ?_, ?_, ?_, ?_, ?_, ?_, ?_, ?_, ?_, ?_, ?_, ?_, ?_, ?_, ?_⟩ <;> decide +kernel

theorem test_BalancersAndExits :
    (0 < ctrA.bal.length ∧ 0 < ctrA.c.length ∧ ctrA.holes.length = ctrA.c.length ∧ (ctrA.holes[0]?).getD [] = [] ∧
      valueOk ((0 : Nat) + ctrA.w * 5) = true ∧ valueOk ((0 : Nat) + ctrA.w * (5 - 1)) = true)
  ∧ (ctrA.holes[1]?).getD [] = 3 :: [1]
  ∧ ((ctrTop.holes[0]?).getD [] = [] ∧ (¬ valueOk ((0 : Nat) + ctrTop.w * 2 ^ 46) = true) ∧
      valueOk ((1 : Nat) + ctrTop.w * (-(2 ^ 46) - 1)) = false)
  ∧ (10 : Int) ≥ (ctrA.exitFor 10 : Int) + ctrA.w * (ctrA.c[ctrA.exitFor 10]?).getD 0
  ∧ ((¬ ((5 : Int) < 0 ∨ (5 : Int) ≥ (ctrA.exitFor 5 : Int) + ctrA.w * (ctrA.c[ctrA.exitFor 5]?).getD 0 ∨ (5 : Int) ∈ (ctrA.holes[ctrA.exitFor 5]?).getD [])) ∧
      ((ctrA.holes[ctrA.exitFor 5]?).getD []).length ≠ 4)
  ∧ ((([2, 4, 6, 0] : List Int)).length = 4 ∧ (¬ ((8 : Int) < 0 ∨ (8 : Int) ≥ 10 ∨ (8 : Int) ∈ ([2, 4, 6,
      0] : List Int)))) := by
  refine ⟨?_, ?_, ?_, ?_, ?_, ?_⟩ <;> decide +kernel

theorem test_CounterInstructions :
    (sCtr.speculative sCtr.cur.1 sCtr.cur.2 = false ∧ Unlogged sCtr 0 ∧
      sCtr.newCounter 1 0 0 2 = some (counterKey 1 0 0, ((sCtr.newCounter 1 0 0 2).map Prod.snd).getD sCtr))
  ∧ (sTurnC.speculative sTurnC.cur.1 sTurnC.cur.2 = false ∧ sTurnC.chunkEnd sTurnC.cur.1 sTurnC.cur.2 1 none = none)
  ∧ sCap.newCounter 1 0 0 2 = none
  ∧ field (sCtr.x 2) 18 46 ≠ 0
  ∧ (field (sCtr.x 3) 18 46 = 0 ∧ sCtr.counter 1 (counterKey 1 (field (sCtr.x 3) 12 6) (field (sCtr.x 3) 0 12)) = none)
  ∧ sWorn.counter 1 key7 = some { ctrA with exhausted := true }
  ∧ (sCtr.speculative sCtr.cur.1 sCtr.cur.2 = false ∧ (field (sCtr.x 1) 18 46 = 0 ∧
      key7 = counterKey (sCtr.tag 0) (field (sCtr.x 1) 12 6) (field (sCtr.x 1) 0 12) ∧
      sCtr.counter (sCtr.tag 0) key7 = some ctrA) ∧ ctrA.exhausted = false ∧ valueOk (sCtr.x 5).toInt = true)
  ∧ valueOk (sCtr.x 7).toInt = false
  ∧ (field (sCtr.x 6) 47 16 = 0 ∧ ctrA.pennant = .opened)
  ∧ ((¬ (({ ctrA with pennant := .closing } : Counter).pennant = .opened ∨ ({ ctrA with pennant := .closing } : Counter).pennant = .armed ∧
      field (sClos.x 6) 0 47 = 0)) ∧ field (sCtr.x 7) 47 16 ≠ 0 ∧ field (sCtr.x 9) 16 48 ≠ 0)
  ∧ (field (sCtr.x 8) 16 48 = 0 ∧ (ctrA.p.toNat + 65535 - field (sCtr.x 8) 0 16) % 65536 < 32768 ∧
      field (sCtr.x 5) 16 48 = 0 ∧ (¬ (ctrA.p.toNat + 65535 - field (sCtr.x 5) 0 16) % 65536 < 32768 ∨ True))
  ∧ (¬ (ctrA.p.toNat + 65535 - field (sCtr.x 10) 0 16) % 65536 < 32768)
  ∧ (field (sCtr.x 2) 19 45 = 0 ∧
      sCtr.counter 1 (counterKey 1 (field (sCtr.x 2) 12 6) (field (sCtr.x 2) 0 12)) = some ctrA)
  ∧ sCtr.quiescent 1 key7 = true
  ∧ sOps.quiescent 1 key7 = false := by
  unfold Unlogged
  refine ⟨?_, ?_, ?_, ?_, ?_, ?_, ?_, ?_, ?_, ?_, ?_, ?_, ?_, ?_, ?_⟩ <;> decide +kernel

theorem test_CounterEvents :
    (Tab.find sOps.net.ops 1 = some opT ∧ sOps.counter opT.tag opT.key = some ctrA ∧ opT.pos = .wire 0 ∧
      feeds ctrA.w 0 = some 0 ∧ opT.kind = .token)
  ∧ Tab.find sOps.net.ops 2 = some { opT with kind := .anti }
  ∧ (Tab.find sOps.net.ops 3 = some { opT with pos := .wire 2 } ∧ feeds ctrA.w 2 = none ∧ exitOf ctrA.w 2 = 0 ∧
      ctrA.exitToken 0 = (some 10, { ctrA with c := [6, 4] }))
  ∧ (Tab.find sOps.net.ops 4 = some { opT with kind := .anti, pos := .wire 3 } ∧ feeds ctrA.w 3 = none ∧
      ctrA.exitAnti 1 = (some 7, { ctrA with c := [5, 3] }))
  ∧ Tab.find sOps.net.ops 5 = some { opT with kind := .cancel 5, pos := .wire 3 }
  ∧ (sTop.counter 1 key7 = some ctrTop ∧ ctrTop.exitToken 0 = (none, { ctrTop with exhausted := true }) ∧
      ctrTop.exitAnti 1 = (none, { ctrTop with exhausted := true }))
  ∧ (Tab.find sOps.net.ops 6 = some { opT with pos := .back true 77 } ∧ (sOps.ctx 0 0).st = .blocked (.fabric 6) ∧
      Unlogged sOps 0 ∧ opT.use = .reg 5)
  ∧ (Tab.find sOps.net.ops 7 = some { opT with c := 1, pos := .back false 0 } ∧
      (sOps.ctx 0 1).st = .blocked (.fabric 7))
  ∧ (sArm.net.reports = [] ∧ sArm.counter 1 key7 = some ctrArm ∧ ctrArm.pennant = .armed ∧
      (ctrArm.target : Int) ≤ (ctrArm.genCount ctrArm.p).net)
  ∧ (sRaise.net.reports = [] ∧ sRaise.counter 1 key7 = some { ctrArm with gen := 1, pennant := .closing } ∧
      (ctrArm.genCount 0).entered = (ctrArm.genCount 0).left)
  ∧ Tab.find sUse.net.ops 10 = some { opT with pos := .back true 1, use := .done }
  ∧ (Tab.find sUse.net.ops 8 = some { opT with pos := .back true 2, use := .append eApp.seq } ∧
      ((sUse.ctx 0 0).ring.any fun e => e.seq == eApp.seq && e.pieces.contains 8) = true)
  ∧ (Tab.find sUse.net.ops 9 = some { opT with pos := .back true 3, use := .crew } ∧
      (sUse.work 0).claim = some (.asked grC) ∧ grC.counter = key7 ∧ 0 ≤ (3 : Word).toInt ∧
      (3 : Word).toInt < grC.launch.n)
  ∧ ((¬ (0 ≤ (9 : Word).toInt ∧ (9 : Word).toInt < grC.launch.n))) := by
  unfold Unlogged
  refine ⟨?_, ?_, ?_, ?_, ?_, ?_, ?_, ?_, ?_, ?_, ?_, ?_, ?_, ?_⟩ <;> decide +kernel

theorem test_VirtualTimeInstructions :
    Plain sVt
  ∧ (¬ Plain sSpec)
  ∧ (sVt.lpAt 0 (sVt.x 1).toNat = some (2, lpS) ∧ lpS.stream = true ∧ sVt.me.event = none)
  ∧ (sVt.lpAt 0 (sVt.x 2).toNat = some (3, { lpA with desc := 0x1400, channels := [10] }) ∧ lpA.stream = false)
  ∧ sVt.lpAt 0 (sVt.x 3).toNat = none
  ∧ sVt.speculative 0 sVt.cur.2 = false
  ∧ (sVt.me.rolled = false ∧ (sVt.x 4 ≤ lpS.play ∨ sVt.x 4 < sVt.gvt 0 lpS.domain))
  ∧ ((¬ (sVt.x 3 ≤ lpS.play ∨ sVt.x 3 < sVt.gvt 0 lpS.domain)) ∧ (sVt.rollback 0 2 (sVt.x 3)).2 = true ∧
      (((sVt.rollback 0 2 (sVt.x 3)).1.lp 0 2).map fun q => q.coast) = some [])
  ∧ ((7 : BitVec 6).toNat < 8 ∧ 8 ≤ (9 : BitVec 6).toNat ∧ sVt.me.vectorsDone = true ∧ sVt.x 5 = BitVec.allOnes 64 ∧
      sVt.lpOf 0 9 = some (2, lpS))
  ∧ (sRun.speculative 0 sRun.cur.2 = false ∧ sRun.me.vectorsDone = false)
  ∧ (sVt.x 1 ≠ BitVec.allOnes 64 ∧ (sVt.x 1).getLsbD 23 = false ∧
      (match sVt.localAccess 0 sVt.me.sup (sVt.x 1) 1 false with | .ok p => p == (0, 0x1000) | _ => false) = true ∧
      0x1000 % 64 = 0 ∧ 0x1000 + 256 ≤ 0x70000 ∧ (sVt.handler 0 11).valid = true ∧ (sVt.handler 0 11).optimistic = true ∧
      sVt.lpAt 0 0x1000 = some (2, lpS) ∧ sVt.lpOf 0 11 = none ∧ lpS.domain = field (sVt.handler 0 11).ctl 16 8)
  ∧ (sVt.x 6 ≠ BitVec.allOnes 64 ∧ (sVt.x 6).getLsbD 23 = false ∧
      (match sVt.localAccess 0 sVt.me.sup (sVt.x 6) 1 false with | .ok p => p == (0, 0x1800) | _ => false) = true ∧
      0x1800 % 64 = 0 ∧ 0x1800 + 256 ≤ 0x70000 ∧ (sVt.handler 0 11).valid = true ∧ (sVt.handler 0 11).optimistic = true ∧
      sVt.lpAt 0 0x1800 = none ∧ sVt.lpOf 0 11 = none ∧
      readDescriptor ((sVt.work 0).spad.bytes 0x1800 256) 0x1800 11 (field (sVt.handler 0 11).ctl 16 8) = some lpN ∧
      firstBelow (fun n => (sVt.lp 0 n).isNone) 16 = some 0 ∧
      (match (sVt.setLp 0 0 lpN).snapshot 0 0 lpN.lvt with | .ok t => (t.lp 0 0).isSome | .error _ => false) = true)
  ∧ (Plain sVt ∧ LocalAt sVt (sVt.x 7) 32 false 0 0x60 ∧
      (match sVt.localAccess 0 sVt.me.sup (sVt.x 7 + 32) 32 false with | .ok p => p == (0, 0x60 + 32) | _ => false) = true ∧
      sVt.watchHit 0 sVt.cur.2 (sVt.x 7).toNat 64 2 = none ∧ (sVt.x 7).getLsbD 23 = false ∧ (sVt.work 0).poison = [] ∧
      (match sVt.readIrrev 0 sVt.cur.2 sVt.me.sup ((sVt.work 0).spad.bytes 0x60 64) with | .error c => c == 0x04 | _ => false) = true)
  ∧ (Plain sVt ∧ LocalAt sVt (sVt.x 8) 32 false 0 0x80 ∧
      (match sVt.localAccess 0 sVt.me.sup (sVt.x 8 + 32) 32 false with | .ok p => p == (0, 0x80 + 32) | _ => false) = true ∧
      sVt.watchHit 0 sVt.cur.2 (sVt.x 8).toNat 64 2 = none ∧ (sVt.x 8).getLsbD 23 = false ∧ (sVt.work 0).poison = [] ∧
      (match sVt.readIrrev 0 sVt.cur.2 sVt.me.sup ((sVt.work 0).spad.bytes 0x80 64) with | .ok (.message m false) => decide (m.replyChannel = 0) | _ => false) = true)
  ∧ (Plain sVt ∧ LocalAt sVt (sVt.x 9) 32 false 0 0xC0 ∧
      (match sVt.localAccess 0 sVt.me.sup (sVt.x 9 + 32) 32 false with | .ok p => p == (0, 0xC0 + 32) | _ => false) = true ∧
      sVt.watchHit 0 sVt.cur.2 (sVt.x 9).toNat 64 2 = none ∧ (sVt.x 9).getLsbD 23 = false ∧ (sVt.work 0).poison = [] ∧
      (match sVt.readIrrev 0 sVt.cur.2 sVt.me.sup ((sVt.work 0).spad.bytes 0xC0 64) with | .ok (.store a [0xCD]) => a == 0x1000 | _ => false) = true ∧
      (match (sVt.globalAccess 0 sVt.cur.2 0x1000 .write 1 false false).2 with | .ok p => p == 0x1000 | _ => false) = true ∧
      sVt.requestRoom 0 = true)
  ∧ (sNext.speculative 0 sNext.cur.2 = false ∧ ((sNext.part (sNext.tag 0)).domain 3).next = some 60 ∧ sNext.x 3 < 60)
  ∧ (sNext.lpAt 0 (sNext.x 1).toNat = some (2, lpS) ∧ sNext.me.rolled = false ∧
      (¬ (sNext.x 3 ≤ lpS.play ∨ sNext.x 3 < sNext.gvt 0 lpS.domain)) ∧
      sNext.publishes (sNext.tag 0) lpS.domain (sNext.x 3) = true)
  ∧ (sLbW.speculative 0 sLbW.cur.2 = false ∧ sLbW.me.vectorsDone = true ∧ sLbW.x 1 ≠ BitVec.allOnes 64 ∧
      (match sLbW.localAccess 0 sLbW.me.sup (sLbW.x 1) 1 false with | .ok p => p == (0, 0x1000) | _ => false) = true ∧
      sLbW.clashes 0 sLbW.cur.2 [(0, 0x1000, 256)] = true ∧ sVt.clashes 0 sVt.cur.2 [(0, 0x1000, 256)] = false)
  ∧ (LocalOk sIrW (sIrW.x 8) 32 false 0 0x80 ∧ sIrW.clashes 0 sIrW.cur.2 [(0, 0x80, 64)] = true)
  ∧ (LocalOk sIrP (sIrP.x 8) 32 false 0 0x80 ∧ sIrP.clashes 0 sIrP.cur.2 [(0, 0x80, 64)] = false ∧
      (sIrP.work 0).poisonedAt 0x80 64 = true) := by
  unfold Plain LocalAt LocalOk
  refine ⟨?_, ?_, ?_, ?_, ?_, ?_, ?_, ?_, ?_, ?_, ?_, ?_, ?_, ?_, ?_, ?_, ?_, ?_, ?_, ?_⟩ <;> decide +kernel

theorem test_VirtualTimeEvents :
    (sLp.lp 0 2 = some lpE ∧ sLp.nextEvent 0 2 = some (none, .ejection, 0, msgV) ∧ sLp.freeCtx 0 = some 1 ∧
      (sLp.work 0).freeSlot = some 0 ∧ sLp.nextJob 0 = some (.event 2) ∧ Unlogged sLp 0 ∧ msgV.bad.contains 0 = false)
  ∧ (sFly.lp 0 2 = some lpW ∧ sFly.flying 3 = some msgS ∧ sFly.lpOf msgS.dst msgS.channel = some (2, lpW) ∧
      sFly.publishes msgS.tag lpW.domain msgS.d2 = false ∧ sFly.itsArrival 3 msgS = true ∧ (msgS.dst = 0 ∧
      sFly.firstOfWay 3 msgS = true ∧ sFly.takes 0 msgS.tag = true ∧ msgS.tag = sFly.tag 0) ∧ msgS.anti = false ∧
      sFly.isStraggler 0 lpW msgS = true)
  ∧ (sFly.flying 4 = some { msgN with sctx := 8 } ∧ sFly.lpOf msgN.dst msgN.channel = some (2, lpW) ∧
      sFly.itsArrival 4 { msgN with sctx := 8 } = true ∧ sFly.firstOfWay 4 { msgN with sctx := 8 } = true ∧
      msgN.anti = true ∧
      ((sFly.work 0).pendingOf lpW).all (fun e => !({ msgN with sctx := 8 } : Msg).matchesAnti e.2.2) = true ∧
      lpW.events.all (fun e => !(!e.safe && ({ msgN with sctx := 8 } : Msg).matchesAnti e.msg)) = true)
  ∧ (sFly.flying 5 = some { msgV with sctx := 9 } ∧ sFly.firstOfWay 5 { msgV with sctx := 9 } = true ∧
      (lpW.antis.find? fun x => x.matchesAnti { msgV with sctx := 9 }) = some { msgN with d2 := 60 })
  ∧ (sChk.lp 0 2 = some lpC ∧ earliest ((sChk.work 0).pendingOf lpC) = some (.ejection, 0, msgV) ∧ sChk.runs 0 = true ∧
      lpC.idle = true ∧ lpC.snapDue = true ∧ lpC.snapRoom = true ∧ sChk.gvt 0 lpC.domain < msgV.d2 ∧
      Tab.look [] (sChk.work 0).queues 1 = [] ∧
      (match sChk.snapshot 0 2 msgV.d2 with | .ok _ => true | .error _ => false) = true)
  ∧ (sUnb.lp 0 2 = some lpU ∧ lpU.unbind ≠ [] ∧ sUnb.lpDone 0 lpU = true ∧
      (lpU.channels.filter fun c => !lpU.unbind.contains c) ≠ [])
  ∧ (sUnb.lp 0 3 = some { lpA with channels := [11], unbind := [11] } ∧ sUnb.lpDone 0 { lpA with
      channels := [11], unbind := [11] } = true)
  ∧ ((sGvt.part 1).cores ≠ [] ∧ (sGvt.part 1).resetDue = false ∧ ((sGvt.part 1).domain 3).next = none ∧
      ((sGvt.part 1).domain 3).began + (sGvt.part 1).gvtPeriod ≤ sGvt.now)
  ∧ (((sPub.part 1).domain 3).next = some 60 ∧ sPub.canPublish 1 = true ∧ (sPub.commitUpTo 1 3 60 0).2 = true ∧
      sumOf ((sPub.domainLps 1 3).map fun e => e.2.2.commits.length) = 0)
  ∧ (((sStuck.part 1).domain 3).next = some 60 ∧ (sStuck.commitUpTo 1 3 60 1).2 = false) := by
  unfold Unlogged
  refine ⟨?_, ?_, ?_, ?_, ?_, ?_, ?_, ?_, ?_, ?_⟩ <;> decide +kernel

theorem test_RoundLowerBound :
    ((sGvt.part 1).domain 3).gvt < sGvt.roundResult 1 3 ∧ (60 : Word) ∈ sGvt.coreTimes 1 3 0 := by
  decide +kernel

theorem test_CommandIssue :
    (Plain sEng ∧ sEng.me.stepArm = false ∧ (sEng.work 0).fullQueue ([Queue.qc1]) = none ∧
      sEng.barOperand (sEng.x 3) = [] ∧ (sEng.work 0).poison = [])
  ∧ (Plain sEng ∧ sEng.me.stepArm = false ∧ (sEng.work 0).fullQueue ([Queue.qc0]) = none ∧
      sEng.barOperand (sEng.x 3) = [])
  ∧ (Plain sEng ∧ sEng.me.stepArm = false ∧ (sEng.work 0).fullQueue ([Queue.qg]) = none ∧
      sEng.barOperand (sEng.x 3) = [] ∧ ((sEng.x 1).toNat % 16 = 0 ∧ (sEng.x 1).toNat < 0x80000 ∧
      (sEng.x 1).toNat % 0x80000 + 64 ≤ 0x70000) ∧
      (match sEng.imageAccess 0 sEng.me.sup (sEng.x 1 &&& ~~~15) 4 0 with | .ok _ => true | .error _ => false) = true)
  ∧ (Plain sEng ∧ sEng.me.stepArm = false ∧ (sEng.work 0).fullQueue (maskQueues 9) = none)
  ∧ (Plain sEng ∧ sEng.me.stepArm = false ∧ (sEng.work 0).fullQueue ([Queue.qm]) = none ∧ sEng.matCauses [(sEng.x 1,
      16, fmtBytes 2 65536)] = [])
  ∧ (Plain sEng ∧ sEng.me.stepArm = false ∧ (sEng.work 0).fullQueue ([Queue.qm]) = none)
  ∧ (Plain sEng ∧ sEng.me.stepArm = false ∧ (sEng.work 0).fullQueue ([Queue.qm]) = none ∧ sEng.matCauses [(sEng.x 1, 8,
      8 * (32 * 2 ^ (3 : BitVec 3).toNat / 32)), (sEng.x 2, 16, 2048)] = [])
  ∧ (Plain sEng ∧ sEng.me.stepArm = false ∧ (sEng.work 0).fullQueue ([Queue.qm]) = none)
  ∧ (Plain sEng ∧ sEng.me.stepArm = false ∧ (sEng.work 0).fullQueue ([Queue.qm]) = none ∧
      ((sEng.x 5).toNat % 1024 = 0 ∧ (sEng.x 5).toNat < 16384 ∧ sEng.matCauses [(sEng.x 1, 16, 4096)] = []))
  ∧ (Plain sEng ∧ sEng.me.stepArm = false ∧ (sEng.work 0).fullQueue ([Queue.qm]) = none)
  ∧ (Plain sEng ∧ sEng.me.stepArm = false ∧ (sEng.work 0).fullQueue ([Queue.qm]) = none ∧ ((sEng.x 6).toNat ≤ 65535 ∧
      sEng.matCauses [(sEng.x 1, 16, 16 * (sEng.x 6).toNat), (sEng.x 2, 16, 2048)] = []))
  ∧ (Plain sQf ∧ (sQf.work 0).fullQueue [.qm] = some .qm)
  ∧ (Plain sEng ∧ sEng.barOperand (sEng.x 4) ≠ [])
  ∧ (Plain sEng ∧ sEng.matCauses [(sEng.x 4, 8, 8 * (32 * 2 ^ (3 : BitVec 3).toNat / 32)), (sEng.x 2, 16, 2048)] ≠ []) := by
  unfold Plain
  refine ⟨?_, ?_, ?_, ?_, ?_, ?_, ?_, ?_, ?_, ?_, ?_, ?_, ?_, ?_⟩ <;> decide +kernel

theorem test_EngineEvents :
    ((0 : Nat) < Config.coreNumbers ∧ (sAct.work 0).nextIn .qm = some cmdS ∧ cmdS.st = .queued ∧
      sAct.chosen 0 .qm = some (0, .qm) ∧ sAct.engineBusy (engineQueues 0 .qm) = false ∧
      ((match ((sAct.turned 0 .qm).plan 0 cmdS) with | (t, .ok p) => t.cmdWatch 0 cmdS == none && t.planRoom 0 cmdS p | _ => false) = true))
  ∧ ((0 : Nat) < Config.coreNumbers ∧ (sWat.work 0).nextIn .qc0 = some cmdW ∧ cmdW.st = .queued ∧
      sWat.chosen 0 .qc0 = some (0, .qc0) ∧ sWat.engineBusy (engineQueues 0 .qc0) = false ∧
      ((match ((sWat.turned 0 .qc0).plan 0 cmdW) with | (t, .ok _) => t.cmdWatch 0 cmdW == some (3, 0x4000) | _ => false) = true) ∧
      cmdW.attached = true)
  ∧ ((0 : Nat) < Config.coreNumbers ∧ (sBadMma.work 0).nextIn .qm = some cmdF ∧ cmdF.st = .queued ∧
      sBadMma.chosen 0 .qm = some (0, .qm) ∧ sBadMma.engineBusy (engineQueues 0 .qm) = false ∧
      ((match ((sBadMma.turned 0 .qm).plan 0 cmdF) with | (_, .error (.fault c a)) => c == 0x15 && a == 0 | _ => false) = true))
  ∧ ((0 : Nat) < Config.coreNumbers ∧ (sEpk.work 0).nextIn .qc0 = some cmdPk ∧ sEpk.chosen 0 .qc0 = some (0, .qc0) ∧
      ((match ((sEpk.turned 0 .qc0).plan 0 cmdPk) with | (_, .error (.park _ _ _)) => true | _ => false) = true))
  ∧ ((0 : Nat) < Config.coreNumbers ∧ (sMv.work 0).nextIn .qc0 = some { cmdW with id := 78 } ∧
      sMv.chosen 0 .qc0 = some (0, .qc0) ∧ sMv.engineBusy (engineQueues 0 .qc0) = true)
  ∧ ((0 : Nat) < Config.coreNumbers ∧ (sPau.work 0).nextIn .qc0 = some { cmdC with st := .paused prA } ∧
      sPau.chosen 0 .qc0 = some (0, .qc0) ∧ sPau.engineBusy (engineQueues 0 .qc0) = false)
  ∧ ((0 : Nat) < Config.coreNumbers ∧ (sMv.work 0).queue .qc0 = cmdC :: [{ cmdW with id := 78 }] ∧
      cmdC.st = .active prA ∧ sMv.engineRuns 0 .qc0 = true ∧
      (prA.moves.all fun tr => tr.ready == [] && tr.dsts != [] && nextSrcs tr.srcs == ([.spad 0 0x100 8], [])) = true ∧
      sMv.srcReady 0 (.spad 0 0x100 8) = true)
  ∧ ((0 : Nat) < Config.coreNumbers ∧ (sMvB.work 0).queue .qc0 = { cmdC with st := .active prB } :: [] ∧
      sMvB.engineRuns 0 .qc0 = true ∧ (prB.moves.all fun tr => tr.ready == [(0, 4,
      .spad 0 0x200)] && tr.ready[0 % tr.ready.length]? == some (0, 4, .spad 0 0x200)) = true ∧
      sMvB.dstReady 0 (.spad 0 0x200) = true ∧ sMvB.dstFails 0 (.spad 0 0x200) = none)
  ∧ ((0 : Nat) < Config.coreNumbers ∧ (sMvM.work 0).queue .qc0 = { cmdC with st := .active prM } :: [] ∧
      sMvM.engineRuns 0 .qc0 = true ∧
      (prM.moves.all fun tr => tr.ready == [] && tr.dsts != [] && nextSrcs tr.srcs == ([.phys 0x1000 4],
      []) && tr.srcs.head? == some (.phys 0x1000 4)) = true ∧ sMvM.srcReady 0 (.phys 0x1000 4) = true ∧
      sMvM.pieceTurn 0 0x1000 = true)
  ∧ ((0 : Nat) < Config.coreNumbers ∧ (sMvG.work 0).queue .qc0 = { cmdC with st := .active prG } :: [] ∧
      sMvG.engineRuns 0 .qc0 = true ∧ (prG.moves.all fun tr => tr.ready == [(0, 4, .phys 0x1000)]) = true ∧
      sMvG.dstReady 0 (.phys 0x1000) = true ∧ sMvG.dstFails 0 (.phys 0x1000) = none ∧ sMvG.pieceTurn 0 0x1000 = true)
  ∧ ((0 : Nat) < Config.coreNumbers ∧ (sWatF.work 0).nextIn .qc0 = some cmdW ∧ sWatF.chosen 0 .qc0 = some (0, .qc0) ∧
      sWatF.engineBusy (engineQueues 0 .qc0) = false ∧
      ((match ((sWatF.turned 0 .qc0).plan 0 cmdW) with | (t, .error (.fault c a)) => c == 0x07 && a == 0x4000 && t.watchAt 0 cmdW a == some 3 | _ => false) = true))
  ∧ ((0 : Nat) < Config.coreNumbers ∧ (sGat.work 0).nextIn .qg = some cmdG ∧ sGat.chosen 0 .qg = some (0, .qg) ∧
      sGat.engineBusy (engineQueues 0 .qg) = false ∧
      ((match ((sGat.turned 0 .qg).plan 0 cmdG) with | (t, .error (.walk _ ms)) => ms == [] && t.cmdWatch 0 cmdG == none | _ => false) = true))
  ∧ ((0 : Nat) < Config.coreNumbers ∧ (sGatP.work 0).nextIn .qg = some cmdG ∧ sGatP.chosen 0 .qg = some (0, .qg) ∧
      sGatP.engineBusy (engineQueues 0 .qg) = false ∧
      ((match ((sGatP.turned 0 .qg).plan 0 cmdG) with | (_, .error (.poison a)) => a == 0x100 | _ => false) = true))
  ∧ ((0 : Nat) < Config.coreNumbers ∧ (sGatW.work 0).queue .qg = { cmdG with st := .walking wkA } :: [] ∧
      (sGatW.work 0).misses = [] ∧ sGatW.works 0 = true ∧
      ((match (sGatW.plan 0 { cmdG with st := .walking wkA }) with | (t, .ok p) => t.cmdWatch 0 { cmdG with st := .walking wkA } == none && t.planRoom 0 { cmdG with st := .walking wkA } p | _ => false) = true))
  ∧ ((sEnR.work 0).nextIn .qc0 = some cmdR ∧ sEnR.chosen 0 .qc0 = some (0, .qc0) ∧
      ((match ((sEnR.turned 0 .qc0).plan 0 cmdR) with | (_, .error .retry) => true | _ => false) = true))
  ∧ ((sCred.work 0).queue .qc0 = cmdP :: [] ∧ cmdP.st = .active pr1 ∧ cmdP.body.bar = some 0x100 ∧
      0 < pr1.credits cmdP.body 1 ∧ sCred.engineRuns 0 .qc0 = true ∧
      regionOk true (sCred.work 0).power 0x100 false = true ∧
      sCred.creditRoom 0 cmdP 0x100 ((readBar (sCred.work 0).spad 0x100).credit 1).1 = true ∧
      ((readBar (sCred.work 0).spad 0x100).credit 1).2 = false)
  ∧ ((sOver.work 0).queue .qc0 = cmdO :: [] ∧
      (((readBar (sOver.work 0).spad 0x100).credit 5).2 && ((readBar (sOver.work 0).spad 0x100).credit 5).1.te) = true ∧
      cmdO.attached = true ∧ sOver.engineRuns 0 .qc0 = true ∧
      sOver.creditRoom 0 cmdO 0x100 ((readBar (sOver.work 0).spad 0x100).credit 5).1 = true)
  ∧ ((sLateC.work 0).queue .qc0 = { cmdO with st := .active pr0 } :: [] ∧ (CmdState.active pr0).ended = true ∧
      sLateC.engineRuns 0 .qc0 = true ∧ sLateC.lateEntry 0 { cmdO with st := .active pr0 } ≠ none)
  ∧ ((sDone.work 0).queue .qc0 = { cmdP with st := .active pr0 } :: [] ∧
      (match cmdP.body with | .fence _ => false | _ => true) = true ∧ (CmdState.active pr0).ended = true ∧
      sDone.engineRuns 0 .qc0 = true ∧ sDone.lateEntry 0 { cmdP with st := .active pr0 } = none)
  ∧ ((sFence.work 0).queue .qm = cmdE :: [] ∧ cmdE.body = .fence 9 ∧ (sFence.work 0).fencePasses cmdE 9 = true ∧
      sFence.runs 0 = true)
  ∧ ((sMiss.work 0).misses = msgA :: [] ∧ sMiss.requestRoom 0 = true ∧ sMiss.works 0 = true) := by
  refine ⟨?_, ?_, ?_, ?_, ?_, ?_, ?_, ?_, ?_, ?_, ?_, ?_, ?_, ?_, ?_, ?_, ?_, ?_, ?_, ?_, ?_⟩ <;> decide +kernel

theorem test_MmaPartials :
    mxA.mmaPoison 1 3 = false
  ∧ ((4 : BitVec 3) ≠ mxA.shape ∨ (1 : BitVec 3) ≠ mxA.fmt) := by
  refine ⟨?_, ?_⟩ <;> decide +kernel

theorem test_Reductions :
    (sEng.speculative sEng.cur.1 sEng.cur.2 = false ∧ (sEng.groupRoot (sEng.x 8)).isSome = true ∧
      sEng.requestRoom 0 = true)
  ∧ (sRqf.speculative sRqf.cur.1 sRqf.cur.2 = false ∧ (sRqf.groupRoot (sRqf.x 8)).isSome = true ∧
      sRqf.requestRoom 0 = false)
  ∧ (sEng.groupRoot (sEng.x 1) = none ∧ sEng.groupRoot (sEng.x 10) = none)
  ∧ sEng.groupRoot (sEng.x 9) = some 1
  ∧ (sRnd.speculative 0 0 = false ∧ sRnd.groupRoot (sRnd.x 8) = some 0 ∧ field (sRnd.x 8) 18 4 = 9 ∧
      sRnd.rounds 0 9 = rndOne :: [] ∧ (rndOne.c = rndOne.n ∧ 0 < rndOne.c) ∧ sRnd.roundWaiters 0 9 = [])
  ∧ (sEng.groupRoot (sEng.x 8) = some 0 ∧ sEng.rounds 0 9 = [])
  ∧ (Tab.find sCon.net.nreds 5 = some { conA with root := 0, slot := 9 } ∧ (sCon.chip 0).off = false ∧
      (sCon.holds 1 0 = true ∧ (sCon.core 0).dbg.checked = false ∧ (sCon.core 0).dbg.fenced = false) ∧
      (joinRounds 2 conA.v (Tab.look [] (sCon.core 0).nred 25)).isSome = true)
  ∧ (Tab.find sCon.net.nreds 6 = some { conA with root := 99, slot := 9 } ∧ sCon.holds 1 99 = false) := by
  refine ⟨?_, ?_, ?_, ?_, ?_, ?_, ?_, ?_⟩ <;> decide +kernel

theorem test_TablesAndStatus :
    ((sTab.work 0).queue .qm = [] ∧ (((sTab.work 0).queue .qm).filter fun m => m.attached && m.c == sTab.cur.2) = [])
  ∧ ((sQf.work 0).queue .qm ≠ [] ∧ (((sQf.work 0).queue .qm).filter fun m => m.attached && m.c == sQf.cur.2) ≠ [])
  ∧ (sTab.speculative 0 sTab.cur.2 = false ∧ sTab.tmapCauses 0 sTab.me.sup (sTab.x 1) = [] ∧
      field (sTab.x 1) 0 19 = 0x1000 ∧ sTab.watchHit 0 sTab.cur.2 (sTab.x 1).toNat 64 2 = none ∧
      sTab.clashes 0 sTab.cur.2 [(0, 0x1000, 64)] = false ∧
      (readTmap ((sTab.work 0).spad.bytes 0x1000 64)).legal = true ∧ (sTab.cores.all fun e => e.2.work.spad.wf) = true ∧
      sTab.me.stepArm = false)
  ∧ (sTab.speculative 0 sTab.cur.2 = false ∧ sTab.tmapCauses 0 sTab.me.sup (sTab.x 2) = [] ∧
      field (sTab.x 2) 0 19 = 0x2000 ∧ sTab.watchHit 0 sTab.cur.2 (sTab.x 2).toNat 64 2 = none ∧
      sTab.clashes 0 sTab.cur.2 [(0, 0x2000, 64)] = false ∧
      (readTmap ((sTab.work 0).spad.bytes 0x2000 64)).legal = false)
  ∧ (sTab.tmapCauses 0 sTab.me.sup (sTab.x 4) ≠ [] ∧ sTab.watchHit 0 sTab.cur.2 (sTab.x 4).toNat 64 2 = none)
  ∧ (sTabW.watchHit 0 sTabW.cur.2 (sTabW.x 4).toNat 64 2 = some 2 ∧
      sTabW.watchHit 0 sTabW.cur.2 (sTabW.x 1).toNat 64 2 = some 2)
  ∧ (sTabC.tmapCauses 0 sTabC.me.sup (sTabC.x 1) = [] ∧ sTabC.clashes 0 sTabC.cur.2 [(0, 0x1000, 64)] = true)
  ∧ (sTab.speculative 0 sTab.cur.2 = false ∧ (sTab.x 4).toNat % 16 ≠ 0 ∧ (baseReg sTab.me.x 20).toNat % 16 ≠ 0)
  ∧ (sTab.speculative 0 sTab.cur.2 = false ∧ (baseReg sTab.me.x 17).toNat % 16 = 0 ∧ sTab.me.stepArm = false ∧
      (sTab.work 0).tables.wf = true ∧
      (match sTab.imageAccess 0 sTab.me.sup (baseReg sTab.me.x 17) 65 0 with | .ok _ => true | .error _ => false) = true ∧
      sTab.localTarget 0 (baseReg sTab.me.x 17) = some (0, 0x1000) ∧
      sTab.watchHit 0 sTab.cur.2 (baseReg sTab.me.x 17).toNat 1040 2 = none) := by
  refine ⟨?_, ?_, ?_, ?_, ?_, ?_, ?_, ?_, ?_⟩ <;> decide +kernel

theorem test_TranslationInstructions :
    sEng.me.sup = false
  ∧ (sTrH.me.sup = true ∧ canonical (sTrH.x 1) = true ∧ sTrH.me.stepArm = false)
  ∧ (sTrH.me.sup = true ∧ (sTrH.part 1).hyper = true ∧ (sTrH.x 5).toNat < 64 ∧ field (sTrH.x 3) 6 6 = 0 ∧
      field (sTrH.x 3) 56 8 = 0 ∧ sTrH.me.stepArm = false)
  ∧ (sTrN.me.sup = true ∧ (sTrN.part 1).hyper = false)
  ∧ (sTr.me.sup = true ∧ sTr.accessesBefore 0 sTr.me.inv = false ∧
      sTr.anyCmd 0 (sTr.tag 0) (fun m => m.usesBefore sTr.me.inv) = false)
  ∧ (sTrB.me.sup = true ∧ sTrB.accessesBefore 0 sTrB.me.inv = true)
  ∧ (sTr.me.sup = true ∧ (1 : BitVec 2) ≠ 3 ∧
      ((sTr.cluster 0).faults.filter fun f => f.tag == 1)[(0 : BitVec 3).toNat]? = some fltA ∧
      ((sTr.cluster 0).faults.filter fun f => f.tag == 1)[(1 : BitVec 3).toNat]? = none)
  ∧ (sTrE.me.sup = true ∧ sTrE.me.drained = true ∧ ((sTrE.cluster 0).faults.filter fun f => f.tag == 1) = [] ∧
      (sTrE.cluster 0).dropped = [] ∧ (sTrE.cluster 0).notice = [])
  ∧ (sTrO.me.sup = true ∧ sTrO.me.drained = false ∧ (sTrO.x 4 = BitVec.allOnes 64 ∨ (sTrO.x 4).toNat % 4 = 0) ∧
      sTrO.me.acks ≠ [])
  ∧ (sTr.me.sup = true ∧ (sTr.x 6 = BitVec.allOnes 64 ∨ (sTr.x 6).toNat % 4 = 0) ∧ sTr.me.drained = true)
  ∧ (sTr.me.sup = true ∧ sTr.x 5 ≠ BitVec.allOnes 64 ∧ (sTr.x 5).toNat % 4 ≠ 0)
  ∧ (sTr.me.drained = true ∧
      (match sTr.walk 0 (!sTr.me.sup) (sTr.x 1) (xlateKind 1) with | .ok _ => true | .error _ => false) = true)
  ∧ (sTr.me.drained = true ∧
      (match sTr.walk 0 (!sTr.me.sup) (sTr.x 7) (xlateKind 1) with | .ok _ => true | .error _ => false) = false)
  ∧ (sTrD.me.sup = true ∧ sTrD.accessesBefore 0 sTrD.me.inv = false ∧
      sTrD.anyCmd 0 (sTrD.tag 0) (fun m => m.usesBefore sTrD.me.inv) = true)
  ∧ (sTrD.me.drained = true ∧ (sTrD.x 6).toNat % 4 = 0 ∧
      ((sTrD.flushMaps 0 fun z => z.1 == 1 && z.2.1 == 0x1000).chipWorks 0).any (fun z => z.1 == 1 && z.2.queues.any fun l => l.2.any fun m => m.gathersFrom fun w => w == 0x1000) = true)
  ∧ (sTr.me.drained = true ∧ ((sTr.cluster 0).faults.filter fun f => f.tag == 1) ≠ []) := by
  refine ⟨?_, ?_, ?_, ?_, ?_, ?_, ?_, ?_, ?_, ?_, ?_, ?_, ?_, ?_, ?_, ?_⟩ <;> decide +kernel

theorem test_TrapEntry :
    sTv.cur.2 < 24 ∧ sTv.me.settled = true ∧ sTv.me.replay = false ∧ sTv.me.ring = [] ∧ sTv.me.framed = [] ∧
      sTv.me.loops.length ≤ 4 ∧ sTv.frameLive sTv.cur.1 (frameAddr sTv.cur.2) = false ∧ (sTv.work sTv.cur.1).trapvec ≠ 0 := by
  decide +kernel

theorem test_TrapRoutes :
    sUnset.me.settled = false
  ∧ sRpl.me.replay = true
  ∧ (sNoVec.me.settled = true ∧ sNoVec.me.replay = false ∧ sNoVec.me.ring = [] ∧ (sNoVec.handler 0 0).valid = true ∧
      (sNoVec.me.role ≠ .handler 0) ∧ sNoVec.frameLive 0 0x79000 = false ∧ (sNoVec.work 0).trapvec = 0)
  ∧ (sTwice.me.settled = true ∧ sTwice.me.replay = false ∧ sTwice.me.ring = [] ∧ (sTwice.handler 0 0).valid = true ∧
      (sTwice.me.role ≠ .handler 0) ∧ sTwice.frameLive 0 0x79000 = true)
  ∧ (sNoHan.me.settled = true ∧ sNoHan.me.replay = false ∧ (sNoHan.handler 0 0).valid = false ∧
      sNoHan.frameLive 0 0x79000 = true)
  ∧ (([(0x07, 5), (0x06, 5)] : List (Nat × Word)) ≠ [] ∧ (∀ e ∈ ([(0x07, 5), (0x06, 5)] : List (Nat × Word)),
      e.1 < 23)) := by
  refine ⟨?_, ?_, ?_, ?_, ?_, ?_⟩ <;> decide +kernel

theorem test_TrapThenEret :
    sTv.cur.2 < 24 ∧ sTv.me.settled = true ∧ sTv.me.replay = false ∧ sTv.me.ring = [] ∧ sTv.me.framed = [] ∧
      sTv.me.loops.length ≤ 4 ∧ sTv.frameLive sTv.cur.1 (frameAddr sTv.cur.2) = false ∧
      (sTv.work sTv.cur.1).trapvec ≠ 0 ∧ sTv.me.pc.getLsbD 0 = false := by
  decide +kernel

theorem test_TrapInstructions :
    sTv.me.stepArm = false
  ∧ sTvS.me.stepArm = true
  ∧ (endCheck sTvM.me.loops sTvM.me.pc (nextSeq sTvM.me.pc 2)).1 = 0x1010
  ∧ sTv.me.sup = false
  ∧ (sTs.me.sup = true ∧ frameOwner (sTs.x 3) = none ∧ frameOwner (BitVec.ofNat 64 sTs.me.settling) = none)
  ∧ (sTs1.me.sup = true ∧ frameOwner (sTs1.x 4) = some 1 ∧ frameOwner (BitVec.ofNat 64 sTs1.me.settling) = some 1 ∧
      (¬ (sTs1.frameLive 0 (frameAddr 1) = true)))
  ∧ (sTwice.me.sup = true ∧ frameOwner (sTwice.x 2) = some 0 ∧ sTwice.frameLive 0 (frameAddr 0) = true ∧
      field (sTwice.frameWord 0 (frameAddr 0) 0x120) 0 3 ≤ 4 ∧ (sTwice.ctx 0 0).framed = [])
  ∧ (((sRing.ctx 0 0).ring.find? fun e => e.seq == 5) = some entA ∧ entA.st = .done)
  ∧ (((sRing.ctx 0 0).ring.find? fun e => e.seq == 6) = some entB ∧ entB.st = .faulted ∧ (sRing.ctx 0 0).trap = none)
  ∧ ((sLateT.ctx 0 0).trap = some (lateInfo entB 0x1000) ∧ (sLateT.ctx 0 0).settled = true ∧
      (sLateT.ctx 0 0).mustReturn = false ∧ sLateT.runs 0 = true ∧ (sLateT.ctx 0 0).replay = false)
  ∧ (((sDog.work 0).wdlimit.toNat * 1024 ≠ 0 ∧ (sDog.ctx 0 0).role ≠ .free ∧
      (sDog.work 0).wdlimit.toNat * 1024 ≤ (sDog.ctx 0 0).watch) ∧ ((sDog.ctx 0 0).watchTrap = false ∧
      (sDog.ctx 0 0).sup = false ∧ (sDog.ctx 0 0).trap = none ∧ (sDog.ctx 0 0).st = .ready ∧
      (sDog.ctx 0 0).mustReturn = false))
  ∧ (((sDog2.work 0).wdlimit.toNat * 1024 ≠ 0 ∧ (sDog2.ctx 0 0).role ≠ .free ∧
      (sDog2.work 0).wdlimit.toNat * 1024 ≤ (sDog2.ctx 0 0).watch) ∧ (sDog2.ctx 0 0).watchTrap = true)
  ∧ ((sJn.ctx 0 0).role ≠ .free ∧ sJn.waitOver 0 0 (sJn.ctx 0 0) = true ∧ sJn.runs 0 = true ∧
      (sJn.ctx 0 0).st = .waiting (.join 0x6000))
  ∧ ((sOld.ctx 0 0).role ≠ .free ∧ (sOld.ctx 0 0).st = .ready ∧
      (sOld.ctx 0 0).age + 256 * ((sOld.ctx 0 0).bump + 1) ≤ sOld.now ∧ (sOld.ctx 0 0).bump < sOld.base 0 0 ∧
      (sOld.ctx 0 0).trap = none ∧ sOld.runs 0 = true)
  ∧ ((sPk.ctx 0 0).replay = true ∧ (sPk.ctx 0 0).role ≠ .free ∧ sPk.runs 0 = true ∧ (sPk.ctx 0 0).st = .parked ∧
      (sPk.ctx 0 0).parked = .instr)
  ∧ (sEvenO.me.sup = true ∧ frameOwner (BitVec.ofNat 64 sEvenO.me.settling) = some 0 ∧
      sEvenO.frameLive 0 (frameAddr 0) = true ∧ (sEvenO.frameWord 0 (frameAddr 0) 0).getLsbD 0 = true)
  ∧ (sRel.me.sup = true ∧ frameOwner (BitVec.ofNat 64 sRel.me.settling) = some 0 ∧
      sRel.frameLive 0 (frameAddr 0) = true ∧ (sRel.frameWord 0 (frameAddr 0) 0).getLsbD 0 = false ∧
      field (sRel.frameWord 0 (frameAddr 0) 0x120) 0 3 ≤ 4 ∧ field (sRel.frameWord 0 (frameAddr 0) 0x20) 8 6 = 0 ∧
      0 ≠ sRel.cur.2 ∧ sRel.me.drained = false)
  ∧ ((sNar.ctx 0 0).ring.find? (fun e => e.seq == eNar.seq) = some eNar ∧ eNar.st = .running ∧ sNar.works 0 = true ∧
      eNar.instr = .vcvtn 4 2 1 1 2 ∧ eNar.records = rNar :: [rNar])
  ∧ ((sRun7.ctx 0 0).ring.find? (fun e => e.seq == 7) = some entR ∧ entR.st = .running ∧ sRun7.works 0 = true ∧
      entR.records = [])
  ∧ (((sDogL.work 0).wdlimit.toNat * 1024 ≠ 0 ∧ (sDogL.ctx 0 0).role ≠ .free ∧
      (sDogL.work 0).wdlimit.toNat * 1024 ≤ (sDogL.ctx 0 0).watch) ∧ ((sDogL.ctx 0 0).watchTrap = false ∧
      (sDogL.ctx 0 0).sup = false ∧ (sDogL.ctx 0 0).mustReturn = false) ∧
      (sDogL.ctx 0 0).trap = some (lateInfo entB 0x1000))
  ∧ ((sPh.ctx 0 0).role ≠ .free ∧ sPh.waitOver 0 0 (sPh.ctx 0 0) = true ∧ sPh.runs 0 = true)
  ∧ ((sOvr.ctx 0 0).role ≠ .free ∧ sOvr.waitOver 0 0 (sOvr.ctx 0 0) = true ∧ sOvr.runs 0 = true ∧ Unlogged sOvr 0)
  ∧ ((sGath.ctx 0 0).role ≠ .free ∧ sGath.waitOver 0 0 (sGath.ctx 0 0) = true ∧ sGath.runs 0 = true)
  ∧ ((sRdW.ctx 0 0).role ≠ .free ∧ sRdW.waitOver 0 0 (sRdW.ctx 0 0) = true ∧ sRdW.runs 0 = true ∧
      (sRdW.ctx 0 0).st = .waiting (.round 9 2))
  ∧ ((sHl2.ctx 0 0).replay = true ∧ (sHl2.ctx 0 0).role ≠ .free ∧ sHl2.runs 0 = true ∧ (sHl2.ctx 0 0).st ≠ .parked ∧
      sHl2.nextReplay 0 0 = some entH)
  ∧ ((sRpD.ctx 0 0).replay = true ∧ sRpD.nextReplay 0 0 = none ∧ sRpD.replayDone 0 0 = true) := by
  unfold Unlogged
  refine ⟨?_, ?_, ?_, ?_, ?_, ?_, ?_, ?_, ?_, ?_, ?_, ?_, ?_, ?_, ?_, ?_, ?_, ?_, ?_, ?_, ?_, ?_, ?_, ?_, ?_, ?_⟩ <;> decide +kernel

theorem test_WorkInstructions :
    (sWk.speculative 0 0 = false ∧ (sWk.x 3).toNat % 128 ≠ 0)
  ∧ (sWkM.speculative 0 0 = false ∧ (sWkM.x 3).toNat % 16 ≠ 0 ∧
      (match sWkM.globalAccess 0 0 (sWkM.x 3) .amo 4 true false with | (_, .ok p) => p == 0x3004 | _ => false) = true ∧
      (match sWkM.globalAccess 0 0 (sWkM.x 3) .read 4 true false with | (_, .ok p) => p == 0x3004 | _ => false) = true)
  ∧ ((sWkM.x 5).toNat % 16 ≠ 0 ∧
      (match sWkM.globalAccess 0 0 (sWkM.x 5) .amo 4 true false with | (_, .error (.fail [0x06] none 0x3001)) => true | _ => false) = true ∧
      (match sWkM.globalAccess 0 0 (sWkM.x 5) .read 4 true false with | (_, .error (.fail [0x06] none 0x3001)) => true | _ => false) = true)
  ∧ (64 ≤ (sFull64.work 0).deque.length ∧ (sFull64.work 0).deque = deZ :: List.replicate 63 deZ)
  ∧ (sWk.work 0).deque.length < 64
  ∧ (sWkA.speculative 0 0 = false ∧ (sWkA.x 1).toNat % 128 = 0 ∧ sWkA.me.drained = false ∧ (sWkA.x 2).toNat % 16 = 0 ∧
      (match sWkA.globalAccess 0 0 (sWkA.x 2) .read 4 true false with | (_, .ok p) => p == 0x3010 | _ => false) = true)
  ∧ ((match sWkP.globalAccess 0 0 (sWkP.x 2) .read 4 true false with | (_, .ok p) => p == 0x3010 | _ => false) = true ∧
      sWkP.me.drained = true ∧ sWkP.physPoison 0x3010 4 = true)
  ∧ (sWkL.me.drained = true ∧ sWkL.reach (sWkL.tag 0) 0 0 = some 0 ∧ sWkL.requestRoom 0 = false)
  ∧ (sWkN.me.drained = true ∧ sWkN.reach (sWkN.tag 0) 0 0 = none ∧ (sWkN.x 6).toNat < 2 ^ 18 ∧ sWkN.mayMigrate = true ∧
      sWkN.reach (sWkN.tag 0) (field (sWkN.x 6) 12 6) (field (sWkN.x 6) 0 12) = none)
  ∧ (sWkA.mayMigrate = true ∧ sWkA.me.vectorsDone = true ∧ (sWkA.x 6).toNat < 2 ^ 18 ∧
      sWkA.reach (sWkA.tag 0) (field (sWkA.x 6) 12 6) (field (sWkA.x 6) 0 12) = some 11 ∧
      2 ^ 18 ≤ (0x40000 : Word).toNat)
  ∧ (sWk.speculative 0 0 = false ∧ (sWk.x 1).toNat % 128 = 0 ∧ sWk.me.drained = true ∧
      sWk.reach (sWk.tag 0) 0 0 = some 0 ∧ sWk.requestRoom 0 = true)
  ∧ ((sWk.x 2).toNat % 16 = 0 ∧
      (match sWk.globalAccess 0 0 (sWk.x 2) .amo 4 true false with | (_, .ok p) => p == (sWk.x 2).toNat | _ => false) = true ∧
      sWk.requestRoom 0 = true ∧ (sWk.work 0).dequeRoom = true)
  ∧ ((sWk.x 2).toNat % 16 = 0 ∧
      (match sWk.globalAccess 0 0 (sWk.x 2) .read 4 true false with | (_, .ok p) => p == (sWk.x 2).toNat | _ => false) = true ∧
      sWk.me.drained = true ∧ sWk.physPoison 0x3010 4 = false ∧
      (sWk.globalAccess 0 0 (sWk.x 2) .read 4 true false).1.countZero 0 0x3010 = true)
  ∧ ((sWkJ.x 2).toNat % 16 = 0 ∧
      (match sWkJ.globalAccess 0 0 (sWkJ.x 2) .read 4 true false with | (_, .ok p) => p == (sWkJ.x 2).toNat | _ => false) = true ∧
      sWkJ.me.drained = true ∧ sWkJ.physPoison 0x3010 4 = false ∧
      (sWkJ.globalAccess 0 0 (sWkJ.x 2) .read 4 true false).1.countZero 0 0x3010 = false)
  ∧ (sWk.speculative 0 0 = false ∧ Unlogged sWk 0 ∧ (sWk.me.role ≠ .child) ∧ sWk.me.join = 0 ∧
      (sWk.me.vectorsDone = true ∧ sWk.me.drained = true ∧ sWk.requestRoom 0 = true ∧ sWk.me.cur = none ∧
      sWk.me.event = none ∧ sWk.me.banks = none))
  ∧ (match sWk.me.role with | .strand _ _ => false | _ => true) = true
  ∧ (sBrr.me.role = .strand 7 0 ∧ Tab.find (sBrr.work 0).crews 7 = some crA ∧ crA.arrived.contains 0 = false ∧
      sBrr.me.drained = true)
  ∧ (sBrU.me.role = .strand 7 0 ∧ Tab.find (sBrU.work 0).crews 7 = some crA ∧ crA.arrived.contains 0 = false ∧
      sBrU.me.drained = false)
  ∧ sBrr.mayMigrate = false
  ∧ (sWk.mayMigrate = true ∧ (sWk.me.vectorsDone = true ∧ sWk.me.drained = true ∧ sWk.requestRoom 0 = true ∧
      sWk.me.cur = none ∧ sWk.me.event = none ∧ sWk.me.banks = none) ∧ (sWk.x 6).toNat < 2 ^ 18 ∧
      sWk.reach (sWk.tag 0) (field (sWk.x 6) 12 6) (field (sWk.x 6) 0 12) = some 11)
  ∧ (sWkH.mayMigrate = true ∧ (sWkH.me.vectorsDone = true ∧ sWkH.me.drained = true ∧ sWkH.requestRoom 0 = true ∧
      sWkH.me.cur = none ∧ sWkH.me.event = none ∧ sWkH.me.banks = none) ∧
      (match sWkH.translate 0 (!sWkH.me.sup) (sWkH.x 7) .read with | (t, .ok p) => p == 0x1000 && decide (t = sWkH) | _ => false) = true ∧
      vaultCore 0x1000 = some 0 ∧ sWkH.holds 1 0 = true ∧ (sWkH.core 0).dbg.fenced = false ∧
      (sWkH.core 0).dbg.checked = false) := by
  unfold Unlogged
  refine ⟨?_, ?_, ?_, ?_, ?_, ?_, ?_, ?_, ?_, ?_, ?_, ?_, ?_, ?_, ?_, ?_, ?_, ?_, ?_, ?_, ?_⟩ <;> decide +kernel

theorem test_CrewStart :
    (((sSt.work 0).allot 3).isSome = true ∧ grA.launch.s ≤ sSt.freeCount 0)
  ∧ (crA.bank + crA.n ≤ 14 ∧ (sPsS.cores.all fun e => e.2.work.spad.wf) = true ∧ sPsS.mem.wf = true ∧
      firstBelow (fun n => (Tab.find (sPsS.work 0).swapped n).isNone) 4 = some 0 ∧ sPsS.movable 0 crA = true)
  ∧ (imS.crew = crA ∧ (sPsR.cores.all fun e => e.2.work.spad.wf) = true ∧ sPsR.mem.wf = true) := by
  refine ⟨?_, ?_, ?_⟩ <;> decide +kernel

theorem test_WorkEvents :
    ((sMk.part 1).markDue ≠ 0 ∧ sMk.journals 1 = false)
  ∧ ((sFw.work 2).ejected 0 = some msgLn ∧ msgLn.channel = 1 ∧ sFw.serves 2 = true ∧ (sFw.work 2).freeSlot = some 0 ∧
      sFw.dispatchCore (sFw.tag 2) = some 0)
  ∧ ((sLm.work 0).ejected 0 = some msgLn ∧ msgLn.channel = 1 ∧ sLm.serves 0 = true ∧ (sLm.work 0).freeSlot = some 0 ∧
      sLm.dispatchCore 1 = some 0 ∧ (((sLm.work 0).ejection.take 0).any fun q => q.channel == 1) = false ∧
      (sLm.part 1).waiting = none)
  ∧ (0x8004 : Word).toNat % 128 ≠ 0
  ∧ ((0x8000 : Word).toNat % 128 = 0 ∧
      (match (sLn.readVirt (sLn.dispatcher 1) false 0x8000 128) with | (_, .ok _) => true | _ => false) = true ∧
      (match (sLn.readVirt (sLn.dispatcher 1) false 0x8000 128) with | (u, .ok bs) => u.targetOk 1 (readLaunch 0x8000 bs).target && launchLegal (readLaunch 0x8000 bs) (numAt bs 17 1) && !u.journals 1 && (readLaunch 0x8000 bs).n != 0 && (u.startGrid 1 (readLaunch 0x8000 bs)).isSome | _ => false) = true)
  ∧ ((0x8000 : Word).toNat % 128 = 0 ∧
      (match (sLnS.readVirt (sLnS.dispatcher 1) false 0x8000 128) with | (_, .ok _) => true | _ => false) = true ∧
      (match (sLnS.readVirt (sLnS.dispatcher 1) false 0x8000 128) with | (u, .ok bs) => u.targetOk 1 (readLaunch 0x8000 bs).target && launchLegal (readLaunch 0x8000 bs) (numAt bs 17 1) && (u.startGrid 1 (readLaunch 0x8000 bs)).isNone | _ => false) = true)
  ∧ ((0x8000 : Word).toNat % 128 = 0 ∧
      (match (sLnT.readVirt (sLnT.dispatcher 1) false 0x8000 128) with | (_, .ok _) => true | _ => false) = true ∧
      (match (sLnT.readVirt (sLnT.dispatcher 1) false 0x8000 128) with | (u, .ok bs) => !u.targetOk 1 (readLaunch 0x8000 bs).target | _ => false) = true)
  ∧ ((0x8000 : Word).toNat % 128 = 0 ∧
      (match (sLnL.readVirt (sLnL.dispatcher 1) false 0x8000 128) with | (_, .ok _) => true | _ => false) = true ∧
      (match (sLnL.readVirt (sLnL.dispatcher 1) false 0x8000 128) with | (u, .ok bs) => u.targetOk 1 (readLaunch 0x8000 bs).target && !launchLegal (readLaunch 0x8000 bs) (numAt bs 17 1) | _ => false) = true)
  ∧ (match (sLnX.readVirt (sLnX.dispatcher 1) false 0x8000 128) with | (_, .error _) => true | _ => false) = true
  ∧ ((sRt.part 1).waiting = some grA.launch ∧ (sRt.startGrid 1 grA.launch).isSome = true)
  ∧ (Tab.find sDs.net.descs 3 = some (0, grA) ∧ (sDs.net.descs.any fun x => decide (x.1 < 3) && x.2.1 == 0) = false)
  ∧ (Tab.find sEn.net.ends 4 = some (0, 0x1001) ∧
      (sEn.net.descs.any fun x => decide (x.1 < 4) && x.2.1 == 0 && x.2.2.counter == 0x1001) = false)
  ∧ ((sAd.work 0).claim = none ∧ (sAd.work 0).nextGrid = some { grA with counter := key7 } ∧
      sAd.nextJob 0 = some .crew)
  ∧ ((sAd2.work 0).claim = some (.got 2 grA) ∧ sAd2.nextJob 0 = some .crew)
  ∧ (Tab.find (sCd.work 0).crews 7 = some { crA with grid := { grA with done := key7 }, halted := [1, 0] } ∧
      (sCd.work 0).crewBusy 7 = false ∧ crA.ctxs.length = 2 ∧ sCd.requestRoom 0 = true)
  ∧ ((sCd.work 0).retained[0]? = some ⟨9, 4, 2, 0, false⟩ ∧ 0 + 2 ^ 20 ≤ sCd.now ∧
      bankMask 4 2 &&& (sCd.work 0).lpBanks = 0)
  ∧ ((sGc.part 1).runs[0]? = some ⟨grA.launch, key7, counterKey 1 0 8⟩ ∧
      sGc.counter 1 (counterKey 1 0 8) = some { ctrA with p := 1 } ∧ ({ ctrA with p := 1 } : Counter).raised 0 = true ∧
      sGc.quiescent 1 (counterKey 1 0 8) = true ∧ sGc.quiescent 1 key7 = true)
  ∧ (((match sFk.popBottom 0 with | some (e, u) => decide (e = { deA with x2 := 9 } ∧ u = sFk.setWork 0 { sFk.work 0 with deque := [deA] }) | none => false) = true) ∧
      sFk.freeCtx 0 = some 1 ∧ sFk.nextJob 0 = some .child ∧ deA.bad = [])
  ∧ (((match sFkB.popBottom 0 with | some (e, u) => decide (e = { deA with bad := [1] } ∧ u = sFkB.setWork 0 { sFkB.work 0 with deque := [deA] }) | none => false) = true) ∧
      sFkB.freeCtx 0 = some 1 ∧ sFkB.nextJob 0 = some .child)
  ∧ ((sTh.victims 0)[(sTh.work 0).steal.tried]? = some 1 ∧ sTh.idleThief 0 = true ∧ sTh.requestRoom 0 = true ∧
      (sTh.work 0).steal.notBefore ≤ sTh.now)
  ∧ (Tab.find sDs.net.steals 5 = some (2, 0) ∧ sDs.takes 0 (sDs.tag 2) = true ∧ sDs.tag 0 = sDs.tag 2 ∧
      sDs.runs 0 = true ∧ sDs.requestRoom 0 = true ∧ (sDs.work 0).dequeSize = 0)
  ∧ (Tab.find sSv.net.steals 5 = some (2, 0) ∧ (sSv.work 0).deque = deA :: [{ deA with x2 := 9 }] ∧
      (sSv.work 0).spilled = 0 ∧ sSv.runs 0 = true ∧ sSv.tag 0 = sSv.tag 2 ∧ inDomain deA.domain.toNat 0 2 = true)
  ∧ (inDomain ({ deA with domain := 0 } : DequeEntry).domain.toNat 0 2 = false ∧
      (sSvO.work 0).deque = { deA with domain := 0 } :: [])
  ∧ (Tab.find sSvA.net.steals 5 = some (2, 0) ∧ sSvA.takes 0 (sSvA.tag 2) = false)
  ∧ (sRp.stealReply 5 = some (0, 0, msgSt) ∧ msgSt.payload ≠ [] ∧ msgSt.bad = [] ∧ sRp.freeCtx 0 = some 1 ∧
      (sRp.work 0).freeSlot = some 0 ∧ sRp.nextJob 0 = some (.stolen 5))
  ∧ (sRpB.stealReply 5 = some (0, 0, msgSb) ∧ msgSb.payload ≠ [] ∧ msgSb.bad ≠ [] ∧ sRpB.freeCtx 0 = some 1 ∧
      (sRpB.work 0).freeSlot = some 0 ∧ sRpB.nextJob 0 = some (.stolen 5))
  ∧ (sReS.stealReply 5 = some (0, 0, msgSe) ∧ msgSe.payload = [])
  ∧ (sRe.stealReply 5 = some (0, 0, msgSe) ∧ msgSe.payload = [])
  ∧ (sJo.longest 0 (sJo.joiners 0) = some 5 ∧ sJo.freeCtx 0 = none ∧ (sJo.work 0).oxbow.getLsbD 0 = true ∧
      sJo.serves 0 = true ∧ (sJo.ctx 0 5).ring = [] ∧ (sJo.ctx 0 5).settled = true ∧
      Tab.find (sJo.work 0).joinOut 5 = none)
  ∧ (Tab.find (sJr.work 0).joinOut 5 = some kJo ∧ sJr.freeCtx 0 = some 1 ∧ kJo.st = .waiting (.join 0x6000) ∧
      sJr.joined 0 kJo 0x6000 = true ∧ sJr.serves 0 = true)
  ∧ ((sMi.work 0).ejected 0 = some msgM ∧ sMi.freeCtx 0 = some 1 ∧ (sMi.work 0).freeSlot = some 0 ∧
      sMi.nextJob 0 = some (.migration 0) ∧ msgM.bad = [])
  ∧ ((sMiB.work 0).ejected 0 = some { msgM with bad := [1] } ∧ sMiB.freeCtx 0 = some 1 ∧
      (sMiB.work 0).freeSlot = some 0 ∧ sMiB.nextJob 0 = some (.migration 0))
  ∧ (Tab.find (sPs.work 0).crews 7 = some crA ∧ sPs.swapWanted 0 7 = true ∧ sPs.canLeave 0 7 crA = true ∧
      sPs.serves 0 = true)
  ∧ ((sId.work 0).swaps = true ∧ sId.starved 0 = true ∧ sId.serves 0 = true ∧ (sId.work 0).crews = [(7, crA)] ∧
      sId.crewsIdle 0 = true ∧
      sId.oldestCrew 0 ((sId.work 0).crews.filter fun e => !(sId.strands 0 e.1 e.2).isEmpty && sId.movable 0 e.2) = some (7,
      crA) ∧ sId.canLeave 0 7 crA = true)
  ∧ (sRa.nextJob 0 = some (.readmit 0) ∧ Tab.find (sRa.work 0).swapped 0 = some { imA with ready := true }) := by
  refine ⟨?_, ?_, ?_, ?_, ?_, ?_, ?_, ?_, ?_, ?_, ?_, ?_, ?_, ?_, ?_, ?_, ?_, ?_, ?_, ?_, ?_, ?_, ?_, ?_, ?_, ?_, ?_, ?_, ?_, ?_, ?_, ?_, ?_, ?_, ?_⟩ <;> decide +kernel

theorem test_PartitionEvents :
    ((sPa.core 0).evicting = none ∧ sPa.canEvict 0 = true)
  ∧ ((sStp.core 0).evicting = some .stopping ∧ sStp.stopped 0 = true ∧ (sStp.cluster 0).halted = false ∧
      (sStp.cluster 0).ftest.getLsbD 0 = false ∧ (sStp.part (sStp.tag 0)).evictvec = 0)
  ∧ ((sStv.core 0).evicting = some .stopping ∧ sStv.stopped 0 = true ∧ (sStv.cluster 0).halted = false ∧
      (sStv.cluster 0).ftest.getLsbD 0 = false ∧ (sStv.part (sStv.tag 0)).evictvec ≠ 0)
  ∧ ((sRou.core 0).evicting = some (.routine 100 (sStv.core 0).work.stopEngines.aside) ∧ sRou.onWay 0 = false ∧
      (sRou.ctx 0 0).role = .free ∧ 100 + 8192 ≤ sRou.now)
  ∧ sPb.mem.wf = true
  ∧ ((sRst.core 0).image = some imB ∧ imB.tag = 1 ∧ sRst.vacated 0 imB.tag.toNat = true ∧
      sRst.holds imB.tag.toNat 0 = true ∧ (sRst.core 0).evicting = none ∧ (sRst.cluster 0).halted = false ∧
      (sRst.cluster 0).ftest.getLsbD 0 = false ∧ (sRst.core 0).dbg.checked = false)
  ∧ ((sRstM.core 0).image = some { imB with msgs := [(61, msgB), (62, msgR)] } ∧ (({ imB with
      msgs := [(61, msgB), (62, msgR)] } : Image).msgs.map fun e => e.1).Nodup ∧ sRstM.vacated 0 1 = true)
  ∧ (Memory.wf [] = true ∧ (sPb.work 0).spad.wf = true ∧ (0x105 : Nat) < 0x80000 ∧ ((∀ e ∈ (sPb.work 0).cells,
      e.1 < 64 ∧ ∀ x, e.2.reply = some x → x.payload.length ≤ 96)) ∧
      ((sPb.work 0).ejection.flatMap fun x => x.headBytes ++ x.payload).length ≤ 57344 ∧ (sPb.work 0).deque.length ≤ 64 ∧
      (sPb.work 0).lps.length ≤ 16 ∧ ([Queue.qc0, .qc1, .qg, .qm].flatMap (sPb.work 0).queue).length ≤ 128)
  ∧ (sPa.partCores 1 ≠ [] ∧ (sPa.renumbers 1 = false ∨ (∀ h ∈ sPa.partCores 1, sPa.onWay h = false)))
  ∧ (sRen.partCores 1 ≠ [] ∧ sRen.renumbers 1 = true ∧ (∃ h ∈ sRen.partCores 1, sRen.onWay h = true))
  ∧ (sFullR.partCores 1 ≠ [] ∧ sFullR.tag 0 = 1 ∧ sFullR.imageOf 1 0 = none ∧ (sFullR.core 0).evicting = none ∧
      0 ∈ sFullR.partCores 1 ∧ 700 ∉ sFullR.partCores 1)
  ∧ sPa.partCores 2 = []
  ∧ ((sJou.part 1).replayDue = true ∧ (sJou.part 1).resetDue = false ∧ sJou.dispatchCore 1 = some 0 ∧
      (match (sJou.setPart 1 { sJou.part 1 with replayDue := false }).readVirt 0 true ((sJou.part 1).journal &&& ~~~0xFFF) 4096 with | (_, .ok _) => true | _ => false) = true)
  ∧ ((sJbad.part 1).replayDue = true ∧ (sJbad.part 1).resetDue = false ∧ sJbad.dispatchCore 1 = some 0 ∧
      (match (sJbad.setPart 1 { sJbad.part 1 with replayDue := false }).readVirt 0 true ((sJbad.part 1).journal &&& ~~~0xFFF) 4096 with | (_, .error _) => true | _ => false) = true)
  ∧ (2 < 8 ∧ (0x11000 : Nat) < 2 ^ 20 ∧ (0x11000 : Nat) % 8 = 0 ∧ sFl.isDispatch 0 = true ∧
      (0x80 : Word).toNat % 128 = 0)
  ∧ ((0 : Nat) < 163840 ∧ 0 < 64 ∧ 3 < 256)
  ∧ ((∀ e ∈ wqs, e.tag < 64) ∧ wqs ≠ [] ∧ (⟨[(2, 9)], 0⟩ : Weir).next wqs = some 9 ∧ (∃ e ∈ heads wqs, (⟨[(2, 9)],
      0⟩ : Weir).pays e.tag e.cost = true))
  ∧ (9 < 64 ∧ 3 < 8 ∧ field (0x0800001 : Word) 23 15 * 2 ^ 23 ≤ 0xB000000 ∧
      0xB000000 < field (0x3FFF800001 : Word) 23 15 * 2 ^ 23 ∧ (0x0800001 : Word).getLsbD 0 = true)
  ∧ (match sPa.walk 0 false 0x1000 .read with | .ok _ => true | .error _ => false) = true
  ∧ (match sPa.walk 0 false 0x8000000000000000 .read with | .ok _ => true | .error _ => false) = false := by
  refine ⟨?_, ?_, ?_, ?_, ?_, ?_, ?_, ?_, ?_, ?_, ?_, ?_, ?_, ?_, ?_, ?_, ?_, ?_, ?_, ?_⟩ <;> decide +kernel

theorem test_ErrorAndDebugEvents :
    (((0 : BitVec 8).toNat ≤ 5 ∧ (0 : BitVec 8) ≠ 1))
  ∧ ((sEr.cluster 0).haltDue = some 0x44 ∧ sEr.halyardTag 0 = some 1 ∧
      sEr.reach 1 (field (sEr.cluster 0).notify 28 6) (field (sEr.cluster 0).notify 16 12) = some 1)
  ∧ ((sErN.cluster 0).haltDue = some 0x44 ∧ sErN.halyardTag 0 = none)
  ∧ (sHtd.cluster 0).halted = true
  ∧ ((sFt.cluster 0).ftest.getLsbD 3 = true ∧ (sFt.cluster 0).halted = false ∧
      (sFt.cluster 0).ftest.getLsbD 0 = false ∧ ((sFt.cluster 0).faults = [] ∧ ∀ h ∈ clusterCores 0,
      sFt.testable h = true))
  ∧ ((sFtA.cluster 0).ftest.getLsbD 3 = true ∧ (sFtA.cluster 0).halted = false ∧
      (sFtA.cluster 0).ftest.getLsbD 0 = true)
  ∧ ((sFtB.cluster 0).ftest.getLsbD 3 = true ∧ (sFtB.cluster 0).halted = false ∧
      (sFtB.cluster 0).ftest.getLsbD 0 = false ∧ (¬ ((sFtB.cluster 0).faults = [] ∧ ∀ h ∈ clusterCores 0,
      sFtB.testable h = true)))
  ∧ (sFtR.cluster 0).ftest.getLsbD 0 = true
  ∧ ((1 : Word).getLsbD 0 = true ∧ 1 < 2 ∧ ((sMon.core 0).dbg.due.find? fun x => x.mon == 1 && x.val == 200) = some ⟨1,
      200, 2⟩ ∧ ((sMon.core 0).dbg.due.find? fun x => x.mon == 1 && x.val == 7) = none)
  ∧ ((List.replicate 10 (5 : Byte)).length = 10 ∧ (List.replicate 32 (5 : Byte)).length = 32 ∧
      (sMon.chip sMon.here).erased = false)
  ∧ ((sAl.chip 0).policy = true ∧ Tab.look [] (sAl.part 1).cores 0 ≠ [] ∧ Tab.look [] (sAl.part 2).cores 0 = [])
  ∧ ((Tab.look 0 (sEr.core 0).dbg.mcrec 0).getLsbD 0 = false ∧ sEr.holds (sEr.tag 0) 0 = true)
  ∧ ((0xFF00FF : BitVec 32).getLsbD 0 = true ∧ (0x100 : BitVec 32).getLsbD 0 = false ∧ sFt.isDispatch 0 = true)
  ∧ (sHl.hostRecord 0 = some (9, wordBytes 0x1234) ∧ sHl.logMode 0 = 2 ∧ sHl.logReached 0 = true ∧
      (sHl.core 0).dbg.again ≠ some (field (sHl.core 0).dbg.rlhead 0 32) ∧ (sHl.work 0).ejection.length < 16) := by
  refine ⟨?_, ?_, ?_, ?_, ?_, ?_, ?_, ?_, ?_, ?_, ?_, ?_, ?_, ?_⟩ <;> decide +kernel

theorem test_ManagementEvents :
    (Tab.find (sHo.chip 0).apertures 3 = some (1, 0x10000) ∧ (sHo.chip 0).ready = true ∧ (sHo.part 1).cores ≠ [] ∧
      3 < 16 ∧ 8 + [1, 2].length ≤ 2 ^ 32 ∧
      (match sHo.hostPieces 1 true (pieces64 (0x10000 + 8) 2) with | some ps => sHo.hostTurn 1 true ps | none => false) = true ∧
      1 < 64 ∧ (1, 5) ∈ (sHo.chip 0).doorbells ∧ (1, 6) ∉ (sHo.chip 0).doorbells)
  ∧ ((sPa.chip 0).ready = false ∧ 16 < 32)
  ∧ sHo.storeFails 0x10008 = false
  ∧ sPf.net.nreds ≠ []
  ∧ (formLegal 2 [0, 1, 2561] 100 50 = true ∧ (State.reset.part 2).cores = [] ∧ [0, 1,
      2561].all (State.reset.takable 2) = true ∧ State.reset.hyperThere 2 [0, 1, 2561] = false ∧
      State.reset.floorsFit 2 50 = true)
  ∧ (formLegal 2 [0, 1, 5] 100 50 = true ∧ sFm.floorsFit 2 50 = true ∧ (sFm.part 2).cores ≠ [] ∧ sFm.hyperThere 2 [0,
      1, 5] = false ∧ ((changed (sFm.part 2).cores (coreMap [0, 1,
      5])).all fun g => if (sFm.partCores 2).contains g then sFm.atRest g && sFm.tag g == 2 && (sFm.imageOf 2 g).isNone else sFm.takable 2 g) = true ∧
      sFm.partCores 2 ≠ [] ∧
      (sFm.partCores 2).all (fun g => sFm.tag g == 2 && sFm.atRest g && (sFm.imageOf 2 g).isNone) = true)
  ∧ ((sRq.chip sRq.here).replace = true ∧ (sRq.chip sRq.here).told = false ∧ (4 ≤ 9 ∧ 9 ≤ 16))
  ∧ (4 ≤ 9 ∧ 9 ≤ 16 ∧ islandOf 5 = 1 ∧ islandOf 700 ≠ 1)
  ∧ (2561 : Nat) < 163840
  ∧ ((sFmB.part 2).cores ≠ [] ∧ (1 : Nat) ∈ changed (sFmB.part 2).cores (coreMap [0, 5]) ∧ 1 ∈ sFmB.partCores 2 ∧
      sFmB.atRest 1 = false)
  ∧ ((sRq.chip sRq.here).erased = false ∧ (sEra.chip sEra.here).erased = true)
  ∧ ((0 : Nat) = 0 / 2560 ∧ 2562 / 2560 ≠ 0 ∧ (sRes.parts.map fun e => e.1).Nodup ∧ (sRes.chip 0).firmware = some [7,
      8] ∧ (sRes.chip 0).erased = false)
  ∧ (fnd.failed = [] ∧ fnd.measured = false ∧ (0 : Nat) < 163840 ∧ 0x100 < Config.vaultEnd)
  ∧ (({ fnd with measured := true } : Bringup).measured = true ∧ islandOf 5 = 1) := by
  refine ⟨?_, ?_, ?_, ?_, ?_, ?_, ?_, ?_, ?_, ?_, ?_, ?_, ?_, ?_⟩ <;> decide +kernel

/-! ### One step each: results calculated by hand from the rules -/

/-- A register after an instruction. -/
def xAfter (i : Instr) (s : State) (r : XReg) : Option Word := match exec i s with
  | .next t => some (t.x r)
  | _ => none

/-- Something of the executing context after an instruction. -/
def meAfter {α : Type} (i : Instr) (s : State) (f : Ctx → α) : Option α := match exec i s with
  | .next t => some (f t.me)
  | _ => none

/-- R57: the sum wraps. -/
theorem test_add_wraps : xAfter (.add 9 1 4) sDiv 9 = some 6 := by decide +kernel

/-- R57: −1 × 7 has the high half all ones; unsigned, it is 6. -/
theorem test_mulh_signs :
    xAfter (.mulh 9 4 1) sDiv 9 = some 0xFFFFFFFFFFFFFFFF ∧ xAfter (.mulhu 9 4 1) sDiv 9 = some 6 := by decide +kernel

/-- R58: −2^63 / −1, and a remainder by zero. -/
theorem test_div_corners :
    xAfter (.div 9 3 4) sDiv 9 = some 0x8000000000000000 ∧ xAfter (.rem 9 1 2) sDiv 9 = some 7 := by decide +kernel

/-- R57, R28: the shift amount is taken modulo 64; the 15-bit immediate is signed. -/
theorem test_shift_and_immediate :
    xAfter (.shl 9 1 3) sDiv 9 = some 7 ∧ xAfter (.addi 9 1 0x7FFF) sDiv 9 = some 6 := by decide +kernel

/-- R59: the top bit alone, extracted and inserted. -/
theorem test_bit_fields :
    xAfter (.bfx 9 3 0 63) sDiv 9 = some 1 ∧ xAfter (.bfi 1 4 3 8) sDiv 1 = some 0xF07 := by decide +kernel

/-- R15, R85: a taken branch backwards, and the compact form in sequence. -/
theorem test_branches :
    meAfter (.bz 2 0xFFFC) sDiv (fun k => k.pc) = some 0x1008 ∧ meAfter (.bzCompact 1 5) sDiv (fun k => k.pc) = some 0x1012 := by
  decide +kernel

/-- R82: the end of a loop with turns left goes back to its start. -/
theorem test_loop_end : (sLoop.retireTo 0x1018 false).me.pc = 0x1010 := by decide +kernel

/-- R60: a byte with its sign, and a doubleword in little-endian order. -/
theorem test_ldl :
    xAfter (.ldl 0 5 1 1 0) sLoc 5 = some 0xFFFFFFFFFFFFFF81 ∧ xAfter (.ldl 3 5 1 0 0) sLoc 5 = some 0xFF00000000000081 := by
  decide +kernel

/-- R208: a misaligned local load takes cause 0x06. -/
theorem test_ldl_misaligned : meAfter (.ldl 1 5 4 0 0) sLoc (fun k => k.trap.map fun t => t.cause) = some none ∧
    meAfter (.ldl 1 5 4 0 0) (sLoc.setMe { sLoc.me with acks := [1] }) (fun k => k.trap.map fun t => t.cause) = some (some 6) := by
  decide +kernel

/-- R147: the lanes of a predicate are loaded, the others keep their value. -/
theorem test_vldl : meAfter (.vldl 3 17 1) sVec (fun k => [lane (k.vreg 3) 0, lane (k.vreg 3) 1, lane (k.vreg 3) 2]) =
    some [0x81, 0, 3] := by decide +kernel

/-- R215: BTEST puts the result above the parity in the order of the rule. -/
theorem test_btest : xAfter (.btest 1 6 7) sBar 7 = some 0x100000001 := by decide +kernel

/-- R151: an overshoot completes the phase and sets the error. -/
theorem test_barrier_overshoot :
    (⟨0, 2, 0, false, false, 3⟩ : BarObj).credit 5 = (⟨1, 2, 2, true, false, -2⟩, true) := by decide +kernel

/-- R212: the frame of a trap in place, at its context's address. -/
theorem test_trap_frame :
    let w := (sTv.trap 0x0B 5).work 0
    w.spad.word 0x79000 = 0x1010 ∧ w.spad.word 0x79008 = 5 ∧ w.spad.word 0x79028 = 0x800 ∧ w.spad.word 0x79048 = 7 := by
  decide +kernel

/-- R216: ERET goes back to the instruction that trapped. -/
theorem test_eret : meAfter .eret (sTv.trap 0x0B 5) (fun k => (k.pc, k.sup)) = some (0x1010, false) := by decide +kernel

/-- R91: the last arrival opens the barrier for both strands. -/
theorem test_bar : (match exec .bar sBrr with
    | .next t => some ((t.ctx 0 0).pc, (t.ctx 0 3).pc)
    | _ => none) = some (0x1014, 0x1014) := by decide +kernel

/-- R86: a child starts at the signed displacement of its FORK. -/
theorem test_fork : (match exec (.fork 2 0xFFFE) sWk with
    | .next t => some ((t.work 0).deque.map fun e => e.entry)
    | _ => none) = some [0x100C] := by decide +kernel

/-- R239: two ones make two, whatever the order; a negative zero alone stays. -/
theorem test_reduction_lane :
    ((SumLane.start.join 0x3F800000).join 0x3F800000).result = 0x40000000 ∧ (SumLane.start.join 0x80000000).result = 0x80000000 := by
  decide +kernel

/-- R77: a step fetches, decodes and runs: 5 + 6, and the pc moves by one word. -/
theorem test_step : (match step sRunA with
    | .next t => some (t.me.x[1], t.me.pc)
    | _ => none) = some (11, 0x1014) := by decide +kernel

/-- R18, R216: ERET without supervisor privilege takes cause 0x05. -/
theorem test_step_privilege : (match step sRunB with
    | .next t => some t.me.cause
    | _ => none) = some 0x05 := by decide +kernel

/-- What the host asks: the word placed at the pc is the next instruction that runs (log entry 56). -/
theorem test_with_fetch_word : decodeTableWord 32 0x40048C00 = some (.add 1 2 3) ∧ (match step (State.reset.withFetchWord 32 0x40048C00) with
    | .next t => some t.me.pc
    | _ => none) = some ((State.reset.withFetchWord 32 0x40048C00).me.pc + 4) := by decide +kernel

/-- The hypotheses of the clause on STEAL_ROUND together: the round of a core is over. -/
theorem test_WorkEvents_round : sRd.idleThief 0 = true ∧ (sRd.work 0).steal.notBefore ≤ sRd.now
    ∧ (sRd.victims 0).length ≤ (sRd.work 0).steal.tried ∧ 0 < (sRd.work 0).steal.tried := by
  refine ⟨by decide +kernel, by decide +kernel, ?_, by decide +kernel⟩
  have h : (sRd.work 0).steal.tried = 3000 := by decide +kernel
  rw [h]
  exact (List.length_filter_le _ _).trans (by simp)

/-- The requests that wait at an agent, where each of them has arrived and nothing keeps it away. -/
theorem atAgent_all (s : State) (pa k : Nat) (h : ∀ e ∈ s.net.reqs, (homeKey e.2.pa == homeKey pa) = true
    ∧ (e.1 = k ∨ e.2.arrival ≤ s.now) ∧ s.firstToHome e.1 e.2 = true ∧ (s.homeAway e.2.g e.2.pa || s.homeBusy e.2.pa) = false) :
    s.atAgent pa k = s.net.reqs.map fun e => ⟨e.1, s.tag e.2.g, e.2.cost⟩ := by
  unfold State.atAgent
  rw [List.filter_eq_self.mpr]
  intro e he
  obtain ⟨h1, h2, h3, h4⟩ := h e he
  simp_all

/-- The hypotheses of the clause on a request of MEMORY_ACCESS whose turn has not come: an older one of the same partition waits. -/
theorem test_HomeAccess_turn : Tab.find sTurn.net.reqs 8 = some { rq with id := 8, c := 2 }
    ∧ sTurn.firstToHome 8 { rq with id := 8, c := 2 } = true ∧ sTurn.mem.wf = true ∧ sTurn.homeOff 0x1000 = false
    ∧ (sTurn.homeAway 0 0x1000 || sTurn.homeBusy 0x1000) = false ∧ sTurn.itsTurn 8 { rq with id := 8, c := 2 } = false := by
  refine ⟨by decide +kernel, by decide +kernel, by decide +kernel, by decide +kernel, by decide +kernel, ?_⟩
  have h : sTurn.atAgent 0x1000 8 = [⟨5, 1, 1⟩, ⟨8, 1, 1⟩] := by
    rw [atAgent_all]
    · decide +kernel
    · intro e he
      have h : e = (5, rq) ∨ e = (8, { rq with id := 8, c := 2 }) := by simpa [sTurn] using he
      obtain rfl | rfl := h
      · exact ⟨by decide +kernel, .inr (by simp [MemReq.arrival, rq, sTurn]), by decide +kernel, by decide +kernel⟩
      · exact ⟨by decide +kernel, .inl rfl, by decide +kernel, by decide +kernel⟩
  unfold State.itsTurn
  rw [show ({ rq with id := 8, c := 2 } : MemReq).pa = 0x1000 from rfl, h]
  decide +kernel

/-- An older request of partition 1 at an agent keeps a younger access of it waiting. -/
theorem no_turn (s : State) (pa n : Nat) (r : MemReq) (h : s.net.reqs = [(n, r)]) (h1 : (homeKey r.pa == homeKey pa) = true)
    (h2 : r.arrival ≤ s.now) (h3 : s.firstToHome n r = true) (h4 : (s.homeAway r.g r.pa || s.homeBusy r.pa) = false)
    (h5 : (match s.weirAt pa with
      | some w => w.next [⟨n, s.tag r.g, r.cost⟩, ⟨s.nextId, 1, 1⟩] == some s.nextId
      | none => true) = false) : s.turnAt pa 1 1 = false := by
  unfold State.turnAt
  rw [atAgent_all s pa s.nextId (by simp_all), h]
  exact h5

/-- The hypotheses of the clause on a piece of an engine whose turn has not come. -/
theorem test_EngineEvents_turn : (sMvT.work 0).queue .qc0 = { cmdC with st := .active prM } :: [] ∧ sMvT.engineRuns 0 .qc0 = true
    ∧ sMvT.srcReady 0 (.phys 0x1000 4) = true ∧ sMvT.pieceTurn 0 0x1000 = false := by
  refine ⟨by decide +kernel, by decide +kernel, by decide +kernel, ?_⟩
  exact no_turn sMvT 0x1000 3 rq3 rfl (by decide +kernel) (by simp [MemReq.arrival, rq3, sMvT]) (by decide +kernel)
    (by decide +kernel) (by decide +kernel)

/-- The hypotheses of the clause on an access of the host whose turn has not come. -/
theorem test_ManagementEvents_turn : (sHoT.chip 0).ready = true ∧ Tab.find (sHoT.chip 0).apertures 3 = some (1, 0x10000)
    ∧ sHoT.hostPieces 1 true (pieces64 (0x10000 + 8) 2) = some [(0x10008, 2)] ∧ sHoT.hostTurn 1 true [(0x10008, 2)] = false := by
  refine ⟨by decide +kernel, by decide +kernel, by decide +kernel, ?_⟩
  have h : sHoT.turnAt 0x10008 1 1 = false := no_turn sHoT 0x10008 5 { rq with pa := 0x10008 } rfl (by decide +kernel)
    (by simp [MemReq.arrival, rq, sHoT]) (by decide +kernel) (by decide +kernel) (by decide +kernel)
  simp [State.hostTurn, pieceCost, h]

end Sys2Proof.Tests
end

section
/-! The words and bytes of instructions (O1, O2). -/

namespace Sys2Proof

open BitVec (extractLsb'_append_eq_of_le extractLsb'_append_eq_of_add_le extractLsb'_extractLsb'_of_le)

/-! ### Fields of a word -/

theorem extractLsb'_whole {w start : Nat} (x : BitVec w) (h : start = 0) : x.extractLsb' start w = x := by
  rw [h, BitVec.extractLsb'_eq_self]

/-- A field of a field is a field. -/
theorem extractLsb'_field {w a n b m : Nat} (x : BitVec w) (h : b + m ≤ n) :
    (x.extractLsb' a n).extractLsb' b m = x.extractLsb' (a + b) m := by
  ext j hj
  have hn : b + j < n := by omega
  simp [hn, Nat.add_assoc]

/-! ### The decoder undoes the encoder (R25 to R38)

The words of an instruction are its fields side by side. A field is read back by dropping what stands below it and leaving what stands
above it, so the codes select the arm of the decoder, its reserved fields read 0, and its operands are the fields. -/

theorem decode16_of_encode {i : Instr} {w : BitVec 16} (h : encode i = some (.w16 w)) : decode16 w = .ok i := by
  cases i <;> cases h
  all_goals
    simp (disch := decide) only [decode16, decodeCompact, decodeShortBranch, extractLsb'_append_eq_of_le,
      extractLsb'_append_eq_of_add_le, extractLsb'_whole, Nat.reduceSub, BitVec.reduceExtractLsb', BitVec.reduceToNat,
      BitVec.ofNat_eq_ofNat, if_true]

theorem decode32_of_encode {i : Instr} {w : BitVec 32} (h : encode i = some (.w32 w)) : decode32 w = .ok i := by
  cases i <;> cases h
  all_goals
    simp (disch := decide) only [decode32, decode4, decode5, decode6, decode6op4, decode7, decode7opD, decode7opE, decode8, decode9,
      decodeA, decodeC, decodeD, decodeE, decodeF, decodeFop6, extractLsb'_append_eq_of_le, extractLsb'_append_eq_of_add_le,
      extractLsb'_whole, Nat.reduceSub, BitVec.reduceExtractLsb', BitVec.reduceToNat, BitVec.ofNat_eq_ofNat, if_true, and_self]

theorem decode64_of_encode {i : Instr} {w : BitVec 64} (h : encode i = some (.w64 w)) : decode64 w = .ok i := by
  cases i <;> cases h
  all_goals
    simp (disch := decide) only [decode64, decodePrefixed, decode32, decode8, decodeA, extractLsb'_extractLsb'_of_le,
      extractLsb'_append_eq_of_le, extractLsb'_append_eq_of_add_le, extractLsb'_whole, Nat.reduceSub, BitVec.reduceExtractLsb',
      BitVec.reduceToNat, BitVec.ofNat_eq_ofNat, if_true, and_self]

theorem decode_of_encode {i : Instr} {c : Code} (h : encode i = some c) : decode c = .ok i := by
  cases c with
  | w16 w => exact decode16_of_encode h
  | w32 w => exact decode32_of_encode h
  | w64 w => exact decode64_of_encode h

/-! ### The major gives the length (R16, R19) -/

/-- Only a word as long as its major says has an instruction. -/
theorem halfwordsOf_of_decode {i : Instr} : ∀ {c : Code}, decode c = .ok i →
    halfwordsOf ((halvesOfCode c).getD 0 0) = (halvesOfCode c).length
  | .w16 w, h => by
    show halfwordsOf w = 1
    simp only [decode, decode16, halfwordsOf] at h ⊢
    split at h <;> simp_all only [reduceCtorEq]
  | .w32 w, h => by
    show halfwordsOf (w.extractLsb' 16 16) = 2
    simp only [decode, decode32] at h
    rw [halfwordsOf, extractLsb'_field w (by decide)]
    split at h <;> simp_all only [reduceCtorEq]
  | .w64 w, h => by
    show halfwordsOf (w.extractLsb' 48 16) = 4
    have hB : w.extractLsb' 60 4 = 0xB := by
      by_contra hne
      rw [decode, decode64, if_neg hne] at h
      cases h
    rw [halfwordsOf, extractLsb'_field w (by decide), hB]
    rfl

/-! ### The bytes of a word (R9) -/

theorem halfOfBytes_bytes (h : Half) : halfOfBytes (h.extractLsb' 0 8) (h.extractLsb' 8 8) = h := by
  simp (disch := decide) only [halfOfBytes, BitVec.extractLsb'_append_extractLsb'_eq_extractLsb', BitVec.extractLsb'_eq_self]

/-- The bytes of halfwords are read back as the halfwords, whatever follows. -/
theorem takeHalves_bytes (hs : List Half) (r : List Byte) :
    takeHalves hs.length ((hs.flatMap fun h => [h.extractLsb' 0 8, h.extractLsb' 8 8]) ++ r) = some (hs, r) := by
  induction hs with
  | nil => rfl
  | cons h hs ih => simp [takeHalves, ih, halfOfBytes_bytes]

/-- The halfwords of a word hold the word. -/
theorem codeOfHalves_halvesOfCode {c : Code} (h : halfwordsOf ((halvesOfCode c).getD 0 0) = (halvesOfCode c).length) :
    codeOfHalves (halvesOfCode c) = some c := by
  cases c with
  | w16 w => exact if_pos h
  | w32 w =>
    have hw : w.extractLsb' 16 16 ++ w.extractLsb' 0 16 = w := BitVec.extractLsb'_append_extractLsb' (w := 16)
    exact (if_pos h).trans (by rw [hw])
  | w64 w =>
    have hw : w.extractLsb' 48 16 ++ w.extractLsb' 32 16 ++ w.extractLsb' 16 16 ++ w.extractLsb' 0 16 = w := by
      simp (disch := decide) only [BitVec.extractLsb'_append_extractLsb'_eq_extractLsb', BitVec.extractLsb'_eq_self]
    exact (if_pos h).trans (by rw [hw])

/-- The bytes of halfwords of which the first gives their number decode as the word that they hold. -/
theorem decodeBytes_bytes {hs : List Half} {c : Code} {i : Instr} (r : List Byte) (hlen : halfwordsOf (hs.getD 0 0) = hs.length)
    (hc : codeOfHalves hs = some c) (hi : decode c = .ok i) :
    decodeBytes ((hs.flatMap fun h => [h.extractLsb' 0 8, h.extractLsb' 8 8]) ++ r) = .ok (i, r) := by
  cases hs with
  | nil => cases hc
  | cons h0 t =>
    have htake := takeHalves_bytes (h0 :: t) r
    simp only [List.getD_cons_zero] at hlen
    simp only [List.flatMap_cons, List.cons_append, List.nil_append, decodeBytes, halfOfBytes_bytes] at htake ⊢
    rw [hlen, htake]
    simp only [hc, hi]
    rfl

/-- Settles O2: the encoder lays the fields side by side, the decoder reads each of them back, and the major of the first halfword gives
the length of the word whatever follows it. -/
theorem roundTrip : Obligations.RoundTrip := by
  intro i c r h
  have hi := decode_of_encode h
  have hlen := halfwordsOf_of_decode hi
  exact decodeBytes_bytes r hlen (codeOfHalves_halvesOfCode hlen) hi

theorem decodeBytes_of_encode {q : List Byte × Instr} (h : (encode q.2).map bytesOfCode = some q.1) :
    decodeBytes q.1 = .ok (q.2, []) := by
  obtain ⟨c, hc, hb⟩ := Option.map_eq_some_iff.mp h
  simpa [hb] using roundTrip q.2 c [] hc

/-- Settles O1: the bytes of each word are those that the encoder gives its instruction. -/
theorem decodeWords : Obligations.DecodeWords := by
  unfold Obligations.DecodeWords
  intro q hq
  apply decodeBytes_of_encode
  revert q
  decide

end Sys2Proof
end

section
/-! Sequential flow (O13). -/

namespace Sys2Proof.Machine

/-- The address past an instruction that ends before the end of its line, and past one that ends there (R15). -/
theorem nextSeq_eq (pc : Word) (len : Nat) (h : pc.toNat % 128 + 2 * len ≤ 128) (hlen : 0 < len) :
    nextSeq pc len = pc + BitVec.ofNat 64 (if pc.toNat % 128 + 2 * len = 128 then 2 * len + 16 else 2 * len) := by
  have hmod : (pc + BitVec.ofNat 64 (2 * len)).toNat % 128 = (pc.toNat + 2 * len) % 128 := by
    rw [BitVec.toNat_add, BitVec.toNat_ofNat]
    omega
  have hend : (pc + BitVec.ofNat 64 (2 * len)).toNat % 128 = 0 ↔ pc.toNat % 128 + 2 * len = 128 := by omega
  simp only [nextSeq, hend]
  split
  · rw [BitVec.add_assoc, BitVec.ofNat_add]
    rfl
  · rfl

/-- Settles O13: the sum reaches the end of the line just where the last halfword lies in slot 55, and lines divide the address space. -/
theorem sequentialFlow : Obligations.SequentialFlow := by
  intro pc len hlen heven hslot hline
  have hpos : 0 < len := by omega
  rw [nextSeq_eq pc len hline hpos]
  refine ⟨fun h => by rw [if_neg h.ne], fun h => by rw [if_pos h], ?_⟩
  rw [BitVec.toNat_add, BitVec.toNat_ofNat]
  split <;> omega

end Sys2Proof.Machine
end

section
/-! What a step runs (O3). -/

namespace Sys2Proof.Machine

/-! ### Time leaves the schedule -/

theorem State.sampled_schedule (s : State) (g q v n : Nat) : (s.sampled g q v n).schedule = s.schedule := by
  simp only [State.sampled]
  split <;> rfl

theorem State.periodic_schedule (s : State) (g a b : Nat) : (s.periodic g a b).schedule = s.schedule :=
  foldl_kept State.schedule _ (fun _ _ => State.sampled_schedule ..) _ _

theorem State.samples_schedule (t s : State) : (t.samples s).schedule = t.schedule :=
  foldl_kept State.schedule _ (fun _ _ => State.periodic_schedule ..) _ _

theorem State.tick_schedule (s : State) : s.tick.schedule = s.schedule := State.samples_schedule ..

/-- A step takes what the schedule names first, after time has passed. -/
theorem step_of_schedule {s : State} {x : Choice} {rest : List Choice} (h : s.schedule = x :: rest) :
    step s = logged (({ s.tick with schedule := rest } : State).take x) := by
  rw [step, State.move, State.tick_schedule, h]

/-- A context that may issue, whose line is fetched and which a slot picks, has the line checked. -/
theorem State.take_issue {u w : State} {g c : Nat} {bs : List Byte} (hcan : u.canIssue g c = true)
    (hf : ({ u with cur := (g, c) } : State).fetchFor g c = (w, some bs)) (hp : w.picks g c = true) :
    u.take (.issue g c) = w.checked bs := by
  simp [State.take, State.issueAt, hcan, hf, hp]

/-! ### What a fetched line does -/

section
variable {w : State} {bs : List Byte} {i : Instr} (hok : issueCheck bs w.me.pc w.me.arrived.isSome = .ok i)
include hok

theorem State.checked_priv (hsup : i.supervisorOnly = true) (hme : w.me.sup = false) : w.checked bs = .next (w.checkTrap 0x05) := by
  simp [State.checked, hok, hsup, hme]

theorem State.checked_of_passes (hpriv : i.supervisorOnly = true → w.me.sup = true)
    (hwatch : w.watchHit w.cur.1 w.cur.2 w.me.pc.toNat 2 1 = none) :
    (w.me.holds i = none → w.checked bs = w.run i) ∧ ∀ st, w.me.holds i = some st → w.checked bs = .next (w.hold st) := by
  have hpass : ¬ (i.supervisorOnly && !w.me.sup) = true := by
    cases hs : i.supervisorOnly <;> simp_all
  simp only [State.checked, hok, hwatch, if_neg hpass]
  exact ⟨fun h => by rw [h], fun st h => by rw [h]⟩
end

/-- The executing context as an instruction of it issues: ready, its completed ring entries gone. -/
def State.issuing (w : State) : State := w.setMe { w.me with st := .ready, ring := w.me.ring.filter fun e => e.st != .done }

theorem State.run_eq (w : State) (i : Instr) :
    (∀ t, exec i w.issuing = .next t → w.run i = .next (t.issued w.cur.1 w.cur.2))
    ∧ (∀ f, exec i w.issuing = .fault f → w.run i = .fault f) ∧ ∀ r, exec i w.issuing = .refused r → w.run i = .refused r := by
  have hrun : w.run i = match exec i w.issuing with
      | .next t => .next (t.issued w.cur.1 w.cur.2)
      | .fault f => .fault f
      | .refused r => .refused r := rfl
  exact ⟨fun t h => by rw [hrun, h], fun f h => by rw [hrun, h], fun r h => by rw [hrun, h]⟩

/-- What holds an instruction back is a state that the instruction only waits in. -/
theorem Ctx.resting_of_holds {k : Ctx} {i : Instr} {st : CtxState} (h : k.holds i = some st) : st.resting = true := by
  unfold Ctx.holds at h
  repeat' split at h
  all_goals
    cases h
  all_goals rfl

theorem Ctx.not_ringFull_of_holds {k : Ctx} {i : Instr} (h : k.holds i = none) (hi : (vSlot i || ringCommand i) = true) :
    k.ringFull = false := by
  unfold Ctx.holds at h
  repeat' split at h
  all_goals simp_all

/-- Where the line of a context is held, it is not fetched again. -/
theorem State.fetchFor_of_lineHeld {s : State} {g c : Nat} {bs : List Byte} (h : (s.ctx g c).lineHeld = some bs) :
    s.fetchFor g c = (s, some bs) := by
  simp [State.fetchFor, h]

theorem State.st_hold (s : State) (st : CtxState) : (s.hold st).me.st = st := by
  simp [State.hold]

/-- A ready context whose next instruction is held back has the state in which it waits. -/
theorem State.stNow_of_holds {s : State} {g c : Nat} {i : Instr} {bs : List Byte} {st : CtxState} (hline : (s.ctx g c).lineHeld = some bs)
    (hready : (s.ctx g c).st = .ready) (hok : issueCheck bs (s.ctx g c).pc (s.ctx g c).arrived.isSome = .ok i)
    (hpriv : i.supervisorOnly = true → (s.ctx g c).sup = true) (hwatch : s.watchHit g c (s.ctx g c).pc.toNat 2 1 = none)
    (hholds : (s.ctx g c).holds i = some st) : s.stNow g c = st := by
  let v : State := { s with cur := (g, c) }
  have hf : v.fetchFor g c = (v, some bs) := State.fetchFor_of_lineHeld hline
  have hc : v.checked bs = .next (v.hold st) :=
    (State.checked_of_passes (w := v) hok hpriv hwatch).2 st hholds
  have ha : s.attempt g c = .next (v.hold st) := by
    show (match (v.fetchFor g c).2 with
      | none => _
      | some bs => (v.fetchFor g c).1.checked bs) = _
    rw [hf]
    exact hc
  have hst : ((v.hold st).ctx g c).st = st := State.st_hold v st
  simp [State.stNow, hready, hline, hok, ha, hst, Ctx.resting_of_holds hholds, CtxState.isBlocked]

/-! ### The checks of R16 in their order -/

/-- Some start bit lies inside an instruction. -/
theorem startInside_iff (start n len : Nat) : ((List.range (len - 1)).any fun k => start.testBit (n + k + 1)) = true ↔
    ∃ k, 1 ≤ k ∧ k < len ∧ start.testBit (n + k) = true := by
  simp only [List.any_eq_true, List.mem_range]
  constructor
  · rintro ⟨k, hk, hb⟩
    exact ⟨k + 1, by omega, by omega, hb⟩
  · rintro ⟨k, h1, h2, hb⟩
    exact ⟨k - 1, by omega, by rwa [show n + (k - 1) + 1 = n + k by omega]⟩

/-- A pc in a slot at which a line of start bits has an instruction of `len` halfwords: a bit there, and none inside it (R11, R16). -/
theorem startCheck_iff (start n len : Nat) :
    (!start.testBit n || decide (56 < n + len) || (List.range (len - 1)).any fun k => start.testBit (n + k + 1)) = true ↔
      ¬ (start.testBit n = true ∧ n + len ≤ 56 ∧ ∀ k, 1 ≤ k → k < len → start.testBit (n + k) = false) := by
  rw [Bool.or_eq_true, startInside_iff]
  simp only [Bool.or_eq_true, Bool.not_eq_true', decide_eq_true_eq]
  constructor
  · rintro ((h | h) | ⟨k, h1, h2, hb⟩) ⟨hs, hn, hin⟩
    · simp [h] at hs
    · omega
    · simp [hin k h1 h2] at hb
  · intro h
    by_contra hno
    push Not at hno
    obtain ⟨⟨hs, hn⟩, hin⟩ := hno
    exact h ⟨by simpa using hs, by omega, fun k h1 h2 => by simpa using hin k h1 h2⟩

/-- The checks of R16, one after the other. -/
theorem issueCheck_cases (bs : List Byte) (pc : Word) (arrived : Bool) :
    let off := pc.toNat % 128
    let n := (off - 16) / 2
    let code := bs.drop off
    let len := halfwordsOf (halfOfBytes (code.getD 0 0) (code.getD 1 0))
    let inSlot := 16 ≤ off ∧ off % 2 = 0
    let starts := (startBits bs).testBit n = true ∧ n + len ≤ 56 ∧ ∀ k, 1 ≤ k → k < len → (startBits bs).testBit (n + k) = false
    let entered := arrived = true → (targetBits bs).testBit n = true
    (headerOk bs = false → issueCheck bs pc arrived = .error 0x01)
    ∧ (headerOk bs = true → ¬ inSlot → issueCheck bs pc arrived = .error (if arrived then 0x03 else 0x02))
    ∧ (headerOk bs = true → inSlot → ¬ starts → issueCheck bs pc arrived = .error 0x02)
    ∧ (headerOk bs = true → inSlot → starts → ¬ entered → issueCheck bs pc arrived = .error 0x03)
    ∧ (headerOk bs = true → inSlot → starts → entered →
        (∀ e, decodeBytes code = .error e → issueCheck bs pc arrived = .error 0x04)
        ∧ ∀ i r, decodeBytes code = .ok (i, r) → issueCheck bs pc arrived = if i.wellFormed then .ok i else .error 0x04) := by
  intro off n code len inSlot starts entered
  have hslot : (off < 16 ∨ off % 2 = 1) ↔ ¬ inSlot := by omega
  have hstart := startCheck_iff (startBits bs) n len
  have henter : (arrived && !(targetBits bs).testBit n) = true ↔ ¬ entered := by simp [entered]
  simp only [issueCheck]
  refine ⟨fun h => if_pos (by simp [h]), fun h hs => ?_, fun h hs hb => ?_, fun h hs hb he => ?_, fun h hs hb he => ?_⟩
  all_goals rw [if_neg (by simp [h])]
  · rw [if_pos (hslot.mpr hs)]
  · rw [if_neg (hslot.not.mpr (not_not.mpr hs)), if_pos (hstart.mpr hb)]
  · rw [if_neg (hslot.not.mpr (not_not.mpr hs)), if_neg (hstart.not.mpr (not_not.mpr hb)), if_pos (henter.mpr he)]
  · rw [if_neg (hslot.not.mpr (not_not.mpr hs)), if_neg (hstart.not.mpr (not_not.mpr hb)), if_neg (henter.not.mpr (not_not.mpr he))]
    exact ⟨fun e hd => by rw [hd], fun i r hd => by rw [hd]⟩

/-- Settles O3: what the schedule names is what the step takes, the fetched line is checked, and its instruction runs or waits. -/
theorem stepRuns : Obligations.StepRuns := by
  refine ⟨?_, ?_, ?_, ?_, issueCheck_cases⟩
  · intro s g c rest i bs hsched u v w ready hcan hfetch hpick hok
    have hstep : step s = logged (w.checked bs) := by
      rw [step_of_schedule hsched, State.take_issue hcan (Prod.ext rfl hfetch) hpick]
    refine ⟨fun hpriv hwatch hholds => ?_, fun hsup hme => by rw [hstep, State.checked_priv hok hsup hme]; rfl⟩
    have hrun : step s = logged (w.run i) := by
      rw [hstep, (State.checked_of_passes hok hpriv hwatch).1 hholds]
    obtain ⟨hnext, hfault, hrefused⟩ := w.run_eq i
    exact ⟨fun t ht => by rw [hrun, hnext t ht]; rfl, fun f hf => by rw [hrun, hfault f hf]; rfl,
      fun r hr => by rw [hrun, hrefused r hr]; rfl⟩
  · intro s e rest hsched
    exact step_of_schedule hsched
  · intro s g c i bs st hline hready hok hpriv hwatch hholds
    exact State.stNow_of_holds hline hready hok hpriv hwatch hholds
  · intro k i hholds hi
    have hfull := Ctx.not_ringFull_of_holds hholds (by simpa using hi)
    simp only [Ctx.ringFull, Config.ringEntries, Bool.or_eq_false_iff, decide_eq_false_iff_not, List.any_eq_false, List.mem_filter] at hfull
    obtain ⟨hroom, hseq⟩ := hfull
    exact ⟨by omega, fun e he hst => by simpa using hseq e ⟨he, by simpa using hst⟩⟩

end Sys2Proof.Machine
end

section
/-! The translation instructions (O50). -/

namespace Sys2Proof.Machine

/-! ### Tables changed at every key -/

theorem Tab.find_each {α : Type} (f : Nat → α → α) (t : Tab α) (k : Nat) : Tab.find (Tab.each f t) k = (Tab.find t k).map (f k) := by
  induction t with
  | nil => rfl
  | cons e r ih =>
    obtain ⟨j, b⟩ := e
    by_cases h : j = k <;> simp [Tab.each, Tab.find, h, ih]

/-- A change of every entry that leaves the default alone changes what is read at each key. -/
theorem Tab.look_each {α : Type} {d : α} {f : Nat → α → α} {k : Nat} (h : f k d = d) (t : Tab α) :
    Tab.look d (Tab.each f t) k = f k (Tab.look d t k) := by
  rw [Tab.look, Tab.find_each, Tab.look]
  cases Tab.find t k
  · exact h.symm
  · rfl

/-! ### TLBINV (R259) -/

/-- The cached translations that an access of core h may find. -/
def State.tlbs (s : State) (h : Nat) : List TlbEntry := (s.core h).itlb ++ (s.core h).dtlb ++ (s.cluster h).tlb

theorem State.core_flushTlbs (s : State) (chip h : Nat) (q : TlbEntry → Bool) :
    (s.flushTlbs chip q).core h = if chipOf h = chip then
      { s.core h with itlb := (s.core h).itlb.filter fun e => !q e, dtlb := (s.core h).dtlb.filter fun e => !q e } else s.core h :=
  Tab.look_each (by split <;> rfl) s.cores

theorem State.cluster_flushTlbs (s : State) (chip h : Nat) (q : TlbEntry → Bool) :
    (s.flushTlbs chip q).cluster h = if h / 16 / 160 = chip then
      { s.cluster h with tlb := (s.cluster h).tlb.filter fun e => !q e } else s.cluster h :=
  Tab.look_each (by split <;> rfl) s.clusters

theorem State.me_flushTlbs (s : State) (chip : Nat) (q : TlbEntry → Bool) : (s.flushTlbs chip q).me = s.me := by
  show Tab.look Ctx.reset ((s.flushTlbs chip q).core s.cur.1).work.ctxs s.cur.2 = _
  rw [State.core_flushTlbs]
  split <;> rfl

/-- The TLBs do not change with a context. -/
theorem State.itlb_dtlb_setMe (s : State) (k : Ctx) (h : Nat) : ((s.setMe k).core h).itlb = (s.core h).itlb
    ∧ ((s.setMe k).core h).dtlb = (s.core h).dtlb := by
  simp only [State.setMe, State.setCtx, State.core_setWork]
  split
  · next e => exact e ▸ ⟨rfl, rfl⟩
  · exact ⟨rfl, rfl⟩

/-- After a TLBINV none of the entries it names is in a TLB of the package, and the others are (R259). -/
theorem State.tlbs_invalidate (s : State) (q : TlbEntry → Bool) (harm : s.me.stepArm = false) {h : Nat} (hh : h / 2560 = s.cur.1 / 2560) :
    (∀ z ∈ (s.invalidate q).tlbs h, q z = false) ∧ ∀ z ∈ (s.core h).dtlb, q z = false → z ∈ ((s.invalidate q).core h).dtlb := by
  have hret : ∃ k, s.invalidate q = (s.flushTlbs (chipOf s.cur.1) q).setMe k :=
    ⟨_, (State.retire_eq _ _ (by simpa [State.me_flushTlbs] using harm)).trans (State.setMe_setMe ..)⟩
  obtain ⟨k, hk⟩ := hret
  obtain ⟨hi, hd⟩ := State.itlb_dtlb_setMe (s.flushTlbs (chipOf s.cur.1) q) k h
  have hc : ((s.flushTlbs (chipOf s.cur.1) q).setMe k).cluster h = (s.flushTlbs (chipOf s.cur.1) q).cluster h := rfl
  have hcluster : h / 16 / 160 = chipOf s.cur.1 := by rw [chipOf]; omega
  rw [State.tlbs, hk, hi, hd, hc, State.core_flushTlbs, if_pos (show chipOf h = chipOf s.cur.1 from hh), State.cluster_flushTlbs,
    if_pos hcluster]
  simp only [List.mem_append, List.mem_filter, Bool.not_eq_true']
  exact ⟨by rintro z ((⟨-, hz⟩ | ⟨-, hz⟩) | ⟨-, hz⟩) <;> exact hz, fun z hz hq => ⟨hz, hq⟩⟩

/-- An instruction that invalidates has a next state, and it removes what it names. -/
theorem removes_of_invalidate {i : Instr} {s : State} {q : TlbEntry → Bool} (h : exec i s = .next (s.invalidate q)) :
    (∃ u, exec i s = .next u) ∧ ∀ u, exec i s = .next u → s.me.stepArm = false →
      ∀ h, h / 2560 = s.cur.1 / 2560 → (∀ z ∈ u.tlbs h, q z = false) ∧ ∀ z ∈ (s.core h).dtlb, q z = false → z ∈ (u.core h).dtlb := by
  refine ⟨⟨_, h⟩, fun u hu harm g hg => ?_⟩
  obtain rfl : s.invalidate q = u := Host.Outcome.next.inj (h.symm.trans hu)
  exact s.tlbs_invalidate q harm hg

section
variable {s : State} {a d : XReg}

theorem exec_tlbinvPage (hsup : s.me.sup = true) (hx : canonical (s.x a) = true) : exec (.tlbinvPage a 0) s =
    .next (s.invalidate fun z => z.tag == s.tag s.cur.1 && (s.x a).toNat % 2 ^ 57 / 2 ^ z.bits * 2 ^ z.bits == z.va) := by
  show execTlbinvPage a 0 s = _
  simp [execTlbinvPage, hsup, hx]

theorem exec_tlbinvPart (hsup : s.me.sup = true) : exec (.tlbinvPart a 0) s = .next (s.invalidate fun z => z.tag == s.tag s.cur.1) := by
  show execTlbinvPart a 0 s = _
  simp [execTlbinvPart, hsup]

theorem exec_tlbinvAll (hsup : s.me.sup = true) : exec .tlbinvAll s = .next (s.invalidate2 fun _ => true) := by
  show execTlbinvAll s = _
  simp [execTlbinvAll, hsup]

theorem exec_tlbinvPart2 (hsup : s.me.sup = true) (hx : (s.x a).toNat < 64) :
    exec (.tlbinvPart a 1) s = .next (s.invalidate2 fun z => z.tag == (s.x a).toNat) := by
  show execTlbinvPart a 1 s = _
  simp [execTlbinvPart, hsup, hx]

theorem exec_tlbinvPage2 (hsup : s.me.sup = true) (hlow : field (s.x a) 6 6 = 0) (hhigh : field (s.x a) 56 8 = 0) :
    exec (.tlbinvPage a 1) s = .next (s.invalidate2 fun z =>
      z.tag == field (s.x a) 0 6 && z.holdsIa (field (s.x a) 12 44 * 4096)) := by
  show execTlbinvPage a 1 s = _
  simp [execTlbinvPage, hsup, hlow, hhigh]

theorem State.invalidate2_of_hyper (h : (s.part (s.tag s.cur.1)).hyper = true) (q : TlbEntry → Bool) :
    s.invalidate2 q = s.invalidate q := if_pos h

theorem State.invalidate2_of_not_hyper (h : (s.part (s.tag s.cur.1)).hyper = false) (q : TlbEntry → Bool) :
    s.invalidate2 q = s.privTrap := if_neg (by simp [h])

/-- The translation instructions are refused below supervisor privilege (R18). -/
theorem translation_priv (b : BitVec 1) (w : BitVec 2) (e : BitVec 3) (hsup : s.me.sup = false) :
    ∀ i ∈ [Instr.tlbinvPage a b, .tlbinvPart a b, .tlbinvAll, .tlbsync, .fbread d w e, .fbpop, .replayall, .bmcinv a],
      Traps i s 0x05 0 := by
  have hpriv : ∀ u : State, (if !s.me.sup then s.privTrap else u) = s.trap 0x05 0 := fun u => if_pos (by simp [hsup])
  have hnext : ∀ u : State, Host.Outcome.next (φ := Fault) (ρ := Refusal) (if !s.me.sup then s.privTrap else u) = .next (s.trap 0x05 0) :=
    fun u => congrArg _ (hpriv u)
  simp only [List.forall_mem_cons, List.not_mem_nil, false_imp_iff, implies_true, and_true]
  exact ⟨hnext _, hnext _, hnext _, hnext _, hnext _, hnext _, hnext _, hnext _⟩

/-! ### TLBSYNC, FBREAD and FBPOP (R257, R260) -/

theorem exec_tlbsync (hsup : s.me.sup = true) :
    let waits := s.accessesBefore (s.cur.1 / 2560) s.me.inv = true ∨
      s.anyCmd (s.cur.1 / 2560) (s.tag s.cur.1) (fun m => m.usesBefore s.me.inv) = true
    (¬ waits → exec .tlbsync s = .next ((s.setMe { s.me with inv := 0 }).retire 2))
    ∧ (waits → Holds .tlbsync s (.blocked .tlbsync)) := by
  intro waits
  have h : exec .tlbsync s = .next (if waits then s.hold (.blocked .tlbsync) else (s.setMe { s.me with inv := 0 }).retire 2) := by
    show execTlbsync s = _
    simp only [execTlbsync, hsup, waits, Bool.or_eq_true]
    rfl
  exact ⟨fun hw => by rw [h, if_neg hw], fun hw => by rw [Holds, h, if_pos hw]⟩

theorem exec_fbread_count (hsup : s.me.sup = true) (e : BitVec 3) : exec (.fbread d 3 e) s =
    .next (writeX s 2 d (pack [(0, (s.faultEntries s.cur.1).length), (4, bitOf ((s.cluster s.cur.1).dropped.contains (s.tag s.cur.1)))])) := by
  show execFbread d 3 e s = _
  simp [execFbread, hsup]

theorem exec_fbread_word (hsup : s.me.sup = true) {w : BitVec 2} (hw : w ≠ 3) (e : BitVec 3) :
    (∀ f, (s.faultEntries s.cur.1)[e.toNat]? = some f → exec (.fbread d w e) s = .next (writeX s 2 d (f.word w.toNat)))
    ∧ ((s.faultEntries s.cur.1)[e.toNat]? = none → exec (.fbread d w e) s = .next (writeX s 2 d 0)) := by
  refine ⟨fun f hf => ?_, fun hf => ?_⟩
  · show execFbread d w e s = _
    simp only [execFbread, hsup, if_neg hw, hf]
    rfl
  · show execFbread d w e s = _
    simp only [execFbread, hsup, if_neg hw, hf]
    rfl

theorem exec_fbpop (hsup : s.me.sup = true) : exec .fbpop s = .next ((s.setCluster s.cur.1 { s.cluster s.cur.1 with
    faults := dropFirst (fun f => f.tag == s.tag s.cur.1) (s.cluster s.cur.1).faults }).retire 2) := by
  show execFbpop s = _
  simp [execFbpop, hsup]

/-! ### REPLAYALL (R258) -/

/-- What REPLAYALL does at one instant in the cluster of core g, with the notices that are left: the drop mark of the partition goes, and
what is parked there replays. -/
def State.replayCluster (s : State) (g : Nat) (notice : List Nat) : State :=
  (clusterCores g).foldl (fun u h => u.replayAt (s.tag g) h)
    (s.setCluster g { s.cluster g with dropped := (s.cluster g).dropped.filter fun z => z != s.tag g, notice := notice })

/-- The notices of other partitions that a cluster is still to send. -/
def State.otherNotices (s : State) (g : Nat) : List Nat := (s.cluster g).notice.filter fun z => z != s.tag g

theorem State.any_faults (s : State) (g : Nat) :
    ((s.cluster g).faults.any fun e => e.tag == s.tag g) = !(s.faultEntries g).isEmpty := by
  rw [Bool.eq_iff_iff]
  simp [State.faultEntries]

theorem exec_replayall_empty (hsup : s.me.sup = true) (hdr : s.me.drained = true) (hno : s.faultEntries s.cur.1 = []) :
    exec .replayall s = .next ((s.replayCluster s.cur.1 (s.otherNotices s.cur.1)).retire 2) := by
  show execReplayall s = _
  simp [execReplayall, hsup, hdr, State.any_faults, hno, State.replayCluster, State.otherNotices]

theorem exec_replayall_entries (hsup : s.me.sup = true) (hdr : s.me.drained = true) (hl : s.faultEntries s.cur.1 ≠ []) :
    exec .replayall s =
      .next (((s.replayCluster s.cur.1 (s.otherNotices s.cur.1 ++ [s.tag s.cur.1])).sendNotice s.cur.1).retire 2) := by
  show execReplayall s = _
  simp [execReplayall, hsup, hdr, State.any_faults, hl, State.replayCluster, State.otherNotices]

theorem holds_replayall (hsup : s.me.sup = true) (hdr : s.me.drained = false) : Holds .replayall s (.blocked .drain) := by
  show execReplayall s = _
  simp [execReplayall, hsup, hdr]

/-! ### BMCINV (R339) -/

theorem traps_bmcinv (hsup : s.me.sup = true) (hx : s.x a ≠ BitVec.allOnes 64) (hal : (s.x a).toNat % 4 ≠ 0) :
    Traps (.bmcinv a) s 0x06 (s.x a) := by
  show execBmcinv a s = _
  simp only [execBmcinv, hsup, if_pos (And.intro hx hal)]
  rfl

theorem exec_bmcinv (hsup : s.me.sup = true) (hal : s.x a = BitVec.allOnes 64 ∨ (s.x a).toNat % 4 = 0) :
    let x := s.x a
    let named := fun (z : Nat) => x == BitVec.allOnes 64 || z == x.toNat
    let u := s.flushMaps (chipOf s.cur.1) fun z => z.1 == s.tag s.cur.1 && named z.2.1
    let ids := u.gathersOf (chipOf s.cur.1) (s.tag s.cur.1) named
    (s.me.drained = false → Holds (.bmcinv a) s (.blocked .drain))
    ∧ (s.me.drained = true → ids = [] → exec (.bmcinv a) s = .next (u.retire 2))
    ∧ (s.me.drained = true → ids ≠ [] → exec (.bmcinv a) s = .next (u.hold (.blocked (.gathers ids)))) := by
  intro x named u ids
  have hno : ¬ (x ≠ BitVec.allOnes 64 ∧ x.toNat % 4 ≠ 0) := by tauto
  have h : exec (.bmcinv a) s = .next (if !s.me.drained then s.hold (.blocked .drain)
      else if ids.isEmpty then u.retire 2 else u.hold (.blocked (.gathers ids))) := by
    show execBmcinv a s = _
    simp only [execBmcinv, hsup]
    exact congrArg _ (if_neg hno)
  rw [Holds, h]
  refine ⟨fun hdr => by simp [hdr], fun hdr hids => by simp [hdr, hids], fun hdr hids => by simp [hdr, hids]⟩

/-! ### XLATE (R262) -/

theorem exec_xlate_ok (k : BitVec 2) (hdr : s.me.drained = true) {z : TlbEntry}
    (hz : s.walk s.cur.1 (!s.me.sup) (s.x a) (xlateKind k) = .ok z) : exec (.xlate d a k) s = .next (writeX
      (s.chargeWalk s.cur.1 (s.x a)) 2 d (pack [(0, z.pa + (s.x a).toNat % 2 ^ z.bits), (56, pageCode z.bits)])) := by
  show execXlate d a k s = _
  simp [execXlate, hdr, hz]

theorem exec_xlate_fail (k : BitVec 2) (hdr : s.me.drained = true) {f : XFail}
    (hf : s.walk s.cur.1 (!s.me.sup) (s.x a) (xlateKind k) = .error f) : exec (.xlate d a k) s = .next (writeX
      (s.chargeWalk s.cur.1 (s.x a)) 2 d (pack [(0, f.why.toNat), (2, bitOf f.stage2), (3, f.level.toNat), (63, 1)])) := by
  show execXlate d a k s = _
  simp [execXlate, hdr, hf]

theorem holds_xlate (k : BitVec 2) (hdr : s.me.drained = false) : Holds (.xlate d a k) s (.blocked .drain) := by
  show execXlate d a k s = _
  simp [execXlate, hdr]

end

/-- Settles O50: the TLBINV forms through what invalidation leaves in the TLBs, the others through what each of them does. -/
theorem translationInstructions : Obligations.TranslationInstructions := by
  intro s a d b w k e g t x v l removes
  refine ⟨translation_priv b w e, fun hsup => ?_, fun hdr => ⟨fun z hz => exec_xlate_ok k hdr hz, fun f hf => exec_xlate_fail k hdr hf⟩,
    fun hdr => holds_xlate k hdr⟩
  refine ⟨fun hx => removes_of_invalidate (exec_tlbinvPage hsup hx), removes_of_invalidate (exec_tlbinvPart hsup), fun hhyper => ?_,
    fun hhyper => ?_, exec_tlbsync hsup, exec_fbread_count hsup e, fun hw => (exec_fbread_word hsup hw e).1,
    fun hw => (exec_fbread_word hsup hw e).2, exec_fbpop hsup, fun hdr => ⟨exec_replayall_empty hsup hdr, exec_replayall_entries hsup hdr⟩,
    holds_replayall hsup, exec_bmcinv hsup, traps_bmcinv hsup⟩
  · have hinv := fun q => congrArg (Host.Outcome.next (φ := Fault) (ρ := Refusal)) (State.invalidate2_of_hyper hhyper q)
    exact ⟨removes_of_invalidate ((exec_tlbinvAll hsup).trans (hinv _)),
      fun hx => removes_of_invalidate ((exec_tlbinvPart2 hsup hx).trans (hinv _)),
      fun hlow hhigh => removes_of_invalidate ((exec_tlbinvPage2 hsup hlow hhigh).trans (hinv _))⟩
  · exact (exec_tlbinvAll hsup).trans (congrArg _ (State.invalidate2_of_not_hyper hhyper _))

end Sys2Proof.Machine
end

section
/-! Traps as instructions, and the steps of a context (O54). -/

namespace Sys2Proof.Machine

/-! ### TRAP (R214, R218) -/

section
variable {s : State} {g c : Nat} {a : XReg}

/-- The executing context after TRAP has retired (R83, R214). -/
def State.pastTrap (s : State) : State :=
  s.setMe { s.me with
    pc := (endCheck s.me.loops s.me.pc (nextSeq s.me.pc 2)).1, loops := (endCheck s.me.loops s.me.pc (nextSeq s.me.pc 2)).2,
    ibuf := s.me.bufferAt (endCheck s.me.loops s.me.pc (nextSeq s.me.pc 2)).1, arrived := none, watchOff := false, chunk := s.me.chunk + 1 }

theorem State.flow_eq_pastTrap (s : State) : s.setMe { s.me.flow (nextSeq s.me.pc 2) none with chunk := s.me.chunk + 1 } = s.pastTrap := by
  simp only [Ctx.flow, ite_self]
  rfl

theorem State.pc_pastTrap (s : State) : s.pastTrap.me.pc = (endCheck s.me.loops s.me.pc (nextSeq s.me.pc 2)).1 := by
  rw [State.pastTrap, State.me_setMe]

theorem exec_trap (code : BitVec 10) (harm : s.me.stepArm = false) : exec (.trap code) s = .next (s.pastTrap.takeTrap s.cur.1 s.cur.2
    { s.trapInfo 0x14 0 with resume := (endCheck s.me.loops s.me.pc (nextSeq s.me.pc 2)).1, code := code }) := by
  show execTrap code s = _
  simp only [execTrap, State.flow_eq_pastTrap, harm, State.trapInfo, State.pc_pastTrap]
  rfl

theorem exec_trap_stepping (code : BitVec 10) (harm : s.me.stepArm = true) :
    exec (.trap code) s = .next (s.pastTrap.takeTrap s.cur.1 s.cur.2 { s.trapInfo 0x12 0 with
      resume := (endCheck s.me.loops s.me.pc (nextSeq s.me.pc 2)).1, code := code, mask := BitVec.ofNat 23 (2 ^ 0x12 + 2 ^ 0x14) }) := by
  show execTrap code s = _
  simp only [execTrap, State.flow_eq_pastTrap, harm, State.trapInfo, State.pc_pastTrap]
  rfl

/-! ### RESUME and ERET (R215, R216) -/

theorem traps_resume_priv (hsup : s.me.sup = false) : Traps (.resume a) s 0x05 0 := by
  show execResume a s = _
  simp only [execResume, hsup]
  rfl

theorem traps_eret_priv (hsup : s.me.sup = false) : Traps .eret s 0x05 0 := by
  show execEret s = _
  simp only [execEret, hsup]
  rfl

theorem traps_resume_nowhere (hsup : s.me.sup = true) (hf : frameOwner (s.x a) = none) : Traps (.resume a) s 0x04 0 := by
  show execResume a s = _
  simp only [execResume, hsup, hf]
  rfl

theorem traps_eret_nowhere (hsup : s.me.sup = true) (hf : frameOwner (BitVec.ofNat 64 s.me.settling) = none) : Traps .eret s 0x04 0 := by
  show execEret s = _
  simp only [execEret, hsup, hf]
  rfl

theorem traps_resume_dead (hsup : s.me.sup = true) {n : Nat} (hf : frameOwner (s.x a) = some n)
    (hlive : ¬ s.frameLive s.cur.1 (frameAddr n) = true) : Traps (.resume a) s 0x04 0 := by
  show execResume a s = _
  simp [execResume, hsup, hf, hlive, State.illegal]

theorem traps_eret_bad (hsup : s.me.sup = true) {n : Nat} (hf : frameOwner (BitVec.ofNat 64 s.me.settling) = some n)
    (hbad : ¬ s.frameLive s.cur.1 (frameAddr n) = true ∨ (s.frameWord s.cur.1 (frameAddr n) 0).getLsbD 0 = true) :
    Traps .eret s 0x04 0 := by
  show execEret s = _
  obtain hlive | hodd := hbad
  · simp [execEret, hsup, hf, hlive, State.illegal]
  · simp [execEret, hsup, hf, hodd, State.illegal]

theorem holds_eret (hsup : s.me.sup = true) {n : Nat} (hf : frameOwner (BitVec.ofNat 64 s.me.settling) = some n)
    (hlive : s.frameLive s.cur.1 (frameAddr n) = true) (heven : (s.frameWord s.cur.1 (frameAddr n) 0).getLsbD 0 = false)
    (hdepth : field (s.frameWord s.cur.1 (frameAddr n) 0x120) 0 3 ≤ 4) (hrec : field (s.frameWord s.cur.1 (frameAddr n) 0x20) 8 6 = 0)
    (hother : n ≠ s.cur.2) (hdr : s.me.drained = false) : Holds .eret s (.blocked .drain) := by
  show execEret s = _
  have hframe : (!s.frameLive s.cur.1 (frameAddr n) || (s.frameWord s.cur.1 (frameAddr n) 0).getLsbD 0
      || decide (4 < field (s.frameWord s.cur.1 (frameAddr n) 0x120) 0 3) || (field (s.frameWord s.cur.1 (frameAddr n) 0x20) 8 6 != 0
        && !(s.frameWord s.cur.1 (frameAddr n) 0x18).getLsbD 16)) = false := by
    rw [hlive, heven, hrec, decide_eq_false (Nat.not_lt.mpr hdepth)]
    rfl
  simp only [execEret, hsup, hf, hframe, hdr, ne_eq, hother, not_false_eq_true, Bool.not_true, Bool.not_false, Bool.false_eq_true, and_self,
    if_false, if_true]

/-- A core whose frame at f is marked as settled (R212, R215). -/
def State.settleFrame (s : State) (g f : Nat) : State :=
  s.setWork g { s.work g with spad := (s.work g).spad.putWord (f + 0x18) ((s.work g).spad.word (f + 0x18) ||| 0x10000) }

theorem exec_resume (hsup : s.me.sup = true) {n : Nat} (hf : frameOwner (s.x a) = some n)
    (hlive : s.frameLive s.cur.1 (frameAddr n) = true) (hdepth : field (s.frameWord s.cur.1 (frameAddr n) 0x120) 0 3 ≤ 4)
    (hrec : (s.ctx s.cur.1 n).framed = []) :
    exec (.resume a) s = .next (((s.settleFrame s.cur.1 (frameAddr n)).setMe
      { (s.settleFrame s.cur.1 (frameAddr n)).me with settling := frameAddr n }).retire 2) := by
  show execResume a s = _
  simp [execResume, hsup, hf, hlive, hrec, Nat.not_lt.mpr hdepth, State.settleFrame]

/-! ### Ring entries (R209, R210) and late traps (R205, R210, R213) -/

theorem exec_ringEntryComplete {q : BitVec 8} {e : RingEntry} (he : ((s.ctx g c).ring.find? fun e => e.seq == q) = some e) :
    (e.st = .done → exec (.ringEntryComplete g c q) s =
      .next (s.setCtx g c { s.ctx g c with ring := dropFirst (fun x => x.seq == q) (s.ctx g c).ring }))
    ∧ (e.st = .faulted → (s.ctx g c).trap = none → exec (.ringEntryComplete g c q) s =
      .next (s.setCtx g c { s.ctx g c with trap := some (lateInfo e (s.ctx g c).pc) }))
    ∧ (e.st = .running → s.works g = true → exec (.ringEntryComplete g c q) s = .next (s.narrowOn g c e)) := by
  refine ⟨fun h => ?_, fun h ht => ?_, fun h hw => ?_⟩
  · show execRingEntryComplete g c q s = _
    simp only [execRingEntryComplete, he, h]
  · show execRingEntryComplete g c q s = _
    simp only [execRingEntryComplete, he, h, ht]
    rfl
  · show execRingEntryComplete g c q s = _
    simp only [execRingEntryComplete, he, h, if_pos hw]

theorem State.narrowOn_nil {e : RingEntry} (h : e.records = []) : s.narrowOn g c e = s := by
  simp only [State.narrowOn, h]

theorem State.narrowOn_olcnt {e : RingEntry} {d : BitVec 5} {a b : BitVec 6} {p f : BitVec 3} (hi : e.instr = .vcvtn d a b p f)
    {z : List Byte} {zs : List (List Byte)} (h : e.records = z :: zs) : s.narrowOn g c e = s.appendRecord g c e z := by
  simp only [State.narrowOn, h, hi]

theorem State.narrowOn_counter {e : RingEntry} {d : BitVec 5} {a b : BitVec 6} {p f : BitVec 3} {n : BitVec 12}
    (hi : e.instr = .vcvtnCounter d a b p f n) (h : e.records ≠ []) (hp : e.pieces = []) :
    s.narrowOn g c e = s.askSlot g c (counterKey (s.tag g) (chipOf g) n.toNat) e.seq := by
  obtain ⟨z, zs, hz⟩ := List.exists_cons_of_ne_nil h
  simp only [State.narrowOn, hz, hi, hp]
  rfl

theorem exec_trapEntry {t : TrapInfo} (ht : (s.ctx g c).trap = some t) (hset : (s.ctx g c).settled = true)
    (hret : (s.ctx g c).mustReturn = false) (hrun : s.runs g = true) (hrep : (s.ctx g c).replay = true → s.nextReplay g c = none) :
    exec (.trapEntry g c) s = .next (s.enterTrap g c (if t.late then { t with resume := (s.ctx g c).pc } else t)) := by
  have hno : ((s.ctx g c).replay && (s.nextReplay g c).isSome) = false := by
    cases h : (s.ctx g c).replay
    · rfl
    · simp [hrep h]
  show execTrapEntry g c s = _
  simp [execTrapEntry, ht, hset, hret, hrun, hno]

/-! ### WATCHDOG (R208, R219) -/

section
variable (hlimit : (s.work g).wdlimit.toNat * 1024 ≠ 0) (hrole : (s.ctx g c).role ≠ .free)
  (hcount : (s.work g).wdlimit.toNat * 1024 ≤ (s.ctx g c).watch)
include hlimit hrole hcount

theorem watchdog_due : ¬ ((s.work g).wdlimit.toNat * 1024 = 0 ∨ (s.ctx g c).role = .free ∨
    (s.ctx g c).watch < (s.work g).wdlimit.toNat * 1024) := by
  rintro (h | h | h)
  · exact hlimit h
  · exact hrole h
  · omega

theorem exec_watchdog_hung (ht : (s.ctx g c).watchTrap = true) : exec (.watchdog g c) s = .next (s.resetPart g) := by
  show execWatchdog g c s = _
  simp only [execWatchdog, if_neg (watchdog_due hlimit hrole hcount), ht]
  rfl

theorem exec_watchdog_trap (hw : (s.ctx g c).watchTrap = false) (hsup : (s.ctx g c).sup = false) (hret : (s.ctx g c).mustReturn = false)
    (ht : (s.ctx g c).trap = none) (hst : (s.ctx g c).st = .ready ∨ ∃ b, (s.ctx g c).st = .blocked b) :
    exec (.watchdog g c) s = .next (s.as g c fun t => t.trap 0x11) := by
  show execWatchdog g c s = _
  simp only [execWatchdog, if_neg (watchdog_due hlimit hrole hcount), hw, hsup, hret, ht]
  obtain hst | ⟨b, hst⟩ := hst <;> rw [hst] <;> rfl

theorem exec_watchdog_beside (hw : (s.ctx g c).watchTrap = false) (hsup : (s.ctx g c).sup = false) (hret : (s.ctx g c).mustReturn = false)
    {t : TrapInfo} (ht : (s.ctx g c).trap = some t) : exec (.watchdog g c) s = .next (s.setCtx g c { s.ctx g c with
      trap := some (t.withWatchdog (({ s with cur := (g, c) } : State).trapInfo 0x11 0)) }) := by
  show execWatchdog g c s = _
  simp only [execWatchdog, if_neg (watchdog_due hlimit hrole hcount), hw, hsup, hret, ht]
  rfl
end

/-- The trap taken of one raised and the watchdog's, with both bits in its mask: the watchdog's where the other is late or has a higher
code (R208, R219). -/
theorem TrapInfo.withWatchdog_spec (t w : TrapInfo) :
    (t.withWatchdog w).mask = t.mask ||| w.mask
    ∧ (t.late = true ∨ w.cause.toNat < t.cause.toNat → t.withWatchdog w = { w with mask := w.mask ||| t.mask })
    ∧ (¬ (t.late = true ∨ w.cause.toNat < t.cause.toNat) → t.withWatchdog w = { t with mask := t.mask ||| w.mask }) := by
  have hcond : (t.late || decide (w.cause.toNat < t.cause.toNat)) = true ↔ t.late = true ∨ w.cause.toNat < t.cause.toNat := by simp
  simp only [TrapInfo.withWatchdog, hcond]
  refine ⟨?_, fun h => if_pos h, fun h => if_neg h⟩
  split
  · exact BitVec.or_comm ..
  · rfl

/-! ### WAIT_WAKE (R66, R152, R179, R238, R277, R316, R339) -/

/-- Context c of core g ready from now on (R66, R77). -/
def State.awake (s : State) (g c : Nat) : State :=
  s.setCtx g c { s.ctx g c with st := .ready, since := s.cycle g, age := s.cycle g, bump := 0 }

/-- At a core that keeps no replay log a chunk end is no step of its own (R372). -/
theorem State.atChunkEnd_of_unlogged (h : Unlogged s g) (kind : Nat) (host : Option Msg) (go : State → State) :
    s.atChunkEnd g c kind host go = go s := by
  have hmode : s.logMode g = 0 := h
  simp [State.atChunkEnd, State.chunkEnd, hmode]

section
variable (hrole : (s.ctx g c).role ≠ .free) (hover : s.waitOver g c (s.ctx g c) = true) (hrun : s.runs g = true)
include hrole hover hrun

theorem exec_waitWake_join {va : Word} (hst : (s.ctx g c).st = .waiting (.join va)) : exec (.waitWake g c) s = .next (s.awake g c) := by
  show execWaitWake g c s = _
  simp only [execWaitWake, if_pos (And.intro hrole (And.intro hover hrun)), hst]
  rfl

theorem exec_waitWake_round {slot : Nat} {d : XReg} (hst : (s.ctx g c).st = .waiting (.round slot d)) :
    exec (.waitWake g c) s = .next ((s.awake g c).as g c fun t => t.takeRound slot d) := by
  show execWaitWake g c s = _
  simp only [execWaitWake, if_pos (And.intro hrole (And.intro hover hrun)), hst]
  rfl

theorem exec_waitWake_retires (hst : (∃ b p, (s.ctx g c).st = .waiting (.phase b p))
      ∨ (Unlogged s g ∧ ((s.ctx g c).st = .waiting .over ∨ ∃ y n, (s.ctx g c).st = .waiting (.pennant y n)))
      ∨ (∃ y l, (s.ctx g c).st = .waiting (.commands y l)) ∨ (∃ ch, (s.ctx g c).st = .blocked (.unbind ch))
      ∨ (∃ l, (s.ctx g c).st = .blocked (.gathers l))) :
    exec (.waitWake g c) s = .next ((s.awake g c).as g c fun t => t.retire 2) := by
  show execWaitWake g c s = _
  simp only [execWaitWake, if_pos (And.intro hrole (And.intro hover hrun))]
  obtain ⟨b, p, hst⟩ | ⟨hlog, hst⟩ | ⟨y, l, hst⟩ | ⟨ch, hst⟩ | ⟨l, hst⟩ := hst
  case inr.inl =>
    obtain hst | ⟨y, n, hst⟩ := hst <;> simp only [hst, State.atChunkEnd_of_unlogged hlog, State.awake]
  all_goals simp only [hst, State.awake]
end

/-! ### Classes, fetches and replays (R13, R79, R213, R255) -/

theorem exec_classPromotion (hrole : (s.ctx g c).role ≠ .free) (hst : (s.ctx g c).st = .ready)
    (hage : (s.ctx g c).age + 256 * ((s.ctx g c).bump + 1) ≤ s.cycle g) (hbump : (s.ctx g c).bump < s.base g c) :
    exec (.classPromotion g c) s = .next (s.setCtx g c { s.ctx g c with bump := (s.ctx g c).bump + 1 }) :=
  congrArg _ (if_pos ⟨hrole, hst, hage, hbump⟩)

theorem exec_fetchLine (hrole : (s.ctx g c).role ≠ .free) (hst : (s.ctx g c).st = .ready) (ht : (s.ctx g c).trap = none)
    (hrun : s.runs g = true) : exec (.fetchLine g c) s = .next (s.fetchFor g c).1 :=
  congrArg _ (if_pos ⟨hrole, hst, ht, hrun⟩)

theorem exec_contextReplay (hrep : (s.ctx g c).replay = true) (hrole : (s.ctx g c).role ≠ .free) (hrun : s.runs g = true) :
    ((s.ctx g c).st = .parked → (s.ctx g c).parked = .instr → exec (.contextReplay g c) s = .next (s.setCtx g c { s.ctx g c with
      st := .ready, parked := .none, since := s.cycle g, age := s.cycle g, bump := 0, arrived := none,
      replay := (s.ctx g c).ring.any fun x => x.st == .held }))
    ∧ ((s.ctx g c).st ≠ .parked →
      (∀ e, s.nextReplay g c = some e → exec (.contextReplay g c) s = .next (s.rerun g c e))
      ∧ (s.nextReplay g c = none → s.replayDone g c = true →
        exec (.contextReplay g c) s = .next (s.setCtx g c { s.ctx g c with replay := false, arrived := none }))) := by
  refine ⟨fun hst hp => ?_, fun hst => ⟨fun e he => ?_, fun he hdone => ?_⟩⟩
  · show execContextReplay g c s = _
    simp [execContextReplay, hrep, hrole, hrun, hst, hp]
  · show execContextReplay g c s = _
    simp [execContextReplay, hrep, hrole, hrun, hst, he]
  · show execContextReplay g c s = _
    simp [execContextReplay, hrep, hrole, hrun, hst, he, hdone]

end

/-- Settles O54: each instruction and each step of a context in its cases. -/
theorem trapInstructions : Obligations.TrapInstructions := by
  intro s g c a code q k x live
  refine ⟨⟨exec_trap code, exec_trap_stepping code⟩, rfl, fun hsup => ⟨traps_resume_priv hsup, traps_eret_priv hsup⟩, fun hsup => ?_,
    fun e he => ?_, fun t ht => exec_trapEntry ht, ?_, fun hrole hover hrun => ?_, exec_classPromotion, exec_fetchLine,
    exec_contextReplay⟩
  · exact ⟨traps_resume_nowhere hsup, traps_eret_nowhere hsup, fun n => traps_resume_dead hsup, fun n => traps_eret_bad hsup,
      fun n => holds_eret hsup, fun n => exec_resume hsup⟩
  · obtain ⟨hdone, hfault, hrun⟩ := exec_ringEntryComplete (s := s) (g := g) (c := c) he
    refine ⟨hdone, hfault, fun hst hw => ⟨fun hr => ?_, fun d a b p f hi z zs hr => ?_, fun d a b p f n hi hr hp => ?_⟩⟩
    · rw [hrun hst hw, State.narrowOn_nil hr]
    · rw [hrun hst hw, State.narrowOn_olcnt hi hr]
    · rw [hrun hst hw, State.narrowOn_counter hi hr hp]
  · intro limit hlimit hrole hcount
    refine ⟨exec_watchdog_hung hlimit hrole hcount, fun hw hsup hret => ⟨exec_watchdog_trap hlimit hrole hcount hw hsup hret, ?_⟩⟩
    intro t ht low
    obtain ⟨hmask, hlow, hhigh⟩ := t.withWatchdog_spec (({ s with cur := (g, c) } : State).trapInfo 0x11 0)
    refine ⟨_, exec_watchdog_beside hlimit hrole hcount hw hsup hret ht, hmask, fun h => ?_, fun h => ?_⟩
    · rw [hlow h]
      exact ⟨rfl, rfl, rfl⟩
    · rw [hhigh h]
  · exact ⟨fun va => exec_waitWake_join hrole hover hrun, fun slot d => exec_waitWake_round hrole hover hrun,
      exec_waitWake_retires hrole hover hrun⟩

end Sys2Proof.Machine
end

section
/-! The scalar ALU (O7 to O10). -/

namespace Sys2Proof.Machine

/-! ### What the operations of R57 and R58 compute -/

theorem divUnsigned_eq (x y : Word) : divUnsigned x y = if y = 0 then BitVec.allOnes 64 else x / y := by
  rw [divUnsigned, ← BitVec.toNat_udiv, BitVec.ofNat_toNat, BitVec.setWidth_eq]

theorem remUnsigned_eq (x y : Word) : remUnsigned x y = if y = 0 then x else x % y := by
  rw [remUnsigned, ← BitVec.toNat_umod, BitVec.ofNat_toNat, BitVec.setWidth_eq]

theorem divSigned_of_ne {x y : Word} (h : y ≠ 0) : divSigned x y = x.sdiv y := by
  rw [divSigned, if_neg h]
  exact BitVec.eq_of_toInt_eq (by rw [BitVec.toInt_ofInt, BitVec.toInt_sdiv])

theorem remSigned_of_ne {x y : Word} (h : y ≠ 0) : remSigned x y = x.srem y := by
  rw [remSigned, if_neg h, ← BitVec.toInt_srem, BitVec.ofInt_toInt]

theorem aluMin_eq (x y : Word) : aluMin x y = if x.toInt < y.toInt then x else y := by
  simp only [aluMin, BitVec.slt_eq_decide, decide_eq_true_eq]

theorem aluMax_eq (x y : Word) : aluMax x y = if x.toInt < y.toInt then y else x := by
  simp only [aluMax, BitVec.slt_eq_decide, decide_eq_true_eq]

theorem aluMinu_eq (x y : Word) : aluMinu x y = if x.toNat < y.toNat then x else y := by
  simp only [aluMinu, BitVec.ult_eq_decide, decide_eq_true_eq]

theorem aluMaxu_eq (x y : Word) : aluMaxu x y = if x.toNat < y.toNat then y else x := by
  simp only [aluMaxu, BitVec.ult_eq_decide, decide_eq_true_eq]

theorem aluSlt_eq (x y : Word) : aluSlt x y = if x.toInt < y.toInt then 1 else 0 := by
  simp only [aluSlt, wordOf, BitVec.slt_eq_decide, decide_eq_true_eq]

theorem aluSltu_eq (x y : Word) : aluSltu x y = if x.toNat < y.toNat then 1 else 0 := by
  simp only [aluSltu, wordOf, BitVec.ult_eq_decide, decide_eq_true_eq]

theorem aluSeq_eq (x y : Word) : aluSeq x y = if x = y then 1 else 0 := by
  simp only [aluSeq, wordOf, beq_iff_eq]

theorem clzWord_eq (x : Word) : clzWord x = BitVec.ofNat 64 (if x = 0 then 64 else 63 - Nat.log2 x.toNat) := by
  rw [clzWord]
  split <;> rfl

theorem foldr_bitOf (p : Nat → Bool) (l : List Nat) : l.foldr (fun i n => n + bitOf (p i)) 0 = l.countP p := by
  induction l with
  | nil => rfl
  | cons i l ih => rw [List.foldr_cons, List.countP_cons, ih, bitOf]

theorem popcWord_eq (x : Word) : popcWord x = BitVec.ofNat 64 ((List.range 64).countP fun i => x.getLsbD i) := by
  rw [popcWord, foldr_bitOf]

/-! ### Fields of a register (R59) -/

theorem bitField_getLsbD (x : Word) {pos len i : Nat} (hi : i < 64) :
    (bitField x pos len).getLsbD i = (decide (i < len) && x.getLsbD (pos + i)) := by
  rw [bitField, BitVec.getLsbD_ofNat, decide_eq_true hi, Bool.true_and, Nat.testBit_mod_two_pow, Nat.testBit_div_two_pow, Nat.add_comm]
  rfl

theorem insertField_getLsbD (z x : Word) {pos len i : Nat} (hi : i < 64) :
    (insertField z x pos len).getLsbD i = if pos ≤ i ∧ i < pos + len then x.getLsbD (i - pos) else z.getLsbD i := by
  have hmask : (BitVec.ofNat 64 ((2 ^ len - 1) * 2 ^ pos)).getLsbD i = decide (pos ≤ i ∧ i < pos + len) := by
    rw [BitVec.getLsbD_ofNat, decide_eq_true hi, Bool.true_and, Nat.testBit_mul_two_pow, Nat.testBit_two_pow_sub_one, ← Bool.decide_and]
    exact decide_eq_decide.2 (by omega)
  simp only [insertField, BitVec.getLsbD_or, BitVec.getLsbD_and, BitVec.getLsbD_not, BitVec.getLsbD_shiftLeft, hmask, hi]
  by_cases h : pos ≤ i ∧ i < pos + len
  · simp [h, Nat.not_lt.2 h.1]
  · simp [h]

/-! ### Instructions that write one register -/

section
variable {s : State} {len : Nat} {d : XReg} {i : Instr} {v : Word} {l : List (Instr × Word)}

theorem writes_nil : Writes s len d [] := List.forall_mem_nil _

theorem writes_cons : Writes s len d ((i, v) :: l) ↔ exec i s = .next (writeX s len d v) ∧ Writes s len d l := List.forall_mem_cons

theorem writes_singleton : Writes s len d [(i, v)] ↔ exec i s = .next (writeX s len d v) := List.forall_mem_singleton

end

/-- Settles O7: each form writes what its operation computes. -/
theorem scalarRegister : Obligations.ScalarRegister := by
  intro s d a b c n x y
  simp only [x, y, ← divUnsigned_eq, ← remUnsigned_eq, ← aluMin_eq, ← aluMax_eq, ← aluMinu_eq, ← aluMaxu_eq, ← aluSlt_eq, ← aluSltu_eq,
    ← aluSeq_eq, ← clzWord_eq, ← popcWord_eq, ite_not, writes_cons]
  exact ⟨rfl, rfl, rfl, rfl, rfl, rfl, rfl, rfl, rfl, rfl, rfl, rfl, rfl, rfl, rfl, rfl, rfl, rfl, rfl, rfl, rfl, rfl, rfl, rfl, rfl, rfl,
    rfl, writes_nil⟩

/-- Settles O10: the immediate forms write a sum, a logical result or a field, and each compact form what its 32-bit form would. -/
theorem scalarImmediate : Obligations.ScalarImmediate := by
  intro s d a i4 h8 i15 i19 i52 n l p h i16 x z
  refine ⟨?_, ?_, fun _ => ?_, fun _ => ?_, ?_, ?_, rfl, rfl⟩
  · simp only [writes_cons]
    exact ⟨rfl, rfl, rfl, rfl, rfl, rfl, rfl, rfl, writes_nil⟩
  · refine ⟨_, writes_singleton.2 rfl, fun i hi => ?_⟩
    rw [insertField_getLsbD _ _ hi]
    split
    · next hin => rw [BitVec.getLsbD_setWidth, decide_eq_true (by omega), Bool.true_and]
    · rfl
  · exact ⟨_, writes_singleton.2 rfl, fun i hi => bitField_getLsbD _ hi⟩
  · exact ⟨_, writes_singleton.2 rfl, fun i hi => insertField_getLsbD _ _ hi⟩
  · exact writes_singleton.2 rfl
  · simp only [x, z, ← aluMin_eq, ← aluMax_eq, ← aluMinu_eq, ← aluMaxu_eq, ← aluSlt_eq, ← aluSltu_eq, ← aluSeq_eq, ← clzWord_eq,
      ← popcWord_eq, writes_cons]
    exact ⟨rfl, rfl, rfl, rfl, rfl, rfl, rfl, rfl, rfl, rfl, rfl, rfl, rfl, rfl, rfl, rfl, rfl, rfl, rfl, rfl, rfl, writes_nil⟩

/-! ### Division (R58) -/

/-- The dividend is quotient times divisor plus remainder, but for the one quotient that is no signed number of 64 bits. -/
theorem sdiv_mul_add_srem {x y : Word} (h : ¬ (x = 0x8000000000000000 ∧ y = 0xFFFFFFFFFFFFFFFF)) :
    x.toInt = (x.sdiv y).toInt * y.toInt + (x.srem y).toInt := by
  rw [BitVec.toInt_sdiv_of_ne_or_ne x y (not_and_or.1 h), BitVec.toInt_srem, Int.tdiv_mul_add_tmod]

theorem natAbs_srem_lt {y : Word} (x : Word) (h : y ≠ 0) : (x.srem y).toInt.natAbs < y.toInt.natAbs := by
  rw [BitVec.toInt_srem, Int.natAbs_tmod]
  exact Nat.mod_lt _ (Int.natAbs_pos.2 fun h0 => h (BitVec.eq_of_toInt_eq h0))

/-- The sign of the remainder follows the dividend. -/
theorem srem_neg_iff (x y : Word) : (x.srem y).toInt = 0 ∨ ((x.srem y).toInt < 0 ↔ x.toInt < 0) := by
  rw [BitVec.toInt_srem]
  by_cases hd : y.toInt ∣ x.toInt
  · exact .inl (Int.tmod_eq_zero_of_dvd hd)
  · have hsign : (x.toInt.tmod y.toInt).sign = x.toInt.sign := by rw [Int.sign_tmod, if_neg hd]
    exact .inr (by rw [← Int.sign_eq_neg_one_iff_neg, hsign, Int.sign_eq_neg_one_iff_neg])

/-- Settles O8: division is the signed and the unsigned division of words, whose quotient and remainder the dividend consists of. -/
theorem divisionNeverTraps : Obligations.DivisionNeverTraps := by
  intro s d a b x y
  have hdiv : exec (.div d a b) s = .next (writeX s 2 d (divSigned x y)) := rfl
  have hdivu : exec (.divu d a b) s = .next (writeX s 2 d (divUnsigned x y)) := rfl
  have hrem : exec (.rem d a b) s = .next (writeX s 2 d (remSigned x y)) := rfl
  have hremu : exec (.remu d a b) s = .next (writeX s 2 d (remUnsigned x y)) := rfl
  refine ⟨fun hy => ?_, fun hx hy => ?_, fun hy hxy => ⟨x.sdiv y, x.srem y, ?_, sdiv_mul_add_srem hxy, natAbs_srem_lt x hy,
    srem_neg_iff x y⟩, fun hy => ⟨x / y, x % y, ?_, ?_, ?_⟩⟩
  · simp only [writes_cons]
    rw [hdiv, hdivu, hrem, hremu, divSigned, divUnsigned, remSigned, remUnsigned, if_pos hy, if_pos hy, if_pos hy, if_pos hy]
    exact ⟨rfl, rfl, rfl, rfl, writes_nil⟩
  · simp only [writes_cons]
    rw [hdiv, hrem, hx, hy]
    exact ⟨rfl, rfl, writes_nil⟩
  · simp only [writes_cons]
    exact ⟨divSigned_of_ne hy ▸ hdiv, remSigned_of_ne hy ▸ hrem, writes_nil⟩
  · simp only [writes_cons]
    rw [hdivu, hremu, divUnsigned_eq, remUnsigned_eq, if_neg hy, if_neg hy]
    exact ⟨rfl, rfl, writes_nil⟩
  · rw [BitVec.toNat_udiv, BitVec.toNat_umod, Nat.div_add_mod']
  · exact BitVec.umod_lt x ((BitVec.pos_iff_ne_zero y).2 hy)

/-! ### The frame of an instruction that writes one register (R44) -/

/-- A context in which register d was written and flow went on is as before but for d and the flow of control. -/
theorem Ctx.sameButX_setX_flow (k : Ctx) (d : XReg) (v a : Word) (n : Nat) :
    SameButX d k { (k.setX d v).flow a none with chunk := n } := by
  refine ⟨?_, fun r hr => k.x_setX_ne v hr⟩
  unfold SameButFlow
  rfl

theorem Ctx.endCheck_setX_flow (k : Ctx) (d : XReg) (v a : Word) (n : Nat) :
    let l := { (k.setX d v).flow a none with chunk := n }
    (l.pc, l.loops) = endCheck k.loops k.pc a := rfl

/-- Writing a register and retiring changes that register, what loads owe to it, and the flow of control, which goes on past the
instruction. -/
theorem writeX_frame {s : State} (len : Nat) (d : XReg) (v : Word) (h : s.me.stepArm = false) :
    OnlyMe s (writeX s len d v) ∧ SameBytes s (writeX s len d v) ∧ SameButX d s.me (writeX s len d v).me
      ∧ ((writeX s len d v).me.pc, (writeX s len d v).me.loops) = endCheck s.me.loops s.me.pc (nextSeq s.me.pc len) := by
  rw [writeX_eq s len d v h, OnlyMe, State.me_setMe]
  exact ⟨rfl, ⟨fun _ => rfl, fun g _ => by rw [State.spad_setMe]⟩, s.me.sameButX_setX_flow .., s.me.endCheck_setX_flow d v ..⟩

/-- Settles O9: each of them writes one register and retires, whatever the value. -/
theorem scalarFrame : Obligations.ScalarFrame := by
  intro s d a b c n p i4 i15 i19 h i16 i52 harm q hq
  have hwrites : ∃ v, exec q.1 s = .next (writeX s q.2 d v) := by
    simp only [List.mem_cons, List.not_mem_nil, or_false] at hq
    repeat' obtain rfl | hq := hq
    all_goals exact ⟨_, rfl⟩
  obtain ⟨v, hv⟩ := hwrites
  exact ⟨_, hv, writeX_frame q.2 d v harm⟩

end Sys2Proof.Machine
end

section
/-! The control registers, GETID and YIELD (O16, O17). -/

namespace Sys2Proof.Machine

section
variable {s : State} {a d : XReg} {r : BitVec 12}

/-! ### CRD (R46, R50, R61) -/

theorem exec_crd (hpriv : crReadPrivileged r = true → s.me.sup = true) (hord : crOrdered r = true → s.me.vectorsDone = true) :
    exec (.crd d r) s = .next (writeX s 2 d (s.readCr r)) := by
  show execCrd d r s = _
  have hpriv' : (crReadPrivileged r && !s.me.sup) = false := by simpa using hpriv
  have hord' : (crOrdered r && !s.me.vectorsDone) = false := by simpa using hord
  simp only [execCrd, hpriv', hord']
  rfl

theorem traps_crd_priv (hpriv : crReadPrivileged r = true) (hsup : s.me.sup = false) : Traps (.crd d r) s 0x05 0 := by
  show execCrd d r s = _
  simp only [execCrd, hpriv, hsup]
  rfl

/-! ### GETID (R70, R96) -/

/-- The identity of a crew strand: its crew's index, its place there, and the grid. -/
theorem State.identity_strand {id k : Nat} {q : Crew} (hrole : s.me.role = .strand id k)
    (hq : Tab.find (s.work s.cur.1).crews id = some q) :
    s.identity 2 = q.index ∧ s.identity 3 = BitVec.ofNat 64 k ∧ s.identity 8 = BitVec.ofNat 64 q.grid.id := by
  simp [State.identity, Ctx.crewOf, hrole, hq]

theorem State.identity_noStrand (hrole : ∀ id k, s.me.role ≠ .strand id k) :
    s.identity 2 = BitVec.allOnes 64 ∧ s.identity 3 = BitVec.allOnes 64 ∧ s.identity 8 = BitVec.allOnes 64 := by
  cases h : s.me.role with
  | strand id k => exact absurd h (hrole id k)
  | _ => simp [State.identity, Ctx.crewOf, h]

theorem exec_getid (sel : BitVec 4) : exec (.getid d sel) s = .next (writeX s 2 d (s.identity sel)) := rfl

end

/-- Settles O16: CRD writes what the table gives for the register, and GETID the parts of the identity. -/
theorem controlRegisterRead : Obligations.ControlRegisterRead := by
  constructor
  · intro s d r v user waits g hr huser hwaits
    generalize hq : (r, v, user, waits) = q at hr
    have hrow : s.readCr q.1 = q.2.1 ∧ crReadPrivileged q.1 = !q.2.2.1 ∧ crOrdered q.1 = q.2.2.2 := by
      clear hq
      simp only [List.mem_cons, List.not_mem_nil, or_false] at hr
      repeat' obtain rfl | hr := hr
      all_goals exact ⟨rfl, rfl, rfl⟩
    subst hq
    obtain ⟨hv, hpriv, hord⟩ : s.readCr r = v ∧ crReadPrivileged r = !user ∧ crOrdered r = waits := hrow
    rw [← hv]
    refine exec_crd (fun h => huser.resolve_left fun hu => ?_) (hord ▸ hwaits)
    simp [hpriv, hu] at h
  · intro s d g yields
    refine ⟨rfl, rfl, ?_, fun id k q hrole hq => ?_, fun hrole => ?_⟩
    · simp only [writes_cons]
      exact ⟨rfl, rfl, rfl, rfl, rfl, rfl, writes_nil⟩
    · obtain ⟨hindex, hplace, hgrid⟩ := State.identity_strand hrole hq
      simp only [writes_cons, exec_getid, hindex, hplace, hgrid, writes_nil, and_self]
    · obtain ⟨hindex, hplace, hgrid⟩ := State.identity_noStrand hrole
      simp only [writes_cons, exec_getid, hindex, hplace, hgrid, writes_nil, and_self]

/-! ### CWR (R46, R47, R50, R64, R320) -/

section
variable {s : State} {a : XReg} {r : BitVec 12}

theorem traps_cwr_priv (hpriv : crWritePrivileged r = true) (hsup : s.me.sup = false) : Traps (.cwr a r) s 0x05 0 := by
  show execCwr a r s = _
  simp only [execCwr, hpriv, hsup]
  rfl

section
variable (hspec : s.speculative s.cur.1 s.cur.2 = false) (hpriv : crWritePrivileged r = true → s.me.sup = true)
include hspec hpriv

theorem traps_cwr_illegal (hv : crIllegal r (s.x a) = true) : Traps (.cwr a r) s 0x04 0 := by
  show execCwr a r s = _
  have hpriv' : (crWritePrivileged r && !s.me.sup) = false := by simpa using hpriv
  simp only [execCwr, hpriv', hspec, hv, Bool.and_false]
  rfl

theorem exec_cwr (hv : crIllegal r (s.x a) = false) (hord : crOrdered r = true → s.me.vectorsDone = true) :
    exec (.cwr a r) s = .next ((s.writeCr r (s.x a)).retire 2) := by
  show execCwr a r s = _
  have hpriv' : (crWritePrivileged r && !s.me.sup) = false := by simpa using hpriv
  have hord' : (crOrdered r && !s.me.vectorsDone) = false := by simpa using hord
  simp only [execCwr, hpriv', hspec, hv, hord', Bool.and_false]
  rfl

end
end

/-! ### The values that a field map calls illegal (R47, R52) -/

theorem field_zero (v : Word) (n : Nat) : field v 0 n = v.toNat % 2 ^ n := by rw [field, pow_zero, Nat.div_one]

theorem crIllegal_rndmode (v : Word) : crIllegal 0x001 v = decide (5 ≤ field v 0 3) := rfl
theorem crIllegal_rngstate (v : Word) : crIllegal 0x002 v = decide (field v 0 32 = 0) := rfl
theorem crIllegal_olbase (v : Word) : crIllegal 0x102 v = decide (field v 0 4 ≠ 0) := rfl
theorem crIllegal_trapvec (v : Word) : crIllegal 0x200 v = decide (v.toNat % 128 ≠ 0) := by rw [decide_not]; rfl
theorem crIllegal_pswap (v : Word) : crIllegal 0x201 v = decide (16 < field v 0 5) := rfl

/-- Settles O17: a register's field map and privilege decide between its write and the trap. -/
theorem controlRegisterWrite : Obligations.ControlRegisterWrite := by
  intro s a d hspec v g w writes
  refine ⟨fun hdone => ⟨?_, fun hv => ?_, fun hv => ?_⟩, ?_, ?_, fun hv => ?_, fun hsup => ⟨?_, ?_, ?_, fun hv => ?_, fun hv => ?_⟩,
    fun hv => ?_, fun hv => ?_, fun hv => ?_, fun hsup hv => ?_, fun hsup hv => ?_, fun hsup => ⟨?_, ?_⟩⟩
  · exact exec_cwr hspec nofun rfl fun _ => hdone
  · exact exec_cwr hspec nofun ((crIllegal_rndmode v).trans (decide_eq_false (Nat.not_le.2 hv))) fun _ => hdone
  · exact exec_cwr hspec nofun ((crIllegal_rngstate v).trans (decide_eq_false hv)) fun _ => hdone
  · intro q hq
    simp only [List.mem_cons, List.not_mem_nil, or_false] at hq
    repeat' obtain rfl | hq := hq
    all_goals exact exec_cwr hspec nofun rfl nofun
  · exact exec_cwr hspec nofun rfl nofun
  · exact exec_cwr hspec nofun ((crIllegal_olbase v).trans (decide_eq_false (not_not.2 ((field_zero v 4).trans hv)))) nofun
  · exact exec_cwr hspec (fun _ => hsup) rfl nofun
  · exact exec_cwr hspec (fun _ => hsup) rfl nofun
  · exact exec_cwr hspec (fun _ => hsup) rfl nofun
  · exact exec_cwr hspec (fun _ => hsup) ((crIllegal_trapvec v).trans (decide_eq_false (not_not.2 hv))) nofun
  · exact exec_cwr hspec (fun _ => hsup) ((crIllegal_pswap v).trans (decide_eq_false (Nat.not_lt.2 hv))) nofun
  · exact traps_cwr_illegal hspec nofun ((crIllegal_rndmode v).trans (decide_eq_true hv))
  · exact traps_cwr_illegal hspec nofun ((crIllegal_rngstate v).trans (decide_eq_true hv))
  · exact traps_cwr_illegal hspec nofun ((crIllegal_olbase v).trans (decide_eq_true hv))
  · exact traps_cwr_illegal hspec (fun _ => hsup) ((crIllegal_pswap v).trans (decide_eq_true hv))
  · exact traps_cwr_illegal hspec (fun _ => hsup) ((crIllegal_trapvec v).trans (decide_eq_true hv))
  · intro r hr
    simp only [List.mem_cons, List.not_mem_nil, or_false] at hr
    repeat' obtain rfl | hr := hr
    all_goals exact traps_cwr_priv rfl hsup
  · intro r hr
    simp only [List.mem_cons, List.not_mem_nil, or_false] at hr
    repeat' obtain rfl | hr := hr
    all_goals exact traps_crd_priv rfl hsup

end Sys2Proof.Machine
end

section
/-! The reset values (O4). -/

namespace Sys2Proof.Machine

/-- Fields that are all 0 make up 0. -/
theorem pack_of_zero {fs : List (Nat × Nat)} (h : ∀ f ∈ fs, f.2 = 0) : pack fs = 0 := by
  induction fs with
  | nil => rfl
  | cons f fs ih =>
    obtain ⟨hf, hfs⟩ := List.forall_mem_cons.1 h
    have hcons : pack (f :: fs) = pack fs ||| BitVec.ofNat 64 (f.2 * 2 ^ f.1) := rfl
    rw [hcons, ih hfs, hf, Nat.zero_mul]
    rfl

section
variable (g : Nat)

/-- No clock has counted a cycle. -/
theorem State.cycle_reset : State.reset.cycle g = 0 := by
  have hclock : State.reset.islandClock g = ⟨16, 0, 0, none⟩ := rfl
  rw [State.cycle, hclock]
  rfl

theorem State.windows_reset (i : Fin 5) : (State.reset.work g).windows[i] = (⟨16, 0, 0⟩ : Window) := Vector.getElem_replicate ..

theorem State.readReg_comparator_reset {i : Nat} (hi : i < 8) :
    State.reset.readReg g (0x20000 + 16 * i) = 0 ∧ State.reset.readReg g (0x20008 + 16 * i) = 0 := by
  interval_cases i <;> exact ⟨rfl, rfl⟩

theorem State.readReg_partition_reset : State.reset.readReg g 0x11000 = 0 :=
  pack_of_zero (fs := [(0, 0), (6, 0), (7, 0)]) (by decide)

theorem State.readReg_size_reset : State.reset.readReg g 0x11008 = 0 := pack_of_zero (fs := [(0, 0), (12, 0)]) (by decide)

theorem State.readReg_halt_reset : State.reset.readReg g 0x20100 = 0 := by
  show pack [(0, 0), (1, 0)] ||| 0 = 0
  rw [pack_of_zero (by decide), BitVec.or_self]

/-- The registers of the partition, the logs, the monitors and the error counters that are 0 after reset (R349, R365). -/
theorem State.readReg_reset : ∀ r ∈ [0x11000, 0x11008, 0x11010, 0x11018, 0x11020, 0x20100, 0x20200, 0x20208, 0x20300, 0x20308,
    0x20400, 0x20500, 0x20410, 0x20510, 0x20900, 0x20A00, 0x20B00, 0x20B08], State.reset.readReg g r = 0 := by
  simp only [List.forall_mem_cons]
  exact ⟨State.readReg_partition_reset g, State.readReg_size_reset g, rfl, rfl, rfl, State.readReg_halt_reset g, rfl, rfl, rfl, rfl, rfl,
    rfl, rfl, rfl, rfl, rfl, rfl, rfl, List.forall_mem_nil _⟩

end

/-- Settles O4: every table is empty, so that each key reads its reset value. -/
theorem resetState : Obligations.ResetState := by
  exact ⟨rfl, rfl, fun _ => ⟨rfl, rfl⟩, fun g => ⟨State.cycle_reset g, rfl, rfl, rfl, rfl, rfl, rfl, rfl, rfl, rfl, rfl, rfl, rfl,
    fun _ => rfl, fun _ => rfl, fun _ => rfl, State.windows_reset g, fun _ => State.readReg_comparator_reset g,
    State.readReg_reset g, rfl, rfl, fun _ => ⟨rfl, rfl, rfl⟩, fun _ _ => ⟨rfl, rfl⟩⟩⟩

end Sys2Proof.Machine
end

section
/-! That every step goes on (O6). -/

namespace Sys2Proof.Machine

/-! ### Outcomes -/

/-- What took place has a next state: neither a fault nor a refusal. -/
def Goes (o : Host.Outcome State Fault Refusal) : Prop := ∃ t, o = .next t

theorem goes_next (t : State) : Goes (.next t) := ⟨t, rfl⟩

/-- Each arm of `exec` answers a next state, whatever its checks find. -/
theorem goes_exec (i : Instr) (s : State) : Goes (exec i s) := by
  cases i
  all_goals exact ⟨_, rfl⟩

theorem goes_logged {o : Host.Outcome State Fault Refusal} (h : Goes o) : Goes (logged o) := by
  obtain ⟨t, rfl⟩ := h
  exact goes_next _

/-! ### Issue (R16, R66, R77) -/

section
variable (s : State) (g c : Nat)

theorem State.goes_run (i : Instr) : Goes (s.run i) := by
  obtain ⟨t, ht⟩ := goes_exec i s.issuing
  exact ⟨_, (s.run_eq i).1 t ht⟩

theorem State.goes_checked (bs : List Byte) : Goes (s.checked bs) := by
  simp only [State.checked]
  split
  · exact goes_next _
  · split
    · exact goes_next _
    · split
      · exact goes_next _
      · split
        · exact goes_next _
        · exact s.goes_run _

theorem State.goes_attempt : Goes (s.attempt g c) := by
  simp only [State.attempt]
  split
  · exact goes_next _
  · exact State.goes_checked ..

theorem State.goes_issueAt : Goes (s.issueAt g c) := by
  simp only [State.issueAt]
  split
  · exact goes_next _
  · split
    · exact State.goes_checked ..
    · exact goes_next _

theorem State.goes_firstIssue (l : List Nat) : ∀ o ∈ s.firstIssue g l, Goes o := by
  induction l with
  | nil => nofun
  | cons c r ih =>
    obtain ⟨t, ht⟩ := s.goes_attempt g c
    simp only [State.firstIssue, ht]
    split
    · exact ih
    · rintro _ ⟨⟩
      exact goes_next _

theorem State.goes_anyIssue (v : Bool) (l : List Nat) : ∀ o ∈ s.anyIssue v l, Goes o := by
  induction l with
  | nil => nofun
  | cons g r ih =>
    simp only [State.anyIssue]
    split
    · next o ho =>
      rintro _ ⟨⟩
      exact s.goes_firstIssue g _ o ho
    · exact ih

end

/-! ### Device steps (spec/95) -/

/-- A device step that answers a next state wherever it is taken. -/
def Move.Goes (e : Move) : Prop := ∀ s, Machine.Goes (e s)

/-- The first step that changes the machine is one of those that go on. -/
theorem State.goes_firstEvent (s : State) {l : List Move} (h : ∀ e ∈ l, e.Goes) : ∀ o ∈ s.firstEvent l, Goes o := by
  induction l with
  | nil => nofun
  | cons e r ih =>
    obtain ⟨he, hr⟩ := List.forall_mem_cons.1 h
    obtain ⟨t, ht⟩ := he s
    simp only [State.firstEvent, ht]
    split
    · exact ih hr
    · rintro _ ⟨⟩
      exact goes_next _

theorem goes_ite {p : Prop} [Decidable p] {l : List Move} (h : ∀ e ∈ l, e.Goes) : ∀ e ∈ if p then l else [], e.Goes := by
  split
  · exact h
  · exact List.forall_mem_nil _

/-! Each list of device steps is put together from instructions, every one of which goes on. -/

theorem Ctx.goes_steps (g c : Nat) (k : Ctx) : ∀ e ∈ Ctx.steps g c k, e.Goes := by
  unfold Ctx.steps
  split
  · exact List.forall_mem_nil _
  · simp only [List.forall_mem_append, List.forall_mem_cons, List.forall_mem_map, List.not_mem_nil, false_imp_iff, implies_true, and_true]
    and_intros
    all_goals intros; exact fun _ => ⟨_, rfl⟩

theorem Job.goes_step (g : Nat) (j : Job) : Move.Goes (j.step g) := by
  cases j
  all_goals exact fun _ => ⟨_, rfl⟩

theorem goes_queueSteps (g : Nat) : ∀ e ∈ queueSteps g, e.Goes := by
  simp only [queueSteps, List.forall_mem_flatMap, List.forall_mem_cons, List.not_mem_nil, false_imp_iff, implies_true, and_true]
  and_intros
  all_goals exact fun _ => ⟨_, rfl⟩

theorem goes_evictionSteps (g : Nat) : ∀ e ∈ [execEviction g, execEvictRoutineTimeout g], Move.Goes e := by
  simp only [List.forall_mem_cons, List.not_mem_nil, false_imp_iff, implies_true, and_true]
  exact ⟨fun _ => ⟨_, rfl⟩, fun _ => ⟨_, rfl⟩⟩

theorem State.goes_coreSteps (s : State) (g : Nat) (k : Core) : ∀ e ∈ s.coreSteps g k, e.Goes := by
  simp only [State.coreSteps, List.forall_mem_append, List.forall_mem_flatMap, List.forall_mem_map, List.forall_mem_cons, sampleSteps,
    List.not_mem_nil, false_imp_iff, implies_true, and_true]
  and_intros
  on_goal 1 => exact fun e _ => Ctx.goes_steps g e.1 e.2
  on_goal 1 => exact fun j _ => j.goes_step g
  on_goal 15 => exact goes_queueSteps g
  on_goal 17 => exact goes_ite (goes_evictionSteps g)
  all_goals
    intros
    and_intros
  all_goals exact fun _ => ⟨_, rfl⟩

theorem Net.goes_steps (n : Net) : ∀ e ∈ n.steps, e.Goes := by
  simp only [Net.steps, List.forall_mem_append, List.forall_mem_flatMap, List.forall_mem_map, List.forall_mem_cons,
    List.not_mem_nil, false_imp_iff, implies_true, and_true]
  and_intros
  all_goals
    intros
    and_intros
  all_goals exact fun _ => ⟨_, rfl⟩

theorem goes_partitionReset (t : Nat) : ∀ e ∈ [execPartitionReset t], Move.Goes e :=
  List.forall_mem_singleton.2 fun _ => ⟨_, rfl⟩

theorem State.goes_partSteps (s : State) (t : Nat) (p : Partition) : ∀ e ∈ s.partSteps t p, e.Goes := by
  simp only [State.partSteps, List.forall_mem_append, List.forall_mem_flatMap, List.forall_mem_map, List.forall_mem_cons,
    List.not_mem_nil, false_imp_iff, implies_true, and_true]
  and_intros
  on_goal 1 => exact goes_ite (goes_partitionReset t)
  all_goals
    intros
    and_intros
  all_goals exact fun _ => ⟨_, rfl⟩

theorem Cluster.goes_steps (cl : Nat) (k : Cluster) : ∀ e ∈ Cluster.steps cl k, e.Goes := by
  simp only [Cluster.steps, List.forall_mem_append, List.forall_mem_map, List.forall_mem_singleton]
  exact ⟨fun _ _ _ => ⟨_, rfl⟩, fun _ => ⟨_, rfl⟩⟩

theorem goes_bellSteps (h : Nat) (k : Chip) : ∀ e ∈ bellSteps h k, e.Goes := by
  simp only [bellSteps, List.forall_mem_map]
  exact fun _ _ _ => ⟨_, rfl⟩

theorem State.goes_candidates (s : State) : ∀ e ∈ s.candidates, e.Goes := by
  simp only [State.candidates, List.forall_mem_append, List.forall_mem_flatMap]
  exact ⟨⟨⟨⟨fun e _ => s.goes_partSteps e.1 e.2, fun e _ => Cluster.goes_steps e.1 e.2⟩, fun e _ => s.goes_coreSteps e.1 e.2⟩,
    fun e _ => goes_bellSteps e.1 e.2⟩, s.net.goes_steps⟩

theorem mem_of_mem_turn {α : Type} {n : Nat} {l : List α} {a : α} (h : a ∈ turn n l) : a ∈ l := by
  obtain h | h := List.mem_append.1 h
  · exact List.mem_of_mem_drop h
  · exact List.mem_of_mem_take h

theorem goes_or {a b : Option (Host.Outcome State Fault Refusal)} (ha : ∀ o ∈ a, Goes o) (hb : ∀ o ∈ b, Goes o) :
    ∀ o ∈ a.or b, Goes o := by
  cases a with
  | none => exact hb
  | some x => exact ha

/-! ### Steps of the machine (R63, R388) -/

theorem State.goes_free_ (s : State) : Goes s.free_ := by
  have hdevice : ∀ o ∈ s.firstEvent (turn s.stepNo s.candidates), Goes o :=
    s.goes_firstEvent fun e he => s.goes_candidates e (mem_of_mem_turn he)
  have hissue : ∀ v gs, ∀ o ∈ (s.anyIssue v gs).or (s.anyIssue (!v) gs), Goes o :=
    fun v gs => goes_or (s.goes_anyIssue v gs) (s.goes_anyIssue (!v) gs)
  simp only [State.free_]
  split
  · next o ho =>
    split at ho
    · exact goes_or hdevice (hissue _ _) o ho
    · exact goes_or (hissue _ _) hdevice o ho
  · exact goes_next _

theorem State.goes_take (s : State) (x : Choice) : Goes (s.take x) := by
  cases x with
  | event e => exact goes_exec e s
  | issue g c =>
    simp only [State.take]
    split
    · exact s.goes_issueAt g c
    · exact goes_next _

theorem goes_step (s : State) : Goes (step s) := by
  simp only [step, State.move]
  split
  · exact goes_logged (State.goes_take ..)
  · exact goes_logged (State.goes_free_ _)

theorem State.sampled_now (s : State) (g q v n : Nat) : (s.sampled g q v n).now = s.now := by
  simp only [State.sampled]
  split <;> rfl

theorem State.periodic_now (s : State) (g a b : Nat) : (s.periodic g a b).now = s.now :=
  foldl_kept State.now _ (fun _ _ => State.sampled_now ..) _ _

theorem State.samples_now (t s : State) : (t.samples s).now = t.now :=
  foldl_kept State.now _ (fun _ _ => State.periodic_now ..) _ _

theorem State.now_lt_tick (s : State) : s.now < s.tick.now := by
  have h : s.tick.now = s.now + 1 + Config.freeCycles s.stepNo := State.samples_now ..
  omega

theorem State.works_of_off {s : State} {g : Nat} (h : (s.chip (chipOf g)).off = true) : s.works g = false := by
  simp [State.works, h]

theorem State.canIssue_of_works {s : State} {g : Nat} (c : Nat) (h : s.works g = false) : s.canIssue g c = false := by
  simp [State.canIssue, State.runs, h]

/-- Settles O6: every instruction goes on, and a step is made of what instructions do. -/
theorem neverStops : Obligations.NeverStops :=
  ⟨goes_exec, goes_step, fun _ _ c h => ⟨State.works_of_off h, State.canIssue_of_works c (State.works_of_off h)⟩, State.now_lt_tick⟩

end Sys2Proof.Machine
end

section
/-! Branches, jumps and hardware loops (O11, O12, O14, O15). -/

namespace Sys2Proof.Machine

/-! ### Targets and conditions (R31, R85) -/

/-- A displacement counts halfwords, as a signed number (R85). -/
theorem target_eq (s : State) {n : Nat} (d : BitVec n) : target s d = s.me.pc + BitVec.ofInt 64 (2 * d.toInt) := by
  have hshift : (d.signExtend 64) <<< 1 = BitVec.ofInt 64 (2 * d.toInt) := by
    rw [BitVec.shiftLeft_eq_mul_twoPow, BitVec.signExtend, BitVec.ofInt_mul, BitVec.mul_comm]
    rfl
  rw [target, hshift]

theorem condHolds_iff (x y : Word) :
    (condHolds 0 x y = true ↔ x = y) ∧ (condHolds 1 x y = true ↔ x ≠ y) ∧ (condHolds 2 x y = true ↔ x.toInt < y.toInt)
    ∧ (condHolds 3 x y = true ↔ y.toInt ≤ x.toInt) ∧ (condHolds 4 x y = true ↔ x.toNat < y.toNat)
    ∧ (condHolds 5 x y = true ↔ y.toNat ≤ x.toNat) := by
  simp [condHolds, BitVec.slt_eq_decide, BitVec.ult_eq_decide]

theorem State.branch_of_iff {s : State} {p : Prop} [Decidable p] {taken : Bool} (h : taken = true ↔ p) (len : Nat) (a : Word) :
    Host.Outcome.next (φ := Fault) (ρ := Refusal) (s.branch len taken a) = .next (if p then s.retireTo a true else s.retire len) :=
  congrArg _ (if_congr h rfl rfl)

/-- Settles O11: every transfer goes to its target where its condition holds. -/
theorem branchesAndJumps : Obligations.BranchesAndJumps := by
  intro s a b r d6 d10 d12 d16 d20 d24 dest x y
  simp only [dest, ← target_eq, List.forall_mem_cons, List.not_mem_nil, false_imp_iff, implies_true, and_true, decide_eq_true_eq]
  obtain ⟨heq, hne, hlt, hge, hltu, hgeu⟩ := condHolds_iff x y
  refine ⟨⟨?_, ?_, ?_, ?_, ?_, ?_⟩, ?_, ?_, ?_, ?_, rfl, rfl, rfl, rfl, rfl⟩
  · exact State.branch_of_iff heq ..
  · exact State.branch_of_iff hne ..
  · exact State.branch_of_iff hlt ..
  · exact State.branch_of_iff hge ..
  · exact State.branch_of_iff hltu ..
  · exact State.branch_of_iff hgeu ..
  · exact State.branch_of_iff beq_iff_eq ..
  · exact State.branch_of_iff bne_iff_ne ..
  · exact State.branch_of_iff beq_iff_eq ..
  · exact State.branch_of_iff bne_iff_ne ..

/-! ### The frame of a transfer (R17, R83) -/

theorem Ctx.sameButFlow_flow (k : Ctx) (a : Word) (from_ : Option Word) (n : Nat) : SameButFlow k { k.flow a from_ with chunk := n } := by
  unfold SameButFlow
  rfl

theorem Ctx.sameButX_setX_flow_from (k : Ctx) (r : XReg) (v a : Word) (from_ : Option Word) (n : Nat) :
    SameButX r k { (k.setX r v).flow a from_ with chunk := n } := by
  refine ⟨?_, fun q hq => k.x_setX_ne v hq⟩
  unfold SameButFlow
  rfl

/-- Retiring changes the flow of control of the executing context alone. -/
theorem State.retireTo_frame {s : State} (a : Word) (taken : Bool) (h : s.me.stepArm = false) :
    OnlyMe s (s.retireTo a taken) ∧ SameBytes s (s.retireTo a taken) ∧ SameButFlow s.me (s.retireTo a taken).me := by
  rw [State.retireTo_eq s a taken h, OnlyMe, State.me_setMe]
  exact ⟨rfl, ⟨fun _ => rfl, fun g _ => by rw [State.spad_setMe]⟩, s.me.sameButFlow_flow ..⟩

/-- So does writing register r before it, but for r. -/
theorem State.setX_retireTo_frame {s : State} (r : XReg) (v a : Word) (taken : Bool) (h : s.me.stepArm = false) :
    let t := (s.setX r v).retireTo a taken
    OnlyMe s t ∧ SameBytes s t ∧ SameButX r s.me t.me ∧ t.x r = v := by
  intro t
  have harm : (s.setX r v).me.stepArm = false := by simp [State.setX, h]
  have ht : t = s.setMe { (s.me.setX r v).flow a (if taken then some s.me.pc else none) with chunk := s.me.chunk + 1 } := by
    simp only [t, State.retireTo_eq _ _ _ harm]
    simp [State.setX]
  rw [ht, OnlyMe, State.x, State.me_setMe]
  exact ⟨rfl, ⟨fun _ => rfl, fun g _ => by rw [State.spad_setMe]⟩, s.me.sameButX_setX_flow_from ..,
    s.me.x_setX r v⟩

/-- Flow goes to an address at which no hardware loop ends. -/
theorem endCheck_of_no_stop {ls : List LoopEntry} {a : Word} (h : ∀ l ∈ ls, l.stop ≠ a) (pc : Word) : endCheck ls pc a = (a, ls) := by
  cases ls with
  | nil => rfl
  | cons t r => exact if_neg fun hin => h t List.mem_cons_self hin.1.symm

/-- A conditional transfer retires, taken or not. -/
theorem State.branch_retires (s : State) (len : Nat) (taken : Bool) (a : Word) :
    ∃ e z, Host.Outcome.next (φ := Fault) (ρ := Refusal) (s.branch len taken a) = .next (s.retireTo e z) := by
  cases taken
  · exact ⟨_, _, rfl⟩
  · exact ⟨_, _, rfl⟩

/-- Settles O12: a transfer retires, and retiring leaves all but the flow of control. -/
theorem branchFrame : Obligations.BranchFrame := by
  intro s c a b r d6 d10 d12 d16 d20 d24 harm
  have hframe : ∀ {o : Host.Outcome State Fault Refusal}, (∃ e z, o = .next (s.retireTo e z)) →
      ∃ t, o = .next t ∧ OnlyMe s t ∧ SameBytes s t ∧ SameButFlow s.me t.me :=
    fun ⟨e, z, h⟩ => ⟨_, h, State.retireTo_frame e z harm⟩
  refine ⟨?_, ⟨_, rfl, State.setX_retireTo_frame r _ _ true harm⟩, fun e taken hno => ?_⟩
  · simp only [List.forall_mem_cons, List.not_mem_nil, false_imp_iff, implies_true, and_true]
    exact ⟨hframe (s.branch_retires ..), hframe (s.branch_retires ..), hframe (s.branch_retires ..), hframe (s.branch_retires ..),
      hframe (s.branch_retires ..), hframe ⟨_, _, rfl⟩, hframe ⟨_, _, rfl⟩, hframe ⟨_, _, rfl⟩, hframe ⟨_, _, rfl⟩⟩
  · obtain ⟨hpc, hloops⟩ := Prod.ext_iff.1 (endCheck_of_no_stop hno s.me.pc)
    rw [State.retireTo_eq s e taken harm, State.me_setMe]
    exact ⟨hpc, hloops, if_pos hpc⟩

/-! ### The start of a loop (R82, R84) -/

section
variable {s : State} {n : Word} (e : BitVec 12)

theorem State.startLoop_zero (hn : n = 0) : s.startLoop n e = s.retireTo (s.me.pc + BitVec.ofNat 64 (2 * e.toNat)) false :=
  if_pos hn

theorem State.startLoop_full (hn : n ≠ 0) (hfull : s.me.loops.length = 4) : s.startLoop n e = s.trap 0x10 :=
  (if_neg hn).trans (if_pos hfull)

/-- A loop would end beyond the loop around the instruction that starts it (R82). -/
def State.Crosses (s : State) (stop : Word) : Prop :=
  ∃ t r, s.me.loops = t :: r ∧ t.start ≤ s.me.pc ∧ s.me.pc < t.stop ∧ t.stop < stop

theorem State.crosses_iff (s : State) (stop : Word) : (match s.me.loops with
    | t :: _ => decide (t.start ≤ s.me.pc) && decide (s.me.pc < t.stop) && decide (t.stop < stop)
    | [] => false) = true ↔ s.Crosses stop := by
  unfold State.Crosses
  cases s.me.loops <;> simp [and_assoc]

theorem State.startLoop_crossing (hn : n ≠ 0) (hroom : s.me.loops.length ≠ 4)
    (hc : s.Crosses (s.me.pc + BitVec.ofNat 64 (2 * e.toNat))) : s.startLoop n e = s.illegal :=
  (if_neg hn).trans ((if_neg hroom).trans (if_pos ((s.crosses_iff _).2 hc)))

theorem State.startLoop_pushes (hn : n ≠ 0) (hroom : s.me.loops.length ≠ 4)
    (hc : ¬ s.Crosses (s.me.pc + BitVec.ofNat 64 (2 * e.toNat))) :
    s.startLoop n e = (s.setMe { s.me with
      loops := ⟨nextSeq s.me.pc 2, s.me.pc + BitVec.ofNat 64 (2 * e.toNat), n⟩ :: s.me.loops }).retireTo (nextSeq s.me.pc 2) false :=
  (if_neg hn).trans ((if_neg hroom).trans (if_neg fun h => hc ((s.crosses_iff _).1 h)))

theorem traps_breakl (h : s.me.loops = []) : Traps .breakl s 0x04 0 := by
  show execBreakl s = _
  simp only [execBreakl, h]
  rfl

theorem exec_breakl {t : LoopEntry} {r : List LoopEntry} (h : s.me.loops = t :: r) :
    exec .breakl s = .next ((s.setMe { s.me with loops := r }).retireTo t.stop false) := by
  show execBreakl s = _
  simp only [execBreakl, h]

end

/-- Settles O14: a loop that starts, one that cannot, and one that is left. -/
theorem loopStart : Obligations.LoopStart := by
  intro s a e n12 i n hi start stop crosses
  have hexec : exec i s = .next (s.startLoop n e) := by
    simp only [List.mem_cons, Prod.mk.injEq, List.not_mem_nil, or_false] at hi
    obtain ⟨rfl, rfl⟩ | ⟨rfl, rfl⟩ := hi
    · rfl
    · rfl
  rw [Traps, Traps, hexec]
  exact ⟨fun hn => congrArg _ (State.startLoop_zero e hn), fun hn hfull => congrArg _ (State.startLoop_full e hn hfull),
    fun hn hroom hc => congrArg _ (State.startLoop_crossing e hn hroom hc),
    fun hn hroom hc => congrArg _ (State.startLoop_pushes e hn hroom hc), traps_breakl, fun t r => exec_breakl⟩

/-! ### The end check (R83) -/

theorem State.retireTo_flow {s : State} (a : Word) (taken : Bool) (h : s.me.stepArm = false) :
    ((s.retireTo a taken).me.pc, (s.retireTo a taken).me.loops) = endCheck s.me.loops s.me.pc a := by
  rw [State.retireTo_eq s a taken h, State.me_setMe]
  rfl

section
variable {t : LoopEntry} (r : List LoopEntry) {pc a : Word}

theorem endCheck_leaves (h : a ≠ t.stop ∨ ¬ (t.start ≤ pc ∧ pc < t.stop)) : endCheck (t :: r) pc a = (a, t :: r) :=
  if_neg fun hin => h.elim (fun hne => hne hin.1) fun hout => hout hin.2

theorem endCheck_again (ha : a = t.stop) (hin : t.start ≤ pc ∧ pc < t.stop) (hc : t.count ≠ 1) :
    endCheck (t :: r) pc a = (t.start, { t with count := t.count - 1 } :: r) :=
  (if_pos ⟨ha, hin⟩).trans (if_neg fun h => hc (sub_eq_zero.1 h))

theorem endCheck_last (ha : a = t.stop) (hin : t.start ≤ pc ∧ pc < t.stop) (hc : t.count = 1) :
    endCheck (t :: r) pc a = endCheck r pc a :=
  (if_pos ⟨ha, hin⟩).trans (if_pos (sub_eq_zero.2 hc))

end

/-- Settles O15: retiring takes the flow and the stack that the end check gives, case by case. -/
theorem loopEnd : Obligations.LoopEnd := by
  intro s a taken harm u
  have hu : (u.pc, u.loops) = endCheck s.me.loops s.me.pc a := State.retireTo_flow a taken harm
  refine ⟨fun hnone => ?_, fun t r hloops => ?_⟩
  · rw [hnone] at hu
    exact Prod.ext_iff.1 hu
  · intro inside v
    have hv : (v.pc, v.loops) = endCheck r s.me.pc a := by
      have harm' : (s.setMe { s.me with loops := r }).me.stepArm = false := by rwa [State.me_setMe]
      rw [State.retireTo_flow a taken harm', State.me_setMe]
    rw [hloops] at hu
    refine ⟨fun ha hin hc => ?_, fun ha hin hc => ?_, fun hout => ?_⟩
    · exact Prod.ext_iff.1 (hu.trans (endCheck_again r ha hin hc))
    · exact Prod.ext_iff.1 (hu.trans ((endCheck_last r ha hin hc).trans hv.symm))
    · exact Prod.ext_iff.1 (hu.trans (endCheck_leaves r hout))

end Sys2Proof.Machine
end

section
/-! The messaging instructions and WAITCH (O34). -/

namespace Sys2Proof.Machine

section
variable {s : State} {g : Nat}

/-! ### The request queue and the reply cells (R194, R195) -/

/-- The state with reply cell k of core g reserved (R194). -/
def State.reserveCell (s : State) (g k : Nat) : State :=
  s.setWork g { s.work g with cells := Tab.put (s.work g).cells k ⟨0, false, none⟩ }

section
variable (c : Nat) {m : Msg} (waits : List Nat)

theorem State.queueMsg_plain (hroom : s.requestRoom g = true) (hm : m.replyChannel = 0) :
    s.queueMsg g c m waits = some (s.enqueue g ⟨.msg m, c, waits⟩) := by
  simp [State.queueMsg, hroom, hm]

theorem State.queueMsg_reserves (hroom : s.requestRoom g = true) (hm : m.replyChannel ≠ 0) {k : Nat} (hk : (s.work g).freeCell = some k) :
    s.queueMsg g c m waits = some ((s.reserveCell g k).enqueue g ⟨.msg (m.withCell k), c, waits⟩) := by
  simp [State.queueMsg, hroom, hm, hk, State.reserveCell]

theorem State.queueMsg_full (hroom : s.requestRoom g = false) : s.queueMsg g c m waits = none := by
  simp [State.queueMsg, hroom]

end

/-! ### A send outside speculative events (R194, R195, R197) -/

/-- The accesses that the message waits for: with a release, all that precede it (R193). -/
def State.sendWaits (s : State) (rel : Bool) : List Nat := if rel then s.me.pending else []

section
variable {len : Nat} {m : Msg} {rel : Bool}

theorem State.sendNow_queued {t : State} (hcell : m.replyChannel = 0 ∨ (s.work s.cur.1).freeCell ≠ none)
    (hq : s.queueMsg s.cur.1 s.cur.2 m (s.sendWaits rel) = some t) : s.sendNow len m rel = t.retire len := by
  rw [State.sendWaits] at hq
  rw [State.sendNow, if_neg (by tauto), hq]

theorem State.sendNow_full (hcell : m.replyChannel = 0 ∨ (s.work s.cur.1).freeCell ≠ none) (hroom : s.requestRoom s.cur.1 = false) :
    s.sendNow len m rel = s.trap 0x09 := by
  rw [State.sendNow, if_neg (by tauto), State.queueMsg_full _ _ hroom]

theorem State.sendNow_noCell (hm : m.replyChannel ≠ 0) (hcell : (s.work s.cur.1).freeCell = none) :
    s.sendNow len m rel = s.hold (.blocked .cell) := if_pos ⟨hm, hcell⟩

theorem State.sendMsg_plain (hplain : Plain s) : s.sendMsg len m rel = s.sendNow len m rel := by
  rw [Plain] at hplain
  rw [State.sendMsg, hplain]

theorem State.send_plain {c : BitVec 6} {d : Word} {dst : Nat} {payload : List Byte} {bad : List Nat} {timed : Bool} {vt : Word}
    (hplain : Plain s) (hdst : s.checkDest s.cur.1 d = some dst) : s.send len c d payload bad rel timed vt =
      s.sendNow len (s.message s.cur.1 s.cur.2 dst d c.toNat payload bad rel timed vt) rel := by
  rw [State.send, hdst]
  exact State.sendMsg_plain hplain

/-- An instruction that sends queues its message where there is room, with a cell where it asks for an answer. -/
theorem sends_of_sendNow {i : Instr} (h : exec i s = .next (s.sendNow len m rel)) :
    (s.requestRoom s.cur.1 = true → m.replyChannel = 0 →
      exec i s = .next ((s.enqueue s.cur.1 ⟨.msg m, s.cur.2, s.sendWaits rel⟩).retire len))
    ∧ (s.requestRoom s.cur.1 = true → m.replyChannel ≠ 0 → ∀ k, (s.work s.cur.1).freeCell = some k →
      exec i s = .next (((s.reserveCell s.cur.1 k).enqueue s.cur.1 ⟨.msg (m.withCell k), s.cur.2, s.sendWaits rel⟩).retire len))
    ∧ (m.replyChannel ≠ 0 → (s.work s.cur.1).freeCell = none → Holds i s (.blocked .cell))
    ∧ (s.requestRoom s.cur.1 = false → m.replyChannel = 0 ∨ (s.work s.cur.1).freeCell ≠ none → Traps i s 0x09 0) := by
  rw [Holds, Traps, h]
  refine ⟨fun hroom hm => ?_, fun hroom hm k hk => ?_, fun hm hcell => ?_, fun hroom hcell => ?_⟩
  · rw [State.sendNow_queued (.inl hm) (State.queueMsg_plain _ _ hroom hm)]
  · rw [State.sendNow_queued (.inr (by simp [hk])) (State.queueMsg_reserves _ _ hroom hm hk)]
  · rw [State.sendNow_noCell hm hcell]
  · rw [State.sendNow_full hcell hroom]

end

/-! ### SEND and SENDL (R197, R198) -/

/-- A channel may be named by a send of the executing context (R184, R197). -/
def State.MayName (s : State) (c : BitVec 6) : Prop := c ≠ 4 ∧ c ≠ 6 ∧ (channelPrivileged c = true → s.me.sup = true)

section
variable {a b x : XReg} {c : BitVec 6} {l : BitVec 12}

theorem State.MayName.open (h : s.MayName c) : (!channelOpen c) = false := by
  obtain ⟨h4, h6, -⟩ := h
  have hopen : channelOpen c = true := by simpa [channelOpen] using And.intro h4 h6
  rw [hopen, Bool.not_true]

theorem State.MayName.privilege (h : s.MayName c) : (channelPrivileged c && !s.me.sup) = false := by
  simpa using h.2.2

theorem exec_send (n : BitVec 2) (v r : BitVec 1) (h : s.MayName c) : exec (.send a b n v r c) s =
    .next (s.send 2 c (s.x a) ((payloadRegs n).flatMap fun y => wordBytes (s.x y)) [] (r == 1) (v == 1) (s.x b)) := by
  show execSend a b n v r c s = _
  simp only [execSend, h.open, h.privilege]
  rfl

theorem traps_send_nowhere (n : BitVec 2) (v r : BitVec 1) (h : s.MayName c) (hdst : s.checkDest s.cur.1 (s.x a) = none) :
    Traps (.send a b n v r c) s 0x04 0 := by
  rw [Traps, exec_send n v r h, State.send, hdst]
  rfl

theorem State.covered_plain (hplain : Plain s) (scratch : Bool) (ad n : Nat) : s.covered s.cur.1 s.cur.2 scratch ad n = [] := by
  rw [Plain] at hplain
  rw [State.covered, hplain]

/-- The comparator that the payload of a SENDL matches (R198, R217). -/
def State.payloadHit (s : State) (b : XReg) (l : BitVec 12) : Option Nat :=
  if l = 0 then none else s.watchHit s.cur.1 s.cur.2 (s.x b).toNat l.toNat 2

section
variable (v r : BitVec 1) (h : s.MayName c) (hdst : (s.checkDest s.cur.1 (s.x a)).isSome = true) (hlen : l.toNat ≤ 2016)
include h hdst hlen

theorem exec_sendl (hplain : Plain s) {ps : List (Nat × Nat)} (hps : s.payloadAccess (s.x b) l.toNat 0 = .ok ps)
    (hhit : s.payloadHit b l = none) (hclash : s.clashes s.cur.1 s.cur.2 (ps.map fun q => (q.1, q.2, 1)) = false) :
    exec (.sendl a b c l x v r) s = .next (s.send 4 c (s.x a) (ps.map fun q => (s.work q.1).spad.get q.2) (s.payloadBad ps) (r == 1)
      (v == 1) (s.x x)) := by
  rw [State.payloadHit] at hhit
  show execSendl a b c l x v r s = _
  simp only [execSendl, h.open, h.privilege, Option.isNone_eq_false_iff.2 hdst, decide_eq_false (Nat.not_lt.2 hlen), hps, hhit, hclash,
    State.covered_plain hplain]
  rfl

theorem trapsOn_sendl {cause : Nat} {ad : Word} (hps : s.payloadAccess (s.x b) l.toNat 0 = .error (cause, ad)) :
    TrapsOn (.sendl a b c l x v r) s [cause] (s.payloadHit b l) ad := by
  show execSendl a b c l x v r s = _
  simp only [execSendl, h.open, h.privilege, Option.isNone_eq_false_iff.2 hdst, decide_eq_false (Nat.not_lt.2 hlen), hps]
  rfl

end
end

/-! ### REPLY, MSGRD and CHMASK (R199 to R201) -/

section
variable {u : CurMsg} {a d : XReg}

theorem exec_reply (n : BitVec 2) (hplain : Plain s) (hcur : s.me.cur = some u) (hasks : u.msg.replyChannel ≠ 0)
    (hans : u.answered = false) : exec (.reply n) s = .next (if s.replyRoom s.cur.1 then
      ((s.queueReply s.cur.1 s.cur.2 (s.replyMsg s.cur.1 s.cur.2 u.msg ((payloadRegs n).flatMap fun y => wordBytes (s.x y)))
        s.me.pending).markAnswered u).retire 2
      else s.hold (.blocked .replyQueue)) := by
  rw [Plain] at hplain
  show execReply n s = _
  simp [execReply, hcur, hasks, hans, hplain]

theorem traps_reply (n : BitVec 2) (hcur : s.me.cur = none) : Traps (.reply n) s 0x04 0 := by
  show execReply n s = _
  simp only [execReply, hcur]
  rfl

theorem traps_msgrd (hcur : s.me.cur = none) : Traps (.msgrd d a) s 0x04 0 := by
  show execMsgrd d a s = _
  simp only [execMsgrd, hcur]
  rfl

theorem exec_msgrd (hcur : s.me.cur = some u) (hx : (s.x a).toNat < 4) :
    exec (.msgrd d a) s = .next (writeX s 2 d (u.msg.head (s.x a).toNat)) := by
  show execMsgrd d a s = _
  simp only [execMsgrd, hcur]
  exact congrArg _ (if_neg (Nat.not_le.2 hx))

end

section
variable (hspec : s.speculative s.cur.1 s.cur.2 = false)
include hspec

theorem State.whenSafe_of_not_speculative (t : State) : s.whenSafe t = t := if_neg (by simp [hspec])

theorem exec_chmask (m : BitVec 1) {c : BitVec 6} (hpriv : c.toNat < 8 → s.me.sup = true) :
    exec (.chmask m c) s = .next ((s.setMask s.cur.1 c.toNat (m == 1)).retire 2) := by
  show execChmask m c s = _
  have hpriv' : ¬ (decide (c.toNat < 8) && !s.me.sup) = true := by simpa using hpriv
  rw [execChmask, if_neg hpriv', State.whenSafe_of_not_speculative hspec]

/-! ### WAITCH (R95, R192) -/

variable {c : BitVec 6}

theorem traps_waitch (hc : c.toNat < 8) : Traps (.waitch c) s 0x04 0 := by
  show execWaitch c s = _
  rw [execWaitch, State.whenSafe_of_not_speculative hspec, if_pos hc]
  rfl

theorem holds_waitch (hc : 8 ≤ c.toNat) (hcur : s.me.cur = none) : Holds (.waitch c) s (.waiting (.channel c)) := by
  show execWaitch c s = _
  rw [execWaitch, State.whenSafe_of_not_speculative hspec, if_neg (Nat.not_lt.2 hc), hcur]

theorem exec_waitch (hc : 8 ≤ c.toNat) {u : CurMsg} (hcur : s.me.cur = some u) (howes : u.owes = true → s.replyRoom s.cur.1 = true) :
    let s1 := s.dropMsg s.cur.1 { u with slot := none }
    exec (.waitch c) s = .next ((s1.setMe { s1.me with cur := none, slot := u.slot }).hold (.waiting (.channel c))) := by
  have hroom : ¬ (u.owes && !s.replyRoom s.cur.1) = true := by simpa using howes
  show execWaitch c s = _
  simp only [execWaitch, State.whenSafe_of_not_speculative hspec, if_neg (Nat.not_lt.2 hc), hcur, if_neg hroom]

end
end

/-- Settles O34: the sends through the one send they come to, the others each by its own. -/
theorem messages : Obligations.Messages := by
  intro s a b d x n v r m c l dst hplain hspec g open_ regs msg waits sends
  have hwaits : waits = s.sendWaits (r == 1) := (if_congr beq_iff_eq rfl rfl).symm
  have hsends : ∀ {i len q}, exec i s = .next (s.sendNow len q (r == 1)) → sends i len q := by
    intro i len q h
    simp only [sends, hwaits]
    exact sends_of_sendNow h
  refine ⟨fun ho hdst => ?_, fun ho hdst hlen ps hps hwatch hclash => ?_, fun ho hdst hlen hl cause ad hps => ?_,
    traps_send_nowhere n v r, fun u hcur hasks hans hroom => ?_, fun u hcur hasks hans hroom => ?_,
    fun hcur => ⟨traps_reply n hcur, traps_msgrd hcur⟩, fun u hcur => exec_msgrd hcur, exec_chmask hspec m, traps_waitch hspec,
    holds_waitch hspec, fun hc u hcur howes => exec_waitch hspec hc hcur howes⟩
  · exact hsends ((exec_send n v r ho).trans (congrArg _ (State.send_plain hplain hdst)))
  · have hhit : s.payloadHit b l = none := (ite_eq_left_iff ..).2 hwatch
    exact hsends ((exec_sendl v r ho (hdst ▸ rfl) hlen hplain hps hhit hclash).trans (congrArg _ (State.send_plain hplain hdst)))
  · have hhit : s.payloadHit b l = s.watchHit g s.cur.2 (s.x b).toNat l.toNat 2 := if_neg hl
    exact hhit ▸ trapsOn_sendl v r ho hdst hlen hps
  · rw [exec_reply n hplain hcur hasks hans, if_pos hroom]
  · rw [Holds, exec_reply n hplain hcur hasks hans, if_neg (Bool.eq_false_iff.1 hroom)]

end Sys2Proof.Machine
end

section
/-! The instructions of work: LAUNCH, FORK, JOIN, BAR, HALT and MIGRATE (O55). -/

namespace Sys2Proof.Machine

section
variable {s t : State} {a : XReg}

/-! ### Join records (R87, R89) -/

section
variable {k : Access}

theorem State.joinAccess_aligned {x : Word} (hx : x.toNat % 16 = 0) :
    s.joinAccess x k = s.globalAccess s.cur.1 s.cur.2 x k 4 true false := if_pos hx

theorem State.joinAccess_misaligned {x : Word} (hx : x.toNat % 16 ≠ 0) :
    (∀ pa, s.globalAccess s.cur.1 s.cur.2 x k 4 true false = (t, .ok pa) →
      s.joinAccess x k = (t, .error (.fail [0x06] (s.watchHit s.cur.1 s.cur.2 x.toNat 4 k.kinds) x)))
    ∧ ∀ cs i ad, s.globalAccess s.cur.1 s.cur.2 x k 4 true false = (t, .error (.fail cs i ad)) →
      s.joinAccess x k = (t, .error (.fail (if 0x06 ∈ cs then cs else 0x06 :: cs) i ad)) := by
  refine ⟨fun pa h => ?_, fun cs i ad h => ?_⟩
  · rw [State.joinAccess, if_neg hx, h]
  · rw [State.joinAccess, if_neg hx, h]
    simp only [List.contains_iff_mem]

end

section
variable (hspec : s.speculative s.cur.1 s.cur.2 = false)
include hspec

/-! ### LAUNCH (R100) -/

theorem traps_launch_misaligned (hx : (s.x a).toNat % 128 ≠ 0) : Traps (.launch a) s 0x06 (s.x a) := by
  show execLaunch a s = _
  rw [execLaunch, State.whenSafe_of_not_speculative hspec, if_pos hx]

section
variable (hx : (s.x a).toNat % 128 = 0)
include hx

theorem holds_launch_drain (hdr : s.me.drained = false) : Holds (.launch a) s (.blocked .drain) := by
  show execLaunch a s = _
  rw [execLaunch, State.whenSafe_of_not_speculative hspec, if_neg (not_not.2 hx), hdr]
  rfl

theorem traps_launch_nowhere (hdr : s.me.drained = true) (hreach : s.reach (s.tag s.cur.1) 0 0 = none) : Traps (.launch a) s 0x04 0 := by
  show execLaunch a s = _
  rw [execLaunch, State.whenSafe_of_not_speculative hspec, if_neg (not_not.2 hx), hdr, hreach]
  rfl

theorem exec_launch {dst : Nat} (hdr : s.me.drained = true) (hreach : s.reach (s.tag s.cur.1) 0 0 = some dst) :
    exec (.launch a) s = .next (if s.requestRoom s.cur.1 then
      (s.enqueue s.cur.1 ⟨.msg (s.message s.cur.1 s.cur.2 dst 0 1 (wordBytes (s.x a)) [] false false 0), s.cur.2, []⟩).retire 2
      else s.hold (.blocked .sendQueue)) := by
  show execLaunch a s = _
  rw [execLaunch, State.whenSafe_of_not_speculative hspec, if_neg (not_not.2 hx), hdr, hreach]
  rfl

end

/-! ### FORK and JOIN (R86, R87, R89) -/

section
variable (d : BitVec 16)

theorem exec_fork_stops {e : Stop} (h : s.joinAccess (s.x a) .amo = (t, .error e)) : exec (.fork a d) s = .next (t.stop e) := by
  show execFork a d s = _
  rw [execFork, State.whenSafe_of_not_speculative hspec, h]

theorem exec_fork {pa : Nat} (h : s.joinAccess (s.x a) .amo = (t, .ok pa)) (hroom : s.requestRoom s.cur.1 = true)
    (hdeque : (s.work s.cur.1).dequeRoom = true) :
    let u := t.joinAdd pa 1 true
    let f := u.me.forked (target s d) (s.x a)
    exec (.fork a d) s = .next ((((u.setMe f.2).pushDeque s.cur.1 f.1).workFound s.cur.1).retire 2) := by
  show execFork a d s = _
  rw [execFork, State.whenSafe_of_not_speculative hspec, h]
  simp [hroom, hdeque]

theorem exec_join_stops {e : Stop} (h : s.joinAccess (s.x a) .read = (t, .error e)) : exec (.join a) s = .next (t.stop e) := by
  show execJoin a s = _
  rw [execJoin, State.whenSafe_of_not_speculative hspec, h]

theorem exec_join {pa : Nat} (h : s.joinAccess (s.x a) .read = (t, .ok pa)) :
    (s.me.drained = false → Holds (.join a) s (.blocked .loads))
    ∧ (s.me.drained = true → s.physPoison pa 4 = true → exec (.join a) s = .next (s.terminate s.cur.1 s.cur.2 1 (s.x a)))
    ∧ (s.me.drained = true → s.physPoison pa 4 = false →
      (t.countZero s.cur.1 pa = true → exec (.join a) s = .next (t.retire 2))
      ∧ (t.countZero s.cur.1 pa = false → exec (.join a) s = .next (t.hold (.waiting (.join (s.x a)))))) := by
  have hj : exec (.join a) s = .next (if !s.me.drained then s.hold (.blocked .loads)
      else if s.physPoison pa 4 then s.terminate s.cur.1 s.cur.2 1 (s.x a)
      else if t.countZero s.cur.1 pa then t.retire 2 else t.hold (.waiting (.join (s.x a)))) := by
    show execJoin a s = _
    rw [execJoin, State.whenSafe_of_not_speculative hspec, h]
  rw [Holds, hj]
  refine ⟨fun hdr => ?_, fun hdr hp => ?_, fun hdr hp => ⟨fun hc => ?_, fun hc => ?_⟩⟩
  · simp [hdr]
  · simp [hdr, hp]
  · simp [hdr, hp, hc]
  · simp [hdr, hp, hc]

end
end

/-! ### The deque (R86) -/

theorem State.pushDeque_room {g : Nat} (e : DequeEntry) (h : (s.work g).deque.length < 64) :
    s.pushDeque g e = s.setWork g { s.work g with deque := (s.work g).deque ++ [e] } := by
  cases hd : (s.work g).deque with
  | nil => simp only [State.pushDeque, hd]; rfl
  | cons old r =>
    rw [hd] at h
    simp only [State.pushDeque, hd]
    exact if_pos h

theorem State.pushDeque_spills {g : Nat} (e : DequeEntry) {old : DequeEntry} {r : List DequeEntry} (hd : (s.work g).deque = old :: r)
    (h : 64 ≤ (s.work g).deque.length) : s.pushDeque g e =
      ({ s with mem := s.mem.store (s.oxbowAddr g (128 * (((s.work g).spillTop + (s.work g).spilled) % 8192))) old.bytes } : State).setWork g
        { s.work g with deque := r ++ [e], spilled := (s.work g).spilled + 1 } := by
  unfold State.pushDeque
  rw [hd] at h
  simp only [hd]
  exact if_neg (Nat.not_lt.2 h)

/-! ### BAR (R91) -/

theorem traps_bar (h : ∀ id j, s.me.role ≠ .strand id j) : Traps .bar s 0x04 0 := by
  show execBar s = _
  unfold execBar
  split
  · next id j hrole => exact absurd hrole (h id j)
  · rfl

theorem exec_bar {id j : Nat} {q : Crew} (hrole : s.me.role = .strand id j) (hq : Tab.find (s.work s.cur.1).crews id = some q)
    (hnew : q.arrived.contains j = false) :
    (s.me.drained = false → Holds .bar s (.blocked .drain))
    ∧ (s.me.drained = true → exec .bar s = .next (((s.setWork s.cur.1 { s.work s.cur.1 with
        crews := Tab.put (s.work s.cur.1).crews id { q with arrived := q.arrived ++ [j] } }).hold (.waiting .barrier)).openBar s.cur.1 id)) := by
  have h : exec .bar s = .next (if !s.me.drained then s.hold (.blocked .drain) else ((s.setWork s.cur.1 { s.work s.cur.1 with
      crews := Tab.put (s.work s.cur.1).crews id { q with arrived := q.arrived ++ [j] } }).hold (.waiting .barrier)).openBar s.cur.1 id) := by
    show execBar s = _
    simp only [execBar, hrole, hq, hnew]
    rfl
  rw [Holds, h]
  exact ⟨fun hdr => by rw [hdr]; rfl, fun hdr => by rw [hdr]; rfl⟩

/-! ### The end of a context with nothing under way (R92, R98) -/

/-- The executing context has nothing under way and nothing that its end gives back: no V-slot work, no access, no message, no event, no
banks of its own; and the request queue of its core has room. -/
structure State.Calm (s : State) : Prop where
  vectors : s.me.vectorsDone = true
  drained : s.me.drained = true
  room : s.requestRoom s.cur.1 = true
  cur : s.me.cur = none
  event : s.me.event = none
  banks : s.me.banks = none

theorem State.endEvent_of_none {g c : Nat} (h : (s.ctx g c).event = none) : s.endEvent g c = s := by
  have hev : s.eventOf g c = none := by rw [State.eventOf, h]
  rw [State.endEvent, hev]

theorem State.haltBanks_of_none {g c : Nat} (h : (s.ctx g c).banks = none) (keep : Option (BitVec 6)) : s.haltBanks g c keep = s := by
  rw [State.haltBanks, h]

theorem State.acks_of_drained (h : s.me.drained = true) : s.me.acks.isEmpty = true := by
  simp only [Ctx.drained, Bool.and_eq_true] at h
  exact h.2

/-- HALT of such a context that owes no join record frees it and marks its strand halted (R92, R93). -/
theorem State.halt_of_calm (hc : s.Calm) (hlog : Unlogged s s.cur.1) (hrole : s.me.role ≠ .child) (hjoin : s.me.join = 0)
    (keep : Option (BitVec 6)) : s.halt keep = (s.free s.cur.1 s.cur.2).strandHalted s.cur.1 keep s.me.role := by
  have hacks := State.acks_of_drained hc.drained
  have hhalt : s.halt keep = s.halted keep none := by
    rw [State.halt, if_pos ⟨hrole, hjoin⟩]
    simp [hc.vectors, hacks, hc.cur]
  have hchunk : s.halted keep none = (((s.endEvent s.cur.1 s.cur.2).haltBanks s.cur.1 s.cur.2 keep).free s.cur.1 s.cur.2).strandHalted
      s.cur.1 keep s.me.role := State.atChunkEnd_of_unlogged hlog ..
  rw [hhalt, hchunk, State.endEvent_of_none hc.event, State.haltBanks_of_none hc.banks]

theorem exec_haltK (hspec : s.speculative s.cur.1 s.cur.2 = false) (k : BitVec 6) : exec (.haltK k) s = .next (s.halt (some k)) :=
  congrArg _ (State.whenSafe_of_not_speculative hspec _)

/-! ### MIGRATE and MIGRATE_HOME (R97, R98) -/

theorem State.ctx_enqueue (s : State) (g : Nat) (e : SendEntry) (h c : Nat) : (s.enqueue g e).ctx h c = s.ctx h c := by
  rw [State.enqueue, State.ctx_setWork]
  split
  · next hg => rw [hg]; rfl
  · rfl

section
variable {dst : Nat} (m : BitVec 16)

/-- The executing context sent to core dst on channel 5, and free (R98). -/
def State.migrated (s : State) (dst : Nat) (m : BitVec 16) : State :=
  (s.enqueue s.cur.1 ⟨.msg (s.message s.cur.1 s.cur.2 dst
    (pack [(0, (s.logical (s.tag s.cur.1) (dst / 2560)).idxOf (dst % 2560)), (12, dst / 2560)]) 5
    (s.me.migration (nextSeq s.me.pc 2) m) [] false false 0), s.cur.2, []⟩).free s.cur.1 s.cur.2

theorem State.migrate_of_calm (hc : s.Calm) : s.migrate dst m = s.migrated dst m := by
  have hsent : s.migrate dst m = (((s.enqueue s.cur.1 ⟨.msg (s.message s.cur.1 s.cur.2 dst
      (pack [(0, (s.logical (s.tag s.cur.1) (dst / 2560)).idxOf (dst % 2560)), (12, dst / 2560)]) 5
      (s.me.migration (nextSeq s.me.pc 2) m) [] false false 0), s.cur.2, []⟩).endEvent s.cur.1 s.cur.2).haltBanks s.cur.1 s.cur.2
        none).free s.cur.1 s.cur.2 := by
    simp [State.migrate, hc.vectors, hc.drained, hc.room, hc.cur, chipOf, physOf]
  have hevent : ∀ e, ((s.enqueue s.cur.1 e).ctx s.cur.1 s.cur.2).event = none := fun e => by rw [State.ctx_enqueue]; exact hc.event
  have hbanks : ∀ e, ((s.enqueue s.cur.1 e).ctx s.cur.1 s.cur.2).banks = none := fun e => by rw [State.ctx_enqueue]; exact hc.banks
  rw [hsent, State.endEvent_of_none (hevent _), State.haltBanks_of_none (hbanks _), State.migrated]

theorem State.migrate_drains (hvec : s.me.vectorsDone = true) (hdr : s.me.drained = false) :
    s.migrate dst m = s.hold (.blocked .drain) := by
  simp [State.migrate, hvec, hdr]

theorem traps_migrate_not (hmay : s.mayMigrate = false) : Traps (.migrate a m) s 0x04 0 ∧ Traps (.migrateHome a m) s 0x04 0 := by
  constructor
  · show execMigrate a m s = _
    simp only [execMigrate, hmay]
    rfl
  · show execMigrateHome a m s = _
    simp only [execMigrateHome, hmay]
    rfl

theorem traps_migrate_wide (hx : 2 ^ 18 ≤ (s.x a).toNat) : Traps (.migrate a m) s 0x04 0 := by
  show execMigrate a m s = _
  simp only [execMigrate, decide_eq_true hx, Bool.or_true]
  rfl

section
variable (hmay : s.mayMigrate = true)
include hmay

theorem traps_migrate_nowhere (hx : (s.x a).toNat < 2 ^ 18)
    (hreach : s.reach (s.tag s.cur.1) (field (s.x a) 12 6) (field (s.x a) 0 12) = none) : Traps (.migrate a m) s 0x04 0 := by
  show execMigrate a m s = _
  simp only [execMigrate, hmay, decide_eq_false (Nat.not_le.2 hx), hreach]
  rfl

theorem exec_migrate (hx : (s.x a).toNat < 2 ^ 18)
    (hreach : s.reach (s.tag s.cur.1) (field (s.x a) 12 6) (field (s.x a) 0 12) = some dst) :
    exec (.migrate a m) s = .next (s.migrate dst m) := by
  show execMigrate a m s = _
  simp only [execMigrate, hmay, decide_eq_false (Nat.not_le.2 hx), hreach]
  rfl

section
variable {pa : Nat} (ht : s.translate s.cur.1 (!s.me.sup) (s.x a) .read = (t, .ok pa))
include ht

theorem exec_migrateHome_nowhere (hhome : vaultCore pa = none) : exec (.migrateHome a m) s = .next (t.trap 0x04) := by
  show execMigrateHome a m s = _
  simp only [execMigrateHome, hmay, ht, hhome]
  rfl

theorem exec_migrateHome (hhome : vaultCore pa = some dst) (hholds : s.holds (s.tag s.cur.1) dst = true)
    (hlmap : s.lmapValid (s.tag s.cur.1) dst = true) : exec (.migrateHome a m) s = .next (t.migrate dst m) := by
  show execMigrateHome a m s = _
  simp only [execMigrateHome, hmay, ht, hhome, hholds, hlmap]
  rfl

end
end
end
end

theorem State.lmapValid_of_sound {s : State} {h : Nat} (hfenced : (s.core h).dbg.fenced = false) (hchecked : (s.core h).dbg.checked = false)
    (t : Nat) : s.lmapValid t h = true := by
  simp [State.lmapValid, hfenced, hchecked]

/-- Settles O55: each instruction in its cases. -/
theorem workInstructions : Obligations.WorkInstructions := by
  intro s t a d m k pa dst g c x w calm gone sent
  have hcalm : ∀ {u}, calm u → u.Calm ∧ u.cur = s.cur := by
    rintro u ⟨hvec, hdr, hroom, hcur, hevent, hbanks, hsame⟩
    exact ⟨⟨hvec, hdr, by rwa [hsame], hcur, hevent, hbanks⟩, hsame⟩
  have hsent : ∀ {u}, calm u → u.migrate dst m = sent u := by
    intro u hu
    obtain ⟨hc, hsame⟩ := hcalm hu
    rw [State.migrate_of_calm m hc, State.migrated, hsame]
  refine ⟨fun hspec => ?_, traps_bar, fun id j q => exec_bar, traps_migrate_not m, fun hmay => ⟨traps_migrate_wide m,
    traps_migrate_nowhere m hmay, fun hx hreach => ?_, fun ht => ⟨exec_migrateHome_nowhere m hmay ht, ?_⟩⟩⟩
  · refine ⟨traps_launch_misaligned hspec, fun hx => ⟨holds_launch_drain hspec hx, traps_launch_nowhere hspec hx, fun hdr hreach => ?_⟩,
      fun hx => ?_, fun hx hok hroom hdeque => ?_, fun e => ⟨State.pushDeque_room e, fun old r => State.pushDeque_spills e⟩,
      fun hx hok => exec_join hspec ((State.joinAccess_aligned hx).trans hok), fun hlog hc hrole hjoin => ?_⟩
    · have h := exec_launch hspec hx hdr hreach
      exact ⟨fun hroom => h.trans (congrArg _ (if_neg (Bool.eq_false_iff.1 hroom))), fun hroom => h.trans (congrArg _ (if_pos hroom))⟩
    · obtain ⟨hamo, hamoFail⟩ := State.joinAccess_misaligned (s := s) (t := t) (k := .amo) hx
      obtain ⟨hread, hreadFail⟩ := State.joinAccess_misaligned (s := s) (t := t) (k := .read) hx
      exact ⟨fun hok => exec_fork_stops hspec d (hamo pa hok), fun hok => exec_join_stops hspec (hread pa hok),
        fun cs i ad => ⟨fun hf => exec_fork_stops hspec d (hamoFail cs i ad hf), fun hf => exec_join_stops hspec (hreadFail cs i ad hf)⟩⟩
    · have h := exec_fork hspec d ((State.joinAccess_aligned hx).trans hok) hroom hdeque
      rwa [target_eq] at h
    · have h := State.halt_of_calm (hcalm hc).1 hlog hrole hjoin
      exact ⟨congrArg _ (h none), congrArg _ (h none), (exec_haltK hspec k).trans (congrArg _ (h (some k)))⟩
  · have h := exec_migrate m hmay hx hreach
    exact ⟨fun hc => h.trans (congrArg _ (hsent hc)), fun hvec hdr => h.trans (congrArg _ (State.migrate_drains m hvec hdr))⟩
  · intro hhome hholds hfenced hchecked hc
    exact (exec_migrateHome m hmay ht hhome hholds (State.lmapValid_of_sound hfenced hchecked _)).trans (congrArg _ (hsent hc))

end Sys2Proof.Machine
end

section
/-! The steps of dispatchers, of forked and stolen work, of swaps and of migration (O57). -/

namespace Sys2Proof.Machine

/-! ### Clocks, tags and partitions -/

theorem State.cycle_setWork (s : State) (h g : Nat) (w : Work) : (s.setWork h w).cycle g = s.cycle g := rfl

theorem State.cycle_workFound (s : State) (g : Nat) : (s.workFound g).cycle g = s.cycle g := rfl

theorem State.cycle_releaseFor (s : State) (h g : Nat) (m : Msg) : (s.releaseFor h m).cycle g = s.cycle g := by
  unfold State.releaseFor
  split <;> rfl

theorem State.cycle_consume (s : State) (h g k : Nat) (m : Msg) : (s.consume h k m).cycle g = s.cycle g :=
  State.cycle_releaseFor ..

theorem State.cycle_fillSlot (s : State) (h g n : Nat) (m : Msg) : (s.fillSlot h n m).cycle g = s.cycle g := rfl

theorem State.tag_setWork (s : State) (h g : Nat) (w : Work) : (s.setWork h w).tag g = s.tag g := by
  rw [State.tag, State.core_setWork]
  split
  · next hg => rw [hg]; rfl
  · rfl

theorem State.part_setPart (s : State) (t u : Nat) (p : Partition) : (s.setPart t p).part u = if u = t then p else s.part u :=
  Tab.look_put ..

section
variable {s u v : State} {t g k c n : Nat} {m : Msg} {l : Launch} {gr : Grid} {q : Crew} {e : DequeEntry} {i : SwapImage}

/-! ### Launches (R71, R72, R362) -/

theorem exec_jfenceMark (hdue : (s.part t).markDue ≠ 0) (hj : s.journals t = false) : exec (.jfenceMark t) s =
    .next (s.setPart t { s.part t with deltas := Tab.put (s.part t).deltas 0 ((s.part t).markDue - 1) }) := by
  have hoff : ∀ ds, (!(s.setPart t { s.part t with deltas := ds }).journals t) = true := fun ds => by
    rw [State.journals, State.part_setPart, if_pos rfl, Bool.not_eq_true']
    exact hj
  exact congrArg _ ((if_neg hdue).trans (if_pos (hoff _)))

/-- The payload passes through the lowest free arrival slot (R145). -/
theorem State.bank14_eq (hslot : (s.work g).freeSlot = some n) : s.bank14 g m = some (s.fillSlot g n m) := by
  rw [State.bank14, hslot]
  rfl

section
variable (hm : (s.work g).ejected k = some m) (hch : m.channel = 1) (hserves : s.serves g = true) (hslot : (s.work g).freeSlot = some n)
include hm hch hserves hslot

theorem exec_launchForward {d : Nat} (hd : s.dispatchCore (s.tag g) = some d) (hdg : d ≠ g) : exec (.launchForward g k) s =
    .next (((s.fillSlot g n m).setWork g (((s.fillSlot g n m).work g).take .ejection k)).inject
      { m with d0 := m.d0 &&& ~~~0x3FFFF, dst := d }) := by
  show execLaunchForward g k s = _
  simp [execLaunchForward, hm, hd, hch, hdg, hserves, State.bank14_eq hslot]

theorem exec_launchMessage (hd : s.dispatchCore t = some g) (hfirst : (((s.work g).ejection.take k).any fun q => q.channel == 1) = false)
    (hwait : (s.part t).waiting = none) :
    exec (.launchMessage t k) s = .next (((s.fillSlot g n m).consume g k m).launch t (m.word 0)) := by
  show execLaunchMessage t k s = _
  simp only [execLaunchMessage, hd, hm, hch, hserves, hfirst, hwait, State.bank14_eq hslot]
  rfl

end

theorem State.launch_misaligned {a : Word} (ha : a.toNat % 128 ≠ 0) : s.launch t a = s.rejectLaunch t a 0 2 := if_pos ha

theorem launchLegal_iff (l : Launch) (d : Nat) : launchLegal l d = true ↔
    entryAligned l.entry = true ∧ l.n < 2 ^ 47 ∧ 1 ≤ l.s ∧ l.s ≤ 16 ∧ d ≤ 3 ∧ l.banks ≤ 14 := by
  simp [launchLegal, and_assoc]

/-- An accepted launch that the journal does not record starts its grid, or waits for counters (R72). -/
theorem State.launch_read {a : Word} (ha : a.toNat % 128 = 0) {r : State} {bs : List Byte}
    (hr : s.readVirt (s.dispatcher t) false a 128 = (r, .ok bs)) :
    (r.targetOk t (readLaunch a bs).target = false → s.launch t a = r.rejectLaunch t a (readLaunch a bs).cookie 0)
    ∧ (r.targetOk t (readLaunch a bs).target = true → launchLegal (readLaunch a bs) (numAt bs 17 1) = false →
      s.launch t a = r.complete t (readLaunch a bs) 1)
    ∧ (r.targetOk t (readLaunch a bs).target = true → launchLegal (readLaunch a bs) (numAt bs 17 1) = true → r.journals t = false →
      (readLaunch a bs).n ≠ 0 →
      (∀ v, r.startGrid t (readLaunch a bs) = some v → s.launch t a = v)
      ∧ (r.startGrid t (readLaunch a bs) = none → s.launch t a = r.setPart t { r.part t with waiting := some (readLaunch a bs) })) := by
  refine ⟨fun htarget => ?_, fun htarget hlegal => ?_, fun htarget hlegal hj hn => ?_⟩
  · simp [State.launch, ha, hr, htarget]
  · simp [State.launch, ha, hr, htarget, hlegal]
  · have haccept : r.accept t (readLaunch a bs) = (r, readLaunch a bs) := by simp [State.accept, hj]
    refine ⟨fun v hv => ?_, fun hv => ?_⟩
    · simp [State.launch, ha, hr, htarget, hlegal, haccept, hn, hv]
    · simp [State.launch, ha, hr, htarget, hlegal, haccept, hn, hv]

theorem State.launch_unread {a : Word} (ha : a.toNat % 128 = 0) {r : State} {f : XFail × Word}
    (hr : s.readVirt (s.dispatcher t) false a 128 = (r, .error f)) : s.launch t a = r.rejectLaunch t a 0 1 := by
  simp [State.launch, ha, hr]

theorem exec_dispatchRetry (hw : (s.part t).waiting = some l) (hu : s.startGrid t l = some u) :
    exec (.dispatchRetry t) s = .next (u.setPart t { u.part t with waiting := none }) := by
  show execDispatchRetry t s = _
  simp only [execDispatchRetry, hw, hu]

/-! ### Grids and crews (R72, R74, R75) -/

theorem exec_gridDescriptor (hd : Tab.find s.net.descs k = some (g, gr))
    (hfirst : (s.net.descs.any fun x => decide (x.1 < k) && x.2.1 == g) = false) :
    exec (.gridDescriptor k) s = .next ((s.withNet fun z => { z with descs := Tab.drop z.descs k }).mapFor (gr.counter / 2 ^ 18) g
      fun w => { w with grids := w.grids ++ [gr] }) := by
  show execGridDescriptor k s = _
  simp only [execGridDescriptor, hd, hfirst]
  rfl

section
variable (hjob : s.nextJob g = some .crew)
include hjob

theorem exec_crewAdmission_start {v : Nat} (hclaim : (s.work g).claim = some (.got v gr)) :
    exec (.crewAdmission g) s = .next (((s.setWork g { s.work g with claim := none }).startCrew g v gr).workFound g) := by
  show execCrewAdmission g s = _
  simp only [execCrewAdmission, hjob, hclaim]
  rfl

theorem exec_crewAdmission_ask (hclaim : (s.work g).claim = none) (hgrid : (s.work g).nextGrid = some gr) :
    exec (.crewAdmission g) s = .next ((s.setWork g { s.work g with claim := some (.asked gr) }).enqueue g
      ⟨.op ⟨g, 31, s.tag g, gr.counter, .token, 0, .wire 0, [], .crew, s.cycle g⟩, 31, []⟩) := by
  show execCrewAdmission g s = _
  simp only [execCrewAdmission, hjob, hclaim, hgrid, State.askCrew, State.unitTake, State.tag_setWork, State.cycle_setWork]
  rfl

end

theorem exec_crewDone (hq : Tab.find (s.work g).crews k = some q) (hhalted : q.halted.length = q.ctxs.length)
    (hbusy : (s.work g).crewBusy k = false) (hroom : s.requestRoom g = true) :
    let v := s.setWork g { (s.work g).leaveBanks q.keep q.bank q.n (s.cycle g) with crews := Tab.drop (s.work g).crews k }
    exec (.crewDone g k) s = .next (v.enqueue g ⟨.op ⟨g, 31, v.tag g, q.grid.done, .token, 0, .wire 0, [], .done, s.cycle g⟩, 31, []⟩) := by
  show execCrewDone g k s = _
  simp only [execCrewDone, hq, hhalted, hbusy, hroom, lt_irrefl]
  rfl

theorem exec_retainTimeout {r : Retained} (hr : (s.work g).retained[k]? = some r) (hmet : r.met = false)
    (hbanks : bankMask r.bank r.n &&& (s.work g).lpBanks = 0) (hage : r.since + 2 ^ 20 ≤ s.cycle g) : exec (.retainTimeout g k) s =
      .next (s.setWork g (({ s.work g with retained := (s.work g).retained.eraseIdx k } : Work).powerDown r.bank r.n)) := by
  show execRetainTimeout g k s = _
  simp only [execRetainTimeout, hr]
  refine congrArg _ (if_neg ?_)
  rintro (h | h | h)
  · omega
  · simp [hmet] at h
  · exact h hbanks

theorem exec_gridCompletion {r : GridRun} {x : Counter} (hr : (s.part t).runs[k]? = some r) (hx : s.counter t r.done = some x)
    (hraised : x.raised 0 = true) (hdone : s.quiescent t r.done = true) (hcounter : s.quiescent t r.counter = true) :
    let s1 := ((s.freeCounter t r.counter).freeCounter t r.done).complete t r.launch 0
    let s2 := s1.setPart t (({ s1.part t with runs := (s1.part t).runs.eraseIdx k } : Partition).sent r.launch.jid)
    exec (.gridCompletion t k) s = .next (s2.tellEnd r.counter (s2.partCores t)) := by
  show execGridCompletion t k s = _
  simp only [execGridCompletion, hr, hx, hraised, hdone, hcounter, Bool.not_true, Bool.or_self, Bool.false_eq_true, if_false]

theorem exec_gridEnd (he : Tab.find s.net.ends k = some (g, n))
    (hfirst : (s.net.descs.any fun x => decide (x.1 < k) && x.2.1 == g && x.2.2.counter == n) = false) :
    exec (.gridEnd k) s = .next ((s.withNet fun z => { z with ends := Tab.drop z.ends k }).mapFor (n / 2 ^ 18) g fun w =>
      { w with grids := w.grids.filter fun q => q.counter != n }) := by
  show execGridEnd k s = _
  simp only [execGridEnd, he, hfirst]
  rfl

/-! ### Children and stealing (R86, R88) -/

/-- A child starts, and one whose start state is poisoned is terminated (R88, R363). -/
theorem State.startChild_eq {now : Nat} (hnow : s.cycle g = now) :
    (e.bad = [] → s.startChild g c e = s.setCtx g c (childStart e now))
    ∧ (e.bad ≠ [] → s.startChild g c e = (s.setCtx g c (childStart e now)).terminate g c 1 e.entry) := by
  subst hnow
  exact ⟨fun h => if_pos (by simp [h]), fun h => if_neg (by simp [h])⟩

theorem exec_forkChildStart (hpop : s.popBottom g = some (e, u)) (hc : s.freeCtx g = some c) (hjob : s.nextJob g = some .child) :
    exec (.forkChildStart g) s = .next ((u.workFound g).startChild g c e) := by
  show execForkChildStart g s = _
  simp only [execForkChildStart, hpop, hc, hjob]
  rfl

theorem exec_stealRequest {v : Nat} (hv : (s.victims g)[(s.work g).steal.tried]? = some v) (hidle : s.idleThief g = true)
    (hroom : s.requestRoom g = true) (htime : (s.work g).steal.notBefore ≤ s.cycle g) : exec (.stealRequest g) s =
      .next ((s.setWork g { s.work g with steal := { (s.work g).steal with asked := some v, stale := false } }).enqueue g
        ⟨.steal v, 31, []⟩) := by
  show execStealRequest g s = _
  simp only [execStealRequest, hv, hidle, hroom, decide_eq_true htime]
  rfl

/-- The machine with steal request k taken from the network. -/
def State.stealTaken (s : State) (k : Nat) : State := s.withNet fun z => { z with steals := Tab.drop z.steals k }

section
variable (hk : Tab.find s.net.steals k = some (n, g))
include hk

theorem exec_stealServe_away (htakes : s.takes g (s.tag n) = false) :
    exec (.stealServe k) s = .next ((s.stealTaken k).inject (s.stealMsg g n none)) := by
  show execStealServe k s = _
  simp only [execStealServe, hk, htakes]
  rfl

section
variable (htakes : s.takes g (s.tag n) = true) (htag : s.tag g = s.tag n) (hruns : s.runs g = true) (hroom : s.requestRoom g = true)
include htakes htag hruns hroom

theorem exec_stealServe_nothing (hgive : (s.stealTaken k).give g n = none) :
    exec (.stealServe k) s = .next ((s.stealTaken k).enqueue g ⟨.msg (s.stealMsg g n none), 31, []⟩) := by
  rw [State.stealTaken] at hgive
  show execStealServe k s = _
  simp only [execStealServe, hk, htakes, htag, hruns, hroom, hgive, bne_self_eq_false]
  rfl

theorem exec_stealServe_entry (hgive : (s.stealTaken k).give g n = some (e, u)) :
    exec (.stealServe k) s = .next (u.enqueue g ⟨.msg (s.stealMsg g n (some e)), 31, []⟩) := by
  rw [State.stealTaken] at hgive
  show execStealServe k s = _
  simp only [execStealServe, hk, htakes, htag, hruns, hroom, hgive, bne_self_eq_false]
  rfl

end
end

/-- A victim with an empty deque gives nothing. -/
theorem State.give_empty (h : (s.work g).dequeSize = 0) : s.give g n = none := by
  obtain ⟨hdeque, hspilled⟩ := Nat.add_eq_zero_iff.1 h
  simp [State.give, State.popTop, hspilled, List.eq_nil_of_length_eq_zero hdeque]

/-- A victim gives its oldest entry just to thieves of the domain of the entry. -/
theorem State.give_oldest {r : List DequeEntry} (hspilled : (s.work g).spilled = 0) (hdeque : (s.work g).deque = e :: r) :
    s.give g n = if inDomain e.domain.toNat g n then some (e, s.setWork g { s.work g with deque := r }) else none := by
  simp [State.give, State.popTop, hspilled, hdeque, Option.filter]

theorem exec_stealReply_empty (hk : s.stealReply k = some (g, n, m)) (hm : m.payload = []) :
    exec (.stealReply k) s = .next ((s.consume g n m).setWork g { (s.consume g n m).work g with
      steal := ((s.consume g n m).work g).steal.empty (s.victims g).length (s.cycle g) }) := by
  show execStealReply k s = _
  simp only [execStealReply, hk, hm]
  rfl

theorem exec_stealReply_entry {z : Nat} (hk : s.stealReply k = some (g, n, m)) (hm : m.payload ≠ []) (hc : s.freeCtx g = some c)
    (hslot : (s.work g).freeSlot = some z) (hjob : s.nextJob g = some (.stolen k)) :
    let v := (s.fillSlot g z m).consume g n m
    exec (.stealReply k) s = .next ((v.setWork g { v.work g with steal := ⟨none, false, 0, 0⟩ }).startChild g c
      { readEntry m.payload with bad := m.bad }) := by
  have hm' : m.payload.isEmpty = false := by simpa using hm
  show execStealReply k s = _
  simp only [execStealReply, hk, hm', hc, State.bank14_eq hslot, hjob]
  rfl

theorem exec_stealRound (hidle : s.idleThief g = true) (htime : (s.work g).steal.notBefore ≤ s.cycle g)
    (hall : (s.victims g).length ≤ (s.work g).steal.tried) (hsome : 0 < (s.work g).steal.tried) :
    exec (.stealRound g) s = .next (s.setWork g { s.work g with steal := { (s.work g).steal with tried := 0 } }) := by
  show execStealRound g s = _
  simp only [execStealRound, hidle, decide_eq_true htime, decide_eq_true hall, decide_eq_true hsome]
  rfl

/-! ### JOIN contexts and migrating strands (R90, R99) -/

theorem exec_joinSwapOut (hlong : s.longest g (s.joiners g) = some c) (hfull : s.freeCtx g = none)
    (hox : (s.work g).oxbow.getLsbD 0 = true) (hserves : s.serves g = true) (hring : (s.ctx g c).ring = [])
    (hset : (s.ctx g c).settled = true) (hplace : Tab.find (s.work g).joinOut c = none)
    (hpop : ((s.setWork g { s.work g with joinOut := Tab.put (s.work g).joinOut c (s.packCtx g c) }).liftFrame g c).popBottom g
      = some (e, u)) : exec (.joinSwapOut g) s = .next (u.startChild g c e) := by
  show execJoinSwapOut g s = _
  simp only [execJoinSwapOut, hlong, hfull, hox, hserves, hring, hset, hplace, hpop]
  rfl

theorem exec_joinReadmit {x : Ctx} {va : Word} (hx : Tab.find (s.work g).joinOut k = some x) (hc : s.freeCtx g = some c)
    (hst : x.st = .waiting (.join va)) (hj : s.joined g x va = true) (hserves : s.serves g = true) : exec (.joinReadmit g k) s =
      .next ((s.setWork g { s.work g with joinOut := Tab.drop (s.work g).joinOut k }).putBack g c x) := by
  show execJoinReadmit g k s = _
  simp only [execJoinReadmit, hx, hc, hst, hj, hserves]
  rfl

theorem exec_migrationArrival (hm : (s.work g).ejected k = some m) (hc : s.freeCtx g = some c) (hslot : (s.work g).freeSlot = some n)
    (hjob : s.nextJob g = some (.migration k)) :
    let v := (((s.fillSlot g n m).consume g k m).setCtx g c (migrant m.payload (s.cycle g))).workFound g
    (m.bad = [] → exec (.migrationArrival g k) s = .next v)
    ∧ (m.bad ≠ [] → exec (.migrationArrival g k) s = .next (v.terminate g c 1 0)) := by
  intro v
  have h : exec (.migrationArrival g k) s = .next (if m.bad.isEmpty then v else v.terminate g c 1 0) := by
    show execMigrationArrival g k s = _
    simp only [execMigrationArrival, hm, hc, State.bank14_eq hslot, hjob]
    rfl
  exact ⟨fun hb => h.trans (congrArg _ (if_pos (by simp [hb]))), fun hb => h.trans (congrArg _ (if_neg (by simp [hb])))⟩

/-! ### Crew swap (R264, R265, R267) -/

theorem exec_crewSwapOut (hq : Tab.find (s.work g).crews k = some q) (hwanted : s.swapWanted g k = true)
    (hleave : s.canLeave g k q = true) (hserves : s.serves g = true) : exec (.crewSwapOut g k) s = .next (s.swapOut g k q) := by
  show execCrewSwapOut g k s = _
  simp only [execCrewSwapOut, hq, hwanted, hleave, hserves]
  rfl

theorem exec_idleCrewSwap (hswaps : (s.work g).swaps = true) (hstarved : s.starved g = true) (hserves : s.serves g = true)
    (hidle : s.crewsIdle g = true)
    (hold : s.oldestCrew g ((s.work g).crews.filter fun e => !(s.strands g e.1 e.2).isEmpty && s.movable g e.2) = some (k, q))
    (hleave : s.canLeave g k q = true) : exec (.idleCrewSwap g) s = .next (s.swapOut g k q) := by
  show execIdleCrewSwap g s = _
  simp only [execIdleCrewSwap, hold, hswaps, hstarved, hserves, hidle, hleave]
  rfl

theorem exec_crewReadmission (hjob : s.nextJob g = some (.readmit n)) (hi : Tab.find (s.work g).swapped n = some i) :
    exec (.crewReadmission g) s = .next ((s.readmit g n i).workFound g) := by
  show execCrewReadmission g s = _
  simp only [execCrewReadmission, hjob, hi]

end

/-- Settles O57: each step where its conditions hold. -/
theorem workEvents : Obligations.WorkEvents := by
  intro s u t g k c n m l gr q e i w p
  refine ⟨exec_jfenceMark, fun hm hch hserves hslot => ?_, ?_, exec_dispatchRetry, exec_gridDescriptor, fun hjob =>
    ⟨fun v => exec_crewAdmission_start hjob, exec_crewAdmission_ask hjob⟩, exec_crewDone, fun r => exec_retainTimeout, fun r x =>
    exec_gridCompletion, exec_gridEnd, fun hpop hc hjob => ?_, fun v => exec_stealRequest, fun hk => ?_, fun hk => ?_, exec_stealRound,
    ?_, fun x va => exec_joinReadmit, exec_migrationArrival, exec_crewSwapOut, exec_idleCrewSwap, exec_crewReadmission⟩
  · exact ⟨fun d => exec_launchForward hm hch hserves hslot, exec_launchMessage hm hch hserves hslot⟩
  · exact ⟨State.launch_misaligned, fun ha => ⟨fun f hf => State.launch_unread ha (Prod.ext rfl hf), fun bs hbs => by
      obtain ⟨hreject, hillegal, haccept⟩ := State.launch_read (r := (s.readVirt (s.dispatcher t) false m.d0 128).1) ha (Prod.ext rfl hbs)
      exact ⟨hreject, hillegal, launchLegal_iff .., haccept⟩⟩⟩
  · have h := exec_forkChildStart hpop hc hjob
    obtain ⟨hgood, hbad⟩ := State.startChild_eq (c := c) (e := e) (u.cycle_workFound g)
    exact ⟨fun he => h.trans (congrArg _ (hgood he)), fun he => h.trans (congrArg _ (hbad he))⟩
  · refine ⟨exec_stealServe_away hk, fun htakes htag hruns hroom => ⟨fun hnone => ?_, fun r hspilled hdeque => ?_⟩⟩
    · exact exec_stealServe_nothing hk htakes htag hruns hroom (State.give_empty hnone)
    · have hgive := State.give_oldest (s := s.stealTaken k) (n := n) hspilled hdeque
      refine ⟨fun hin => ?_, fun hout => ?_⟩
      · exact exec_stealServe_entry hk htakes htag hruns hroom (hgive.trans (if_pos hin))
      · exact exec_stealServe_nothing hk htakes htag hruns hroom (hgive.trans (if_neg (Bool.eq_false_iff.1 hout)))
  · refine ⟨exec_stealReply_empty hk, fun z hm hc hslot hjob => ?_⟩
    have h := exec_stealReply_entry hk hm hc hslot hjob
    let v := (s.fillSlot g z m).consume g n m
    have hnow : (v.setWork g { v.work g with steal := ⟨none, false, 0, 0⟩ }).cycle g = s.cycle g :=
      (State.cycle_consume ..).trans (State.cycle_fillSlot ..)
    obtain ⟨hgood, hbad⟩ := State.startChild_eq (c := c) (e := { readEntry m.payload with bad := m.bad }) hnow
    exact ⟨fun he => h.trans (congrArg _ (hgood he)), fun he => h.trans (congrArg _ (hbad he))⟩
  · intro hlong hfull hox hserves hring hset hplace v hpop he
    exact (exec_joinSwapOut hlong hfull hox hserves hring hset hplace hpop).trans (congrArg _ ((State.startChild_eq rfl).1 he))

end Sys2Proof.Machine
end

section
/-! The start of a crew, its swap and its return (O56). -/

namespace Sys2Proof.Machine

/-! ### The free list (R65) -/

section
variable {s : State} {g c : Nat}

theorem State.freeCtx_spec (h : s.freeCtx g = some c) : c < 24 ∧ (s.ctx g c).role = .free := by
  rw [State.freeCtx, firstBelow] at h
  exact ⟨List.mem_range.1 (List.mem_of_find?_eq_some h), by simpa using List.find?_some h⟩

/-- The free contexts of core g. -/
def State.freeList (s : State) (g : Nat) : List Nat := (List.range 24).filter fun c => (s.ctx g c).role == .free

theorem State.freeCount_eq (s : State) (g : Nat) : s.freeCount g = (s.freeList g).length := rfl

theorem State.freeCtx_of_pos (h : 0 < s.freeCount g) : ∃ c, s.freeCtx g = some c := by
  obtain ⟨c, hc⟩ := List.exists_mem_of_length_pos h
  obtain ⟨hlt, hfree⟩ := List.mem_filter.1 hc
  exact Option.isSome_iff_exists.1 (List.find?_isSome.2 ⟨c, hlt, hfree⟩)

/-- A context in use leaves the free list. -/
theorem State.freeCount_setCtx {k : Ctx} (hc : s.freeCtx g = some c) (hk : k.role ≠ .free) :
    (s.setCtx g c k).freeCount g + 1 = s.freeCount g := by
  obtain ⟨hlt, hfree⟩ := State.freeCtx_spec hc
  have hmem : c ∈ s.freeList g := List.mem_filter.2 ⟨List.mem_range.2 hlt, by simpa using hfree⟩
  have hrest : (s.setCtx g c k).freeList g = (s.freeList g).erase c := by
    have hnodup : (s.freeList g).Nodup := List.nodup_range.filter _
    rw [hnodup.erase_eq_filter, State.freeList, State.freeList, List.filter_filter]
    refine List.filter_congr fun d _ => ?_
    rw [State.ctx_setCtx]
    by_cases hd : d = c
    · simp [hd, hk]
    · simp [hd]
  rw [State.freeCount_eq, State.freeCount_eq, hrest, List.length_erase_of_mem hmem]
  have := List.length_pos_of_mem hmem
  omega

theorem State.freeCount_congr {t : State} (h : ∀ c, t.ctx g c = s.ctx g c) : t.freeCount g = s.freeCount g := by
  simp only [State.freeCount, h]

end

/-! ### The strands of a crew (R41, R51, R69) -/

theorem strandStart_spec (id j v : Nat) (gr : Grid) (b now : Nat) :
    let k := strandStart id j v gr b now
    k.role = .strand id j ∧ k.st = .ready ∧ k.sup = false ∧ k.pc = entryPC gr.launch.entry ∧ k.x[1] = BitVec.ofNat 64 v
    ∧ k.x[2] = BitVec.ofNat 64 j ∧ k.x[3] = BitVec.ofNat 64 gr.launch.n ∧ k.x[4] = allotAddr b gr.launch.banks
    ∧ k.x[5] = allotSize gr.launch.banks ∧ k.mbox = gr.launch.mbox :=
  ⟨rfl, rfl, rfl, rfl, rfl, rfl, rfl, rfl, rfl, rfl⟩

/-- Strands j, j + 1, … of crew v run at t in the contexts ds of core g, which were free at s; every other context is as it was. -/
structure State.Started (s t : State) (g id v b : Nat) (gr : Grid) (j : Nat) (ds : List Nat) : Prop where
  nodup : ds.Nodup
  free : ∀ c ∈ ds, c < 24 ∧ (s.ctx g c).role = .free
  begun : ∀ i < ds.length, ∃ c now, ds[i]? = some c ∧ t.ctx g c = strandStart id (j + i) v gr b now
  kept : ∀ c, c ∉ ds → t.ctx g c = s.ctx g c

section
variable {g id v b : Nat} {gr : Grid}

theorem State.Started.cons {s t : State} {j c now : Nat} {ds : List Nat} (hc : s.freeCtx g = some c)
    (h : (s.setCtx g c (strandStart id j v gr b now)).Started t g id v b gr (j + 1) ds) : s.Started t g id v b gr j (c :: ds) := by
  have hself : (s.setCtx g c (strandStart id j v gr b now)).ctx g c = strandStart id j v gr b now := by
    rw [State.ctx_setCtx, if_pos ⟨rfl, rfl⟩]
  have hother : ∀ d, d ≠ c → (s.setCtx g c (strandStart id j v gr b now)).ctx g d = s.ctx g d := fun d hd => by
    rw [State.ctx_setCtx, if_neg fun hin => hd hin.2]
  have hnew : c ∉ ds := fun hin => by
    have hrole := (h.free c hin).2
    rw [hself] at hrole
    exact absurd hrole nofun
  refine ⟨List.nodup_cons.2 ⟨hnew, h.nodup⟩, fun d hd => ?_, fun i hi => ?_, fun d hd => ?_⟩
  · obtain rfl | hd := List.mem_cons.1 hd
    · exact State.freeCtx_spec hc
    · obtain ⟨hlt, hfree⟩ := h.free d hd
      exact ⟨hlt, hother d (fun hdc => hnew (hdc ▸ hd)) ▸ hfree⟩
  · cases i with
    | zero => exact ⟨c, now, rfl, (h.kept c hnew).trans hself⟩
    | succ i =>
      obtain ⟨d, now', hd, hk⟩ := h.begun i (Nat.lt_of_succ_lt_succ hi)
      exact ⟨d, now', hd, by rw [hk, Nat.add_right_comm, Nat.add_assoc]⟩
  · obtain ⟨hdc, hd⟩ := not_or.1 (List.mem_cons.not.1 hd)
    exact (h.kept d hd).trans (hother d hdc)

/-- As many strands start as there are free contexts for. -/
theorem State.startStrands_spec (n : Nat) : ∀ (s : State) (j : Nat) (cs : List Nat), n ≤ s.freeCount g →
    ∃ t ds, s.startStrands g id v b gr n j cs = (t, cs ++ ds) ∧ ds.length = n ∧ s.Started t g id v b gr j ds := by
  induction n with
  | zero =>
    intro s j cs _
    exact ⟨s, [], by rw [State.startStrands, List.append_nil], rfl, ⟨List.nodup_nil, nofun, nofun, fun _ _ => rfl⟩⟩
  | succ n ih =>
    intro s j cs hn
    obtain ⟨c, hc⟩ := State.freeCtx_of_pos (Nat.lt_of_lt_of_le n.succ_pos hn)
    have hcount := State.freeCount_setCtx (k := strandStart id j v gr b (s.cycle g)) hc nofun
    obtain ⟨t, ds, ht, hlen, hst⟩ := ih (s.setCtx g c (strandStart id j v gr b (s.cycle g))) (j + 1) (cs ++ [c]) (by omega)
    refine ⟨t, c :: ds, ?_, congrArg _ hlen, hst.cons hc⟩
    simp only [State.startStrands, hc, ht, List.append_assoc, List.singleton_append]

theorem Work.ctxs_allot {w w' : Work} {k : Nat} (h : w.allot k = some (b, w')) : w'.ctxs = w.ctxs := by
  unfold Work.allot at h
  split at h
  · cases h
    rfl
  · obtain ⟨b', -, hb⟩ := Option.bind_eq_some_iff.1 h
    split at hb
    · cases hb
      rfl
    · cases hb

theorem State.startCrew_spec {s : State} {w : Work} (hallot : (s.work g).allot gr.launch.banks = some (b, w))
    (hfree : gr.launch.s ≤ s.freeCount g) :
    ∃ ds, Tab.find ((s.startCrew g v gr).work g).crews s.nextId = some ⟨BitVec.ofNat 64 v, gr, gr.launch.banks, ds, [], [], b, none⟩
      ∧ ds.length = gr.launch.s ∧ s.Started (s.startCrew g v gr) g s.nextId v b gr 0 ds := by
  have hctx : ∀ c, (s.setWork g w).fresh.ctx g c = s.ctx g c := fun c => by
    show (s.setWork g w).ctx g c = _
    rw [State.ctx_setWork, if_pos rfl, Work.ctxs_allot hallot]
    rfl
  obtain ⟨t, ds, ht, hlen, hst⟩ := State.startStrands_spec (g := g) (id := s.nextId) (v := v) (b := b) (gr := gr) gr.launch.s
    (s.setWork g w).fresh 0 [] (by rwa [State.freeCount_congr hctx])
  rw [List.nil_append] at ht
  have hcrew : s.startCrew g v gr = t.setWork g { t.work g with
      crews := Tab.put (t.work g).crews s.nextId ⟨BitVec.ofNat 64 v, gr, gr.launch.banks, ds, [], [], b, none⟩ } := by
    simp only [State.startCrew, hallot, ht]
  have hkeep : ∀ c, (s.startCrew g v gr).ctx g c = t.ctx g c := fun c => by
    rw [hcrew, State.ctx_setWork, if_pos rfl]
    rfl
  refine ⟨ds, ?_, hlen, hst.nodup, fun c hc => hctx c ▸ hst.free c hc, fun i hi => ?_, fun c hc => ?_⟩
  · rw [hcrew, State.work_setWork, if_pos rfl, Tab.find_put, if_pos rfl]
  · simpa only [hkeep] using hst.begun i hi
  · rw [hkeep, hst.kept c hc, hctx]

end

/-! ### Doublewords in memory -/

namespace Memory

variable {m : Memory}

theorem bytes_congr {m' : Memory} : ∀ {n a : Nat}, (∀ i < n, m.get (a + i) = m'.get (a + i)) → m.bytes a n = m'.bytes a n
  | 0, _, _ => rfl
  | n + 1, a, h => by
    have htail : m.bytes (a + 1) n = m'.bytes (a + 1) n := bytes_congr fun i hi => by
      have := h (i + 1) (Nat.succ_lt_succ hi)
      rwa [← Nat.add_assoc, Nat.add_right_comm] at this
    rw [Memory.bytes, Memory.bytes, htail, show m.get a = m'.get a from h 0 n.succ_pos]

theorem word_congr {m' : Memory} {a : Nat} (h : ∀ i < 8, m.get (a + i) = m'.get (a + i)) : m.word a = m'.word a := by
  rw [Memory.word, Memory.word, bytes_congr h]

/-- Doublewords written from address a on leave what lies below it. -/
theorem get_putWords_below {a b : Nat} (ws : List Word) (hm : m.wf = true) (hb : b < a) : (m.putWords a ws).get b = m.get b := by
  induction ws generalizing m a with
  | nil => rfl
  | cons w ws ih =>
    rw [Memory.putWords, ih (wf_putWord a w hm) (by omega), Memory.putWord, get_store _ _ _ hm, if_neg (by omega)]

/-- Each of the doublewords that were written is read back. -/
theorem word_putWords {a i : Nat} {ws : List Word} (hm : m.wf = true) (hi : i < ws.length) :
    (m.putWords a ws).word (a + 8 * i) = ws[i] := by
  induction ws generalizing m a i with
  | nil => exact absurd hi (Nat.not_lt_zero _)
  | cons w ws ih =>
    rw [Memory.putWords]
    cases i with
    | zero =>
      have hbelow : ∀ k < 8, ((m.putWord a w).putWords (a + 8) ws).get (a + k) = (m.putWord a w).get (a + k) :=
        fun k hk => get_putWords_below ws (wf_putWord a w hm) (by omega)
      exact (word_congr hbelow).trans (word_putWord a w hm)
    | succ i =>
      have hplace : a + 8 * (i + 1) = a + 8 + 8 * i := by omega
      rw [hplace, ih (wf_putWord a w hm) (Nat.lt_of_succ_lt_succ hi), List.getElem_cons_succ]

end Memory

/-! ### Banks powered down and up (R144, R316) -/

theorem lpBanks_disjoint {mask : BitVec 14} {lps : List (Nat × Lp)} {start : BitVec 14} (hstart : mask &&& start = 0)
    (h : ∀ e ∈ lps, mask &&& e.2.banks = 0) : mask &&& lps.foldl (fun m e => m ||| e.2.banks) start = 0 := by
  induction lps generalizing start with
  | nil => exact hstart
  | cons e lps ih =>
    obtain ⟨he, hlps⟩ := List.forall_mem_cons.1 h
    refine ih ?_ hlps
    rw [BitVec.and_or_distrib_left, hstart, he]
    rfl

/-- Where no bound LP needs one of them, all of the banks power down. -/
theorem Work.power_powerDown {w : Work} {b n : Nat} (h : bankMask b n &&& w.lpBanks = 0) :
    (w.powerDown b n).power = w.power &&& ~~~bankMask b n := by
  have hkeep : bankMask b n &&& ~~~(0 : BitVec 14) = bankMask b n := BitVec.and_allOnes
  simp only [Work.powerDown, h, hkeep]

/-! ### A crew leaves for its image (R264, R266) -/

section
variable {s : State} {g c : Nat}

theorem State.ctx_liftFrame (s : State) (g c h d : Nat) : (s.liftFrame g c).ctx h d = s.ctx h d := by
  unfold State.liftFrame
  split
  · rw [State.ctx_setWork]
    split
    · next hg => rw [hg]; rfl
    · rfl
  · rfl

/-- The contexts of a list are free, and every other context is as it was. -/
theorem State.ctx_clearCtxs {l : List Nat} : ∀ {s : State},
    (∀ c ∈ l, ((s.clearCtxs g l).ctx g c).role = .free) ∧ ∀ c, c ∉ l → (s.clearCtxs g l).ctx g c = s.ctx g c := by
  induction l with
  | nil => exact ⟨nofun, fun _ _ => rfl⟩
  | cons d l ih =>
    intro s
    obtain ⟨hfree, hkept⟩ := ih (s := (s.liftFrame g d).setCtx g d Ctx.reset)
    have hstep : s.clearCtxs g (d :: l) = ((s.liftFrame g d).setCtx g d Ctx.reset).clearCtxs g l := rfl
    rw [hstep]
    refine ⟨fun c hc => ?_, fun c hc => ?_⟩
    · by_cases hin : c ∈ l
      · exact hfree c hin
      · obtain rfl := (List.mem_cons.1 hc).resolve_right hin
        rw [hkept c hin, State.ctx_setCtx, if_pos ⟨rfl, rfl⟩]
        rfl
    · obtain ⟨hcd, hin⟩ := not_or.1 (List.mem_cons.not.1 hc)
      rw [hkept c hin, State.ctx_setCtx, if_neg fun h => hcd h.2, State.ctx_liftFrame]

theorem State.work_liftFrame (s : State) (g c : Nat) : ∃ sp, (s.liftFrame g c).work g = { s.work g with spad := sp } := by
  unfold State.liftFrame
  split
  · rw [State.work_setWork, if_pos rfl]
    exact ⟨_, rfl⟩
  · exact ⟨_, rfl⟩

/-- Of the core, only contexts and frames in the scratchpad change. -/
theorem State.work_clearCtxs (l : List Nat) : ∀ (s : State),
    ∃ ks sp, (s.clearCtxs g l).work g = { s.work g with ctxs := ks, spad := sp } := by
  induction l with
  | nil => exact fun s => ⟨_, _, rfl⟩
  | cons d l ih =>
    intro s
    obtain ⟨ks, sp, h⟩ := ih ((s.liftFrame g d).setCtx g d Ctx.reset)
    obtain ⟨sp', hlift⟩ := s.work_liftFrame g d
    refine ⟨ks, sp, h.trans ?_⟩
    rw [State.work_setCtx, if_pos rfl, hlift]

theorem State.mem_clearCtxs (s : State) (l : List Nat) : (s.clearCtxs g l).mem = s.mem := by
  refine foldl_kept State.mem _ (fun t c => ?_) l s
  unfold State.liftFrame
  split <;> rfl

/-- The image of a crew of core g (R264). -/
def State.crewImage (s : State) (g id : Nat) (q : Crew) : SwapImage where
  number := id
  crew := q
  ctxs := ((s.strands g id q).map fun c => (c, s.packCtx g c))
    ++ ((s.work g).joinOut.filter fun e => e.2.crewOf == some id).map fun e => (32 + e.1, e.2)
  poison := (s.work g).bankPoison q.bank q.n
  cmds := (s.work g).crewCommands id
  feeders := (s.work g).feeders.filter fun f => (s.strands g id q).contains f.1
  since := s.cycle g
  ready := false

/-- The memory with the header and the banks of the image of a crew at an address (R264). -/
def State.imageMem (s : State) (g id : Nat) (q : Crew) (a : Nat) : Memory :=
  (s.mem.putWords a (s.imageHeader g id q)).copyFrom (a + 0x41000) (s.work g).spad (0x8000 * q.bank) (0x8000 * q.n)

/-- A core that a crew has left for image slot n, its banks still powered (R264). -/
def Work.without (w : Work) (id n : Nat) (i : SwapImage) (cs : List Nat) : Work :=
  { w with
    swapped := Tab.put w.swapped n i, crews := Tab.drop w.crews id,
    joinOut := w.joinOut.filter fun e => e.2.crewOf != some id,
    feeders := w.feeders.filter fun f => !cs.contains f.1,
    queues := Tab.each (fun _ l => l.filter fun m => m.crew != some id) w.queues }

/-- The machine with the image written and the contexts of the crew free. -/
def State.crewWritten (s : State) (g id n : Nat) (q : Crew) : State :=
  ({ s with mem := s.imageMem g id q (vaultAddr g ((s.work g).imageAt n)) } : State).clearCtxs g (s.strands g id q)

variable {id n : Nat} {q : Crew}

section
variable (hslot : firstBelow (fun n => (Tab.find (s.work g).swapped n).isNone) 4 = some n)
include hslot

theorem State.swapOut_eq : s.swapOut g id q = (s.crewWritten g id n q).setWork g
    ((((s.crewWritten g id n q).work g).without id n (s.crewImage g id q) (s.strands g id q)).powerDown q.bank q.n) := by
  simp only [State.swapOut, hslot]
  rfl

theorem State.mem_swapOut : (s.swapOut g id q).mem = s.imageMem g id q (vaultAddr g ((s.work g).imageAt n)) := by
  rw [State.swapOut_eq hslot, State.setWork_mem, State.crewWritten, State.mem_clearCtxs]

theorem State.ctx_swapOut : (∀ c ∈ s.strands g id q, ((s.swapOut g id q).ctx g c).role = .free)
    ∧ ∀ c, c ∉ s.strands g id q → (s.swapOut g id q).ctx g c = s.ctx g c := by
  have hctx : ∀ c, (s.swapOut g id q).ctx g c = (s.crewWritten g id n q).ctx g c := fun c => by
    rw [State.swapOut_eq hslot, State.ctx_setWork, if_pos rfl]
    rfl
  obtain ⟨hfree, hkept⟩ := State.ctx_clearCtxs (g := g) (l := s.strands g id q)
    (s := { s with mem := s.imageMem g id q (vaultAddr g ((s.work g).imageAt n)) })
  exact ⟨fun c hc => hctx c ▸ hfree c hc, fun c hc => (hctx c).trans (hkept c hc)⟩

theorem State.work_swapOut (hmov : s.movable g q = true) :
    Tab.find ((s.swapOut g id q).work g).swapped n = some (s.crewImage g id q)
    ∧ Tab.find ((s.swapOut g id q).work g).crews id = none
    ∧ ((s.swapOut g id q).work g).power = (s.work g).power &&& ~~~bankMask q.bank q.n := by
  obtain ⟨ks, sp, hw⟩ : ∃ ks sp, (s.crewWritten g id n q).work g = { s.work g with ctxs := ks, spad := sp } :=
    State.work_clearCtxs _ _
  have hlps : bankMask q.bank q.n &&& (s.work g).lpBanks = 0 :=
    lpBanks_disjoint BitVec.and_zero fun e he => by simpa using List.all_eq_true.1 hmov e he
  rw [State.swapOut_eq hslot, State.work_setWork, if_pos rfl, hw]
  exact ⟨(Tab.find_put ..).trans (if_pos rfl), (Tab.find_drop ..).trans (if_pos rfl), Work.power_powerDown hlps⟩

end

section
variable (hm : s.mem.wf = true) (a : Nat)
include hm

/-- The banks stand in the image. -/
theorem State.imageMem_banks (hsp : (s.work g).spad.wf = true) {b : Nat} (hb : b < 0x8000 * q.n) :
    (s.imageMem g id q a).get (a + 0x41000 + b) = (s.work g).spad.get (0x8000 * q.bank + b) := by
  rw [State.imageMem, Memory.get_copyFrom _ _ _ _ (Memory.wf_putWords _ _ hm) hsp, if_pos (by omega), Nat.add_sub_cancel_left]

/-- So does the header. -/
theorem State.imageMem_header (hsp : (s.work g).spad.wf = true) {j : Nat} (hj : j < 6) :
    (s.imageMem g id q a).word (a + 8 * j) = (s.imageHeader g id q)[j] := by
  rw [← Memory.word_putWords hm (a := a) (ws := s.imageHeader g id q) hj, State.imageMem]
  exact Memory.word_congr fun k hk => by
    rw [Memory.get_copyFrom _ _ _ _ (Memory.wf_putWords _ _ hm) hsp, if_neg (by omega)]

theorem State.imageMem_words (hsp : (s.work g).spad.wf = true) :
    (s.imageMem g id q a).word a = q.index
    ∧ (s.imageMem g id q a).word (a + 8) = pack [(0, q.grid.counter % 4096), (12, q.grid.counter / 4096 % 64)]
    ∧ (s.imageMem g id q a).word (a + 0x10) = pack [(0, q.ctxs.length), (8, q.bank), (12, q.n)]
    ∧ (s.imageMem g id q a).word (a + 0x20) = BitVec.ofNat 64 (s.cycle g) ∧ (s.imageMem g id q a).word (a + 0x28) = 2 :=
  have hword := fun {j} => s.imageMem_header (g := g) (id := id) (q := q) hm a hsp (j := j)
  ⟨hword (j := 0) (by decide), hword (j := 1) (by decide), hword (j := 2) (by decide), hword (j := 4) (by decide),
    hword (j := 5) (by decide)⟩

end

/-! ### A crew comes back (R265, R266) -/

theorem Crew.renumbered_eq (ks : List (Nat × Ctx)) (m : List (Nat × Nat)) : ∀ q : Crew, ∃ cs, q.renumbered ks m = { q with ctxs := cs } := by
  induction ks with
  | nil => exact fun q => ⟨_, rfl⟩
  | cons e ks ih =>
    intro q
    rw [Crew.renumbered, List.foldl_cons]
    cases e.2.strandOf with
    | none => exact ih q
    | some j =>
      obtain ⟨cs, h⟩ := ih (q.place j (renumber m e.1))
      exact ⟨cs, h⟩

/-- Queued commands change the queues of a core alone. -/
theorem Work.putQueues_eq (f : Work → Queue × Cmd → List Cmd) (l : List (Queue × Cmd)) : ∀ w : Work,
    ∃ qs, l.foldl (fun w e => w.putQueue e.1 (f w e)) w = { w with queues := qs } := by
  induction l with
  | nil => exact fun w => ⟨_, rfl⟩
  | cons e l ih =>
    intro w
    obtain ⟨qs, h⟩ := ih (w.putQueue e.1 (f w e))
    exact ⟨qs, h⟩

/-- t differs from s in contexts of core g and in its scratchpad above the banks alone. -/
def State.SameBelow (s t : State) (g : Nat) : Prop :=
  t.mem = s.mem ∧ ∃ ks sp, t.work g = { s.work g with ctxs := ks, spad := sp } ∧ sp.wf = true
    ∧ ∀ a < 0x70000, sp.get a = (s.work g).spad.get a

theorem State.SameBelow.wf {t : State} (h : s.SameBelow t g) : (t.work g).spad.wf = true := by
  obtain ⟨-, ks, sp, hw, hsp, -⟩ := h
  rw [hw]
  exact hsp

theorem State.SameBelow.refl (hsp : (s.work g).spad.wf = true) : s.SameBelow s g :=
  ⟨rfl, _, _, rfl, hsp, fun _ _ => rfl⟩

theorem State.SameBelow.trans {t u : State} (h : s.SameBelow t g) (h' : t.SameBelow u g) : s.SameBelow u g := by
  obtain ⟨hmem, ks, sp, hw, -, hget⟩ := h
  obtain ⟨hmem', ks', sp', hw', hsp', hget'⟩ := h'
  rw [hw] at hw' hget'
  exact ⟨hmem'.trans hmem, ks', sp', hw', hsp', fun a ha => (hget' a ha).trans (hget a ha)⟩

theorem State.SameBelow.setCtx (k : Ctx) (hsp : (s.work g).spad.wf = true) : s.SameBelow (s.setCtx g c k) g :=
  ⟨rfl, _, _, (State.work_setCtx ..).trans (if_pos rfl), hsp, fun _ _ => rfl⟩

/-- A frame lies above the banks. -/
theorem State.SameBelow.layFrame (k : Ctx) (hsp : (s.work g).spad.wf = true) : s.SameBelow (s.layFrame g c k) g := by
  unfold State.layFrame
  split
  · exact .refl hsp
  · refine ⟨rfl, _, _, (State.work_setWork ..).trans (if_pos rfl), Memory.wf_store _ _ hsp, fun a ha => ?_⟩
    rw [Memory.get_store _ _ _ hsp, if_neg (by unfold frameAddr; omega)]

theorem State.SameBelow.strandsBack (ks : List (Nat × Ctx)) : ∀ (s : State) (m : List (Nat × Nat)),
    (s.work g).spad.wf = true → s.SameBelow (s.strandsBack g ks m).1 g := by
  induction ks with
  | nil => exact fun s m hsp => .refl hsp
  | cons e ks ih =>
    intro s m hsp
    rw [State.strandsBack]
    cases s.freeCtx g with
    | none => exact .refl hsp
    | some c =>
      have hlay := State.SameBelow.layFrame (c := c) e.2 hsp
      have hset := fun k => hlay.trans (.setCtx (c := c) k hlay.wf)
      exact (hset _).trans (ih _ _ (hset _).wf)

/-- A core whose image in slot n stands in its banks again, its strands not yet started (R265). -/
def State.banksBack (s : State) (g n : Nat) (i : SwapImage) : Work :=
  let w := (s.work g).powerUp i.crew.bank i.crew.n
  { w with
    spad := w.spad.copyFrom (0x8000 * i.crew.bank) s.mem (vaultAddr g (w.imageAt n) + 0x41000) (0x8000 * i.crew.n)
    poison := w.poison ++ i.poison, swapped := Tab.drop w.swapped n }

theorem State.wf_banksBack (n : Nat) (i : SwapImage) (hsp : (s.work g).spad.wf = true) :
    (s.banksBack g n i).spad.wf = true :=
  Memory.wf_copyFrom _ _ _ _ (Memory.wf_clear _ _ hsp)

theorem State.get_banksBack {i : SwapImage} (hm : s.mem.wf = true) (hsp : (s.work g).spad.wf = true) {b : Nat} (hb : b < 0x8000 * i.crew.n) :
    (s.banksBack g n i).spad.get (0x8000 * i.crew.bank + b) = s.mem.get (vaultAddr g ((s.work g).imageAt n) + 0x41000 + b) := by
  refine (Memory.get_copyFrom _ _ _ _ (Memory.wf_clear _ _ hsp) hm).trans ((if_pos (by omega)).trans ?_)
  rw [Nat.add_sub_cancel_left]
  rfl

/-- A core with the crew of an image, its feeders and its commands under the new context numbers m (R265). -/
def Work.crewBack (w : Work) (i : SwapImage) (m : List (Nat × Nat)) : Work :=
  i.cmds.foldl (fun w e => w.putQueue e.1 (w.queue e.1 ++ [if e.2.attached then { e.2 with c := renumber m e.2.c } else e.2]))
    { w with
      crews := Tab.put w.crews i.number (i.crew.renumbered i.ctxs m), feeders := w.feeders ++ i.feeders.map fun f => (renumber m f.1, f.2) }

/-- Of the crew's record only the numbers of its contexts are new. -/
theorem Work.crewBack_eq (w : Work) (i : SwapImage) (m : List (Nat × Nat)) : ∃ qs cs, w.crewBack i m =
    { w with
      feeders := w.feeders ++ i.feeders.map fun f => (renumber m f.1, f.2), queues := qs,
      crews := Tab.put w.crews i.number { i.crew with ctxs := cs } } := by
  obtain ⟨cs, hcs⟩ := Crew.renumbered_eq i.ctxs m i.crew
  obtain ⟨qs, hqs⟩ := Work.putQueues_eq
    (fun w e => w.queue e.1 ++ [if e.2.attached then { e.2 with c := renumber m e.2.c } else e.2]) i.cmds
    { w with
      crews := Tab.put w.crews i.number (i.crew.renumbered i.ctxs m), feeders := w.feeders ++ i.feeders.map fun f => (renumber m f.1, f.2) }
  refine ⟨qs, cs, hqs.trans ?_⟩
  rw [hcs]

theorem State.readmit_eq {t : State} {n : Nat} {i : SwapImage} {m : List (Nat × Nat)}
    (h : (s.setWork g (s.banksBack g n i)).strandsBack g i.ctxs [] = (t, m)) :
    s.readmit g n i = { t.setWork g ((t.work g).crewBack i m) with
      mem := t.mem.putWord (vaultAddr g ((s.work g).imageAt n) + 0x28) 0 } := by
  obtain ⟨rfl, rfl⟩ := Prod.mk.inj h
  rfl

theorem State.work_readmit (n : Nat) (i : SwapImage) (hsp : (s.work g).spad.wf = true) :
    ∃ ks sp fs qs cs, (s.readmit g n i).work g = { s.banksBack g n i with
        ctxs := ks, spad := sp, feeders := fs, queues := qs
        crews := Tab.put (s.banksBack g n i).crews i.number { i.crew with ctxs := cs } }
      ∧ (∀ a < 0x70000, sp.get a = (s.banksBack g n i).spad.get a)
      ∧ (s.readmit g n i).mem = s.mem.putWord (vaultAddr g ((s.work g).imageAt n) + 0x28) 0 := by
  have hbanks : (s.setWork g (s.banksBack g n i)).work g = s.banksBack g n i := by rw [State.work_setWork, if_pos rfl]
  have hwf : ((s.setWork g (s.banksBack g n i)).work g).spad.wf = true := by
    rw [hbanks]
    exact s.wf_banksBack n i hsp
  obtain ⟨t, m, hr⟩ : ∃ t m, (s.setWork g (s.banksBack g n i)).strandsBack g i.ctxs [] = (t, m) := ⟨_, _, rfl⟩
  obtain ⟨hmem, ks, sp, hw, -, hget⟩ := State.SameBelow.strandsBack (g := g) i.ctxs _ [] hwf
  rw [hr] at hmem hw
  rw [hbanks] at hw hget
  obtain ⟨qs, cs, hback⟩ := (t.work g).crewBack_eq i m
  rw [State.readmit_eq hr]
  refine ⟨ks, sp, (t.work g).feeders ++ i.feeders.map fun f => (renumber m f.1, f.2), qs, cs, ?_, hget, congrArg (Memory.putWord · _ 0) hmem⟩
  refine (State.work_setWork ..).trans ((if_pos rfl).trans (hback.trans ?_))
  rw [hw]

end

/-- Settles O56: the free list shrinks by one context for each strand that starts; the image is written into memory before the contexts and banks are given up, and a returning crew's frames lie above the banks it gets back. -/
theorem crewStart : Obligations.CrewStart := by
  unfold Obligations.CrewStart
  refine ⟨fun s g v gr b w hallot hfree => ?_, fun s g k n q i hbank hspads hm => ⟨fun hslot hmov => ?_, fun hq => ?_⟩⟩
  · obtain ⟨ds, hcrew, hlen, hnodup, hfrees, hbegun, hkept⟩ := State.startCrew_spec (v := v) hallot hfree
    refine ⟨_, hcrew, hlen, hnodup, rfl, rfl, rfl, rfl, hfrees, fun j hj => ?_, hkept⟩
    obtain ⟨c, now, hc, hk⟩ := hbegun j (hlen.symm ▸ hj)
    rw [Nat.zero_add] at hk
    exact ⟨c, hc, hk ▸ strandStart_spec s.nextId j v gr b now⟩
  · obtain ⟨himage, hgone, hpower⟩ := State.work_swapOut hslot hmov (id := k) (q := q)
    obtain ⟨hfree, hkept⟩ := State.ctx_swapOut hslot (id := k) (q := q)
    have hmem := State.mem_swapOut hslot (id := k) (q := q)
    refine ⟨⟨_, himage, rfl, rfl, rfl, rfl, rfl, rfl⟩, hgone, hpower, hfree, hkept, ?_⟩
    rw [hmem]
    exact ⟨fun b hb => State.imageMem_banks hm _ (hspads g) hb, State.imageMem_words hm _ (hspads g)⟩
  · subst hq
    obtain ⟨ks, sp, fs, qs, cs, hw, hget, hmem⟩ := State.work_readmit (g := g) n i (hspads g)
    show Tab.find ((s.readmit g n i).work g).swapped n = none ∧ _
    rw [hw, hmem]
    refine ⟨(Tab.find_drop ..).trans (if_pos rfl), rfl, ⟨_, (Tab.find_put ..).trans (if_pos rfl), rfl, rfl, rfl, rfl, rfl, rfl, rfl⟩,
      fun b hb => ?_, fun p hp => List.mem_append_right _ hp, Memory.word_putWord _ _ hm⟩
    exact (hget _ (by omega)).trans (State.get_banksBack hm (hspads g) hb)

end Sys2Proof.Machine
end

section
/-! What a V-slot instruction leaves: its register, its flags, its ring entry (R112, R209). -/

namespace Sys2Proof.Machine

/-! ### Retiring after a change of the context (R15, R44) -/

/-- A context after its instruction of `len` halfwords has retired in sequence. -/
def Ctx.retired (k : Ctx) (len : Nat) : Ctx := { k.flow (Machine.nextSeq k.pc len) none with chunk := k.chunk + 1 }

theorem State.retire_setMe (s : State) (len : Nat) {l : Ctx} (h : l.stepArm = false) :
    (s.setMe l).retire len = s.setMe (l.retired len) := by
  rw [State.retire_eq _ _ (by rwa [State.me_setMe]), State.me_setMe, State.setMe_setMe]
  rfl

theorem onlyMe_setMe (s : State) (l : Ctx) : OnlyMe s (s.setMe l) := by rw [OnlyMe, State.me_setMe]

theorem sameBytes_setMe (s : State) (l : Ctx) : SameBytes s (s.setMe l) :=
  ⟨fun _ => rfl, fun g _ => by rw [State.spad_setMe]⟩

/-- A field of a core's work other than its contexts does not change with a context. -/
theorem State.work_setCtx_field {α : Type} (p : Work → α) (hp : ∀ w t, p { w with ctxs := t } = p w) (s : State) (g c h : Nat) (k : Ctx) :
    p ((s.setCtx g c k).work h) = p (s.work h) := by
  rw [State.work_setCtx]
  split
  · next hg => rw [hp, hg]
  · rfl

/-! ### Registers (R122) -/

section
variable {k : Ctx} {n j : Nat} {r : VReg}

theorem Ctx.vreg_setV (h : n < 22) : (k.setV n r).vreg n = r := by
  simp [Ctx.vreg, Ctx.setV, h]

theorem Ctx.vreg_setV_ne (h : j ≠ n) : (k.setV n r).vreg j = k.vreg j := by
  simp [Ctx.vreg, Ctx.setV, h.symm]

end

theorem lane_vregOf (ls : List Lane) {i : Nat} (h : i < 64) : lane (vregOf ls) i = ls.getD i 0 := by
  simp [lane, vregOf, h]

/-! ### The entry of the instruction (R112, R209) -/

section
variable {k : Ctx} {e : RingEntry} (hfree : ∀ x ∈ k.ring, x.seq ≠ e.seq)
include hfree

/-- A change at a number that no earlier entry has reaches the last entry alone. -/
theorem Ctx.setEntry_push (f : RingEntry → RingEntry) : (k.push e).setEntry e.seq f = k.push (f e) := by
  rw [Ctx.setEntry, Ctx.push, List.map_append, List.map_congr_left fun x hx => if_neg (hfree x hx), List.map_id', List.map_singleton,
    if_pos rfl, Ctx.push]

theorem Ctx.find?_ring_push : (k.push e).ring.find? (fun x => x.seq == e.seq) = some e := by
  rw [Ctx.push, List.find?_append, List.find?_eq_none.2 fun x hx => by simpa using hfree x hx, Option.none_or, List.find?_singleton,
    if_pos (beq_self_eq_true _)]

end

/-- The entry that an arithmetic instruction leaves (R112). -/
def RingEntry.ended (e : RingEntry) (w : BitVec 14) (f : Flags) : RingEntry :=
  if flagCause w f = 0 then { e with st := .done, finished := true }
  else { e with st := .faulted, cause := BitVec.ofNat 8 (flagCause w f), fault := 0, finished := true, more := e.more ||| flagCauses w f }

/-- An arithmetic instruction's entry is complete, or faulted with everything done; only the ring changes. -/
theorem Ctx.flagEntry_eq (k : Ctx) (q : Byte) (f : Flags) : k.flagEntry q f = k.setEntry q fun x => x.ended k.fpflags f := by
  unfold Ctx.flagEntry RingEntry.ended
  split
  · next h => simp only [Ctx.doneEntry, h, if_true]
  · next h =>
    simp only [Ctx.setEntry, Ctx.faultEntry, h, if_false, List.map_map]
    congr 2
    funext x
    by_cases hx : x.seq = q <;> simp [hx]

/-! ### Issue to the V-slot (R19, R209) -/

section
variable {s : State} {i : Instr} {len n : Nat} {body : VBody}

/-- The machine on which a V-slot instruction executes: its entry is in the ring. -/
def State.withEntry (s : State) (i : Instr) : State := s.setMe (s.me.push (s.me.newEntry i 0))

theorem State.ctx_withEntry (s : State) (i : Instr) : (s.withEntry i).ctx s.cur.1 s.cur.2 = s.me.push (s.me.newEntry i 0) :=
  State.me_setMe ..

/-- An instruction that changes the executing context alone. -/
theorem State.issueV_of_setCtx {l : Ctx} (harm : l.stepArm = false)
    (h : body (s.withEntry i) s.cur.1 s.cur.2 (s.me.newEntry i 0) = (s.withEntry i).setCtx s.cur.1 s.cur.2 l) :
    s.issueV i len body = s.setMe (l.retired len) := by
  have hbody : body (s.withEntry i) s.cur.1 s.cur.2 (s.me.newEntry i 0) = s.setMe l := h.trans (State.setMe_setMe ..)
  exact (congrArg (State.retire · len) hbody).trans (State.retire_setMe s len harm)

/-- The context that an arithmetic instruction leaves with its result r in register n and with its flags and draws a. -/
def Ctx.computed (k : Ctx) (i : Instr) (n : Nat) (r : VReg) (a : Acc) : Ctx :=
  Ctx.flagEntry { (k.push (k.newEntry i 0)).setV n r with fpflags := raiseIn k.fpflags a.flags, rng := a.rng } k.nextSeq a.flags

theorem State.issueV_of_finishFlags {r : VReg} {a : Acc} (harm : s.me.stepArm = false)
    (h : body (s.withEntry i) s.cur.1 s.cur.2 (s.me.newEntry i 0) =
      finishFlags (s.withEntry i) s.cur.1 s.cur.2 (s.me.newEntry i 0) ((s.me.push (s.me.newEntry i 0)).setV n r) a) :
    s.issueV i len body = s.setMe ((s.me.computed i n r a).retired len) := by
  refine State.issueV_of_setCtx ?_ h
  rw [Ctx.computed, Ctx.flagEntry_eq, Ctx.setEntry_stepArm]
  exact harm

theorem Ctx.computed_sameButV (k : Ctx) (i : Instr) (n : Nat) (r : VReg) (a : Acc) (len : Nat) :
    SameButV n k ((k.computed i n r a).retired len) := by
  rw [Ctx.computed, Ctx.flagEntry_eq]
  refine ⟨?_, fun j hj => Ctx.vreg_setV_ne hj⟩
  unfold SameButFlow
  rfl

theorem Ctx.computed_results (k : Ctx) (i : Instr) (hn : n < 22) (r : VReg) (a : Acc) (len : Nat) :
    ((k.computed i n r a).retired len).vreg n = r ∧ ((k.computed i n r a).retired len).fpflags = raiseIn k.fpflags a.flags
    ∧ ((k.computed i n r a).retired len).rng = a.rng := by
  rw [Ctx.computed, Ctx.flagEntry_eq]
  exact ⟨Ctx.vreg_setV hn, rfl, rfl⟩

/-- An instruction puts r into vector register n, raises the flags of a, leaves the generator of a, and changes nothing else but
its ring entry and the flow of control. -/
def Computes (s : State) (i : Instr) (n : Nat) (r : VReg) (a : Acc) : Prop :=
  ∃ t, exec i s = .next t ∧ OnlyMe s t ∧ SameBytes s t ∧ SameButV n s.me t.me ∧ t.me.vreg n = r
    ∧ t.me.fpflags = raiseIn s.me.fpflags a.flags ∧ t.me.rng = a.rng

theorem computes_of_finishFlags {r : VReg} {a : Acc} (harm : s.me.stepArm = false) (hn : n < 22)
    (hexec : exec i s = .next (s.issueV i len body))
    (h : body (s.withEntry i) s.cur.1 s.cur.2 (s.me.newEntry i 0) =
      finishFlags (s.withEntry i) s.cur.1 s.cur.2 (s.me.newEntry i 0) ((s.me.push (s.me.newEntry i 0)).setV n r) a) :
    Computes s i n r a := by
  refine ⟨_, hexec.trans (congrArg _ (State.issueV_of_finishFlags harm h)), onlyMe_setMe .., sameBytes_setMe .., ?_⟩
  rw [State.me_setMe]
  exact ⟨s.me.computed_sameButV .., s.me.computed_results i hn r a len⟩

end

end Sys2Proof.Machine
end

section
/-! Reductions, tables and rotary positions, and the conversion instruction (R118, R128, R132, R137 to R139). -/

namespace Sys2Proof.Machine

/-! ### Reductions, VCVT and VTLU (R118, R128, R132, R137) -/

theorem State.tables_withEntry (s : State) (i : Instr) (g : Nat) : ((s.withEntry i).work g).tables = (s.work g).tables :=
  State.work_setCtx_field Work.tables (fun _ _ => rfl) ..

section
variable {s : State} {d : BitVec 5} {a b : BitVec 6} {r fs p f t : BitVec 3} (harm : s.me.stepArm = false) (hd : d.toNat < 22)
include harm hd

theorem computes_reduce {i : Instr} {unit : Nat} {op : RMode → Nat → Nat → Acc → Nat × Acc}
    (hexec : exec i s = .next (s.issueV i 2 (reduceBody d a p unit op))) :
    let q := treeFrom (op (RMode.ofReg s.me.rnd)) 6
      ((List.range 64).map fun j => if (s.me.pred p).getLsbD j then (lane (srcLanes s.me s.me.x a 0) j).toNat else unit) ⟨0, s.me.rng⟩
    Computes s i d.toNat (Vector.replicate 64 (BitVec.ofNat 32 (q.1.headD 0))) q.2 := by
  refine computes_of_finishFlags harm hd hexec ?_
  unfold reduceBody
  rw [State.ctx_withEntry]
  rfl

theorem computes_vredadd :
    let m := RMode.ofReg s.me.rnd
    let q := treeFrom (fun x y c => (c.raise (sigFlag 0 [x, y])).round 0 m ((value 0 x).add (m == .rdn) (value 0 y))) 6
      ((List.range 64).map fun i => if (s.me.pred p).getLsbD i then (lane (srcLanes s.me s.me.x a 0) i).toNat else 0x80000000) ⟨0, s.me.rng⟩
    Computes s (.vredadd d a p) d.toNat (Vector.replicate 64 (BitVec.ofNat 32 (q.1.headD 0))) q.2 :=
  computes_reduce harm hd
    (op := fun m x y c => (c.raise (sigFlag 0 [x, y])).round 0 m ((value 0 x).add (m == .rdn) (value 0 y))) rfl

theorem computes_vredmax :
    let q := treeFrom (fun x y c => ((fMinMax 0 true x y).1, c.raise (fMinMax 0 true x y).2)) 6
      ((List.range 64).map fun i => if (s.me.pred p).getLsbD i then (lane (srcLanes s.me s.me.x a 0) i).toNat else 0xFF800000) ⟨0, s.me.rng⟩
    Computes s (.vredmax d a p) d.toNat (Vector.replicate 64 (BitVec.ofNat 32 (q.1.headD 0))) q.2 :=
  computes_reduce harm hd (op := fun _ x y c => ((fMinMax 0 true x y).1, c.raise (fMinMax 0 true x y).2)) rfl

theorem computes_vcvt : let q := mapLanes (s.me.pred p) (s.me.vreg d.toNat) (fun i c =>
      let x := fun j => elem fs (lane (srcLanes s.me s.me.x a fs) i) j
      if fmtWidth f = fmtWidth fs then laneOf f (fun j c => cvtElem fs f (RMode.ofField r s.me.rnd) (x j) c) c
      else let q := cvtElem fs f (RMode.ofField r s.me.rnd) (x 0) c
        (BitVec.ofNat 32 q.1, q.2)) ⟨0, s.me.rng⟩
    Computes s (.vcvt d a r fs p f) d.toNat q.1 q.2 := by
  refine computes_of_finishFlags harm hd (body := bodyVcvt d a r fs p f) (len := 2) rfl ?_
  unfold bodyVcvt cvtBody
  rw [State.ctx_withEntry]
  rfl

theorem computes_vtlu {g : Nat → Acc → Nat × Acc}
    (hg : ∀ x c, (if f = 0 then lookup32 (s.work s.cur.1).tables t.toNat x c
      else let y := lookup32 (s.work s.cur.1).tables t.toNat (x * 2 ^ 16) c
        y.2.round 1 .rne (value 0 y.1, 0)) = g x c) :
    let q := mapLanes (s.me.pred p) (s.me.vreg d.toNat) (fun i c => laneOf f (fun j c =>
      g (elem f (lane (srcLanes s.me s.me.x a f) i) j) c) c) ⟨0, s.me.rng⟩
    Computes s (.vtlu d a t p f) d.toNat q.1 q.2 := by
  refine computes_of_finishFlags harm hd (body := bodyVtlu d a t p f) (len := 2) rfl ?_
  unfold bodyVtlu lookupBody
  simp only [State.ctx_withEntry, State.tables_withEntry, hg]
  rfl

end

/-! ### VROPE (R138, R139) -/

section
variable {s : State} (d : BitVec 5) (a b : BitVec 6) (p : BitVec 3)

/-- The pairs of VROPE that rotate (R138). -/
def Ctx.ropeActive (k : Ctx) (p : BitVec 3) : List Nat := (List.range 32).filter fun j => (k.pred p).getLsbD (2 * j)

/-- An active pair has a position beyond the frequencies (R139). -/
def Ctx.ropeFar (k : Ctx) (b : BitVec 6) (p : BitVec 3) : Prop :=
  ∃ j ∈ k.ropeActive p, 2 ^ 24 ≤ (lane (srcLanes k k.x b 5) (2 * j)).toNat

theorem Ctx.ropeFar_iff (k : Ctx) (b : BitVec 6) (p : BitVec 3) :
    ((k.ropeActive p).any fun j => decide ((lane (srcLanes k k.x b 5) (2 * j)).toNat ≥ 2 ^ 24)) = true ↔ k.ropeFar b p := by
  simp only [List.any_eq_true, decide_eq_true_eq]
  rfl

theorem computes_vrope (harm : s.me.stepArm = false) (hd : d.toNat < 22) (hnear : ¬ s.me.ropeFar b p) :
    let q := ropePairs (srcLanes s.me s.me.x a 0) (srcLanes s.me s.me.x b 5) (s.me.ropeActive p) ⟨0, s.me.rng⟩
    Computes s (.vrope d a b p) d.toNat (vregOf ((List.range 64).map fun i => match q.1.find? fun e => e.1 == i with
      | some e => e.2
      | none => lane (s.me.vreg d.toNat) i)) q.2 := by
  refine computes_of_finishFlags harm hd (body := bodyVrope d a b p) (len := 2) rfl ?_
  unfold bodyVrope ropeBody
  rw [State.ctx_withEntry]
  exact if_neg (mt (s.me.ropeFar_iff b p).1 hnear)

theorem exec_vrope_far (harm : s.me.stepArm = false) (hnext : NextFree s) (hfar : s.me.ropeFar b p) :
    exec (.vrope d a b p) s =
      .next (s.setMe ((s.me.push { s.me.newEntry (.vrope d a b p) 0 with st := .faulted, cause := 0x0E }).retired 2)) := by
  have hexec : exec (.vrope d a b p) s = .next (s.issueV (.vrope d a b p) 2 (bodyVrope d a b p)) := rfl
  rw [hexec, State.issueV_of_setCtx (l := s.me.push _) harm]
  unfold bodyVrope ropeBody
  rw [State.ctx_withEntry]
  exact (if_pos ((s.me.ropeFar_iff b p).2 hfar)).trans (congrArg _ (Ctx.setEntry_push (e := s.me.newEntry (.vrope d a b p) 0) hnext _))

/-- A position beyond the frequencies faults the entry with nothing written (R139). -/
theorem vrope_far (harm : s.me.stepArm = false) (hnext : NextFree s) (hfar : s.me.ropeFar b p) :
    ∃ t, exec (.vrope d a b p) s = .next t ∧ OnlyMe s t ∧ SameBytes s t ∧ t.me.v = s.me.v ∧ t.me.fpflags = s.me.fpflags
      ∧ t.me.ring = s.me.ring ++ [{ s.me.newEntry (.vrope d a b p) 0 with st := .faulted, cause := 0x0E }] := by
  refine ⟨_, exec_vrope_far d a b p harm hnext hfar, onlyMe_setMe .., sameBytes_setMe .., ?_⟩
  rw [State.me_setMe]
  exact ⟨rfl, rfl, rfl⟩

end

theorem ropePairs_cons (va vb : VReg) (j : Nat) (rest : List Nat) (c : Acc) :
    let q := ropePair (lane va (2 * j)).toNat (lane va (2 * j + 1)).toNat (lane vb (2 * j)).toNat j c
    let more := ropePairs va vb rest q.2
    ropePairs va vb (j :: rest) c =
      ((2 * j, BitVec.ofNat 32 q.1.1) :: (2 * j + 1, BitVec.ofNat 32 q.1.2) :: more.1, more.2) := rfl

/-! ### The interpolation of a table (R137) -/

theorem sigFlag_singleton (f : Fmt) (x : Nat) : sigFlag f [x] = Flags.when (isSignalling f x) flagNV := by
  rw [sigFlag, List.any_cons, List.any_nil, Bool.or_false]

/-- The offset of x from the base of table t, in steps (R137). -/
def lookupScaled (m : Memory) (t x : Nat) (c : Acc) : Nat × Acc :=
  let base := natOfBytes (m.bytes (tableAt t) 4)
  let u := (c.raise (Flags.when (isSignalling 0 base) flagNV)).round 0 .rne ((value 0 x).add false (value 0 base).neg)
  u.2.round 0 .rne ((value 0 u.1).mul (Val.dyadic false 1 (-toSigned 8 (m.get (tableAt t + 4)).toNat)))

/-- What table t gives at an offset of value v, which is held between the ends of the table (R137). -/
def lookupAt (m : Memory) (t : Nat) (c : Acc) : Val → Nat × Acc
  | .nan => (canonNaN 0, c)
  | .inf neg => if neg then lookup32.go m t c 0 1 else (tableEntry m t 255, c)
  | .num neg n d =>
    if neg then lookup32.go m t c 0 1 else if 255 * d ≤ n then (tableEntry m t 255, c) else lookup32.go m t c n d

section
variable {m : Memory} {t x : Nat} {c : Acc}

theorem lookup32_of_isNaN (h : isNaN 0 x = true) : lookup32 m t x c = (canonNaN 0, c.raise (Flags.when (isSignalling 0 x) flagNV)) := by
  rw [lookup32, if_pos h, sigFlag_singleton]

theorem lookup32_of_value {v : Val} (h : isNaN 0 x = false) (hv : value 0 (lookupScaled m t x c).1 = v) :
    lookup32 m t x c = lookupAt m t (lookupScaled m t x c).2 v := by
  subst hv
  simp only [lookup32, h, sigFlag_singleton]
  rfl

end

end Sys2Proof.Machine
end

section
/-! Conversions of values that their format holds exactly (R107, R108, R113), and O32. -/

namespace Sys2Proof.Machine

/-! ### Rounding of a multiple of the last place (R107, R108) -/

section
variable {n d : Nat} (hd : 0 < d)
include hd

theorem roundQuot_mul (neg : Bool) (m : RMode) : roundQuot neg (n * d) d m = n := by
  cases m <;> simp [roundQuot, Nat.mul_div_cancel _ hd, hd]

/-- A draw, which is below one, does not reach the next multiple. -/
theorem draw_mul {draw : Nat} (hdraw : draw < 2 ^ 16) : (n * d * 2 ^ 16 / d + draw) / 2 ^ 16 = n := by
  rw [Nat.mul_right_comm, Nat.mul_div_cancel _ hd]
  omega

/-- A magnitude of n units of the last place keeps its pattern in every mode, with no flag. -/
theorem roundNum_exact {f : Fmt} {draw p q : Nat} {e : Int} (hdraw : draw < 2 ^ 16) (he : placeExp f p q = e)
    (hscale : scaleDown p q (e - fmtMant f) = (n * d, d)) (hfit : tooLarge f e n = false) (m : RMode) (neg : Bool) :
    roundNum f m draw neg p q = (withSign f neg ((e - fmtEmin f).toNat * 2 ^ fmtMant f + n), 0) := by
  have hdiv : n * d / d = n := Nat.mul_div_cancel _ hd
  have hmod : n * d % d = 0 := Nat.mul_mod_left ..
  cases m <;> simp only [roundNum, he, hscale, hdiv, hmod, roundQuot_mul hd, draw_mul hd hdraw, hfit, encodeSig]
  all_goals simp [Flags.when]

end

/-! ### Dyadic fractions (R101) -/

section
variable {n : Nat} (hn : 0 < n) (a b : Nat)

theorem Val.dyadic_eq_num (neg : Bool) (n : Nat) (u : Int) :
    ∃ a b : Nat, (a : Int) - b = u ∧ Val.dyadic neg n u = .num neg (n * 2 ^ a) (2 ^ b) := by
  cases u with
  | ofNat k => exact ⟨k, 0, by simp, rfl⟩
  | negSucc k => exact ⟨0, k + 1, by omega, by simp [Val.dyadic]⟩

theorem scaleDown_two_pow : ∃ j, scaleDown (n * 2 ^ a) (2 ^ b) (a - b) = (n * 2 ^ j, 2 ^ j) := by
  rcases h : (a : Int) - b with k | k
  · rw [Int.ofNat_eq_natCast] at h
    exact ⟨a, by rw [scaleDown, ← Nat.pow_add, show b + k = a by omega]⟩
  · exact ⟨b, by rw [scaleDown, Nat.mul_assoc, ← Nat.pow_add, show a + (k + 1) = b by omega]⟩

include hn

theorem log2_mul_two_pow : Nat.log2 (n * 2 ^ a) = Nat.log2 n + a := by
  have hlow := Nat.log2_self_le hn.ne'
  have hhigh := Nat.lt_log2_self (n := n)
  refine (Nat.log2_eq_iff (by positivity)).2 ⟨?_, ?_⟩
  · rw [Nat.pow_add]
    exact Nat.mul_le_mul_right _ hlow
  · rw [Nat.add_right_comm, Nat.pow_add]
    exact Nat.mul_lt_mul_of_pos_right hhigh (by positivity)

theorem floorLog2_two_pow : floorLog2 (n * 2 ^ a) (2 ^ b) = Nat.log2 n + (a - b) := by
  have hlow : 2 ^ (Nat.log2 n + a) ≤ n * 2 ^ a := by
    rw [Nat.pow_add]
    exact Nat.mul_le_mul_right _ (Nat.log2_self_le hn.ne')
  simp only [floorLog2, log2_mul_two_pow hn, Nat.log2_two_pow]
  rw [if_pos]
  · omega
  rcases h : ((Nat.log2 n + a : Nat) : Int) - b with k | k
  · rw [Int.ofNat_eq_natCast] at h
    rw [show Nat.log2 n + a = b + k by omega, Nat.pow_add] at hlow
    exact decide_eq_true hlow
  · refine decide_eq_true ?_
    calc 2 ^ b = 2 ^ (Nat.log2 n + a) * 2 ^ (k + 1) := by rw [← Nat.pow_add, show Nat.log2 n + a + (k + 1) = b by omega]
      _ ≤ n * 2 ^ a * 2 ^ (k + 1) := Nat.mul_le_mul_right _ hlow

/-- A nonzero dyadic number whose unit is the last place at its exponent rounds to itself. -/
theorem roundFp_dyadic {f : Fmt} {draw : Nat} {u e : Int} (hdraw : draw < 2 ^ 16) (hu : u = e - fmtMant f)
    (hplace : max (Nat.log2 n + u) (fmtEmin f) = e) (hfit : tooLarge f e n = false) (m : RMode) (neg : Bool) :
    roundFp f m draw (Val.dyadic neg n u) = (withSign f neg ((e - fmtEmin f).toNat * 2 ^ fmtMant f + n), 0) := by
  obtain ⟨a, b, hab, hval⟩ := Val.dyadic_eq_num neg n u
  obtain ⟨j, hj⟩ := scaleDown_two_pow (n := n) a b
  have he : placeExp f (n * 2 ^ a) (2 ^ b) = e := by rw [placeExp, floorLog2_two_pow hn, hab, hplace]
  rw [hab, hu] at hj
  rw [hval, roundFp, if_neg (by positivity)]
  exact roundNum_exact (by positivity) hdraw he hj hfit m neg

end

theorem roundFp_dyadic_zero (f : Fmt) (m : RMode) (draw : Nat) (neg : Bool) (u : Int) :
    roundFp f m draw (Val.dyadic neg 0 u) = (withSign f neg 0, 0) := by
  obtain ⟨a, b, -, hval⟩ := Val.dyadic_eq_num neg 0 u
  rw [hval, Nat.zero_mul, roundFp, if_pos rfl]

/-! ### Patterns of the floating-point formats (R101, R103) -/

theorem mantField_lt (f : Fmt) (x : Nat) : mantField f x < 2 ^ fmtMant f := Nat.mod_lt _ (by positivity)

section
variable {f : Fmt} (hf : fmtIsInt f = false)
include hf

theorem fmt_cases : f = 0 ∨ f = 1 ∨ f = 2 ∨ f = 3 ∨ f = 4 := by
  revert f
  decide

/-- A pattern is its sign, its exponent and its mantissa. -/
theorem withSign_fields {x : Nat} (hx : x < 2 ^ fmtWidth f) :
    withSign f (signBit f x) (expField f x * 2 ^ fmtMant f + mantField f x) = x := by
  obtain rfl | rfl | rfl | rfl | rfl := fmt_cases hf
  all_goals
    simp [withSign, signBit, expField, mantField, fmtWidth, fmtMant, fmtExp, elemsPerLane] at hx ⊢
    split <;> omega

/-- The exponent of a finite pattern is in range, and its significand at the greatest exponent too. -/
theorem tooLarge_of_finite {x : Nat} (hnan : isNaN f x = false) (hinf : isInf f x = false) :
    tooLarge f ((expField f x : Int) - fmtBias f) (2 ^ fmtMant f + mantField f x) = false := by
  obtain rfl | rfl | rfl | rfl | rfl := fmt_cases hf
  all_goals
    simp [tooLarge, isNaN, isInf, fmtHasInf, expField, mantField, fmtMant, fmtExp, fmtBias, fmtEmax, fmtMaxSig] at hnan hinf ⊢
    omega

theorem fmtEmin_lt_fmtEmax : fmtEmin f < fmtEmax f := by
  obtain rfl | rfl | rfl | rfl | rfl := fmt_cases hf
  all_goals decide

/-- A subnormal pattern, or a zero, is so many units of the last place at the least exponent. -/
theorem roundFp_subnormal {x draw : Nat} (hdraw : draw < 2 ^ 16) (m : RMode) (neg : Bool) :
    roundFp f m draw (Val.dyadic neg (mantField f x) (fmtEmin f - fmtMant f)) = (withSign f neg (mantField f x), 0) := by
  have hlt := mantField_lt f x
  generalize mantField f x = n at hlt ⊢
  obtain rfl | hn := Nat.eq_zero_or_pos n
  · exact roundFp_dyadic_zero ..
  · have hlog := (Nat.log2_lt hn.ne').2 hlt
    have hemin := fmtEmin_lt_fmtEmax hf
    have h := roundFp_dyadic hn (f := f) hdraw (e := fmtEmin f) rfl (by omega) (by simp [tooLarge, hemin.le, hemin.ne]) m neg
    rwa [Int.sub_self, Int.toNat_zero, Nat.zero_mul, Nat.zero_add] at h

theorem roundFp_normal {x draw : Nat} (hdraw : draw < 2 ^ 16) (hnan : isNaN f x = false) (hinf : isInf f x = false)
    (hexp : expField f x ≠ 0) (m : RMode) (neg : Bool) :
    roundFp f m draw (Val.dyadic neg (2 ^ fmtMant f + mantField f x) ((expField f x : Int) - fmtBias f - fmtMant f)) =
      (withSign f neg (expField f x * 2 ^ fmtMant f + mantField f x), 0) := by
  have hlt := mantField_lt f x
  have hlog : Nat.log2 (2 ^ fmtMant f + mantField f x) = fmtMant f :=
    (Nat.log2_eq_iff (by positivity)).2 ⟨Nat.le_add_right .., by rw [Nat.pow_succ]; omega⟩
  rw [roundFp_dyadic (by positivity) hdraw rfl (by rw [hlog, fmtEmin]; omega) (tooLarge_of_finite hf hnan hinf)]
  have hunits : ((expField f x : Int) - fmtBias f - fmtEmin f).toNat = expField f x - 1 := by rw [fmtEmin]; omega
  rw [hunits, ← Nat.add_assoc, ← Nat.succ_mul, Nat.succ_eq_add_one, Nat.sub_add_cancel (by omega)]

/-- Rounding into a pattern's own format gives the pattern back in every mode, and a NaN as the canonical one. -/
theorem roundFp_value {x draw : Nat} (hx : x < 2 ^ fmtWidth f) (hdraw : draw < 2 ^ 16) (m : RMode) :
    roundFp f m draw (value f x) = (if isNaN f x then canonNaN f else x, 0) := by
  have hparts := withSign_fields hf hx
  rw [value, if_neg (Bool.eq_false_iff.1 hf)]
  cases hnan : isNaN f x
  · cases hinf : isInf f x
    · rw [if_neg Bool.false_ne_true, if_neg Bool.false_ne_true, if_neg Bool.false_ne_true]
      split
      · next hsub =>
        rw [hsub, Nat.zero_mul, Nat.zero_add] at hparts
        rw [roundFp_subnormal hf hdraw, hparts]
      · next hexp => rw [roundFp_normal hf hdraw hnan hinf hexp, hparts]
    · simp only [isInf, Bool.and_eq_true, beq_iff_eq] at hinf
      obtain ⟨⟨hhas, hexp⟩, hmant⟩ := hinf
      rw [hexp, hmant] at hparts
      simpa [roundFp, hhas, infPattern] using hparts
  · have hhas : fmtHasNaN f = true := bne_iff_ne.2 fun h4 => by simp [isNaN, h4] at hnan
    simp [roundFp, hhas]

end

/-! ### Integer formats (R113) -/

section
variable {w : Nat} (hw : 0 < w)
include hw

/-- The number v in w bits of two's complement. -/
theorem toSigned_of_eq {b : Nat} {v : Int} (hlo : -((2 ^ (w - 1) : Nat) : Int) ≤ v) (hhi : v ≤ ((2 ^ (w - 1) : Nat) : Int) - 1)
    (hb : (b : Int) = if v < 0 then v + (2 ^ w : Nat) else v) : toSigned w b = v := by
  have htwice : 2 * 2 ^ (w - 1) = 2 ^ w := mul_pow_sub_one hw.ne' 2
  have hlt : b < 2 ^ w := by split at hb <;> omega
  rw [toSigned, Nat.mod_eq_of_lt hlt]
  split at hb <;> split <;> omega

theorem toSigned_ofSigned {v : Int} (hlo : -((2 ^ (w - 1) : Nat) : Int) ≤ v) (hhi : v ≤ ((2 ^ (w - 1) : Nat) : Int) - 1) :
    toSigned w (ofSigned w v) = v := by
  have htwice : 2 * 2 ^ (w - 1) = 2 ^ w := mul_pow_sub_one hw.ne' 2
  refine toSigned_of_eq hw hlo hhi ?_
  rw [ofSigned, Int.toNat_of_nonneg (Int.emod_nonneg _ (by positivity))]
  split
  · rw [← Int.add_emod_right, Int.emod_eq_of_lt (by omega) (by omega)]
  · exact Int.emod_eq_of_lt (by omega) (by omega)

end

theorem fmtWidth_pos (f : Fmt) : 0 < fmtWidth f := by
  revert f
  decide

/-- The integer that a number of magnitude k after rounding gives, clamped to the format. -/
theorem roundInt_num (f : Fmt) {m : RMode} {draw n d : Nat} {neg : Bool} {k : Int}
    (hstoch : m = .stoch → (if n = 0 then 0 else ((n : Int) * 2 ^ 16 / d + draw) / 2 ^ 16) = k)
    (hquot : m ≠ .stoch → (roundQuot neg n d m : Int) = k) :
    let v : Int := if neg then -k else k
    roundInt f m draw (.num neg n d) =
      if v < -((2 ^ (fmtWidth f - 1) : Nat) : Int) then (2 ^ (fmtWidth f - 1), flagNV)
      else if ((2 ^ (fmtWidth f - 1) : Nat) : Int) - 1 < v then (2 ^ (fmtWidth f - 1) - 1, flagNV)
      else (ofSigned (fmtWidth f) v, Flags.when (decide (k * d ≠ n)) flagNX) := by
  cases m
  case stoch => obtain rfl := hstoch rfl; rfl
  all_goals obtain rfl := hquot nofun; rfl

/-- Every mode rounds an integer to itself. -/
theorem roundInt_int_eq (f : Fmt) (m : RMode) {draw : Nat} (hdraw : draw < 2 ^ 16) (v : Int) : roundInt f m draw (Val.int v) =
    if v < -((2 ^ (fmtWidth f - 1) : Nat) : Int) then (2 ^ (fmtWidth f - 1), flagNV)
    else if ((2 ^ (fmtWidth f - 1) : Nat) : Int) - 1 < v then (2 ^ (fmtWidth f - 1) - 1, flagNV)
    else (ofSigned (fmtWidth f) v, 0) := by
  have hstoch : (if v.natAbs = 0 then 0 else ((v.natAbs : Int) * 2 ^ 16 / (1 : Nat) + draw) / 2 ^ 16) = (v.natAbs : Int) := by
    rw [Nat.cast_one, Int.ediv_one]
    split <;> omega
  have hquot : roundQuot (decide (v < 0)) v.natAbs 1 m = v.natAbs := by
    simpa using roundQuot_mul (n := v.natAbs) Nat.one_pos (decide (v < 0)) m
  have hsign : (if decide (v < 0) then -(v.natAbs : Int) else v.natAbs) = v := by
    simp only [decide_eq_true_eq]
    split <;> omega
  rw [Val.int, roundInt_num f (fun _ => hstoch) fun _ => congrArg _ hquot, hsign]
  simp [Flags.when]

/-- An integer is clamped to its format in every mode. -/
theorem roundInt_int (f : Fmt) (m : RMode) {draw : Nat} (hdraw : draw < 2 ^ 16) (v : Int) :
    toSigned (fmtWidth f) (roundInt f m draw (Val.int v)).1 = max (-(2 ^ (fmtWidth f - 1))) (min (2 ^ (fmtWidth f - 1) - 1) v) := by
  have hw := fmtWidth_pos f
  have htwice : 2 * 2 ^ (fmtWidth f - 1) = 2 ^ fmtWidth f := mul_pow_sub_one hw.ne' 2
  have hcast : ((2 ^ (fmtWidth f - 1) : Nat) : Int) = 2 ^ (fmtWidth f - 1) := by push_cast; rfl
  have hpos : 0 < 2 ^ (fmtWidth f - 1) := by positivity
  rw [roundInt_int_eq f m hdraw, ← hcast]
  split
  · rw [toSigned_of_eq hw (v := -((2 ^ (fmtWidth f - 1) : Nat) : Int)) (by omega) (by omega) (by rw [if_pos] <;> omega)]
    omega
  · split
    · rw [toSigned_of_eq hw (v := ((2 ^ (fmtWidth f - 1) : Nat) : Int) - 1) (by omega) (by omega) (by rw [if_neg] <;> omega)]
      omega
    · rw [toSigned_ofSigned hw (by omega) (by omega)]
      omega

/-! ### One element of a conversion (R113, R132) -/

section
variable (fs f : Fmt) (m : RMode) {x : Nat} (c : Acc)

theorem cvtElem_int (hs : fmtIsInt fs = true) (hf : fmtIsInt f = true) :
    (cvtElem fs f m x c).2.flags = c.flags ∧ toSigned (fmtWidth f) (cvtElem fs f m x c).1 =
      max (-(2 ^ (fmtWidth f - 1))) (min (2 ^ (fmtWidth f - 1) - 1) (toSigned (fmtWidth fs) x)) := by
  simp only [cvtElem, hs, hf, Bool.and_self, if_true, Acc.round, roundVal, value]
  exact ⟨trivial, roundInt_int f m (Nat.mod_lt _ (by decide)) _⟩

theorem cvtElem_same (hs : fmtIsInt f = false) (hx : x < 2 ^ fmtWidth f) :
    (cvtElem f f m x c).1 = (if isNaN f x then canonNaN f else x)
    ∧ (cvtElem f f m x c).2.flags = c.flags ||| Flags.when (isSignalling f x) flagNV := by
  have hround := fun g : BitVec 32 => roundFp_value hs hx (Nat.mod_lt g.toNat (by decide : 0 < 2 ^ 16)) m
  simp only [cvtElem, hs, Acc.round, roundVal, hround, sigFlag_singleton]
  simp

theorem cvtElem_nan (hs : fmtIsInt fs = false) (hf : fmtIsInt f = true) (hnan : isNaN fs x = true) :
    (cvtElem fs f m x c).1 = 0 ∧ (cvtElem fs f m x c).2.flags = c.flags ||| flagNV := by
  have hboth : ∀ b : Bool, c.flags ||| Flags.when b flagNV ||| flagNV = c.flags ||| flagNV := by
    intro b
    cases b <;> simp [Flags.when, BitVec.or_assoc]
  simp [cvtElem, hs, Acc.round, roundVal, hf, value, hnan, roundInt, sigFlag_singleton, hboth]

end

/-- Settles O32: each instruction computes its lanes and ends as an arithmetic instruction does; a conversion of a value that its
format holds is exact. -/
theorem vectorReduceConvert : Obligations.VectorReduceConvert := by
  intro s d a b r fs p f t3 harm hd hnext
  dsimp only
  refine ⟨computes_vredadd harm hd, computes_vredmax harm hd, computes_vcvt harm hd, ?_, ?_, computes_vrope d a b p harm hd,
    vrope_far d a b p harm hnext,
    fun fs fm rm x c hx => ⟨cvtElem_int fs fm rm c, fun hs hsame => ?_, cvtElem_nan fs fm rm c⟩,
    fun tm t x c => ⟨lookup32_of_isNaN, fun hx => ⟨lookup32_of_value hx, lookup32_of_value hx, lookup32_of_value hx,
      fun n d => lookup32_of_value hx, fun n d => lookup32_of_value hx⟩⟩,
    fun va vb j rest c => ⟨rfl, ropePairs_cons va vb j rest c⟩⟩
  · rintro rfl
    exact computes_vtlu harm hd (g := lookup32 (s.work s.cur.1).tables t3.toNat) fun _ _ => rfl
  · rintro rfl
    exact computes_vtlu harm hd (g := fun x c =>
      let y := lookup32 (s.work s.cur.1).tables t3.toNat (x * 2 ^ 16) c
      y.2.round 1 .rne (value 0 y.1, 0)) fun _ _ => rfl
  · subst hsame
    exact cvtElem_same fs rm c hs hx

end Sys2Proof.Machine
end

section
/-! Narrowing, with its outliers in a list or through a counter (O33). -/

namespace Sys2Proof.Machine

/-! ### What an entry in the ring does not touch (R141, R143, R217) -/

section
variable (s : State) (g c h : Nat) (k : Ctx)

theorem State.dbg_setCtx : ((s.setCtx g c k).core h).dbg = (s.core h).dbg := by
  rw [State.setCtx, State.core_setWork]
  split
  · next hg => rw [hg]
  · rfl

theorem State.localAccess_setCtx (sup : Bool) (a : Word) (n : Nat) (write : Bool) :
    (s.setCtx g c k).localAccess h sup a n write = s.localAccess h sup a n write := by
  have htag : ∀ j, (s.setCtx g c k).tag j = s.tag j := fun j => State.tag_setWork ..
  have hpower : ∀ j, ((s.setCtx g c k).work j).power = (s.work j).power := fun j =>
    State.work_setCtx_field Work.power (fun _ _ => rfl) ..
  have htarget : (s.setCtx g c k).localTarget h a = s.localTarget h a := by
    simp only [State.localTarget, State.dbg_setCtx, htag]
    rfl
  simp only [State.localAccess, htarget, hpower]

theorem State.recordWatched_withEntry (i : Instr) (n : Nat) :
    (s.withEntry i).recordWatched s.cur.1 s.cur.2 n = s.recordWatched s.cur.1 s.cur.2 n := by
  have hnext : ((s.withEntry i).work s.cur.1).olcnt = (s.work s.cur.1).olcnt := State.work_setCtx_field Work.olcnt (fun _ _ => rfl) ..
  have hbase : ((s.withEntry i).work s.cur.1).olbase = (s.work s.cur.1).olbase := State.work_setCtx_field Work.olbase (fun _ _ => rfl) ..
  have hdbg : ((s.withEntry i).core s.cur.1).dbg = (s.core s.cur.1).dbg := State.dbg_setCtx ..
  have haccess : ∀ sup a n w, (s.withEntry i).localAccess s.cur.1 sup a n w = s.localAccess s.cur.1 sup a n w := fun sup a n w =>
    State.localAccess_setCtx ..
  simp only [State.recordWatched, State.recordAddr, State.watchHit, hnext, hbase, hdbg, haccess, State.ctx_withEntry, Ctx.push_sup,
    Ctx.push_watchOff]
  rfl

end

/-! ### The lanes of a narrowing (R115, R134) -/

theorem narrowLanes_fst (f : Fmt) (va vb : VReg) (l : List Nat) :
    (narrowLanes f va vb l).1 = l.map fun i => (i, (narrowScaled (lane va i).toNat (lane vb i).toNat f).1) := by
  induction l with
  | nil => rfl
  | cons i l ih => rw [narrowLanes, ih, List.map_cons]

theorem find?_map_pair {β : Type} (l : List Nat) (v : Nat → β) (j : Nat) :
    (l.map fun i => (i, v i)).find? (fun q => q.1 == j) = if j ∈ l then some (j, v j) else none := by
  induction l with
  | nil => rfl
  | cons i l ih =>
    rw [List.map_cons, List.find?_cons, ih]
    by_cases hij : i = j
    · simp [hij]
    · simp [beq_false_of_ne hij, Ne.symm hij]

/-- A register with some lanes replaced. -/
def VReg.patch (old : VReg) (ps : List (Nat × Nat)) : VReg := vregOf ((List.range 64).map fun i =>
  match ps.find? fun q => q.1 == i with
  | some q => BitVec.ofNat 32 q.2
  | none => lane old i)

theorem lane_patch_narrowLanes (old va vb : VReg) (f : Fmt) (act : BitVec 64) {j : Nat} (hj : j < 64) :
    lane (old.patch (narrowLanes f va vb (activeLanes act)).1) j =
      if act.getLsbD j then BitVec.ofNat 32 (narrowScaled (lane va j).toNat (lane vb j).toNat f).1 else lane old j := by
  have hactive : j ∈ activeLanes act ↔ act.getLsbD j = true := by simp [activeLanes, hj]
  rw [VReg.patch, lane_vregOf _ hj, narrowLanes_fst]
  rw [List.getD_eq_getElem?_getD, List.getElem?_map, List.getElem?_range hj]
  simp only [Option.map_some, Option.getD_some, find?_map_pair, hactive]
  cases act.getLsbD j <;> rfl

/-! ### The start of a narrowing (R54, R134, R140) -/

/-- The entry of a narrowing with records to append (R140). -/
def Ctx.narrowEntry (k : Ctx) (i : Instr) (fl : Flags) (rs : List (List Byte)) : RingEntry :=
  { k.newEntry i 0 with records := rs, raised := fl }

/-- The context that a narrowing leaves, with its elements written, its flags raised and its entry e in the ring. -/
def Ctx.narrowed (k : Ctx) (n : Nat) (r : VReg) (fl : Flags) (e : RingEntry) : Ctx :=
  Ctx.push { k.setV n r with fpflags := raiseIn k.fpflags fl } e

section
variable (k : Ctx) {n : Nat} (r : VReg) (fl : Flags) (e : RingEntry) (len : Nat)

theorem Ctx.narrowed_sameButV : SameButV n k ((k.narrowed n r fl e).retired len) := by
  refine ⟨?_, fun j hj => Ctx.vreg_setV_ne hj⟩
  unfold SameButFlow
  rfl

theorem Ctx.narrowed_vreg (hn : n < 22) : ((k.narrowed n r fl e).retired len).vreg n = r := Ctx.vreg_setV hn

theorem Ctx.narrowed_fpflags : ((k.narrowed n r fl e).retired len).fpflags = raiseIn k.fpflags fl := rfl

theorem Ctx.narrowed_ring : ((k.narrowed n r fl e).retired len).ring = k.ring ++ [e] := rfl

end

section
variable {s : State} {i : Instr}

/-- The end of a narrowing whose entry has met no failure (R112). -/
theorem State.endNarrow_of_find? {g c : Nat} {q : Byte} {e : RingEntry} (hfind : (s.ctx g c).ring.find? (fun x => x.seq == q) = some e)
    (hcause : e.cause = 0) : s.endNarrow g c q = s.setCtx g c ((s.ctx g c).flagEntry q e.raised) := by
  rw [State.endNarrow, hfind]
  exact if_pos hcause

theorem beginNarrow_withEntry (hnext : NextFree s) (d : BitVec 5) (ps : List (Nat × Nat)) (fl : Flags) (rs : List (List Byte)) :
    beginNarrow s.cur.1 s.cur.2 (s.me.newEntry i 0) d ps fl rs (s.withEntry i) =
      (s.withEntry i).setCtx s.cur.1 s.cur.2 (s.me.narrowed d.toNat ((s.me.vreg d.toNat).patch ps) fl
        (if rs = [] then (s.me.narrowEntry i fl []).ended (raiseIn s.me.fpflags fl) fl else s.me.narrowEntry i fl rs)) := by
  let k : Ctx := { s.me.setV d.toNat ((s.me.vreg d.toNat).patch ps) with fpflags := raiseIn s.me.fpflags fl }
  have hfree : ∀ e : RingEntry, e.seq = s.me.nextSeq → ∀ x ∈ k.ring, x.seq ≠ e.seq := fun e he x hx => he ▸ hnext x hx
  have hentry : (k.push (s.me.newEntry i 0)).setEntry s.me.nextSeq (fun x => { x with records := rs, raised := fl }) =
      k.push (s.me.narrowEntry i fl rs) := Ctx.setEntry_push (e := s.me.newEntry i 0) (hfree _ rfl) _
  have hbegin : beginNarrow s.cur.1 s.cur.2 (s.me.newEntry i 0) d ps fl rs (s.withEntry i) =
      let t := (s.withEntry i).setCtx s.cur.1 s.cur.2 (k.push (s.me.narrowEntry i fl rs))
      if rs.isEmpty then t.endNarrow s.cur.1 s.cur.2 s.me.nextSeq else t := by
    rw [← hentry]
    unfold beginNarrow
    rw [State.ctx_withEntry]
    rfl
  rw [hbegin]
  cases rs with
  | cons r rs => rfl
  | nil =>
    have hctx : ((s.withEntry i).setCtx s.cur.1 s.cur.2 (k.push (s.me.narrowEntry i fl []))).ctx s.cur.1 s.cur.2 =
        k.push (s.me.narrowEntry i fl []) := by rw [State.ctx_setCtx, if_pos ⟨rfl, rfl⟩]
    have hfind := Ctx.find?_ring_push (e := s.me.narrowEntry i fl []) (hfree _ rfl)
    rw [← hctx] at hfind
    have hend := Ctx.setEntry_push (e := s.me.narrowEntry i fl []) (hfree _ rfl) (·.ended (raiseIn s.me.fpflags fl) fl)
    refine (State.endNarrow_of_find? hfind rfl).trans ?_
    rw [hctx, Ctx.flagEntry_eq, State.setCtx_setCtx]
    exact congrArg _ hend

end

/-! ### VCVTN and its counter form (R134, R135) -/

theorem RingEntry.ended_seq (e : RingEntry) (w : BitVec 14) (fl : Flags) : (e.ended w fl).seq = e.seq := by
  unfold RingEntry.ended
  split <;> rfl

theorem RingEntry.ended_records (e : RingEntry) (w : BitVec 14) (fl : Flags) : (e.ended w fl).records = e.records := by
  unfold RingEntry.ended
  split <;> rfl

theorem RingEntry.ended_finished (e : RingEntry) (w : BitVec 14) (fl : Flags) : (e.ended w fl).finished = true := by
  unfold RingEntry.ended
  split <;> rfl

theorem RingEntry.ended_st (e : RingEntry) (w : BitVec 14) (fl : Flags) :
    (e.ended w fl).st = if flagCause w fl = 0 then .done else .faulted := by
  unfold RingEntry.ended
  split <;> rfl

/-- The lanes that a narrowing of the executing context goes through: patterns, outliers and flags. -/
def Ctx.narrowing (k : Ctx) (a b : BitVec 6) (p f : BitVec 3) : List (Nat × Nat) × List Nat × Flags :=
  narrowLanes f (srcLanes k k.x a 0) (srcLanes k k.x b 0) (activeLanes (k.pred p))

/-- The records of its outliers (R116). -/
def Ctx.outliers (k : Ctx) (a b : BitVec 6) (p f : BitVec 3) : List (List Byte) :=
  (k.narrowing a b p f).2.1.map (outlierRecord k.x[0] (srcLanes k k.x a 0))

theorem srcLanes_withEntry (k : Ctx) (i : Instr) (a : BitVec 6) (f : Fmt) :
    srcLanes (k.push (k.newEntry i 0)) (k.newEntry i 0).xs a f = srcLanes k k.x a f := rfl

theorem pred_withEntry (k : Ctx) (i : Instr) (p : BitVec 3) : (k.push (k.newEntry i 0)).pred p = k.pred p := rfl

section
variable {s : State} (d : BitVec 5) (a b : BitVec 6) (p f : BitVec 3)

/-- What a narrowing does once nothing stops it. -/
def Narrows (s : State) (i : Instr) (d : BitVec 5) (a b : BitVec 6) (p f : BitVec 3) (body : VBody) : Prop :=
  body (s.withEntry i) s.cur.1 s.cur.2 (s.me.newEntry i 0) =
    beginNarrow s.cur.1 s.cur.2 (s.me.newEntry i 0) d (s.me.narrowing a b p f).1 (s.me.narrowing a b p f).2.2 (s.me.outliers a b p f)
      (s.withEntry i)

theorem narrows_vcvtn (hwatch : s.recordWatched s.cur.1 s.cur.2 (s.me.narrowing a b p f).2.1.length = none) :
    Narrows s (.vcvtn d a b p f) d a b p f (bodyVcvtn d a b p f) := by
  have hnone := (s.recordWatched_withEntry (.vcvtn d a b p f) _).trans hwatch
  unfold Narrows bodyVcvtn narrowBody
  rw [State.ctx_withEntry]
  rw [Ctx.narrowing] at hnone
  simp only [srcLanes_withEntry, pred_withEntry, hnone]
  rfl

theorem State.work_pull (s : State) (g i h : Nat) : (s.pull g i).work h = s.work h := by
  unfold State.pull
  split
  · unfold State.askHalt
    dsimp only
    split <;> rfl
  · rfl

/-- A record that a comparator matches faults the entry with nothing written (R217). -/
theorem exec_vcvtn_watched (harm : s.me.stepArm = false) (hspec : s.speculative s.cur.1 s.cur.2 = false) (hnext : NextFree s)
    {n : Nat} {w : Word} (hwatch : s.recordWatched s.cur.1 s.cur.2 (s.me.narrowing a b p f).2.1.length = some (n, w)) :
    exec (.vcvtn d a b p f) s = .next (((s.withEntry (.vcvtn d a b p f)).pull s.cur.1 n).setMe ((s.me.push
      { s.me.newEntry (.vcvtn d a b p f) 0 with st := .faulted, cause := 0x08, fault := w, comparator := some n }).retired 2)) := by
  let u := (s.withEntry (.vcvtn d a b p f)).pull s.cur.1 n
  let e := s.me.newEntry (.vcvtn d a b p f) 0
  have hexec : exec (.vcvtn d a b p f) s = .next (s.whenSafe (s.issueV (.vcvtn d a b p f) 2 (bodyVcvtn d a b p f))) := rfl
  have hcur : u.cur = s.cur := State.pull_cur ..
  have hsome := (s.recordWatched_withEntry (.vcvtn d a b p f) _).trans hwatch
  have hentry : (s.me.push e).watchEntry e.seq n w = s.me.push { e with st := .faulted, cause := 0x08, fault := w, comparator := some n } := by
    rw [Ctx.watchEntry, Ctx.faultEntry, Ctx.setEntry_push (e := e) hnext]
    exact Ctx.setEntry_push (e := { e with st := .faulted, cause := 0x08, fault := w }) hnext _
  have hbody : bodyVcvtn d a b p f (s.withEntry (.vcvtn d a b p f)) s.cur.1 s.cur.2 e =
      u.setMe (s.me.push { e with st := .faulted, cause := 0x08, fault := w, comparator := some n }) := by
    rw [← hentry, State.setMe, hcur]
    unfold bodyVcvtn narrowBody
    rw [State.ctx_withEntry]
    rw [Ctx.narrowing] at hsome
    simp only [e, srcLanes_withEntry, pred_withEntry, hsome]
    rfl
  rw [hexec, State.whenSafe_of_not_speculative hspec]
  refine (congrArg (fun v : State => Host.Outcome.next (v.retire 2)) hbody).trans (congrArg _ (State.retire_setMe _ 2 ?_))
  exact harm

theorem vcvtn_watched (harm : s.me.stepArm = false) (hspec : s.speculative s.cur.1 s.cur.2 = false) (hnext : NextFree s)
    {n : Nat} {w : Word} (hwatch : s.recordWatched s.cur.1 s.cur.2 (s.me.narrowing a b p f).2.1.length = some (n, w)) :
    ∃ t, exec (.vcvtn d a b p f) s = .next t ∧ SameBytes s t ∧ t.me.v = s.me.v ∧ t.me.fpflags = s.me.fpflags
      ∧ t.me.ring = s.me.ring ++ [{ s.me.newEntry (.vcvtn d a b p f) 0 with
          st := .faulted, cause := 0x08, fault := w, comparator := some n }] := by
  refine ⟨_, exec_vcvtn_watched d a b p f harm hspec hnext hwatch, ⟨fun x => ?_, fun g x => ?_⟩, ?_⟩
  · rw [State.setMe_mem, State.pull_mem]
    rfl
  · rw [State.spad_setMe, State.work_pull, State.withEntry, State.spad_setMe]
  · rw [State.me_setMe]
    exact ⟨rfl, rfl, rfl⟩

theorem narrows_vcvtnCounter (n : BitVec 12) :
    Narrows s (.vcvtnCounter d a b p f n) d a b p f (bodyVcvtnCounter d a b p f n) := by
  unfold Narrows bodyVcvtnCounter
  rw [State.ctx_withEntry]
  rfl

theorem narrows_frame {i : Instr} {len : Nat} {body : VBody} (harm : s.me.stepArm = false) (hd : d.toNat < 22)
    (hspec : s.speculative s.cur.1 s.cur.2 = false) (hnext : NextFree s)
    (hexec : exec i s = .next (s.whenSafe (s.issueV i len body))) (hbody : Narrows s i d a b p f body) :
    ∃ t, exec i s = .next t ∧ OnlyMe s t ∧ SameBytes s t ∧ SameButV d.toNat s.me t.me
      ∧ (∀ j < 64, lane (t.me.vreg d.toNat) j = if (s.me.pred p).getLsbD j
          then BitVec.ofNat 32 (narrowScaled (lane (srcLanes s.me s.me.x a 0) j).toNat (lane (srcLanes s.me s.me.x b 0) j).toNat f).1
          else lane (s.me.vreg d.toNat) j)
      ∧ t.me.fpflags = raiseIn s.me.fpflags (s.me.narrowing a b p f).2.2
      ∧ (s.me.outliers a b p f ≠ [] → t.me.ring = s.me.ring ++ [s.me.narrowEntry i (s.me.narrowing a b p f).2.2 (s.me.outliers a b p f)])
      ∧ (s.me.outliers a b p f = [] → ∃ u, t.me.ring = s.me.ring ++ [u] ∧ u.records = [] ∧ u.finished = true
          ∧ u.st = if flagCause t.me.fpflags (s.me.narrowing a b p f).2.2 = 0 then .done else .faulted) := by
  rw [State.whenSafe_of_not_speculative hspec] at hexec
  refine ⟨_, hexec.trans (congrArg _ (State.issueV_of_setCtx ?_ (hbody.trans (beginNarrow_withEntry hnext ..)))), onlyMe_setMe ..,
    sameBytes_setMe .., ?_⟩
  · exact harm
  rw [State.me_setMe, Ctx.narrowed_vreg _ _ _ _ _ hd, Ctx.narrowed_fpflags, Ctx.narrowed_ring]
  refine ⟨Ctx.narrowed_sameButV .., fun j hj => lane_patch_narrowLanes _ _ _ _ _ hj, rfl, fun hrs => by rw [if_neg hrs], fun hrs => ?_⟩
  rw [if_pos hrs]
  exact ⟨_, rfl, RingEntry.ended_records .., RingEntry.ended_finished .., RingEntry.ended_st ..⟩

end

/-! ### One record at a time (R54, R117, R135, R140) -/

section
variable {s : State} {g c : Nat} {q : Byte} {e : RingEntry} {r : List Byte}

theorem RingEntry.seq_of_find? {l : List RingEntry} (h : l.find? (fun x => x.seq == q) = some e) : e.seq = q :=
  by simpa using List.find?_some h

/-- The slot for the next record, and the number of slots (R117). -/
def State.olNext (s : State) (g : Nat) : Nat := field ((s.work g).olcnt.setWidth 64) 0 16
def State.olCap (s : State) (g : Nat) : Nat := field ((s.work g).olcnt.setWidth 64) 16 16

theorem State.appendRecord_stored (hroom : s.olNext g < s.olCap g) {t : State}
    (hstore : s.storeRecord g (s.ctx g c).sup (s.olNext g) r = .ok t) :
    s.appendRecord g c e r = (t.setWork g { t.work g with olcnt := (t.work g).olcnt + 1 }).recordDone g c e.seq := by
  rw [State.olNext] at hstore
  refine (if_pos hroom).trans ?_
  rw [hstore]

theorem State.appendRecord_fails (hroom : s.olNext g < s.olCap g) {x : Nat} {a : Word}
    (hstore : s.storeRecord g (s.ctx g c).sup (s.olNext g) r = .error (x, a)) :
    s.appendRecord g c e r = s.recordFails g c e.seq x a := by
  rw [State.olNext] at hstore
  refine (if_pos hroom).trans ?_
  rw [hstore]

theorem State.appendRecord_full (hfull : s.olCap g ≤ s.olNext g) : s.appendRecord g c e r = s.recordDropped g c e.seq :=
  if_neg (Nat.not_lt.2 hfull)

theorem State.askSlot_none {key : Nat} (h : s.counter (s.tag g) key = none) : s.askSlot g c key q = s.recordFails g c q 0x0A 0 := by
  rw [State.askSlot, h]

theorem State.askSlot_exhausted {key : Nat} {k : Counter} (h : s.counter (s.tag g) key = some k) (hend : k.exhausted = true) :
    s.askSlot g c key q = s.recordFails g c q 0x0A 0 := by
  rw [State.askSlot, h]
  exact if_pos hend

/-- A CTAKE enters the counter on the outlier's behalf. -/
theorem State.askSlot_enters {key : Nat} {k : Counter} (h : s.counter (s.tag g) key = some k) (hend : k.exhausted = false) :
    SameBytes s (s.askSlot g c key q) ∧ (s.askSlot g c key q).counter (s.tag g) key = some k.enter
    ∧ Tab.find (s.askSlot g c key q).net.ops s.nextId =
      some ⟨g, c, s.tag g, key, .token, k.gen, .wire (inputWire g k.w), (s.ctx g c).pending, .append q, s.cycle g⟩ := by
  let o : FabricOp := ⟨g, c, s.tag g, key, .token, k.gen, .wire (inputWire g k.w), (s.ctx g c).pending, .append q, s.cycle g⟩
  let u := (s.setCounter (s.tag g) key k.enter).withNet fun n => { n with ops := Tab.put n.ops s.nextId o }
  have hask : s.askSlot g c key q = u.fresh.setCtx g c ((u.ctx g c).setEntry q fun e => { e with pieces := [s.nextId] }) := by
    rw [State.askSlot, h]
    exact if_neg (Bool.eq_false_iff.1 hend)
  rw [hask]
  refine ⟨⟨fun _ => rfl, fun h a => by rw [State.spad_setCtx]; rfl⟩, ?_, (Tab.find_put ..).trans (if_pos rfl)⟩
  have hpart : (s.setCounter (s.tag g) key k.enter).part (s.tag g) =
      { s.part (s.tag g) with counters := Tab.put (s.part (s.tag g)).counters key k.enter } := by
    rw [State.setCounter, State.part_setPart, if_pos rfl]
  exact (congrArg (fun p : Partition => Tab.find p.counters key) hpart).trans ((Tab.find_put ..).trans (if_pos rfl))

end

/-! ### What remains of an entry (R140) -/

section
variable {s : State} {g c : Nat} {q : Byte} {e : RingEntry}

theorem Ctx.find?_setEntry {k : Ctx} {f : RingEntry → RingEntry} (hf : ∀ x, (f x).seq = x.seq)
    (h : k.ring.find? (fun x => x.seq == q) = some e) : (k.setEntry q f).ring.find? (fun x => x.seq == q) = some (f e) := by
  have hseq : ∀ x : RingEntry, (if x.seq = q then f x else x).seq = x.seq := fun x => by split <;> simp [hf]
  rw [Ctx.setEntry, List.find?_map]
  have hcomp : ((fun x : RingEntry => x.seq == q) ∘ fun x => if x.seq = q then f x else x) = fun x => x.seq == q := by
    funext x
    simp only [Function.comp, hseq]
  rw [hcomp, h, Option.map_some, if_pos (RingEntry.seq_of_find? h)]

theorem Ctx.setEntry_setEntry (k : Ctx) {f : RingEntry → RingEntry} (hf : ∀ x, (f x).seq = x.seq) (h : RingEntry → RingEntry) :
    (k.setEntry q f).setEntry q h = k.setEntry q (h ∘ f) := by
  simp only [Ctx.setEntry, List.map_map]
  congr 2
  funext x
  by_cases hx : x.seq = q <;> simp [hx, hf]

/-- The end of a narrowing changes the state of its entry, and no record. -/
theorem State.endNarrow_eq (hfind : (s.ctx g c).ring.find? (fun x => x.seq == q) = some e) : ∃ f : RingEntry → RingEntry,
    (∀ x, (f x).seq = x.seq ∧ (f x).records = x.records) ∧ s.endNarrow g c q = s.setCtx g c ((s.ctx g c).setEntry q f) := by
  by_cases hcause : e.cause = 0
  · rw [State.endNarrow_of_find? hfind hcause, Ctx.flagEntry_eq]
    exact ⟨_, fun x => ⟨x.ended_seq .., x.ended_records ..⟩, rfl⟩
  · refine ⟨fun x => { x with st := .faulted, finished := true, more := x.more ||| flagCauses (s.ctx g c).fpflags e.raised },
      fun x => ⟨rfl, rfl⟩, ?_⟩
    rw [State.endNarrow, hfind]
    exact if_neg hcause

/-- The first record of the entry is gone. -/
theorem State.recordDone_eq (hfind : (s.ctx g c).ring.find? (fun x => x.seq == q) = some e) : ∃ f : RingEntry → RingEntry,
    (∀ x, (f x).seq = x.seq ∧ (f x).records = x.records.drop 1)
    ∧ (s.recordDone g c q).ctx g c = (s.ctx g c).setEntry q f := by
  let f : RingEntry → RingEntry := fun x => { x with records := x.records.drop 1, pieces := [] }
  let t := s.setCtx g c ((s.ctx g c).setEntry q f)
  have hctx : t.ctx g c = (s.ctx g c).setEntry q f := by rw [State.ctx_setCtx, if_pos ⟨rfl, rfl⟩]
  have hfind' : (t.ctx g c).ring.find? (fun x => x.seq == q) = some (f e) := by
    rw [hctx]
    exact Ctx.find?_setEntry (fun _ => rfl) hfind
  have hdone : s.recordDone g c q =
      if ((t.ctx g c).ring.find? fun x => x.seq == q && !x.records.isEmpty).isSome then t else t.endNarrow g c q := rfl
  rw [hdone]
  split
  · exact ⟨f, fun _ => ⟨rfl, rfl⟩, hctx⟩
  · obtain ⟨h, hh, hend⟩ := State.endNarrow_eq hfind'
    refine ⟨h ∘ f, fun x => hh (f x), ?_⟩
    rw [hend, State.ctx_setCtx, if_pos ⟨rfl, rfl⟩, hctx, Ctx.setEntry_setEntry (f := f) _ fun _ => rfl]

theorem State.records_recordDone {r : List Byte} {rest : List (List Byte)}
    (hfind : (s.ctx g c).ring.find? (fun x => x.seq == q) = some e) (hrs : e.records = r :: rest) :
    ∃ u, ((s.recordDone g c q).ctx g c).ring.find? (fun x => x.seq == q) = some u ∧ u.records = rest := by
  obtain ⟨f, hf, hctx⟩ := State.recordDone_eq hfind
  refine ⟨f e, ?_, ?_⟩
  · rw [hctx]
    exact Ctx.find?_setEntry (fun x => (hf x).1) hfind
  · rw [(hf e).2, hrs]
    rfl

theorem State.fpflags_recordDropped (hfind : (s.ctx g c).ring.find? (fun x => x.seq == q) = some e) :
    ((s.recordDropped g c q).ctx g c).fpflags = raiseIn (s.ctx g c).fpflags flagOL := by
  let f : RingEntry → RingEntry := fun x => { x with raised := x.raised ||| flagOL }
  let k : Ctx := { s.ctx g c with fpflags := raiseIn (s.ctx g c).fpflags flagOL }
  have hctx : (s.setCtx g c (k.setEntry q f)).ctx g c = k.setEntry q f := by rw [State.ctx_setCtx, if_pos ⟨rfl, rfl⟩]
  have hmarked : ((s.setCtx g c (k.setEntry q f)).ctx g c).ring.find? (fun x => x.seq == q) = some (f e) := by
    rw [hctx]
    exact Ctx.find?_setEntry (fun _ => rfl) hfind
  obtain ⟨h, -, hdone⟩ := State.recordDone_eq hmarked
  rw [State.recordDropped, hdone, Ctx.setEntry_fpflags, hctx, Ctx.setEntry_fpflags]

/-- A record is stored where the checks of R141 to R143 allow it. -/
theorem State.storeRecord_ok {sup : Bool} {n : Nat} {r : List Byte} {t : State} (h : s.storeRecord g sup n r = .ok t) :
    ∃ i off, s.localAccess g sup (s.recordAddr g n) 16 true = .ok (i, off) ∧ t = s.localStore i off r := by
  rw [State.storeRecord] at h
  split at h
  · cases h
  · next i off hok => exact ⟨i, off, hok, (Except.ok.inj h).symm⟩

end

/-- Settles O33: the elements are written and the records stand in the entry at once; each step of the entry then takes the first
record left. -/
theorem narrowing : Obligations.Narrowing := by
  refine ⟨fun s d a b p f n harm hd hspec hnext => ⟨fun n' w hwatch => vcvtn_watched d a b p f harm hspec hnext hwatch, ?_⟩,
    fun s g c q e r rest hfind hst hrs hruns => ?_, fun s g c q e r rest hfind hrs =>
      ⟨State.records_recordDone hfind hrs, State.fpflags_recordDropped hfind, fun n sup t hstore => State.storeRecord_ok hstore⟩⟩
  · exact List.forall_mem_cons.2
      ⟨fun hwatch => narrows_frame d a b p f harm hd hspec hnext rfl (narrows_vcvtn d a b p f (hwatch rfl)),
        List.forall_mem_singleton.2 fun _ => narrows_frame d a b p f harm hd hspec hnext rfl (narrows_vcvtnCounter d a b p f n)⟩
  · have hstep := (exec_ringEntryComplete hfind).2.2 hst hruns
    obtain rfl := RingEntry.seq_of_find? hfind
    refine ⟨fun d a b p f hi => ?_, fun d a b p f n hi hp => ?_⟩
    · rw [State.narrowOn_olcnt hi hrs] at hstep
      exact ⟨fun hroom t hstore => hstep.trans (congrArg _ (State.appendRecord_stored hroom hstore)),
        fun hroom x ad hstore => hstep.trans (congrArg _ (State.appendRecord_fails hroom hstore)),
        fun hfull => hstep.trans (congrArg _ (State.appendRecord_full hfull))⟩
    · rw [State.narrowOn_counter hi (hrs ▸ List.cons_ne_nil r rest) hp] at hstep
      refine ⟨fun hno => hstep.trans (congrArg _ (State.askSlot_none hno)), fun k hk => ⟨fun hend => ?_, fun hopen => ?_⟩⟩
      · exact hstep.trans (congrArg _ (State.askSlot_exhausted hk hend))
      · exact ⟨_, hstep, State.askSlot_enters hk hopen⟩

end Sys2Proof.Machine
end

section
/-! Lanes and elements under a predicate: the integer and logic instructions, the moves and the packs (O28, O29). -/

namespace Sys2Proof.Machine

/-! ### Elements of a lane (R121, R127) -/

theorem elemsPerLane_mul_fmtWidth (f : Fmt) : elemsPerLane f * fmtWidth f = 32 := by
  revert f
  decide

section
variable {f : Fmt} {g : Nat → Acc → Nat × Acc}

/-- Elements computed one after the other are the digits of their lane, to base 2 ^ width from place j on. -/
theorem elemsFrom_digits {v : Nat → Nat} (hg : ∀ j c, (g j c).1 = v j) (hv : ∀ j, v j < 2 ^ fmtWidth f) (n j : Nat) (c : Acc) :
    ∃ q, (elemsFrom f g n j c).1 = 2 ^ (fmtWidth f * j) * q ∧ ∀ k < n, q / 2 ^ (fmtWidth f * k) % 2 ^ fmtWidth f = v (j + k) := by
  induction n generalizing j c with
  | zero => exact ⟨0, rfl, fun k hk => absurd hk k.not_lt_zero⟩
  | succ n ih =>
    obtain ⟨q, hq, hd⟩ := ih (j + 1) (g j c).2
    refine ⟨v j + 2 ^ fmtWidth f * q, ?_, fun k hk => ?_⟩
    · rw [elemsFrom, hq, hg]
      ring
    · cases k with
      | zero => simp [Nat.mod_eq_of_lt (hv j)]
      | succ k =>
        have hnext : (v j + 2 ^ fmtWidth f * q) / 2 ^ fmtWidth f = q := by
          rw [Nat.add_mul_div_left _ _ (by positivity), Nat.div_eq_of_lt (hv j), zero_add]
        rw [Nat.mul_succ, Nat.add_comm (_ * k), pow_add, ← Nat.div_div_eq_div_mul, hnext, hd k (by omega), Nat.add_right_comm,
          Nat.add_assoc]

/-- An element of a lane that is cut to 32 bits is the element of the whole. -/
theorem elem_ofNat (q : Nat) {j : Nat} (hj : j < elemsPerLane f) :
    elem f (BitVec.ofNat 32 q) j = q / 2 ^ (fmtWidth f * j) % 2 ^ fmtWidth f := by
  have hbits : fmtWidth f * j + fmtWidth f ≤ 32 := by
    rw [← elemsPerLane_mul_fmtWidth f, ← Nat.mul_succ, Nat.mul_comm]
    exact Nat.mul_le_mul_right _ hj
  rw [elem, BitVec.toNat_ofNat, ← Nat.add_sub_of_le (Nat.le_of_add_right_le hbits), pow_add, Nat.mod_mul_right_div_self]
  exact Nat.mod_mod_of_dvd _ (pow_dvd_pow 2 (by omega))

/-- Element j of a lane whose elements are computed is the value of element j (R127). -/
theorem elem_laneOf {v : Nat → Nat} (hg : ∀ j c, (g j c).1 = v j) (hv : ∀ j, v j < 2 ^ fmtWidth f) (c : Acc) {j : Nat}
    (hj : j < elemsPerLane f) : elem f (laneOf f g c).1 j = v j := by
  obtain ⟨q, hq, hd⟩ := elemsFrom_digits hg hv (elemsPerLane f) 0 c
  rw [laneOf, elem_ofNat _ hj, hq, Nat.mul_zero, pow_zero, one_mul, hd j hj, zero_add]

theorem elemsFrom_snd (hg : ∀ j c, (g j c).2 = c) (n j : Nat) (c : Acc) : (elemsFrom f g n j c).2 = c := by
  induction n generalizing j c with
  | zero => rfl
  | succ n ih => rw [elemsFrom, ih, hg]

theorem laneOf_snd (hg : ∀ j c, (g j c).2 = c) (c : Acc) : (laneOf f g c).2 = c := elemsFrom_snd hg ..

end

/-! ### Lanes of a register (R124) -/

section
variable {act : BitVec 64} {g : Nat → Acc → Lane × Acc}

theorem lanesFrom_getD (ls : List Lane) (i : Nat) (c : Acc) {k : Nat} (hk : k < ls.length) : ∃ c',
    (lanesFrom act g ls i c).1.getD k 0 = if act.getLsbD (i + k) then (g (i + k) c').1 else ls.getD k 0 := by
  induction ls generalizing i c k with
  | nil => exact absurd hk k.not_lt_zero
  | cons l ls ih =>
    cases k with
    | zero =>
      refine ⟨c, ?_⟩
      simp only [lanesFrom, List.getD_cons_zero, Nat.add_zero]
      split <;> rfl
    | succ k =>
      obtain ⟨c', h⟩ := ih (i + 1) (if act.getLsbD i then g i c else (l, c)).2 (Nat.lt_of_succ_lt_succ hk)
      refine ⟨c', ?_⟩
      rw [lanesFrom, List.getD_cons_succ, List.getD_cons_succ, h, Nat.add_right_comm, Nat.add_assoc]

/-- An active lane is computed, with what the lanes below it have left, and an inactive lane keeps its bits (R124). -/
theorem lane_mapLanes (old : VReg) (c : Acc) {i : Nat} (hi : i < 64) : ∃ c',
    lane (mapLanes act old g c).1 i = if act.getLsbD i then (g i c').1 else lane old i := by
  obtain ⟨c', h⟩ := lanesFrom_getD (act := act) (g := g) old.toList 0 c (k := i) (by simpa using hi)
  refine ⟨c', ?_⟩
  have hold : old.toList.getD i 0 = lane old i := by simp [lane, List.getD_eq_getElem?_getD]
  rw [mapLanes, lane_vregOf _ hi, h, zero_add, hold]

theorem lanesFrom_snd (hg : ∀ i c, (g i c).2 = c) (ls : List Lane) (i : Nat) (c : Acc) : (lanesFrom act g ls i c).2 = c := by
  induction ls generalizing i c with
  | nil => rfl
  | cons l ls ih =>
    rw [lanesFrom, ih]
    split
    · exact hg i c
    · rfl

theorem mapLanes_snd (hg : ∀ i c, (g i c).2 = c) (old : VReg) (c : Acc) : (mapLanes act old g c).2 = c := lanesFrom_snd hg ..

end

/-! ### The integer and logic instructions (R127, R129) -/

section
variable {s : State} {i : Instr} {d : BitVec 5} {a b : BitVec 6} {p : BitVec 3} {f : Fmt}

theorem Acc.raise_zero (c : Acc) : c.raise 0 = c := by
  simp [Acc.raise]

theorem raiseIn_zero (w : BitVec 14) : raiseIn w 0 = w := by
  simp [raiseIn]

/-- The lanes that an elementwise instruction which rounds nothing leaves in its destination, with their flags (R127, R129). -/
def Ctx.elemLanes (k : Ctx) (f : Fmt) (d : BitVec 5) (a b : BitVec 6) (p : BitVec 3) (op : Nat → Nat → Rounded) : VReg × Acc :=
  mapLanes (k.pred p) (k.vreg d.toNat) (fun i acc => laneOf f (fun j acc =>
    let o := op (elem f (lane (srcLanes k k.x a f) i) j) (elem f (lane (srcLanes k k.x b f) i) j)
    (o.1 % 2 ^ fmtWidth f, acc.raise o.2)) acc) ⟨0, k.rng⟩

theorem elemBody_withEntry (op : Nat → Nat → Rounded) :
    elemBody f d a b p op (s.withEntry i) s.cur.1 s.cur.2 (s.me.newEntry i 0) =
      finishFlags (s.withEntry i) s.cur.1 s.cur.2 (s.me.newEntry i 0)
        ((s.me.push (s.me.newEntry i 0)).setV d.toNat (s.me.elemLanes f d a b p op).1) (s.me.elemLanes f d a b p op).2 := by
  unfold elemBody
  rw [State.ctx_withEntry]
  rfl

theorem Ctx.elemLanes_snd (k : Ctx) (o : Nat → Nat → Nat) : (k.elemLanes f d a b p fun x y => (o x y, 0)).2 = ⟨0, k.rng⟩ :=
  mapLanes_snd (fun _ => laneOf_snd fun _ => Acc.raise_zero) ..

theorem Ctx.lane_elemLanes (k : Ctx) (op : Nat → Nat → Rounded) {n : Nat} (hn : n < 64) :
    let src := fun (r : BitVec 6) j => elem f (lane (srcLanes k k.x r f) n) j
    if (k.pred p).getLsbD n then
      ∀ j < elemsPerLane f, elem f (lane (k.elemLanes f d a b p op).1 n) j = (op (src a j) (src b j)).1 % 2 ^ fmtWidth f
    else lane (k.elemLanes f d a b p op).1 n = lane (k.vreg d.toNat) n := by
  intro src
  obtain ⟨c, hlane⟩ := lane_mapLanes (act := k.pred p) (k.vreg d.toNat) ⟨0, k.rng⟩ hn
  rw [Ctx.elemLanes, hlane]
  split
  · intro j hj
    exact elem_laneOf (v := fun j => (op (src a j) (src b j)).1 % 2 ^ fmtWidth f) (fun _ _ => rfl)
      (fun _ => Nat.mod_lt _ (Nat.two_pow_pos _)) c hj
  · rfl

/-- An elementwise instruction that raises no flag writes each element of each active lane, and leaves flags and generator (R129). -/
theorem integer_of_elemBody (harm : s.me.stepArm = false) (hd : d.toNat < 22) {o : Nat → Nat → Nat}
    (hexec : exec i s = .next (s.issueV i 2 (elemBody f d a b p fun x y => (o x y, 0)))) :
    let src := fun (r : BitVec 6) i j => elem f (lane (srcLanes s.me s.me.x r f) i) j
    ∃ t, exec i s = .next t ∧ OnlyMe s t ∧ SameBytes s t ∧ SameButV d.toNat s.me t.me ∧ t.me.fpflags = s.me.fpflags
      ∧ t.me.rng = s.me.rng
      ∧ ∀ i < 64, if (s.me.pred p).getLsbD i
          then ∀ j < elemsPerLane f, elem f (lane (t.me.vreg d.toNat) i) j = o (src a i j) (src b i j) % 2 ^ fmtWidth f
          else lane (t.me.vreg d.toNat) i = lane (s.me.vreg d.toNat) i := by
  obtain ⟨t, hexec, hme, hbytes, hbut, hreg, hflags, hrng⟩ := computes_of_finishFlags harm hd hexec (elemBody_withEntry _)
  rw [Ctx.elemLanes_snd] at hflags hrng
  rw [raiseIn_zero] at hflags
  refine ⟨t, hexec, hme, hbytes, hbut, hflags, hrng, fun n hn => ?_⟩
  rw [hreg]
  exact s.me.lane_elemLanes _ hn

end

/-- Settles O28: each instruction is an elementwise operation that raises no flag. -/
theorem vectorInteger : Obligations.VectorInteger := by
  intro s d a b p f harm hd w q hq
  simp only [List.mem_cons, List.not_mem_nil, or_false] at hq
  rcases hq with rfl | rfl | rfl | rfl | rfl | rfl | rfl | rfl | rfl | rfl
  all_goals exact integer_of_elemBody harm hd rfl

/-! ### The moves, selects, packs and unpacks (R131, R133) -/

section
variable {s : State} {i : Instr} {d : BitVec 5} {p : BitVec 3}

/-- The context that a move leaves with its lanes r in register n. -/
def Ctx.moved (k : Ctx) (i : Instr) (n : Nat) (r : VReg) : Ctx := ((k.push (k.newEntry i 0)).setV n r).doneEntry k.nextSeq

section
variable (k : Ctx) (i : Instr) {n : Nat} (r : VReg) (len : Nat)

theorem Ctx.moved_sameButV : SameButV n k ((k.moved i n r).retired len) := by
  refine ⟨?_, fun j hj => Ctx.vreg_setV_ne hj⟩
  unfold SameButFlow
  rfl

theorem Ctx.moved_vreg (hn : n < 22) : ((k.moved i n r).retired len).vreg n = r := Ctx.vreg_setV hn

theorem Ctx.moved_fpflags : ((k.moved i n r).retired len).fpflags = k.fpflags := rfl

theorem Ctx.moved_rng : ((k.moved i n r).retired len).rng = k.rng := rfl

end

/-- The lanes that a move leaves in its destination, from the lanes v (R131). -/
def Ctx.movedLanes (k : Ctx) (d : BitVec 5) (p : BitVec 3) (v : Nat → Lane) : VReg :=
  (mapLanes (k.pred p) (k.vreg d.toNat) (fun j c => (v j, c)) ⟨0, k.rng⟩).1

theorem Ctx.lane_movedLanes (k : Ctx) (v : Nat → Lane) {j : Nat} (hj : j < 64) :
    lane (k.movedLanes d p v) j = if (k.pred p).getLsbD j then v j else lane (k.vreg d.toNat) j := by
  obtain ⟨c, h⟩ := lane_mapLanes (act := k.pred p) (g := fun j c => (v j, c)) (k.vreg d.toNat) ⟨0, k.rng⟩ hj
  exact h

theorem State.issueV_moveBody (harm : s.me.stepArm = false) (src : Ctx → Vector Word 16 → Nat → Lane) :
    s.issueV i 2 (moveBody d p src) =
      s.setMe ((s.me.moved i d.toNat (s.me.movedLanes d p (src (s.me.push (s.me.newEntry i 0)) s.me.x))).retired 2) := by
  refine State.issueV_of_setCtx harm ?_
  unfold moveBody
  rw [State.ctx_withEntry]
  rfl

/-- An instruction that moves lanes writes each active lane, and leaves flags and generator (R131). -/
theorem moves_of_moveBody (harm : s.me.stepArm = false) (hd : d.toNat < 22) {src : Ctx → Vector Word 16 → Nat → Lane}
    {v : Nat → Lane}
    (hexec : exec i s = .next (s.issueV i 2 (moveBody d p src))) (hv : src (s.me.push (s.me.newEntry i 0)) s.me.x = v) :
    ∃ t, exec i s = .next t ∧ OnlyMe s t ∧ SameBytes s t ∧ SameButV d.toNat s.me t.me ∧ t.me.fpflags = s.me.fpflags
      ∧ t.me.rng = s.me.rng
      ∧ ∀ j < 64, lane (t.me.vreg d.toNat) j = if (s.me.pred p).getLsbD j then v j else lane (s.me.vreg d.toNat) j := by
  rw [State.issueV_moveBody harm, hv] at hexec
  refine ⟨_, hexec, onlyMe_setMe .., sameBytes_setMe .., ?_⟩
  rw [State.me_setMe, Ctx.moved_vreg _ _ _ _ hd]
  exact ⟨Ctx.moved_sameButV .., Ctx.moved_fpflags .., Ctx.moved_rng .., fun j hj => s.me.lane_movedLanes v hj⟩

end

/-- Settles O29: each instruction moves lanes; VSEL moves every lane, since p0 reads as all ones. -/
theorem vectorMoves : Obligations.VectorMoves := by
  intro s d a b l p f harm hd act va vb w fa fb q hq
  simp only [List.mem_cons, List.not_mem_nil, or_false] at hq
  rcases hq with rfl | rfl | rfl | rfl | rfl | rfl
  case inr.inr.inr.inl => -- VSEL
    exact moves_of_moveBody (p := 0) harm hd rfl rfl
  all_goals exact moves_of_moveBody (p := p) harm hd rfl rfl

end Sys2Proof.Machine
end

section
/-! The elementwise FP instructions, with their flags, their draws and their ring entries (O30). -/

namespace Sys2Proof.Machine

/-! ### The elementwise FP instructions (R107, R111, R112, R127) -/

section
variable {s : State} {i : Instr} {len n : Nat} {body : VBody}

theorem Ctx.computed_ring (hnext : NextFree s) (r : VReg) (a : Acc) : ((s.me.computed i n r a).retired len).ring =
    s.me.ring ++ [(s.me.newEntry i 0).ended (raiseIn s.me.fpflags a.flags) a.flags] := by
  have hpush := Ctx.setEntry_push (k := s.me) (e := s.me.newEntry i 0) hnext (·.ended (raiseIn s.me.fpflags a.flags) a.flags)
  rw [Ctx.computed, Ctx.flagEntry_eq]
  exact congrArg Ctx.ring hpush

/-- The entry of an arithmetic instruction has the cause of its flags, and is complete without one (R112). -/
theorem RingEntry.ended_cause {e : RingEntry} (hcause : e.cause = 0) (w : BitVec 14) (f : Flags) :
    (e.ended w f).cause.toNat = flagCause w f ∧ (e.ended w f).st = (if (e.ended w f).cause = 0 then .done else .faulted) := by
  have hlt : flagCause w f < 256 := by
    simp only [flagCause]
    split
    · decide
    · split <;> decide
  unfold RingEntry.ended
  split
  · next h => simp [hcause, h]
  · next h =>
    have hne : BitVec.ofNat 8 (flagCause w f) ≠ 0 := fun h0 => h (by simpa [Nat.mod_eq_of_lt hlt] using congrArg BitVec.toNat h0)
    exact ⟨Nat.mod_eq_of_lt hlt, (if_neg hne).symm⟩

theorem RingEntry.ended_instr (e : RingEntry) (w : BitVec 14) (f : Flags) : (e.ended w f).instr = e.instr := by
  unfold RingEntry.ended
  split <;> rfl

/-- An instruction puts r into vector register n with the flags and the generator of a, its ring entry is complete or faulted with
everything done, and nothing else changes but the flow of control. -/
def ComputesEntry (s : State) (i : Instr) (n : Nat) (r : VReg) (a : Acc) : Prop :=
  ∃ t, exec i s = .next t ∧ OnlyMe s t ∧ SameBytes s t ∧ SameButV n s.me t.me ∧ t.me.vreg n = r
    ∧ t.me.fpflags = raiseIn s.me.fpflags a.flags ∧ t.me.rng = a.rng
    ∧ ∃ e, t.me.ring = s.me.ring ++ [e] ∧ e.instr = i ∧ e.finished = true
        ∧ e.cause.toNat = flagCause (raiseIn s.me.fpflags a.flags) a.flags ∧ e.st = (if e.cause = 0 then .done else .faulted)

theorem computesEntry_of_finishFlags {r : VReg} {a : Acc} (harm : s.me.stepArm = false) (hn : n < 22) (hnext : NextFree s)
    (hexec : exec i s = .next (s.issueV i len body))
    (h : body (s.withEntry i) s.cur.1 s.cur.2 (s.me.newEntry i 0) =
      finishFlags (s.withEntry i) s.cur.1 s.cur.2 (s.me.newEntry i 0) ((s.me.push (s.me.newEntry i 0)).setV n r) a) :
    ComputesEntry s i n r a := by
  refine ⟨_, hexec.trans (congrArg _ (State.issueV_of_finishFlags harm h)), onlyMe_setMe .., sameBytes_setMe .., ?_⟩
  rw [State.me_setMe]
  obtain ⟨hreg, hflags, hrng⟩ := s.me.computed_results i hn r a len
  exact ⟨s.me.computed_sameButV .., hreg, hflags, hrng, _, Ctx.computed_ring hnext r a, RingEntry.ended_instr ..,
    RingEntry.ended_finished .., RingEntry.ended_cause rfl _ _⟩

end

section
variable {s : State} {i : Instr} {len n : Nat} {d : BitVec 5} {a b : BitVec 6} {p f : BitVec 3}

/-- The lanes that an elementwise FP instruction of n operands leaves in its destination, with flags and draws; the exact result of
each active element is rounded once under RNDMODE, and the third operand stands in vc (R107, R127). -/
def Ctx.fpLanes (k : Ctx) (f : Fmt) (d : BitVec 5) (a b : BitVec 6) (vc : VReg) (p : BitVec 3) (n : Nat)
    (op : Bool → Val → Val → Val → Exact) : VReg × Acc :=
  let m := RMode.ofReg k.rnd
  mapLanes (k.pred p) (k.vreg d.toNat) (fun i acc => laneOf f (fun j acc =>
    let x := elem f (lane (srcLanes k k.x a f) i) j
    let y := elem f (lane (srcLanes k k.x b f) i) j
    let z := elem f (lane vc i) j
    (acc.raise (sigFlag f ([x, y, z].take n))).round f m (op (m == .rdn) (value f x) (value f y) (value f z))) acc) ⟨0, k.rng⟩

/-- The third operand of an elementwise FP instruction: the destination's old value, unless a specifier is given (R127). -/
def Ctx.third (k : Ctx) (f : Fmt) (d : BitVec 5) : Option (BitVec 6) → VReg
  | some r => srcLanes k k.x r f
  | none => k.vreg d.toNat

theorem fpBody_withEntry (c : Option (BitVec 6)) (op : Bool → Val → Val → Val → Exact) :
    fpBody f d a b c p n op (s.withEntry i) s.cur.1 s.cur.2 (s.me.newEntry i 0) =
      finishFlags (s.withEntry i) s.cur.1 s.cur.2 (s.me.newEntry i 0)
        ((s.me.push (s.me.newEntry i 0)).setV d.toNat (s.me.fpLanes f d a b (s.me.third f d c) p n op).1)
        (s.me.fpLanes f d a b (s.me.third f d c) p n op).2 := by
  unfold fpBody
  rw [State.ctx_withEntry]
  cases c <;> rfl

variable (harm : s.me.stepArm = false) (hd : d.toNat < 22) (hnext : NextFree s)
include harm hd hnext

theorem computesEntry_fpBody {c : Option (BitVec 6)} {op : Bool → Val → Val → Val → Exact} {q : VReg × Acc}
    (hexec : exec i s = .next (s.issueV i len (fpBody f d a b c p n op))) (hq : s.me.fpLanes f d a b (s.me.third f d c) p n op = q) :
    ComputesEntry s i d.toNat q.1 q.2 :=
  hq ▸ computesEntry_of_finishFlags harm hd hnext hexec (fpBody_withEntry c op)

theorem computesEntry_elemBody {op : Nat → Nat → Rounded} (hexec : exec i s = .next (s.issueV i len (elemBody f d a b p op))) :
    ComputesEntry s i d.toNat (s.me.elemLanes f d a b p op).1 (s.me.elemLanes f d a b p op).2 :=
  computesEntry_of_finishFlags harm hd hnext hexec (elemBody_withEntry op)

end

/-- Settles O30: every instruction is fpBody with its exact operation, and VMIN and VMAX are an elementwise selection. -/
theorem vectorFloat : Obligations.VectorFloat := by
  intro s d a b c p f harm hd hnext m src act old lanes fp pick down does
  refine ⟨?_, ?_, ?_, ?_, ?_, ?_, ?_, ?_, ?_, computesEntry_elemBody harm hd hnext rfl, computesEntry_elemBody harm hd hnext rfl⟩
  all_goals exact computesEntry_fpBody harm hd hnext rfl rfl

end Sys2Proof.Machine
end

section
/-! The comparisons of elements into a predicate (O31). -/

namespace Sys2Proof.Machine

/-! ### The bits of a predicate (R122, R130) -/

theorem testBit_foldr_bits (g : Nat → Bool) (n i : Nat) :
    ((List.range n).foldr (fun i w => w * 2 + bitOf (g i)) 0).testBit i = (decide (i < n) && g i) := by
  induction n generalizing g i with
  | zero => simp
  | succ n ih =>
    have hlow : ∀ w, (w * 2 + bitOf (g 0)) % 2 = bitOf (g 0) ∧ (w * 2 + bitOf (g 0)) / 2 = w := fun w => by
      rw [bitOf]
      split <;> omega
    rw [List.range_succ_eq_map, List.foldr_cons, List.foldr_map]
    cases i with
    | zero =>
      rw [Nat.testBit_zero, (hlow _).1]
      cases g 0 <;> rfl
    | succ i =>
      rw [Nat.testBit_succ, (hlow _).2, ih fun j => g (j + 1)]
      simp

theorem getLsbD_predOf (g : Nat → Bool) {i : Nat} (hi : i < 64) : (predOf g).getLsbD i = g i := by
  rw [predOf, BitVec.getLsbD_ofNat, testBit_foldr_bits]
  simp [hi]

section
variable (k : Ctx) (w : BitVec 64) {n m : BitVec 3}

theorem Ctx.pred_zero : k.pred 0 = BitVec.allOnes 64 := rfl

theorem Ctx.setP_zero : k.setP 0 w = k := rfl

theorem Ctx.pred_setP (h : n ≠ 0) : (k.setP n w).pred n = w := by
  rw [Ctx.setP, if_neg h, Ctx.pred, if_neg h]
  exact Vector.getElem_set_self _

theorem Ctx.pred_setP_ne (h : m ≠ n) : (k.setP n w).pred m = k.pred m := by
  have hnm : n.toNat ≠ m.toNat := fun e => h (BitVec.eq_of_toNat_eq e.symm)
  unfold Ctx.setP Ctx.pred
  split
  · rfl
  · split
    · rfl
    · exact Vector.getElem_set_ne n.isLt m.isLt hnm

end

/-! ### Comparisons of integers (R130) -/

theorem Val.lt_int (v w : Int) : (Val.int v).lt (Val.int w) = decide (v < w) := by
  have hval : ∀ x : Int, (if decide (x < 0) then -((x.natAbs * 1 : Nat) : Int) else (x.natAbs * 1 : Nat)) = x := fun x => by
    by_cases h : x < 0
    · rw [if_pos (decide_eq_true h)]
      omega
    · rw [if_neg (by simpa using h)]
      omega
  simp only [Val.int, Val.lt, hval]

theorem Val.eqv_int (v w : Int) : (Val.int v).eqv (Val.int w) = decide (v = w) := by
  have hnum : ∀ x : Int, (Val.int x != .nan) = true := fun x => rfl
  rw [Val.eqv, hnum, hnum, Val.lt_int, Val.lt_int, Bool.true_and, Bool.true_and, ← decide_not, ← decide_not, ← Bool.decide_and]
  exact decide_eq_decide.2 (by omega)

theorem value_int {f : Fmt} (h : fmtIsInt f = true) (x : Nat) : value f x = Val.int (toSigned (fmtWidth f) x) := if_pos h

theorem cmpElem_int {f : Fmt} (h : fmtIsInt f = true) (x y : Nat) :
    let sg := toSigned (fmtWidth f)
    (cmpElem f .eq x y).1 = decide (sg x = sg y) ∧ (cmpElem f .ne x y).1 = decide (sg x ≠ sg y)
    ∧ (cmpElem f .lt x y).1 = decide (sg x < sg y) ∧ (cmpElem f .le x y).1 = decide (sg x ≤ sg y)
    ∧ (cmpElem f .gt x y).1 = decide (sg y < sg x) ∧ (cmpElem f .ge x y).1 = decide (sg y ≤ sg x) := by
  have hnot : ∀ v w : Int, (!decide (v < w)) = decide (w ≤ v) := fun v w => by
    rw [← decide_not]
    exact decide_eq_decide.2 not_lt
  simp only [cmpElem, h, value_int h, Val.lt_int, Val.eqv_int, hnot, Bool.not_true, Bool.false_and, Bool.not_false, Bool.true_and,
    Bool.false_or, ← decide_not, and_self]

/-! ### VCMP (R130) -/

section
variable {s : State} {i : Instr} {d : BitVec 5} {a b : BitVec 6} {p f : BitVec 3} {cc : Cmp}

/-- The predicate that a comparison writes (R130). -/
def Ctx.compared (k : Ctx) (cc : Cmp) (f : Fmt) (a b : BitVec 6) (p : BitVec 3) : BitVec 64 := predOf fun i =>
  (k.pred p).getLsbD i && (List.range (elemsPerLane f)).all fun j =>
    (cmpElem f cc (elem f (lane (srcLanes k k.x a f) i) j) (elem f (lane (srcLanes k k.x b f) i) j)).1

theorem Ctx.getLsbD_compared (k : Ctx) {n : Nat} (hn : n < 64) :
    let src := fun (r : BitVec 6) j => elem f (lane (srcLanes k k.x r f) n) j
    (k.compared cc f a b p).getLsbD n = true ↔
      (k.pred p).getLsbD n = true ∧ ∀ j < elemsPerLane f, (cmpElem f cc (src a j) (src b j)).1 = true := by
  rw [Ctx.compared, getLsbD_predOf _ hn]
  simp

/-- The flags that a comparison raises (R130). -/
def Ctx.compareFlags (k : Ctx) (cc : Cmp) (f : Fmt) (a b : BitVec 6) (p : BitVec 3) : Flags :=
  (activeLanes (k.pred p)).foldr (fun i z => (List.range (elemsPerLane f)).foldr (fun j z =>
    z ||| (cmpElem f cc (elem f (lane (srcLanes k k.x a f) i) j) (elem f (lane (srcLanes k k.x b f) i) j)).2) z) 0

/-- The context that a comparison leaves with w in predicate n and the flags fl raised. -/
def Ctx.comparing (k : Ctx) (i : Instr) (n : BitVec 3) (w : BitVec 64) (fl : Flags) : Ctx :=
  let l := (k.push (k.newEntry i 0)).setP n w
  Ctx.flagEntry { l with fpflags := raiseIn l.fpflags fl, rng := k.rng } k.nextSeq fl

theorem Ctx.comparing_frame (k : Ctx) (i : Instr) (n : BitVec 3) (w : BitVec 64) (fl : Flags) (len : Nat) :
    ((k.comparing i n w fl).retired len).x = k.x ∧ ((k.comparing i n w fl).retired len).v = k.v
    ∧ ((k.comparing i n w fl).retired len).pred = (k.setP n w).pred ∧ (k.comparing i n w fl).stepArm = k.stepArm := by
  rw [Ctx.comparing, Ctx.flagEntry_eq, Ctx.setP, Ctx.setP]
  split <;> exact ⟨rfl, rfl, rfl, rfl⟩

theorem State.issueV_cmpBody (harm : s.me.stepArm = false) : s.issueV i 2 (cmpBody cc f d a b p) =
    s.setMe ((s.me.comparing i (d.setWidth 3) (s.me.compared cc f a b p) (s.me.compareFlags cc f a b p)).retired 2) := by
  obtain ⟨-, -, -, hstep⟩ := s.me.comparing_frame i (d.setWidth 3) (s.me.compared cc f a b p) (s.me.compareFlags cc f a b p) 2
  refine State.issueV_of_setCtx (hstep.trans harm) ?_
  unfold cmpBody
  rw [State.ctx_withEntry]
  rfl

/-- A comparison writes its predicate, and no other register and no byte (R130). -/
theorem compares_of_cmpBody (harm : s.me.stepArm = false) (hd : (d.setWidth 3 : BitVec 3) ≠ 0)
    (hexec : exec i s = .next (s.issueV i 2 (cmpBody cc f d a b p))) :
    let src := fun (r : BitVec 6) i j => elem f (lane (srcLanes s.me s.me.x r f) i) j
    ∃ t, exec i s = .next t ∧ OnlyMe s t ∧ SameBytes s t ∧ t.me.x = s.me.x ∧ t.me.v = s.me.v
      ∧ (∀ n : BitVec 3, n ≠ d.setWidth 3 → t.me.pred n = s.me.pred n)
      ∧ ∀ n < 64, (t.me.pred (d.setWidth 3)).getLsbD n = true ↔
          (s.me.pred p).getLsbD n = true ∧ ∀ j < elemsPerLane f, (cmpElem f cc (src a n j) (src b n j)).1 = true := by
  intro src
  obtain ⟨hx, hv, hpred, -⟩ := s.me.comparing_frame i (d.setWidth 3) (s.me.compared cc f a b p) (s.me.compareFlags cc f a b p) 2
  rw [State.issueV_cmpBody harm] at hexec
  refine ⟨_, hexec, onlyMe_setMe .., sameBytes_setMe .., ?_⟩
  rw [State.me_setMe, hpred, Ctx.pred_setP _ _ hd]
  exact ⟨hx, hv, fun n hn => s.me.pred_setP_ne _ hn, fun n hn => s.me.getLsbD_compared hn⟩

end

/-- Settles O31: the predicate is a test of each lane, and a comparison of integers is that of exact values. -/
theorem vectorCompare : Obligations.VectorCompare := by
  refine ⟨fun s d a b p f harm hd q hq => ?_, fun f x y h => cmpElem_int h x y, fun k w n m =>
    ⟨Ctx.pred_zero k, Ctx.setP_zero k w, k.pred_setP w, k.pred_setP_ne w⟩⟩
  simp only [List.mem_cons, List.not_mem_nil, or_false] at hq
  rcases hq with rfl | rfl | rfl | rfl | rfl | rfl
  all_goals exact compares_of_cmpBody harm hd rfl

end Sys2Proof.Machine
end

section
/-! Waiting for commands, the matrix status, tensor-map descriptors and table images (O49). -/

namespace Sys2Proof.Machine

/-! ### Bytes of a memory and of a list -/

theorem Memory.length_bytes (m : Memory) (a n : Nat) : (m.bytes a n).length = n := by
  induction n generalizing a with
  | zero => rfl
  | succ n ih => rw [Memory.bytes, List.length_cons, ih]

theorem Memory.getD_bytes (m : Memory) (a : Nat) {n j : Nat} (hj : j < n) : (m.bytes a n).getD j 0 = m.get (a + j) := by
  induction n generalizing a j with
  | zero => exact absurd hj j.not_lt_zero
  | succ n ih =>
    cases j with
    | zero => rfl
    | succ j => rw [Memory.bytes, List.getD_cons_succ, ih (a + 1) (Nat.lt_of_succ_lt_succ hj), Nat.add_right_comm, Nat.add_assoc]

section
variable {f : Nat → List Byte} {k : Nat} (hf : ∀ i, (f i).length = k)
include hf

theorem length_flatMap_blocks (n : Nat) : ((List.range n).flatMap f).length = k * n := by
  simp [List.length_flatMap, hf, Nat.mul_comm]

/-- Byte j of blocks of k bytes side by side is byte j % k of block j / k. -/
theorem getD_flatMap_blocks {n j : Nat} (hj : j < k * n) : ((List.range n).flatMap f).getD j 0 = (f (j / k)).getD (j % k) 0 := by
  induction n with
  | zero => exact absurd hj (Nat.not_lt_zero j)
  | succ n ih =>
    rw [List.range_succ, List.flatMap_append, List.flatMap_singleton]
    by_cases hlow : j < k * n
    · rw [List.getD_append _ _ _ _ (by rwa [length_flatMap_blocks hf]), ih hlow]
    · obtain ⟨r, rfl⟩ := Nat.exists_eq_add_of_le (Nat.not_lt.1 hlow)
      have hr : r < k := by
        rw [Nat.mul_succ] at hj
        omega
      rw [List.getD_append_right _ _ _ _ (by rw [length_flatMap_blocks hf]; omega), length_flatMap_blocks hf, Nat.add_sub_cancel_left,
        Nat.mul_add_div (by omega), Nat.mul_add_mod, Nat.div_eq_of_lt hr, Nat.mod_eq_of_lt hr, Nat.add_zero]

end

/-! ### EQWAIT and MSTAT (R277, R302) -/

section
variable {s : State}

theorem exec_eqwait_empty {q : BitVec 2} (h : (s.work s.cur.1).queue (queueOf q) = []) : exec (.eqwait q) s = .next (s.retire 2) := by
  show execEqwait q s = _
  simp only [execEqwait, h]
  rfl

theorem holds_eqwait {q : BitVec 2} (h : (s.work s.cur.1).queue (queueOf q) ≠ []) : Holds (.eqwait q) s
    (.waiting (.commands (queueOf q) (((s.work s.cur.1).queue (queueOf q)).map fun m => m.id))) := by
  show execEqwait q s = _
  simp only [execEqwait, List.isEmpty_iff, if_neg h]

/-- The commands of qm that the executing context has issued (R302). -/
def State.ownMatrix (s : State) : List Cmd := ((s.work s.cur.1).queue .qm).filter fun m => m.attached && m.c == s.cur.2

theorem exec_mstat {a : XReg} (h : s.ownMatrix = []) : exec (.mstat a) s =
    .next (writeX (s.setWork s.cur.1 { s.work s.cur.1 with matrix := { (s.work s.cur.1).matrix with flags := 0 } }) 2 a
      (s.work s.cur.1).matrixStatus) := by
  rw [State.ownMatrix] at h
  show execMstat a s = _
  simp only [execMstat, h]
  rfl

theorem holds_mstat {a : XReg} (h : s.ownMatrix ≠ []) : Holds (.mstat a) s (.waiting (.matrix (s.ownMatrix.map fun m => m.id))) := by
  rw [State.ownMatrix] at h
  show execMstat a s = _
  simp only [execMstat, List.isEmpty_iff, if_neg h]
  rfl

end

/-! ### TMAPSET (R278, R279) -/

theorem State.trapAll_singleton (s : State) (c : Nat) (a : Word) : s.trapAll [(c, a)] = s.trap c a := by
  simp [State.trapAll, lowestCause, State.trap, State.trapInfo]

theorem State.trapWith_none (s : State) (cs : List (Nat × Word)) (x : Word) : s.trapWith cs none x = s.trapAll cs := by
  cases cs <;> rfl

theorem State.trapWith_some (s : State) {cs : List (Nat × Word)} (h : cs ≠ []) (n : Nat) (x : Word) :
    s.trapWith cs (some n) x = (s.pull s.cur.1 n).trapAll (cs ++ [(0x08, x)]) := by
  cases cs with
  | nil => exact absurd rfl h
  | cons c cs => rfl

theorem length_tmapBytes {bs : List Byte} (h : bs.length = 64) : (tmapBytes bs).length = 64 := by
  simp [tmapBytes, h]

/-- A byte of a descriptor as the table keeps it, with the reserved bits 0 (R5, R278). -/
theorem getD_tmapBytes {bs : List Byte} (h : bs.length = 64) (j : Nat) : (tmapBytes bs).getD j 0 =
    if j < 46 ∨ j = 48 then bs.getD j 0 else if j = 46 then bs.getD j 0 &&& 3 else if j = 47 then bs.getD j 0 &&& 1 else 0 := by
  have hlen : (bs.take 46).length = 46 := by simp [h]
  rw [tmapBytes, List.append_assoc]
  by_cases hlow : j < 46
  · rw [if_pos (.inl hlow), List.getD_append _ _ _ _ (by omega)]
    simp [List.getD_eq_getElem?_getD, hlow]
  · obtain ⟨k, rfl⟩ := Nat.exists_eq_add_of_le (Nat.not_lt.1 hlow)
    rw [List.getD_append_right _ _ _ _ (by omega), hlen, Nat.add_sub_cancel_left]
    match k with
    | 0 => rfl
    | 1 => rfl
    | 2 => rfl
    | k + 3 =>
      rw [if_neg (by omega), if_neg (by omega), if_neg (by omega)]
      exact List.getElem?_getD_replicate_default_eq ..

theorem State.tmapCauses_eq_nil_iff (s : State) (g : Nat) (sup : Bool) (x : Word) : s.tmapCauses g sup x = [] ↔
    x.toNat % 16 = 0 ∧ x.getLsbD 23 = false ∧ ∃ l, s.imageAccess g sup (x &&& ~~~15) 4 0 = .ok l := by
  rw [State.tmapCauses, List.append_eq_nil_iff]
  refine and_congr (by simp) ?_
  cases x.getLsbD 23 with
  | true => simp
  | false => cases s.imageAccess g sup (x &&& ~~~15) 4 0 <;> simp

theorem State.mem_tmapCauses_of_misaligned (s : State) (g : Nat) (sup : Bool) {x : Word} (h : x.toNat % 16 ≠ 0) :
    (0x06, x) ∈ s.tmapCauses g sup x := by
  rw [State.tmapCauses, if_pos h]
  exact List.mem_append_left _ (List.mem_singleton_self _)

section
variable {s : State} {a : XReg} {i : BitVec 6} (hspec : s.speculative s.cur.1 s.cur.2 = false)

/-- The bytes of the descriptor that a TMAPSET names (R279). -/
def State.descriptor (s : State) (a : XReg) : List Byte := (s.work s.cur.1).spad.bytes (field (s.x a) 0 19) 64

theorem State.length_descriptor (s : State) (a : XReg) : (s.descriptor a).length = 64 := Memory.length_bytes ..

/-- What a TMAPSET's access to its 64 bytes matches (R217). -/
def State.descriptorHit (s : State) (a : XReg) : Option Nat := s.watchHit s.cur.1 s.cur.2 (s.x a).toNat 64 2

/-- The machine in which a TMAPSET has stored its descriptor (R279, R363). -/
def State.descriptorStored (s : State) (a : XReg) (i : BitVec 6) : State :=
  let u := s.localStore s.cur.1 (tmapAt i.toNat) (tmapBytes (s.descriptor a))
  let bad := if (s.work s.cur.1).poisonedAt (field (s.x a) 0 19) 64 then [tmapAt i.toNat / 32, tmapAt i.toNat / 32 + 1] else []
  u.setWork s.cur.1 { u.work s.cur.1 with poison := ((u.work s.cur.1).poison ++ bad).eraseDups }

include hspec

theorem exec_tmapset_refused (hcs : s.tmapCauses s.cur.1 s.me.sup (s.x a) ≠ []) : exec (.tmapset a i) s =
    .next (s.trapWith (s.tmapCauses s.cur.1 s.me.sup (s.x a)) (s.descriptorHit a) (s.x a)) := by
  show execTmapset a i s = _
  rw [execTmapset, State.whenSafe_of_not_speculative hspec]
  exact congrArg _ (if_pos (by simpa [List.isEmpty_iff] using hcs))

variable (hcs : s.tmapCauses s.cur.1 s.me.sup (s.x a) = [])
include hcs

theorem holds_tmapset (hclash : s.clashes s.cur.1 s.cur.2 [(s.cur.1, field (s.x a) 0 19, 64)] = true) :
    Holds (.tmapset a i) s (.blocked .drain) := by
  show execTmapset a i s = _
  simp only [execTmapset, State.whenSafe_of_not_speculative hspec, hcs, hclash]
  rfl

variable (hclash : s.clashes s.cur.1 s.cur.2 [(s.cur.1, field (s.x a) 0 19, 64)] = false)
include hclash

theorem traps_tmapset (hill : ¬ (readTmap (s.descriptor a)).legal = true) (hhit : s.descriptorHit a = none) :
    Traps (.tmapset a i) s 0x04 0 := by
  rw [State.descriptor] at hill
  rw [State.descriptorHit] at hhit
  rw [Traps, ← State.trapAll_singleton]
  show execTmapset a i s = _
  simp only [execTmapset, State.whenSafe_of_not_speculative hspec, hcs, hclash, if_neg hill, hhit]
  rfl

theorem exec_tmapset_watched (hlegal : (readTmap (s.descriptor a)).legal = true) {n : Nat} (hhit : s.descriptorHit a = some n) :
    exec (.tmapset a i) s = .next (s.watchTrap 0x08 n (s.x a)) := by
  rw [State.descriptor] at hlegal
  rw [State.descriptorHit] at hhit
  show execTmapset a i s = _
  simp only [execTmapset, State.whenSafe_of_not_speculative hspec, hcs, hclash, if_pos hlegal, hhit]
  rfl

theorem exec_tmapset (hlegal : (readTmap (s.descriptor a)).legal = true) (hhit : s.descriptorHit a = none) :
    exec (.tmapset a i) s = .next ((s.descriptorStored a i).retire 2) := by
  rw [State.descriptor] at hlegal
  rw [State.descriptorHit] at hhit
  show execTmapset a i s = _
  simp only [execTmapset, State.whenSafe_of_not_speculative hspec, hcs, hclash, if_pos hlegal, hhit]
  rfl

end

/-- A change of a core's work that leaves its contexts leaves the executing context. -/
theorem State.me_setWork (s : State) (g : Nat) {w : Work} (h : w.ctxs = (s.work g).ctxs) : (s.setWork g w).me = s.me := by
  rw [State.me, State.ctx_setWork, h]
  split
  · next hg => exact congrArg (fun n => s.ctx n s.cur.2) (Eq.symm hg)
  · rfl

/-- TMAPSET changes the entry alone, and the context retires (R279). -/
theorem State.descriptorStored_frame {s : State} (a : XReg) (i : BitVec 6) (hok : SpadsOk s) (harm : s.me.stepArm = false) :
    ((s.descriptorStored a i).retire 2).me = (s.retire 2).me
    ∧ ∀ n, (((s.descriptorStored a i).retire 2).work s.cur.1).spad.get n =
        if tmapAt i.toNat ≤ n ∧ n < tmapAt i.toNat + 64 then (tmapBytes (s.descriptor a)).getD (n - tmapAt i.toNat) 0
        else (s.work s.cur.1).spad.get n := by
  have hstore : (s.localStore s.cur.1 (tmapAt i.toNat) (tmapBytes (s.descriptor a))).me = s.me := State.me_setWork _ _ (by rfl)
  have hme : (s.descriptorStored a i).me = s.me := (State.me_setWork _ _ (by rfl)).trans hstore
  have hretire : (s.descriptorStored a i).retire 2 = (s.descriptorStored a i).setMe (s.me.retired 2) := by
    rw [State.retire_eq _ _ (by rwa [hme]), hme]
    rfl
  rw [hretire, State.me_setMe, State.retire_eq s 2 harm, State.me_setMe, State.spad_setMe]
  refine ⟨rfl, fun n => ?_⟩
  have hspad : ((s.descriptorStored a i).work s.cur.1).spad =
      (s.work s.cur.1).spad.store (tmapAt i.toNat) (tmapBytes (s.descriptor a)) := by
    simp only [State.descriptorStored, State.localStore, State.work_setWork, if_true]
  have hlen : (tmapBytes (s.descriptor a)).length = 64 := length_tmapBytes (s.length_descriptor a)
  rw [hspad, Memory.get_store _ _ _ (hok _), hlen]

/-! ### TBLLD (R136, R149) -/

section
variable (s : State) (g c h : Nat) (k : Ctx) (a : Word)

theorem State.localTarget_setCtx : (s.setCtx g c k).localTarget h a = s.localTarget h a := by
  have htag : ∀ j, (s.setCtx g c k).tag j = s.tag j := fun j => State.tag_setWork ..
  simp only [State.localTarget, State.dbg_setCtx, htag]
  rfl

theorem State.blockBytes_setCtx : (s.setCtx g c k).blockBytes h a = s.blockBytes h a := by
  simp only [State.blockBytes, State.localTarget_setCtx, State.spad_setCtx]

theorem State.imageAccess_setCtx (sup : Bool) (n i : Nat) : (s.setCtx g c k).imageAccess h sup a n i = s.imageAccess h sup a n i := by
  induction n generalizing i with
  | zero => rfl
  | succ n ih => simp only [State.imageAccess, State.localAccess_setCtx, ih]

theorem State.watchHit_withEntry (i : Instr) (at_ n : Nat) (kinds : BitVec 3) :
    (s.withEntry i).watchHit s.cur.1 s.cur.2 at_ n kinds = s.watchHit s.cur.1 s.cur.2 at_ n kinds := by
  have hdbg : ((s.withEntry i).core s.cur.1).dbg = (s.core s.cur.1).dbg := State.dbg_setCtx ..
  simp only [State.watchHit, State.ctx_withEntry, hdbg, Ctx.push_sup, Ctx.push_watchOff]
  rfl

theorem State.length_blockBytes : (s.blockBytes g a).length = 16 := by
  unfold State.blockBytes
  split
  · exact Memory.length_bytes ..
  · exact List.length_replicate

theorem State.getD_blockBytes {off j : Nat} (htarget : s.localTarget g a = some (h, off)) (hj : j < 16) :
    (s.blockBytes g a).getD j 0 = (s.work h).spad.get (off + j) := by
  simp only [State.blockBytes, htarget, Memory.getD_bytes _ _ hj]

/-- The bytes of the image of a table: the header with its unused bytes 0, and the entries (R136, R149). -/
def State.tableImage : List Byte := (s.blockBytes g a).take 5 ++ List.replicate 11 0
  ++ (List.range 64).flatMap fun i => s.blockBytes g (a + BitVec.ofNat 64 (16 * (i + 1)))

theorem State.length_tableImage : (s.tableImage g a).length = 1040 := by
  have hentries := length_flatMap_blocks (fun i => s.length_blockBytes g (a + BitVec.ofNat 64 (16 * (i + 1)))) 64
  simp [State.tableImage, hentries, State.length_blockBytes]

/-- Each block of the image comes from the core it lies in (R141, R149). -/
theorem State.getD_tableImage {n off : Nat} (hn : n < 1040)
    (htarget : s.localTarget g (a + BitVec.ofNat 64 (16 * (n / 16))) = some (h, off)) :
    (s.tableImage g a).getD n 0 = if 5 ≤ n ∧ n < 16 then 0 else (s.work h).spad.get (off + n % 16) := by
  have hhead : ((s.blockBytes g a).take 5 ++ List.replicate 11 0).length = 16 := by simp [State.length_blockBytes]
  have hpart := s.getD_blockBytes g h _ htarget (Nat.mod_lt n (by decide))
  rw [State.tableImage]
  by_cases hlow : n < 16
  · have hfive : ((s.blockBytes g a).take 5).length = 5 := by simp [State.length_blockBytes]
    rw [Nat.div_eq_of_lt hlow, Nat.mod_eq_of_lt hlow, Nat.mul_zero, BitVec.add_zero] at hpart
    rw [List.getD_append _ _ _ _ (by omega), Nat.mod_eq_of_lt hlow, ← hpart]
    by_cases h5 : n < 5
    · rw [if_neg (by omega), List.getD_append _ _ _ _ (by omega)]
      simp [List.getD_eq_getElem?_getD, h5]
    · rw [if_pos ⟨by omega, hlow⟩, List.getD_append_right _ _ _ _ (by omega)]
      exact List.getElem?_getD_replicate_default_eq ..
  · obtain ⟨k, rfl⟩ := Nat.exists_eq_add_of_le (Nat.not_lt.1 hlow)
    rw [if_neg (by omega), ← hpart, List.getD_append_right _ _ _ _ (by omega), hhead, Nat.add_sub_cancel_left,
      getD_flatMap_blocks (fun i => s.length_blockBytes g _) (by omega), Nat.add_mod_left, Nat.add_div_left _ (by decide)]

end

section
variable {s : State} {t : BitVec 5} {a : BitVec 6} (hspec : s.speculative s.cur.1 s.cur.2 = false)
include hspec

theorem traps_tblld (hal : (baseReg s.me.x a).toNat % 16 ≠ 0) : Traps (.tblld t a) s 0x06 (baseReg s.me.x a) := by
  show execTblld t a s = _
  rw [execTblld, State.whenSafe_of_not_speculative hspec, if_pos hal]

variable (hal : (baseReg s.me.x a).toNat % 16 = 0)
include hal

theorem holds_tblld (hclash : s.clashes s.cur.1 s.cur.2 (s.blockSpans s.cur.1 (baseReg s.me.x a) 65) = true) :
    Holds (.tblld t a) s (.blocked .drain) := by
  show execTblld t a s = _
  rw [execTblld, State.whenSafe_of_not_speculative hspec, if_neg (not_not.2 hal), if_pos hclash]

theorem exec_tblld (hclash : s.clashes s.cur.1 s.cur.2 (s.blockSpans s.cur.1 (baseReg s.me.x a) 65) = false) :
    exec (.tblld t a) s = .next (s.issueV (.tblld t a) 2 (bodyTblld t a)) := by
  show execTblld t a s = _
  rw [execTblld, State.whenSafe_of_not_speculative hspec, if_neg (not_not.2 hal), if_neg (Bool.eq_false_iff.1 hclash)]

end

/-- The machine in which TBLLD has put an image into its table (R149). -/
def State.tableLoaded (s : State) (t : BitVec 5) (img : List Byte) : State := s.setWork s.cur.1 { s.work s.cur.1 with
  tables := ((s.work s.cur.1).tables.clear (tableAt t.toNat) 1040).store (tableAt t.toNat) img }

section
variable {s : State} {t : BitVec 5} {a : BitVec 6}

theorem State.spad_tableLoaded (s : State) (t : BitVec 5) (img : List Byte) (g : Nat) :
    ((s.tableLoaded t img).work g).spad = (s.work g).spad := by
  rw [State.tableLoaded, State.work_setWork]
  split
  · next hg => rw [hg]
  · rfl

theorem State.tables_tableLoaded (s : State) (t : BitVec 5) (img : List Byte) : ((s.tableLoaded t img).work s.cur.1).tables =
    ((s.work s.cur.1).tables.clear (tableAt t.toNat) 1040).store (tableAt t.toNat) img := by
  rw [State.tableLoaded, State.work_setWork, if_pos rfl]

/-- TBLLD's entry with everything done (R209). -/
def Ctx.loadedEntry (k : Ctx) (i : Instr) : RingEntry := { k.newEntry i 0 with st := .done, finished := true }

theorem bodyTblld_withEntry (i : Instr) (hnext : NextFree s) (himage : s.imageAccess s.cur.1 s.me.sup (baseReg s.me.x a) 65 0 = .ok ())
    (hhit : s.watchHit s.cur.1 s.cur.2 (baseReg s.me.x a).toNat 1040 2 = none) :
    bodyTblld t a (s.withEntry i) s.cur.1 s.cur.2 (s.me.newEntry i 0) =
      ((s.withEntry i).tableLoaded t (s.tableImage s.cur.1 (baseReg s.me.x a))).setMe (s.me.push (s.me.loadedEntry i)) := by
  let u := (s.withEntry i).tableLoaded t (s.tableImage s.cur.1 (baseReg s.me.x a))
  have hme : u.ctx s.cur.1 s.cur.2 = s.me.push (s.me.newEntry i 0) :=
    (State.me_setWork (s.withEntry i) _ (by rfl)).trans (s.ctx_withEntry i)
  have hentry : (s.me.push (s.me.newEntry i 0)).doneEntry (s.me.newEntry i 0).seq = s.me.push (s.me.loadedEntry i) :=
    Ctx.setEntry_push (e := s.me.newEntry i 0) hnext _
  have himage' : (s.withEntry i).imageAccess s.cur.1 s.me.sup (baseReg s.me.x a) 65 0 = .ok () :=
    (State.imageAccess_setCtx ..).trans himage
  have hhit' := (s.watchHit_withEntry i (baseReg s.me.x a).toNat 1040 2).trans hhit
  have hblocks : ∀ ad, (s.withEntry i).blockBytes s.cur.1 ad = s.blockBytes s.cur.1 ad := fun ad => State.blockBytes_setCtx ..
  have hxs : (s.me.newEntry i 0).xs = s.me.x := rfl
  rw [← hentry, ← hme]
  unfold bodyTblld
  rw [State.ctx_withEntry]
  simp only [hxs, Ctx.push_sup, hblocks, hhit', himage']
  rfl

/-- TBLLD changes its table alone and leaves an entry that is complete (R149). -/
theorem exec_tblld_loads (hspec : s.speculative s.cur.1 s.cur.2 = false) (hal : (baseReg s.me.x a).toNat % 16 = 0)
    (hclash : s.clashes s.cur.1 s.cur.2 (s.blockSpans s.cur.1 (baseReg s.me.x a) 65) = false) (harm : s.me.stepArm = false)
    (hnext : NextFree s) (himage : s.imageAccess s.cur.1 s.me.sup (baseReg s.me.x a) 65 0 = .ok ())
    (hhit : s.watchHit s.cur.1 s.cur.2 (baseReg s.me.x a).toNat 1040 2 = none) :
    exec (.tblld t a) s = .next (((s.withEntry (.tblld t a)).tableLoaded t (s.tableImage s.cur.1 (baseReg s.me.x a))).setMe
      ((s.me.push (s.me.loadedEntry (.tblld t a))).retired 2)) := by
  have hretire := State.retire_setMe ((s.withEntry (.tblld t a)).tableLoaded t (s.tableImage s.cur.1 (baseReg s.me.x a))) 2
    (l := s.me.push (s.me.loadedEntry (.tblld t a))) harm
  rw [exec_tblld hspec hal hclash, ← hretire, ← bodyTblld_withEntry _ hnext himage hhit]
  rfl

/-- What TBLLD leaves, with the canonical form of the tables (R149). -/
theorem State.tableLoaded_frame (s : State) (i : Instr) (t : BitVec 5) (base : Word) (l : Ctx) (hwf : (s.work s.cur.1).tables.wf = true) :
    let u := ((s.withEntry i).tableLoaded t (s.tableImage s.cur.1 base)).setMe l
    SameBytes s u ∧ ∀ n, (u.work s.cur.1).tables.get n = if tableAt t.toNat ≤ n ∧ n < tableAt t.toNat + 1040
      then (s.tableImage s.cur.1 base).getD (n - tableAt t.toNat) 0 else (s.work s.cur.1).tables.get n := by
  intro u
  have htables : (u.work s.cur.1).tables =
      ((s.work s.cur.1).tables.clear (tableAt t.toNat) 1040).store (tableAt t.toNat) (s.tableImage s.cur.1 base) := by
    have hloaded := (s.withEntry i).tables_tableLoaded t (s.tableImage s.cur.1 base)
    rw [s.tables_withEntry i] at hloaded
    exact (State.work_setCtx_field Work.tables (fun _ _ => rfl) ..).trans hloaded
  refine ⟨⟨fun _ => rfl, fun g n => ?_⟩, fun n => ?_⟩
  · rw [State.spad_setMe, State.spad_tableLoaded, State.withEntry, State.spad_setMe]
  · rw [htables, Memory.get_store _ _ _ (Memory.wf_clear _ _ hwf), State.length_tableImage, Memory.get_clear _ _ _ hwf]
    split <;> rfl

end

/-- Settles O49: each check is taken in its order, and the descriptor and the image are read back byte by byte. -/
theorem tablesAndStatus : Obligations.TablesAndStatus := by
  refine ⟨fun s a q i => ?_, fun s t a hnext => ?_⟩
  · refine ⟨exec_eqwait_empty, holds_eqwait, exec_mstat, holds_mstat, fun hspec => ?_⟩
    refine ⟨s.tmapCauses_eq_nil_iff _ _ _, s.mem_tmapCauses_of_misaligned _ _, fun hcs hhit => ?_, fun hcs n hhit => ?_,
      holds_tmapset hspec, traps_tmapset hspec, fun hcs hclash hlegal n => exec_tmapset_watched hspec hcs hclash hlegal,
      fun hcs hclash hlegal hhit => ⟨_, exec_tmapset hspec hcs hclash hlegal hhit, fun hok harm => ?_⟩⟩
    · rw [exec_tmapset_refused hspec hcs, State.descriptorHit, hhit, State.trapWith_none]
    · rw [exec_tmapset_refused hspec hcs, State.descriptorHit, hhit, State.trapWith_some _ hcs]
    · obtain ⟨hme, hget⟩ := s.descriptorStored_frame a i hok harm
      refine ⟨hme, fun n => (hget n).trans ?_⟩
      rw [getD_tmapBytes (s.length_descriptor a)]
      rfl
  · intro g base hspec
    refine ⟨traps_tblld hspec, holds_tblld hspec, fun hal hclash harm himage hhit hwf =>
      ⟨_, exec_tblld_loads hspec hal hclash harm hnext himage hhit, ?_⟩⟩
    obtain ⟨hbytes, hget⟩ := s.tableLoaded_frame (.tblld t a) t base ((s.me.push (s.me.loadedEntry (.tblld t a))).retired 2) hwf
    refine ⟨hbytes, ?_⟩
    rw [State.me_setMe]
    refine ⟨rfl, rfl, fun n hn h off htarget => ?_, fun n hn => ?_, rfl⟩
    · rw [hget, if_pos ⟨Nat.le_add_right .., Nat.add_lt_add_left hn _⟩, Nat.add_sub_cancel_left, s.getD_tableImage _ _ _ hn htarget]
    · rw [hget, if_neg (by omega)]

end Sys2Proof.Machine
end

section
/-! Scalar loads and stores of scratchpad (O18, O19). -/

namespace Sys2Proof.Machine

/-! ### The checks of an access (R141, R143, R147, R208) -/

section
variable {s : State} {g size h off : Nat} {sup write : Bool} {a : Word}

/-- An address names no scratchpad that the core reaches, or a region of it that the access may not touch (R141, R143). -/
def State.Refused (s : State) (g : Nat) (sup : Bool) (a : Word) (write : Bool) : Prop :=
  ∀ h off, s.localTarget g a = some (h, off) → regionOk sup (s.work h).power off write = false

theorem State.not_refused_iff : ¬ s.Refused g sup a write ↔
    ∃ h off, s.localTarget g a = some (h, off) ∧ regionOk sup (s.work h).power off write = true := by
  simp [State.Refused]

theorem State.localAccess_ok_iff : s.localAccess g sup a size write = .ok (h, off) ↔
    a.toNat % size = 0 ∧ s.localTarget g a = some (h, off) ∧ regionOk sup (s.work h).power off write = true := by
  unfold State.localAccess
  by_cases hal : a.toNat % size = 0
  · rw [if_neg (not_not.2 hal)]
    cases s.localTarget g a with
    | none => simp
    | some t =>
      obtain ⟨k, n⟩ := t
      simp only [hal, true_and, Option.some.injEq, Prod.mk.injEq]
      constructor
      · intro he
        split at he
        · next hok =>
          cases he
          exact ⟨⟨rfl, rfl⟩, hok⟩
        · cases he
      · rintro ⟨⟨rfl, rfl⟩, hok⟩
        rw [if_pos hok]
  · rw [if_pos hal]
    exact ⟨nofun, fun he => absurd he.1 hal⟩

theorem State.localAccess_error (hbad : a.toNat % size ≠ 0 ∨ s.Refused g sup a write) :
    ∃ cause, s.localAccess g sup a size write = .error cause := by
  cases haccess : s.localAccess g sup a size write with
  | error cause => exact ⟨cause, rfl⟩
  | ok t =>
    obtain ⟨hal, htarget, hok⟩ := State.localAccess_ok_iff.1 haccess
    rcases hbad with hbad | hbad
    · exact absurd hal hbad
    · rw [hbad _ _ htarget] at hok
      cases hok

theorem State.localCauses_of_refused (hbad : s.Refused g sup a write) :
    s.localCauses g sup a size write = if a.toNat % size ≠ 0 then [0x06, 0x07] else [0x07] := by
  unfold State.localCauses
  cases htarget : s.localTarget g a with
  | none => split <;> rfl
  | some t =>
    simp only [hbad _ _ htarget, Bool.false_eq_true, if_false]
    split <;> rfl

theorem State.localCauses_of_not_refused (hok : ¬ s.Refused g sup a write) :
    s.localCauses g sup a size write = if a.toNat % size ≠ 0 then [0x06] else [] := by
  obtain ⟨h, off, htarget, hok⟩ := State.not_refused_iff.1 hok
  simp only [State.localCauses, htarget, hok, if_true, List.append_nil]

end

/-! ### Loads and stores of the executing context (R147, R217, R240, R363) -/

section
variable {s : State} {len size h off n cause : Nat} {signed : Bool} {d : XReg} {a v : Word}

theorem State.loadLocal_error (haccess : s.localAccess s.cur.1 s.me.sup a size false = .error cause) :
    s.loadLocal len size signed d a =
      s.accessTrap (s.localCauses s.cur.1 s.me.sup a size false) (s.watchHit s.cur.1 s.cur.2 a.toNat size 2) a := by
  simp only [State.loadLocal, haccess]

theorem State.storeLocal_error (haccess : s.localAccess s.cur.1 s.me.sup a size true = .error cause) :
    s.storeLocal size v a =
      s.accessTrap (s.localCauses s.cur.1 s.me.sup a size true) (s.watchHit s.cur.1 s.cur.2 a.toNat size 4) a := by
  simp only [State.storeLocal, haccess]

theorem State.loadLocal_watched (haccess : s.localAccess s.cur.1 s.me.sup a size false = .ok (h, off))
    (hwatch : s.watchHit s.cur.1 s.cur.2 a.toNat size 2 = some n) : s.loadLocal len size signed d a = s.watchTrap 0x08 n a := by
  simp only [State.loadLocal, haccess, hwatch]

theorem State.storeLocal_watched (haccess : s.localAccess s.cur.1 s.me.sup a size true = .ok (h, off))
    (hwatch : s.watchHit s.cur.1 s.cur.2 a.toNat size 4 = some n) : s.storeLocal size v a = s.watchTrap 0x08 n a := by
  simp only [State.storeLocal, haccess, hwatch]

theorem State.loadLocal_clash (hok : LocalOk s a size false h off) (hclash : s.clashes s.cur.1 s.cur.2 [(h, off, size)] = true) :
    s.loadLocal len size signed d a = s.hold (.blocked .drain) := by
  obtain ⟨haccess, hwatch⟩ := hok
  rw [if_neg Bool.false_ne_true] at hwatch
  simp only [State.loadLocal, haccess, hwatch, hclash, if_true]

theorem State.storeLocal_clash (hok : LocalOk s a size true h off) (hclash : s.clashes s.cur.1 s.cur.2 [(h, off, size)] = true) :
    s.storeLocal size v a = s.hold (.blocked .drain) := by
  obtain ⟨haccess, hwatch⟩ := hok
  rw [if_pos rfl] at hwatch
  simp only [State.storeLocal, haccess, hwatch, hclash, if_true]

theorem State.loadLocal_poisoned (hat : LocalAt s a size false h off) (hbad : (s.work h).poisonedAt off size = true) :
    s.loadLocal len size signed d a = s.terminate s.cur.1 s.cur.2 1 a := by
  obtain ⟨⟨haccess, hwatch⟩, hclash⟩ := hat
  rw [if_neg Bool.false_ne_true] at hwatch
  simp only [State.loadLocal, haccess, hwatch, hclash, hbad, Bool.false_eq_true, if_true, if_false]

theorem State.loadLocal_clean (hplain : Plain s) (hat : LocalAt s a size false h off)
    (hclean : (s.work h).poisonedAt off size = false) :
    s.loadLocal len size signed d a = writeX s len d (extendTo size signed (natOfBytes ((s.work h).spad.bytes off size))) := by
  obtain ⟨⟨haccess, hwatch⟩, hclash⟩ := hat
  rw [if_neg Bool.false_ne_true] at hwatch
  simp only [State.loadLocal, haccess, hwatch, hclash, hclean, State.covered_plain hplain, Bool.false_eq_true, if_false]
  rfl

theorem State.scratchRoom_plain (hplain : Plain s) (ws : List (Nat × List Byte)) : s.scratchRoom s.cur.1 s.cur.2 ws = true := by
  rw [Plain] at hplain
  rw [State.scratchRoom, hplain]

/-- Outside speculative events each write is performed in its turn (R320). -/
theorem State.scratchWrites_plain {g c : Nat} (hplain : s.ahead g c = none) (ws : List (Nat × List Byte)) :
    s.scratchWrites g c ws = ws.foldl (fun t w => t.scratchStore g w.1 w.2) s := by
  rw [State.scratchWrites, hplain]

theorem State.scratchStore_of_target {g : Nat} (htarget : s.localTarget g a = some (h, off)) (bs : List Byte) :
    s.scratchStore g a.toNat bs = s.localStore h off bs := by
  simp only [State.scratchStore, BitVec.ofNat_toNat, BitVec.setWidth_eq, htarget]

theorem State.storeLocal_ok (hplain : Plain s) (hat : LocalAt s a size true h off) :
    s.storeLocal size v a = (s.localStore h off (bytesOfNat size v.toNat)).retire 2 := by
  obtain ⟨⟨haccess, hwatch⟩, hclash⟩ := hat
  obtain ⟨-, htarget, -⟩ := State.localAccess_ok_iff.1 haccess
  rw [if_pos rfl] at hwatch
  simp only [State.storeLocal, haccess, hwatch, hclash, State.scratchRoom_plain hplain, State.scratchWrites_plain hplain,
    List.foldl_cons, List.foldl_nil, State.scratchStore_of_target htarget, Bool.false_eq_true, if_true, if_false]

end

/-! ### What an access that the checks stop raises (R208, R217) -/

section
variable (s : State) (z : BitVec 2) (d a : XReg) (sg : BitVec 1) (o : BitVec 13)

/-- LDL or STL. -/
def localInstr (write : Bool) (z : BitVec 2) (d a : XReg) (sg : BitVec 1) (o : BitVec 13) : Instr :=
  if write then .stl z d a o else .ldl z d a sg o

/-- The comparator that the access of LDL or STL matches. -/
def State.localHit (s : State) (write : Bool) (z : BitVec 2) (a : XReg) (o : BitVec 13) : Option Nat :=
  s.watchHit s.cur.1 s.cur.2 (s.x a + o.signExtend 64).toNat (2 ^ z.toNat) (if write then 4 else 2)

variable {s z a o} {write : Bool} {n : Nat}

theorem trapsOn_local (hbad : (s.x a + o.signExtend 64).toNat % 2 ^ z.toNat ≠ 0
      ∨ s.Refused s.cur.1 s.me.sup (s.x a + o.signExtend 64) write) :
    TrapsOn (localInstr write z d a sg o) s (s.localCauses s.cur.1 s.me.sup (s.x a + o.signExtend 64) (2 ^ z.toNat) write)
      (s.localHit write z a o) (s.x a + o.signExtend 64) := by
  obtain ⟨cause, haccess⟩ := State.localAccess_error hbad
  cases write with
  | false => exact congrArg Host.Outcome.next (State.loadLocal_error haccess)
  | true => exact congrArg Host.Outcome.next (State.storeLocal_error haccess)

theorem trapsOn_local_watched (hal : (s.x a + o.signExtend 64).toNat % 2 ^ z.toNat = 0)
    (hok : ¬ s.Refused s.cur.1 s.me.sup (s.x a + o.signExtend 64) write) (hhit : s.localHit write z a o = some n) :
    TrapsOn (localInstr write z d a sg o) s [] (s.localHit write z a o) (s.x a + o.signExtend 64) := by
  obtain ⟨h, off, htarget, hok⟩ := State.not_refused_iff.1 hok
  have haccess := State.localAccess_ok_iff.2 ⟨hal, htarget, hok⟩
  rw [hhit]
  cases write with
  | false => exact congrArg Host.Outcome.next (State.loadLocal_watched haccess hhit)
  | true => exact congrArg Host.Outcome.next (State.storeLocal_watched haccess hhit)

end

/-- Settles O18: each outcome of the checks is one lemma on loads and one on stores. -/
theorem localLoadStore : Obligations.LocalLoadStore := by
  intro s z d a sg o o4 size va vc bytes
  refine ⟨fun h off hplain hat hclean => ?_, fun h off hplain hat hclean => ?_, fun h off hat hbad => ?_,
    fun h off hplain hat => ?_, fun h off hclash => ⟨fun hok => ?_, fun hok => ?_⟩, fun write i hi => ?_⟩
  · refine (congrArg Host.Outcome.next (State.loadLocal_clean hplain hat hclean)).trans ?_
    simp only [extendTo, beq_iff_eq]
    rfl
  · exact congrArg Host.Outcome.next (State.loadLocal_clean hplain hat hclean)
  · exact congrArg Host.Outcome.next (State.loadLocal_poisoned hat hbad)
  · exact congrArg Host.Outcome.next (State.storeLocal_ok hplain hat)
  · exact congrArg Host.Outcome.next (State.loadLocal_clash hok hclash)
  · exact congrArg Host.Outcome.next (State.storeLocal_clash hok hclash)
  · intro bad w
    obtain rfl : i = localInstr write z d a sg o := hi
    refine ⟨fun ⟨hmis, hok⟩ => ?_, fun ⟨hal, hbad⟩ => ?_, fun ⟨hmis, hbad⟩ => ?_, fun n hhit hal hok =>
      trapsOn_local_watched d sg (not_not.1 hal) hok hhit⟩
    · exact ((State.localCauses_of_not_refused hok).trans (if_pos hmis)) ▸ trapsOn_local d sg (.inl hmis)
    · exact ((State.localCauses_of_refused hbad).trans (if_neg hal)) ▸ trapsOn_local d sg (.inr hbad)
    · exact ((State.localCauses_of_refused hbad).trans (if_pos hmis)) ▸ trapsOn_local d sg (.inl hmis)

end Sys2Proof.Machine
end

section
/-! What a scratchpad store leaves, byte by byte, and the frame of STL (O19). -/

namespace Sys2Proof.Machine

/-! ### Bytes of a number -/

theorem getD_bytesOfNat {n j : Nat} (k : Nat) (hj : j < n) : (bytesOfNat n k).getD j 0 = BitVec.ofNat 8 (k / 256 ^ j) := by
  induction n generalizing j k with
  | zero => exact absurd hj j.not_lt_zero
  | succ n ih =>
    cases j with
    | zero => rw [bytesOfNat, List.getD_cons_zero, pow_zero, Nat.div_one]
    | succ j => rw [bytesOfNat, List.getD_cons_succ, ih _ (Nat.lt_of_succ_lt_succ hj), Nat.div_div_eq_div_mul, ← Nat.pow_succ']

/-! ### Stores (R147) -/

section
variable (s : State) (g h off x : Nat) (bs : List Byte)

theorem State.me_localStore : (s.localStore h off bs).me = s.me := State.me_setWork _ _ (by rfl)

theorem State.spad_localStore :
    ((s.localStore h off bs).work g).spad = if g = h then (s.work h).spad.store off bs else (s.work g).spad := by
  rw [State.localStore, State.work_setWork]
  split <;> rfl

theorem State.spadsOk_localStore (hok : SpadsOk s) : SpadsOk (s.localStore h off bs) := by
  intro g
  rw [State.spad_localStore]
  split
  · exact Memory.wf_store _ _ (hok h)
  · exact hok g

theorem State.get_localStore (hok : SpadsOk s) : ((s.localStore h off bs).work g).spad.get x =
    if g = h ∧ off ≤ x ∧ x < off + bs.length then bs.getD (x - off) 0 else (s.work g).spad.get x := by
  rw [State.spad_localStore]
  by_cases hg : g = h
  · simp only [hg, if_true, true_and, Memory.get_store _ _ _ (hok h)]
  · simp only [hg, if_false, false_and]

end

/-- A change of a core's work does not change which scratchpad an address names (R141, R143). -/
theorem State.localTarget_setWork (s : State) (g h : Nat) (w : Work) (a : Word) :
    (s.setWork g w).localTarget h a = s.localTarget h a := by
  have htag : ∀ j, (s.setWork g w).tag j = s.tag j := fun j => State.tag_setWork ..
  have hdbg : ∀ j, ((s.setWork g w).core j).dbg = (s.core j).dbg := by
    intro j
    rw [State.core_setWork]
    split
    · next hj => rw [hj]
    · rfl
  simp only [State.localTarget, htag, hdbg]
  rfl

theorem Ctx.retired_sameButFlow (k : Ctx) (len : Nat) : SameButFlow k (k.retired len) := k.sameButFlow_flow ..

/-- Settles O19: the store changes the bytes of its operand, and retiring the flow of control. -/
theorem localStoreFrame : Obligations.LocalStoreFrame := by
  intro s z d a o h off size hplain hok harm hat
  let bs := bytesOfNat size (s.x d).toNat
  have hlen : bs.length = size := length_bytesOfNat ..
  have hme : (s.localStore h off bs).me = s.me := s.me_localStore ..
  have hretire : (s.localStore h off bs).retire 2 = (s.localStore h off bs).setMe (s.me.retired 2) := by
    rw [State.retire_eq _ _ (by rwa [hme]), hme]
    rfl
  refine ⟨(s.localStore h off bs).setMe (s.me.retired 2),
    congrArg Host.Outcome.next ((State.storeLocal_ok hplain hat).trans hretire), ?_, fun _ => rfl, fun i hi => ?_, fun g b hout => ?_⟩
  · rw [State.me_setMe]
    exact s.me.retired_sameButFlow 2
  · rw [State.spad_setMe, State.get_localStore _ _ _ _ _ _ hok, hlen, if_pos ⟨rfl, by omega, by omega⟩, Nat.add_sub_cancel_left,
      getD_bytesOfNat _ hi]
  · rw [State.spad_setMe, State.get_localStore _ _ _ _ _ _ hok, hlen, if_neg (by omega)]

end Sys2Proof.Machine
end

section
/-! Vector loads and stores of scratchpad (O20, O21). -/

namespace Sys2Proof.Machine

/-! ### The active lanes (R124, R148) -/

theorem mem_activeLanes {act : BitVec 64} {i : Nat} : i ∈ activeLanes act ↔ i < 64 ∧ act.getLsbD i = true := by
  rw [activeLanes, List.mem_filter, List.mem_range]

/-- The lanes after an active lane are higher. -/
theorem activeLanes_split {act : BitVec 64} {i : Nat} (hi : i ∈ activeLanes act) :
    ∃ l₁ l₂, activeLanes act = l₁ ++ i :: l₂ ∧ ∀ j ∈ l₂, i < j := by
  obtain ⟨l₁, l₂, hsplit⟩ := List.append_of_mem hi
  have hsorted : (activeLanes act).Pairwise (· < ·) := List.pairwise_lt_range.filter _
  rw [hsplit, List.pairwise_append, List.pairwise_cons] at hsorted
  exact ⟨l₁, l₂, hsplit, hsorted.2.1.1⟩

section
variable {s : State} {g c : Nat} {sup write : Bool} {addr : Nat → Word} {core off : Nat → Nat} {ls : List Nat}

theorem State.laneAccess_ok (hok : ∀ i ∈ ls, s.localAccess g sup (addr i) 4 write = .ok (core i, off i)) :
    s.laneAccess g sup write addr ls = .ok (ls.map fun i => (i, core i, off i)) := by
  induction ls with
  | nil => rfl
  | cons i ls ih =>
    rw [List.forall_mem_cons] at hok
    simp only [State.laneAccess, hok.1, ih hok.2]
    rfl

theorem State.laneWatch_none {kinds : BitVec 3} (hnone : ∀ i ∈ ls, s.watchHit g c (addr i).toNat 4 kinds = none) :
    s.laneWatch g c kinds addr ls = none := by
  induction ls with
  | nil => rfl
  | cons i ls ih =>
    rw [List.forall_mem_cons] at hnone
    simp only [State.laneWatch, hnone.1, ih hnone.2]

theorem State.clashes_map {f : Nat → Nat × Nat × Nat} (hfree : ∀ i ∈ ls, s.clashes g c [f i] = false) :
    s.clashes g c (ls.map f) = false := by
  simp only [State.clashes, List.any_eq_false, List.any_map, List.any_cons, List.any_nil, Bool.or_false] at hfree ⊢
  simp only [Bool.not_eq_true, List.any_eq_false, Function.comp]
  exact fun r hr i hi => Bool.eq_false_iff.2 (hfree i hi r hr)

end

/-- Every active lane of the executing context may access the scratchpad now, lane i at offset `off i` of core `core i`. -/
def LanesAt (s : State) (p : BitVec 3) (write : Bool) (addr : Nat → Word) (core off : Nat → Nat) : Prop :=
  ∀ i ∈ activeLanes (s.me.pred p), LocalAt s (addr i) 4 write (core i) (off i)

/-! ### What the body of the instruction finds (R209) -/

theorem State.lps_setCtx (s : State) (g c h : Nat) (k : Ctx) : ((s.setCtx g c k).work h).lps = (s.work h).lps :=
  State.work_setCtx_field Work.lps (fun _ _ => rfl) ..

theorem State.ahead_withEntry (s : State) (i : Instr) : (s.withEntry i).ahead s.cur.1 s.cur.2 = s.ahead s.cur.1 s.cur.2 := by
  have hlp : ∀ slot, (s.withEntry i).lp s.cur.1 slot = s.lp s.cur.1 slot := fun slot =>
    congrArg (Tab.find · slot) (State.lps_setCtx ..)
  simp only [State.ahead, State.eventOf, State.ctx_withEntry, Ctx.push_event, hlp]
  rfl

section
variable {s : State} {p : BitVec 3} {write : Bool} {addr : Nat → Word} {core off : Nat → Nat} (hat : LanesAt s p write addr core off)
include hat

theorem LanesAt.access : s.laneAccess s.cur.1 s.me.sup write addr (activeLanes (s.me.pred p)) =
    .ok ((activeLanes (s.me.pred p)).map fun i => (i, core i, off i)) :=
  State.laneAccess_ok fun i hi => (hat i hi).1.1

theorem LanesAt.watch : s.laneWatch s.cur.1 s.cur.2 (if write then 4 else 2) addr (activeLanes (s.me.pred p)) = none :=
  State.laneWatch_none fun i hi => (hat i hi).1.2

theorem LanesAt.noClash : s.lanesClash s.cur.1 s.cur.2 s.me.sup write (s.me.pred p) addr = false := by
  simp only [State.lanesClash, hat.access, List.map_map]
  exact State.clashes_map fun i hi => (hat i hi).2

theorem LanesAt.access_withEntry (i : Instr) : (s.withEntry i).laneAccess s.cur.1 s.me.sup write addr (activeLanes (s.me.pred p)) =
    .ok ((activeLanes (s.me.pred p)).map fun i => (i, core i, off i)) :=
  State.laneAccess_ok fun j hj => (State.localAccess_setCtx ..).trans (hat j hj).1.1

theorem LanesAt.watch_withEntry (i : Instr) :
    (s.withEntry i).laneWatch s.cur.1 s.cur.2 (if write then 4 else 2) addr (activeLanes (s.me.pred p)) = none :=
  State.laneWatch_none fun j hj => (State.watchHit_withEntry ..).trans (hat j hj).1.2

theorem LanesAt.target {i : Nat} (hi : i ∈ activeLanes (s.me.pred p)) : s.localTarget s.cur.1 (addr i) = some (core i, off i) :=
  (State.localAccess_ok_iff.1 (hat i hi).1.1).2.1

end

/-! ### VLDL and VGATHL (R148) -/

section
variable {s : State} {p : BitVec 3} {core off : Nat → Nat} {addr : Ctx → Vector Word 16 → Nat → Word} {d : BitVec 5} {i : Instr}

/-- The lane that a scratchpad load finds at its address. -/
def State.spadLane (s : State) (core off : Nat → Nat) (i : Nat) : Lane :=
  BitVec.ofNat 32 (natOfBytes ((s.work (core i)).spad.bytes (off i) 4))

theorem LanesAt.noPoison {ad : Nat → Word} (hat : LanesAt s p false ad core off)
    (hclean : ∀ i ∈ activeLanes (s.me.pred p), (s.work (core i)).poisonedAt (off i) 4 = false) : s.lanePoison p ad = none := by
  have hwatch := hat.watch
  rw [if_neg Bool.false_ne_true] at hwatch
  have hfind : ((activeLanes (s.me.pred p)).map fun i => (i, core i, off i)).find? (fun t => (s.work t.2.1).poisonedAt t.2.2 4) = none :=
    List.find?_eq_none.2 fun t ht => by
      obtain ⟨i, hi, rfl⟩ := List.mem_map.1 ht
      exact Bool.eq_false_iff.1 (hclean i hi)
  simp only [State.lanePoison, hat.access, hwatch, hfind]
  rfl

theorem State.spad_withEntry (s : State) (i : Instr) (g : Nat) : ((s.withEntry i).work g).spad = (s.work g).spad := State.spad_setMe ..

theorem Ctx.moved_stepArm (k : Ctx) (n : Nat) (r : VReg) : (k.moved i n r).stepArm = k.stepArm := rfl

theorem localBody_load (hplain : Plain s) (hat : LanesAt s p false (addr s.me s.me.x) core off)
    (haddr : addr (s.me.push (s.me.newEntry i 0)) s.me.x = addr s.me s.me.x) :
    localBody d.toNat p false addr (s.withEntry i) s.cur.1 s.cur.2 (s.me.newEntry i 0) =
      (s.withEntry i).setCtx s.cur.1 s.cur.2 (s.me.moved i d.toNat (s.me.movedLanes d p fun j =>
        if j ∈ activeLanes (s.me.pred p) then s.spadLane core off j else 0)) := by
  have hxs : (s.me.newEntry i 0).xs = s.me.x := rfl
  have hwatch := hat.watch_withEntry i
  rw [if_neg Bool.false_ne_true] at hwatch
  have hcovered : ∀ a n, (s.withEntry i).covered s.cur.1 s.cur.2 true a n = [] := fun a n =>
    State.covered_plain (s := s.withEntry i) ((s.ahead_withEntry i).trans hplain) true a n
  unfold localBody
  simp only [State.ctx_withEntry, hxs, haddr, pred_withEntry, Ctx.push_sup, hat.access_withEntry i, Bool.false_eq_true, if_false,
    hwatch, hcovered]
  refine congrArg (fun f => (s.withEntry i).setCtx s.cur.1 s.cur.2 (((s.me.push (s.me.newEntry i 0)).setV d.toNat
    (mapLanes (s.me.pred p) (s.me.vreg d.toNat) f ⟨0, s.me.rng⟩).1).doneEntry s.me.nextSeq)) (funext fun j => funext fun c => ?_)
  rw [find?_map_pair]
  by_cases hj : j ∈ activeLanes (s.me.pred p)
  · simp only [hj, if_true, State.spadLane, ← s.spad_withEntry i]
    rfl
  · simp only [hj, if_false]

theorem State.issueV_localBody_load (hplain : Plain s) (harm : s.me.stepArm = false)
    (haddr : addr (s.me.push (s.me.newEntry i 0)) s.me.x = addr s.me s.me.x) (hat : LanesAt s p false (addr s.me s.me.x) core off) :
    s.issueV i 2 (localBody d.toNat p false addr) = s.setMe ((s.me.moved i d.toNat (s.me.movedLanes d p fun j =>
      if j ∈ activeLanes (s.me.pred p) then s.spadLane core off j else 0)).retired 2) := by
  refine State.issueV_of_setCtx ?_ (localBody_load hplain hat haddr)
  rwa [Ctx.moved_stepArm]

theorem loads_of_localBody (hplain : Plain s) (harm : s.me.stepArm = false) (hd : d.toNat < 22)
    (hexec : exec i s = .next (s.issueLoad i p addr (localBody d.toNat p false addr)))
    (haddr : addr (s.me.push (s.me.newEntry i 0)) s.me.x = addr s.me s.me.x)
    (hat : ∀ j < 64, (s.me.pred p).getLsbD j = true → LocalAt s (addr s.me s.me.x j) 4 false (core j) (off j)
      ∧ (s.work (core j)).poisonedAt (off j) 4 = false) :
    ∃ t, exec i s = .next t ∧ SameBytes s t ∧ OnlyMe s t ∧ SameButV d.toNat s.me t.me
      ∧ ∀ j < 64, lane (t.me.vreg d.toNat) j =
          if (s.me.pred p).getLsbD j then s.spadLane core off j else lane (s.me.vreg d.toNat) j := by
  have hlanes : LanesAt s p false (addr s.me s.me.x) core off := fun j hj =>
    (hat j (mem_activeLanes.1 hj).1 (mem_activeLanes.1 hj).2).1
  have hclean : ∀ j ∈ activeLanes (s.me.pred p), (s.work (core j)).poisonedAt (off j) 4 = false := fun j hj =>
    (hat j (mem_activeLanes.1 hj).1 (mem_activeLanes.1 hj).2).2
  have hissue : s.issueLoad i p addr (localBody d.toNat p false addr) = s.issueV i 2 (localBody d.toNat p false addr) := by
    simp only [State.issueLoad, hlanes.noClash, hlanes.noPoison hclean, Bool.false_eq_true, if_false]
  rw [hissue, State.issueV_localBody_load hplain harm haddr hlanes] at hexec
  refine ⟨_, hexec, sameBytes_setMe .., onlyMe_setMe .., ?_⟩
  rw [State.me_setMe, Ctx.moved_vreg _ _ _ _ hd]
  refine ⟨Ctx.moved_sameButV .., fun j hj => ?_⟩
  rw [Ctx.lane_movedLanes _ _ hj]
  split
  · next hactive => exact if_pos (mem_activeLanes.2 ⟨hj, hactive⟩)
  · rfl

end

/-- Settles O20: a load moves lanes that it finds in scratchpad, and its entry leaves the checks and the bytes as they were. -/
theorem vectorLocalLoad : Obligations.VectorLocalLoad := by
  intro s d a b p core off act hplain harm hd q hq hat
  simp only [List.mem_cons, List.not_mem_nil, or_false] at hq
  rcases hq with rfl | rfl
  · exact loads_of_localBody (addr := linearAddr a) hplain harm hd rfl rfl hat
  · exact loads_of_localBody (addr := indexedAddr a b) hplain harm hd rfl rfl hat

/-! ### VSTL and VSCATL (R148) -/

/-- The low bits of a scratchpad address are those of the offset that it names. -/
theorem State.localTarget_offset {s : State} {g h off : Nat} {a : Word} (htarget : s.localTarget g a = some (h, off)) :
    off = field a 0 19 := by
  unfold State.localTarget at htarget
  dsimp only at htarget
  split at htarget
  · cases htarget
  · split at htarget <;> split at htarget <;> cases htarget <;> rfl

section
variable (s : State) (core off : Nat → Nat) (data : VReg) (ls : List Nat)

/-- The machine in which lanes of a register have been stored one after the other, lane i at offset `off i` of core `core i`. -/
def State.storeLanes (s : State) (core off : Nat → Nat) (data : VReg) (ls : List Nat) : State :=
  ls.foldl (fun t i => t.localStore (core i) (off i) (bytesOfNat 4 (lane data i).toNat)) s

theorem State.mem_storeLanes : (s.storeLanes core off data ls).mem = s.mem :=
  foldl_kept State.mem _ (fun _ _ => State.localStore_mem ..) ls s

theorem State.cur_storeLanes : (s.storeLanes core off data ls).cur = s.cur :=
  foldl_kept State.cur _ (fun _ _ => State.localStore_cur ..) ls s

theorem State.me_storeLanes : (s.storeLanes core off data ls).me = s.me :=
  foldl_kept State.me _ (fun _ _ => State.me_localStore ..) ls s

theorem State.spadsOk_storeLanes (hok : SpadsOk s) : SpadsOk (s.storeLanes core off data ls) := by
  induction ls generalizing s with
  | nil => exact hok
  | cons i ls ih => exact ih _ (s.spadsOk_localStore _ _ _ hok)

theorem State.get_storeLanes (hok : SpadsOk s) {g x : Nat} (hout : ∀ i ∈ ls, core i ≠ g ∨ x < off i ∨ off i + 4 ≤ x) :
    ((s.storeLanes core off data ls).work g).spad.get x = (s.work g).spad.get x := by
  induction ls generalizing s with
  | nil => rfl
  | cons i ls ih =>
    rw [List.forall_mem_cons] at hout
    refine (ih _ (s.spadsOk_localStore _ _ _ hok) hout.2).trans ?_
    rw [State.get_localStore _ _ _ _ _ _ hok, length_bytesOfNat, if_neg (by omega)]

/-- The bytes of a lane stand where no later lane is stored (R148). -/
theorem State.bytes_storeLanes (hok : SpadsOk s) {l₁ l₂ : List Nat} {i : Nat}
    (hlast : ∀ j ∈ l₂, core j ≠ core i ∨ off i + 4 ≤ off j ∨ off j + 4 ≤ off i) :
    ((s.storeLanes core off data (l₁ ++ i :: l₂)).work (core i)).spad.bytes (off i) 4 = bytesOfNat 4 (lane data i).toNat := by
  let u := s.storeLanes core off data l₁
  let t := u.localStore (core i) (off i) (bytesOfNat 4 (lane data i).toNat)
  have hu : SpadsOk u := s.spadsOk_storeLanes core off data l₁ hok
  have hsplit : s.storeLanes core off data (l₁ ++ i :: l₂) = t.storeLanes core off data l₂ := List.foldl_append ..
  have hafter : ((t.storeLanes core off data l₂).work (core i)).spad.bytes (off i) 4 = (t.work (core i)).spad.bytes (off i) 4 :=
    Memory.bytes_congr fun x hx => t.get_storeLanes core off data l₂ (u.spadsOk_localStore _ _ _ hu) fun j hj => by
      have := hlast j hj
      omega
  have hstored := Memory.bytes_store (off i) (bytesOfNat 4 (lane data i).toNat) (hu (core i))
  rw [length_bytesOfNat] at hstored
  rw [hsplit, hafter, State.spad_localStore, if_pos rfl, hstored]

/-- Writes at checked addresses are stores at the places that the addresses name. -/
theorem State.foldl_scratchStore {g : Nat} {addr : Nat → Word} (htarget : ∀ i ∈ ls, s.localTarget g (addr i) = some (core i, off i)) :
    (laneWrites data addr ls).foldl (fun t w => t.scratchStore g w.1 w.2) s = s.storeLanes core off data ls := by
  induction ls generalizing s with
  | nil => rfl
  | cons i ls ih =>
    rw [List.forall_mem_cons] at htarget
    rw [laneWrites, List.map_cons, List.foldl_cons, State.scratchStore_of_target htarget.1]
    exact ih _ fun j hj => (State.localTarget_setWork ..).trans (htarget.2 j hj)

end

@[simp] theorem Ctx.retired_v (k : Ctx) (len : Nat) : (k.retired len).v = k.v := rfl
@[simp] theorem Ctx.retired_x (k : Ctx) (len : Nat) : (k.retired len).x = k.x := rfl

section
variable {s : State} {p : BitVec 3} {core off : Nat → Nat} {addr : Ctx → Vector Word 16 → Nat → Word} {d : BitVec 5} {i : Instr}

/-- The machine that a vector store to scratchpad leaves. -/
def State.lanesStored (s : State) (i : Instr) (d : BitVec 5) (p : BitVec 3) (core off : Nat → Nat) : State :=
  ((s.withEntry i).storeLanes core off (s.me.vreg d.toNat) (activeLanes (s.me.pred p))).setMe
    (((s.me.push (s.me.newEntry i 0)).doneEntry s.me.nextSeq).retired 2)

theorem State.issueV_localBody_store (hplain : Plain s) (harm : s.me.stepArm = false)
    (haddr : addr (s.me.push (s.me.newEntry i 0)) s.me.x = addr s.me s.me.x)
    (hat : LanesAt s p true (addr s.me s.me.x) core off) :
    s.issueV i 2 (localBody d.toNat p true addr) = s.lanesStored i d p core off := by
  let u := (s.withEntry i).storeLanes core off (s.me.vreg d.toNat) (activeLanes (s.me.pred p))
  have hcur : u.cur = s.cur := State.cur_storeLanes ..
  have hme : u.me = s.me.push (s.me.newEntry i 0) := (State.me_storeLanes ..).trans (State.me_setMe ..)
  rw [State.me, hcur] at hme
  have hxs : (s.me.newEntry i 0).xs = s.me.x := rfl
  have hwatch := hat.watch_withEntry i
  rw [if_pos rfl] at hwatch
  have hwrites : (s.withEntry i).scratchWrites s.cur.1 s.cur.2
      (laneWrites ((s.me.push (s.me.newEntry i 0)).vreg d.toNat) (addr s.me s.me.x) (activeLanes (s.me.pred p))) = u :=
    (State.scratchWrites_plain ((s.ahead_withEntry i).trans hplain) _).trans (State.foldl_scratchStore _ _ _ _ _ fun j hj =>
      (State.localTarget_setCtx ..).trans (hat.target hj))
  have hbody : localBody d.toNat p true addr (s.withEntry i) s.cur.1 s.cur.2 (s.me.newEntry i 0) =
      u.setMe ((s.me.push (s.me.newEntry i 0)).doneEntry s.me.nextSeq) := by
    rw [State.setMe, hcur, ← hme]
    unfold localBody
    simp only [State.ctx_withEntry, hxs, haddr, pred_withEntry, Ctx.push_sup, hat.access_withEntry i, if_true, hwatch, hwrites]
    rfl
  exact (congrArg (State.retire · 2) hbody).trans (State.retire_setMe _ 2 (by rwa [Ctx.doneEntry_stepArm, Ctx.push_stepArm]))

theorem stores_of_localBody (hplain : Plain s) (hok : SpadsOk s) (harm : s.me.stepArm = false)
    (hexec : exec i s = .next (s.issueStore i d.toNat p addr (localBody d.toNat p true addr)))
    (haddr : addr (s.me.push (s.me.newEntry i 0)) s.me.x = addr s.me s.me.x)
    (hat : ∀ j < 64, (s.me.pred p).getLsbD j = true → LocalAt s (addr s.me s.me.x j) 4 true (core j) (off j)) :
    ∃ t, exec i s = .next t ∧ (∀ x, t.mem.get x = s.mem.get x) ∧ (∀ n, t.me.vreg n = s.me.vreg n) ∧ t.me.x = s.me.x
      ∧ (∀ j < 64, (s.me.pred p).getLsbD j = true →
          (∀ k < 64, j < k → (s.me.pred p).getLsbD k = true → core j ≠ core k ∨ off j ≠ off k) →
          (t.work (core j)).spad.bytes (off j) 4 = bytesOfNat 4 (lane (s.me.vreg d.toNat) j).toNat)
      ∧ ∀ g x, (∀ j < 64, (s.me.pred p).getLsbD j = true → core j ≠ g ∨ x < off j ∨ off j + 4 ≤ x) →
          (t.work g).spad.get x = (s.work g).spad.get x := by
  have hlanes : LanesAt s p true (addr s.me s.me.x) core off := fun j hj => hat j (mem_activeLanes.1 hj).1 (mem_activeLanes.1 hj).2
  have haligned : ∀ j ∈ activeLanes (s.me.pred p), off j % 4 = 0 := fun j hj => by
    obtain ⟨hal, htarget, -⟩ := State.localAccess_ok_iff.1 (hlanes j hj).1.1
    rw [State.localTarget_offset htarget, field]
    omega
  have hentry : SpadsOk (s.withEntry i) := fun g => (s.spad_withEntry i g).symm ▸ hok g
  have hissue : s.issueStore i d.toNat p addr (localBody d.toNat p true addr) = s.issueV i 2 (localBody d.toNat p true addr) := by
    simp only [State.issueStore, hlanes.noClash, State.scratchRoom_plain hplain, Bool.false_eq_true, if_false, if_true]
  rw [hissue, State.issueV_localBody_store hplain harm haddr hlanes] at hexec
  refine ⟨_, hexec, fun x => ?_, fun n => ?_, ?_, fun j hj hactive hlast => ?_, fun g x hout => ?_⟩
  · rw [State.lanesStored, State.setMe_mem, State.mem_storeLanes]
    rfl
  · simp only [State.lanesStored, State.me_setMe, Ctx.vreg, Ctx.retired_v, Ctx.doneEntry_v, Ctx.push_v]
  · simp only [State.lanesStored, State.me_setMe, Ctx.retired_x, Ctx.doneEntry_x, Ctx.push_x]
  · obtain ⟨l₁, l₂, hsplit, hlater⟩ := activeLanes_split (mem_activeLanes.2 ⟨hj, hactive⟩)
    rw [State.lanesStored, State.spad_setMe, hsplit]
    refine State.bytes_storeLanes _ _ _ _ hentry fun k hk => ?_
    have hmem : ∀ n ∈ j :: l₂, n ∈ activeLanes (s.me.pred p) := fun n hn => hsplit ▸ List.mem_append_right _ hn
    have hk' := hmem k (List.mem_cons_of_mem _ hk)
    have hne := hlast k (mem_activeLanes.1 hk').1 (hlater k hk) (mem_activeLanes.1 hk').2
    have hj4 := haligned j (hmem j List.mem_cons_self)
    have hk4 := haligned k hk'
    omega
  · rw [State.lanesStored, State.spad_setMe, State.get_storeLanes _ _ _ _ _ hentry fun j hj =>
      hout j (mem_activeLanes.1 hj).1 (mem_activeLanes.1 hj).2, State.spad_withEntry]

end

/-- Settles O21: the lanes are stored in ascending order, and the bytes of one stand where no later lane comes to. -/
theorem vectorLocalStore : Obligations.VectorLocalStore := by
  intro s d a b p core off act hplain hok harm q hq hat
  simp only [List.mem_cons, List.not_mem_nil, or_false] at hq
  rcases hq with rfl | rfl
  · exact stores_of_localBody (addr := linearAddr a) hplain hok harm rfl rfl hat
  · exact stores_of_localBody (addr := indexedAddr a b) hplain hok harm rfl rfl hat

end Sys2Proof.Machine
end

section
/-! The barrier instructions and the objects they act on (O22). -/

namespace Sys2Proof.Machine

/-! ### The object of a barrier instruction (R150, R152) -/

/-- A 16-aligned address is the aligned one at or below it. -/
theorem and_not_fifteen {a : Word} (hal : a.toNat % 16 = 0) : a &&& ~~~15 = a := by
  refine BitVec.eq_of_getLsbD_eq fun i hi => ?_
  have hlow : i < 4 → a.getLsbD i = false := fun h4 => by
    have hbit := Nat.testBit_mod_two_pow a.toNat 4 i
    rw [show a.toNat % 2 ^ 4 = 0 from hal, Nat.zero_testBit, decide_eq_true h4, Bool.true_and] at hbit
    exact hbit.symm
  have hmask : (15 : Word).getLsbD i = decide (i < 4) := Nat.testBit_two_pow_sub_one 4 i
  rw [BitVec.getLsbD_and, BitVec.getLsbD_not, hmask, decide_eq_true hi]
  by_cases h4 : i < 4
  · rw [hlow h4, Bool.false_and]
  · rw [decide_eq_false h4, Bool.not_false, Bool.and_true, Bool.and_true]

section
variable {s : State} {a : Word} {off : Nat} {write operandOk : Bool} {kinds : BitVec 3} {f : Nat → State}

theorem State.withBar_of_barAt (hat : BarAt s a write off) (hoperand : operandOk = true) : s.withBar a write operandOk kinds f = f off := by
  obtain ⟨hal, hown, haccess, hwatch, hclash⟩ := hat
  have hcauses : s.barCauses a write = [] := by
    simp only [State.barCauses, hal, hown, and_not_fifteen hal, haccess, ne_eq, not_true_eq_false, Bool.false_eq_true, if_false,
      List.append_nil]
  have hcheck : s.barCheck a write operandOk = .ok off := by
    simp only [State.barCheck, hoperand, hcauses, haccess, if_true, List.append_nil]
    rfl
  simp only [State.withBar, hcheck, hwatch, hclash, Bool.false_eq_true, if_false]

theorem State.readsBar_poisoned (hat : BarAt s a write off) (hoperand : operandOk = true)
    (hbad : (s.work s.cur.1).poisonedAt off 16 = true) : s.readsBar a write operandOk kinds f = s.terminate s.cur.1 s.cur.2 1 a :=
  (State.withBar_of_barAt hat hoperand).trans (if_pos hbad)

theorem State.readsBar_clean (hat : BarAt s a write off) (hoperand : operandOk = true)
    (hclean : (s.work s.cur.1).poisonedAt off 16 = false) : s.readsBar a write operandOk kinds f = f off :=
  (State.withBar_of_barAt hat hoperand).trans (if_neg (Bool.eq_false_iff.1 hclean))

/-- Outside speculative events an object is written at once (R320). -/
theorem State.putBar_plain (hplain : Plain s) (o : BarObj) : s.putBar off o = (s.localStore s.cur.1 off o.bytes).retire 2 := by
  rw [Plain] at hplain
  simp only [State.putBar, State.barRoom, State.putBarFor, hplain, if_true]

end

/-! ### BINIT, BEXPECT and BARRIVE (R152, R153) -/

section
variable {s : State} {a b d : XReg} {off : Nat}

theorem exec_binit (hplain : Plain s) (hat : BarAt s (s.x a) true off) (hn : (s.x b).setWidth 16 ≠ (0 : BitVec 16))
    (hb : (s.x b).toNat < 2 ^ 17) : exec (.binit a b) s = .next ((s.localStore s.cur.1 off
      (BarObj.bytes ⟨0, (s.x b).setWidth 16, (s.x b).setWidth 16, false, (s.x b).getLsbD 16, 0⟩)).retire 2) := by
  have hoperand : ((s.x b).setWidth 16 != (0 : BitVec 16) && decide ((s.x b).toNat < 2 ^ 17)) = true := by
    rw [decide_eq_true hb, Bool.and_true, bne_iff_ne]
    exact hn
  exact congrArg Host.Outcome.next ((State.withBar_of_barAt hat hoperand).trans (State.putBar_plain hplain _))

section
variable (hat : BarAt s (s.x a) true off)
include hat

theorem exec_bexpect_poisoned (hbad : (s.work s.cur.1).poisonedAt off 16 = true) (hb : (s.x b).toNat < 2 ^ 31) :
    exec (.bexpect a b) s = .next (s.terminate s.cur.1 s.cur.2 1 (s.x a)) :=
  congrArg Host.Outcome.next (State.readsBar_poisoned hat (decide_eq_true hb) hbad)

theorem exec_barrive_poisoned (hbad : (s.work s.cur.1).poisonedAt off 16 = true) :
    exec (.barrive a) s = .next (s.terminate s.cur.1 s.cur.2 1 (s.x a)) :=
  congrArg Host.Outcome.next (State.readsBar_poisoned hat rfl hbad)

variable (hclean : (s.work s.cur.1).poisonedAt off 16 = false)
include hclean

theorem exec_bexpect (hplain : Plain s) (hb : (s.x b).toNat < 2 ^ 31) (hsum : (s.bar off).tx + (s.x b).toNat < 2 ^ 31) :
    exec (.bexpect a b) s = .next ((s.localStore s.cur.1 off
      (BarObj.check { s.bar off with tx := (s.bar off).tx + (s.x b).toNat }).bytes).retire 2) :=
  congrArg Host.Outcome.next ((State.readsBar_clean hat (decide_eq_true hb) hclean).trans
    ((if_neg (not_le.2 hsum)).trans (State.putBar_plain hplain _)))

theorem traps_bexpect (hb : (s.x b).toNat < 2 ^ 31) (hsum : 2 ^ 31 ≤ (s.bar off).tx + (s.x b).toNat) :
    Traps (.bexpect a b) s 0x0B (s.x a) :=
  congrArg Host.Outcome.next ((State.readsBar_clean hat (decide_eq_true hb) hclean).trans (if_pos hsum))

theorem exec_barrive (hplain : Plain s) (hpending : (s.bar off).pending ≠ 0) (hdrained : s.me.drained = true) :
    exec (.barrive a) s = .next ((s.localStore s.cur.1 off
      (BarObj.check { s.bar off with pending := (s.bar off).pending - 1 }).bytes).retire 2) :=
  congrArg Host.Outcome.next ((State.readsBar_clean hat rfl hclean).trans
    ((if_neg hpending).trans ((if_pos hdrained).trans (State.putBar_plain hplain _))))

theorem holds_barrive (hpending : (s.bar off).pending ≠ 0) (hdrained : s.me.drained = false) :
    Holds (.barrive a) s (.blocked .drain) :=
  congrArg Host.Outcome.next ((State.readsBar_clean hat rfl hclean).trans
    ((if_neg hpending).trans (if_neg (Bool.eq_false_iff.1 hdrained))))

theorem traps_barrive (hpending : (s.bar off).pending = 0) : Traps (.barrive a) s 0x0B (s.x a) :=
  congrArg Host.Outcome.next ((State.readsBar_clean hat rfl hclean).trans (if_pos hpending))

end

/-! ### BWAIT and BTEST (R152) -/

section
variable (hat : BarAt s (s.x a) false off) (hb : (s.x b).toNat < 2 ^ 16)
include hat hb

theorem exec_bwait_poisoned (hbad : (s.work s.cur.1).poisonedAt off 16 = true) :
    exec (.bwait a b) s = .next (s.terminate s.cur.1 s.cur.2 1 (s.x a)) :=
  congrArg Host.Outcome.next (State.readsBar_poisoned hat (decide_eq_true hb) hbad)

theorem exec_btest_poisoned (hbad : (s.work s.cur.1).poisonedAt off 16 = true) :
    exec (.btest a b d) s = .next (s.terminate s.cur.1 s.cur.2 1 (s.x a)) :=
  congrArg Host.Outcome.next (State.readsBar_poisoned hat (decide_eq_true hb) hbad)

variable (hclean : (s.work s.cur.1).poisonedAt off 16 = false)
include hclean

theorem exec_bwait (hdone : (s.bar off).phaseDone ((s.x b).setWidth 16) = true) : exec (.bwait a b) s = .next (s.retire 2) :=
  congrArg Host.Outcome.next ((State.readsBar_clean hat (decide_eq_true hb) hclean).trans (if_pos hdone))

theorem holds_bwait (hdone : (s.bar off).phaseDone ((s.x b).setWidth 16) = false) :
    Holds (.bwait a b) s (.waiting (.phase off ((s.x b).setWidth 16))) :=
  congrArg Host.Outcome.next ((State.readsBar_clean hat (decide_eq_true hb) hclean).trans (if_neg (Bool.eq_false_iff.1 hdone)))

theorem exec_btest : exec (.btest a b d) s = .next (writeX s 2 d
    (pack [(0, bitOf ((s.bar off).phaseDone ((s.x b).setWidth 16))), (1, bitOf (s.bar off).ov), (16, (s.bar off).count.toNat),
      (32, ofSigned 32 (s.bar off).tx)])) :=
  congrArg Host.Outcome.next (State.readsBar_clean hat (decide_eq_true hb) hclean)

end

end

/-! ### Phases of an object (R150, R151) -/

section
variable {o : BarObj} {n : Nat}

theorem BarObj.check_complete (h : o.pending = 0 ∧ o.tx = 0) : o.check = { o with count := o.count + 1, pending := o.init } := if_pos h

theorem BarObj.check_open (h : ¬ (o.pending = 0 ∧ o.tx = 0)) : o.check = o := if_neg h

theorem BarObj.credit_overshoot (htx : 0 < o.tx) (hn : o.tx < n) (hpending : o.pending = 0) :
    o.credit n = ({ o with count := o.count + 1, pending := o.init, ov := true, tx := o.tx - n }, true) :=
  if_pos ⟨htx, by omega, hpending⟩

/-- A credit that overshoots no phase lowers tx, down to −2^31 at most, and is followed by the check (R151). -/
theorem BarObj.credit_of_not_overshoot (h : ¬ (o.pending = 0 ∧ 0 < o.tx ∧ o.tx < n)) : o.credit n =
    ((if o.tx - n < -(2 ^ 31) then { o with tx := -(2 ^ 31), ov := true } else { o with tx := o.tx - n } : BarObj).check, false) :=
  if_neg fun ⟨htx, hn, hpending⟩ => h ⟨hpending, htx, by omega⟩

theorem BarObj.credit_exact (htx : o.tx = n) (hpending : o.pending = 0) :
    o.credit n = ({ o with count := o.count + 1, pending := o.init, tx := 0 }, false) := by
  rw [BarObj.credit_of_not_overshoot (by omega), if_neg (by omega), sub_eq_zero.2 htx,
    BarObj.check_complete (o := { o with tx := 0 }) ⟨hpending, rfl⟩]

theorem BarObj.credit_lowers (hover : ¬ (o.pending = 0 ∧ 0 < o.tx ∧ o.tx < n)) (hexact : ¬ (o.pending = 0 ∧ o.tx = n))
    (hroom : -(2 ^ 31) ≤ o.tx - n) : o.credit n = ({ o with tx := o.tx - n }, false) := by
  rw [BarObj.credit_of_not_overshoot hover, if_neg (not_lt.2 hroom), BarObj.check_open]
  exact fun ⟨hpending, htx⟩ => hexact ⟨hpending, sub_eq_zero.1 htx⟩

theorem BarObj.credit_saturates (hlow : o.tx - n < -(2 ^ 31)) (h : ¬ (0 < o.tx ∧ o.pending = 0)) :
    o.credit n = ({ o with tx := -(2 ^ 31), ov := true }, false) := by
  rw [BarObj.credit_of_not_overshoot fun ⟨hpending, htx, _⟩ => h ⟨htx, hpending⟩, if_pos hlow, BarObj.check_open]
  exact fun ⟨_, htx⟩ => absurd (show (-(2 ^ 31) : Int) = 0 from htx) (by decide)

theorem BarObj.phaseDone_count (o : BarObj) : o.phaseDone o.count = false := by
  rw [BarObj.phaseDone, sub_right_comm, sub_self]
  rfl

theorem BarObj.phaseDone_before (o : BarObj) : o.phaseDone (o.count - 1) = true := by
  rw [BarObj.phaseDone, sub_self]
  rfl

/-- A phase that completes counts as completed from then on. -/
theorem BarObj.phaseDone_complete (o : BarObj) : { o with count := o.count + 1 }.phaseDone o.count = true := by
  rw [BarObj.phaseDone, add_sub_cancel_right, sub_self]
  rfl

end

/-- Settles O22: the checks let each instruction go on to its object, and the object's changes are taken case by case. -/
theorem barrierObjects : Obligations.BarrierObjects := by
  refine ⟨?_, fun o => ⟨BarObj.check_complete, BarObj.check_open⟩, fun o n => BarObj.credit_overshoot, fun o n => BarObj.credit_exact,
    fun o n => BarObj.credit_lowers, fun o n => BarObj.credit_saturates,
    fun o => ⟨o.phaseDone_count, o.phaseDone_before, o.phaseDone_complete⟩⟩
  intro s a b d off g y n o put clean ends hplain
  refine ⟨exec_binit hplain, fun hat hbad => ?_, fun hat hbad hb => ?_, fun hat hclean => ?_, fun hat hclean hb => ?_⟩
  · have hbad := eq_true_of_ne_false hbad
    exact ⟨exec_barrive_poisoned hat hbad, exec_bexpect_poisoned hat hbad⟩
  · have hbad := eq_true_of_ne_false hbad
    exact ⟨exec_bwait_poisoned hat hb hbad, exec_btest_poisoned hat hb hbad⟩
  · exact ⟨exec_bexpect hat hclean hplain, traps_bexpect hat hclean, exec_barrive hat hclean hplain, holds_barrive hat hclean,
      traps_barrive hat hclean⟩
  · exact ⟨exec_bwait hat hb hclean, holds_bwait hat hb hclean, exec_btest hat hb hclean⟩

end Sys2Proof.Machine
end

section
/-! How commands become active, move their pieces, credit their barriers and complete (O45). -/

namespace Sys2Proof.Machine

/-! ### The moves of an engine (R274) -/

section
variable {s : State} {g : Nat} {q : Queue} {m : Cmd}

theorem exec_commandActivation (hg : g < Config.coreNumbers) (n : Nat) :
    exec (.commandActivation (moveNo g n) q) s = .next (s.activate g q n) := by
  have hmod : moveNo g n % Config.coreNumbers = g := by rw [moveNo, Nat.add_mul_mod_self_left, Nat.mod_eq_of_lt hg]
  have hdiv : moveNo g n / Config.coreNumbers = n := by
    rw [moveNo, Nat.add_mul_div_left _ _ (by decide), Nat.div_eq_of_lt hg, Nat.zero_add]
  show execCommandActivation (moveNo g n) q s = _
  rw [execCommandActivation, hmod, hdiv]

theorem exec_takesCommand (hg : g < Config.coreNumbers) (hnext : (s.work g).nextIn q = some m) (hchosen : s.chosen g q = some (g, q)) :
    exec (.commandActivation (moveNo g 0) q) s = .next (s.takeCmd g q m) := by
  rw [exec_commandActivation hg]
  simp only [State.activate, hnext, hchosen, if_true]

/-- The state of a command changed wherever it stands. -/
def State.markCmd (s : State) (g : Nat) (m : Cmd) (c : CmdState) : State := s.mapCmd g m.id fun y => { y with st := c }

theorem State.takeCmd_shadow (hst : m.st = .queued) (hbusy : s.engineBusy (engineQueues g q) = true) :
    s.takeCmd g q m = (s.turned g q).markCmd g m .shadow := by
  simp only [State.takeCmd, hst, hbusy, reduceCtorEq, if_true, if_false]
  rfl

section
variable (hidle : s.engineBusy (engineQueues g q) = false)
include hidle

theorem State.takeCmd_paused {p : Progress} (hst : m.st = .paused p) :
    s.takeCmd g q m = (s.turned g q).markCmd g m (.active p) := by
  simp only [State.takeCmd, hst, hidle, reduceCtorEq, Bool.false_eq_true, if_false]
  rfl

theorem State.takeCmd_queued (hst : m.st = .queued) : s.takeCmd g q m = (s.turned g q).runCmd g q m := by
  simp only [State.takeCmd, hst, hidle, reduceCtorEq, Bool.false_eq_true, if_false]

end

end

/-! ### Activation (R217, R285, R288, R340, R363) -/

section
variable {s t : State} {g : Nat} {q : Queue} {m : Cmd} {i cause : Nat} {a : Word}

theorem State.runCmd_begins {p : Plan} (hplan : s.plan g m = (t, .ok p)) (hwatch : t.cmdWatch g m = none)
    (hroom : t.planRoom g m p = true) : s.runCmd g q m = t.beginPlan g m p := by
  simp only [State.runCmd, hplan, hwatch, hroom, if_true]

theorem State.runCmd_watched {p : Plan} (hplan : s.plan g m = (t, .ok p)) (hwatch : t.cmdWatch g m = some (i, a)) :
    s.runCmd g q m = ((t.pull g i).failCmd g q m 0x08 a).cmdEntry g m fun e => { e with comparator := some i } := by
  simp only [State.runCmd, hplan, hwatch]
  rfl

theorem State.runCmd_faults (hplan : s.plan g m = (t, .error (.fault cause a))) (hwatch : cause ≠ 0x07 ∨ t.watchAt g m a = none) :
    s.runCmd g q m = t.failCmd g q m cause a := by
  have hnone : (if cause = 0x07 then t.watchAt g m a else none) = none := by
    rcases hwatch with hcause | hwatch
    · exact if_neg hcause
    · rw [hwatch, ite_self]
  simp only [State.runCmd, hplan, State.faultCmd, hnone]

theorem State.runCmd_faults_watched (hplan : s.plan g m = (t, .error (.fault 0x07 a))) (hwatch : t.watchAt g m a = some i) :
    s.runCmd g q m = ((t.pull g i).failCmd g q m 0x07 a).cmdEntry g m fun e =>
      { e with more := e.more ||| BitVec.ofNat 23 (2 ^ 0x08) } := by
  simp only [State.runCmd, hplan, State.faultCmd, if_true, hwatch]

theorem State.runCmd_parks {k : Access} {f : XFail} (hplan : s.plan g m = (t, .error (.park a k f))) :
    s.runCmd g q m = (t.recordFault g a k f true).markCmd g m .parked := by
  simp only [State.runCmd, hplan]
  rfl

theorem State.runCmd_poisoned (hplan : s.plan g m = (t, .error (.poison a))) : s.runCmd g q m = t.poisonCmd g m a := by
  simp only [State.runCmd, hplan]

theorem State.runCmd_retry (hplan : s.plan g m = (t, .error .retry)) : s.runCmd g q m = s := by
  simp only [State.runCmd, hplan]

theorem State.runCmd_walks {k : Walk} {ms : List Msg} (hplan : s.plan g m = (t, .error (.walk k ms))) (hwatch : t.cmdWatch g m = none) :
    s.runCmd g q m =
      (t.markCmd g m (.walking k)).setWork g { (t.markCmd g m (.walking k)).work g with misses := ms } := by
  simp only [State.runCmd, hplan, hwatch]
  rfl

end

/-! ### The pieces of an active command (R285, R353, R354) -/

section
variable {s : State} {g : Nat} {m : Cmd} {p : Progress} {tr : Transfer} {n : Nat} {a : Advance}

theorem State.tag_markCmd (s : State) (g : Nat) (m : Cmd) (c : CmdState) (h : Nat) : (s.markCmd g m c).tag h = s.tag h :=
  State.tag_setWork ..

/-- The bytes that a step has written are counted, once they are more than none (R354). -/
def State.countWritten (s : State) (g n : Nat) : State := if n = 0 then s else s.countBytes (s.tag g) n

/-- A step of transfer i that no failure met, with the lines of memory that it completes (R285). -/
theorem State.stepCmd_of_advance {i j : Nat} (hi : n % p.moves.length = i) (hj : n / p.moves.length = j)
    (hmove : p.moves[i]? = some tr) (hadvance : s.advance g tr j = some a) (hok : a.failed = none)
    {u : State} {r : Progress} (hlines : a.next.lineDone (p.move i a.rest) tr a = (u, r)) :
    (tr.servedAt a = none →
      s.stepCmd g m p n = (u.markCmd g m (.active r)).countWritten g (sumOf (a.wrote.map tr.counted)))
    ∧ ∀ pa, tr.servedAt a = some pa →
      (s.pieceTurn g pa = true → s.stepCmd g m p n =
        ((u.markCmd g m (.active r)).served pa ((u.markCmd g m (.active r)).tag g) 1).countWritten g (sumOf (a.wrote.map tr.counted)))
      ∧ (s.pieceTurn g pa = false → s.stepCmd g m p n = s) := by
  refine ⟨fun hserved => ?_, fun pa hserved => ⟨fun hturn => ?_, fun hturn => ?_⟩⟩
  · simp only [State.stepCmd, hi, hj, hmove, hadvance, hserved, hlines, hok, Option.all_none, Bool.not_true, Bool.false_eq_true, if_false]
    rfl
  · simp only [State.stepCmd, hi, hj, hmove, hadvance, hserved, hlines, hok, Option.all_some, hturn, Bool.not_true, Bool.false_eq_true,
      if_false]
    rfl
  · simp only [State.stepCmd, hi, hj, hmove, hadvance, hserved, Option.all_some, hturn, Bool.not_false, if_true]

/-! ### Sources (R285) -/

theorem length_takeBlock_le (b : Nat × Nat × Nat) (l : List Src) : (takeBlock b l).2.length ≤ l.length := by
  induction l with
  | nil => exact le_rfl
  | cons x r ih =>
    rw [takeBlock]
    split
    · exact Nat.le_succ_of_le ih
    · exact le_rfl

/-- The sources that are read next begin at the head of the list, and fewer remain. -/
theorem nextSrcs_cons {l xs rest : List Src} {x : Src} (h : nextSrcs l = (x :: xs, rest)) :
    ∃ r, l = x :: r ∧ rest.length ≤ r.length := by
  cases l with
  | nil => cases h
  | cons y r =>
    rw [nextSrcs] at h
    cases hblock : y.block with
    | none =>
      rw [hblock] at h
      cases h
      exact ⟨_, rfl, le_rfl⟩
    | some b =>
      simp only [hblock, takeBlock, or_true, if_true] at h
      cases h
      exact ⟨r, rfl, length_takeBlock_le b r⟩

section
variable {x : Src} {xs rest : List Src} (hready : tr.ready = []) (hsrcs : nextSrcs tr.srcs = (x :: xs, rest))

/-- What a transfer has fetched once some sources have been read. -/
def State.fetched (s : State) (g : Nat) (tr : Transfer) (l : List Src) : Moved :=
  l.foldl (fun v y => v.append (s.readSrc g y)) tr.got

/-- The step that has read the next sources of a transfer. -/
def State.fetchStep (s : State) (g : Nat) (tr : Transfer) (l rest : List Src) : Advance :=
  ⟨s, { tr with srcs := rest, got := s.fetched g tr l }, [], none⟩

/-- The address of a source piece that lies in memory. -/
def Src.memAddr : Src → Option Nat
  | .phys pa _ => some pa
  | _ => none

include hsrcs in
theorem Transfer.servedAt_fetchStep : tr.servedAt (s.fetchStep g tr (x :: xs) rest) = x.memAddr := by
  obtain ⟨r, hr, hlen⟩ := nextSrcs_cons hsrcs
  have hne : tr.srcs.length ≠ rest.length := by
    rw [hr, List.length_cons]
    omega
  refine (if_neg hne).trans ?_
  rw [hr]
  cases x <;> rfl

include hready hsrcs in
theorem State.advance_fetches (hsources : ∀ y ∈ x :: xs, s.srcReady g y = true) (j : Nat) :
    s.advance g tr j = some (s.fetchStep g tr (x :: xs) rest) := by
  simp only [State.advance, hready, List.getElem?_nil, hsrcs, List.all_eq_true.2 hsources, if_true]
  rfl

theorem State.lineDone_fetchStep {i : Nat} (hdsts : tr.dsts ≠ []) :
    s.lineDone (p.move i (s.fetchStep g tr (x :: xs) rest).rest) tr (s.fetchStep g tr (x :: xs) rest) =
      (s, { p with moves := listSet p.moves i { tr with srcs := rest, got := s.fetched g tr (x :: xs) } }) := by
  have hopen : tr.dsts.isEmpty = false := by simpa [List.isEmpty_eq_false_iff] using hdsts
  simp only [State.lineDone, State.fetchStep, Progress.move, hopen, Bool.false_eq_true, if_false]

end

/-! ### Destinations (R285, R363) -/

section
variable {d : Nat × Nat × Dst} {j : Nat}

/-- The destination pieces of a transfer that lie in one block with d, and the transfer without them. -/
def Transfer.beside (tr : Transfer) (d : Nat × Nat × Dst) : List (Nat × Nat × Dst) := tr.dsts.filter fun e => e.2.2.block == d.2.2.block
def Transfer.without (tr : Transfer) (d : Nat × Nat × Dst) : Transfer :=
  { tr with dsts := tr.dsts.filter fun e => e.2.2.block != d.2.2.block }

/-- The step that has written the block of a destination piece. -/
def State.writeStep (s : State) (g : Nat) (tr : Transfer) (d : Nat × Nat × Dst) : Advance :=
  ⟨s.putDsts g tr.got (tr.beside d), tr.without d, tr.beside d, none⟩

theorem Transfer.mem_beside (hd : tr.ready[j % tr.ready.length]? = some d) : d ∈ tr.beside d :=
  List.mem_filter.2 ⟨(List.mem_filter.1 (List.mem_of_getElem? hd)).1, beq_self_eq_true _⟩

theorem State.advance_writes (hd : tr.ready[j % tr.ready.length]? = some d) (hready : s.dstReady g d.2.2 = true)
    (hok : ∀ e ∈ tr.beside d, s.dstFails g e.2.2 = none) : s.advance g tr j = some (s.writeStep g tr d) := by
  have hnone : (tr.beside d).filterMap (fun e => s.dstFails g e.2.2) = [] := List.filterMap_eq_nil_iff.2 hok
  rw [Transfer.beside] at hnone
  simp only [State.advance, hd, hready, hnone, Bool.not_true, Bool.false_eq_true, if_false]
  rfl

/-- A block of a scratchpad: no agent of memory serves it, and it completes no line. -/
theorem State.writeStep_spad {h off i : Nat} (hd : tr.ready[j % tr.ready.length]? = some d) (hspad : d.2.2 = .spad h off) :
    tr.servedAt (s.writeStep g tr d) = none
    ∧ (s.writeStep g tr d).next.lineDone (p.move i (s.writeStep g tr d).rest) tr (s.writeStep g tr d) =
      (s.putDsts g tr.got (tr.beside d), p.move i (tr.without d)) := by
  obtain ⟨e, es, hes⟩ := List.exists_cons_of_ne_nil (List.ne_nil_of_mem (Transfer.mem_beside hd))
  have hblock : e.2.2.block = d.2.2.block := by
    have he : e ∈ tr.beside d := hes ▸ List.mem_cons_self
    exact beq_iff_eq.1 (List.mem_filter.1 he).2
  obtain ⟨k, n, dst⟩ := e
  simp only [State.writeStep, Transfer.servedAt, State.lineDone, hes]
  cases dst with
  | phys pa =>
    rw [hspad] at hblock
    cases hblock
  | spad | row | cell => exact ⟨rfl, rfl⟩

/-- A block of memory that came without poison, of a command that completes no line. -/
theorem State.writeStep_phys {pa i : Nat} (hphys : d.2.2 = .phys pa) (hlines : p.lines = []) (hhead : (tr.beside d).head? = some d)
    (hclean : ∀ e ∈ tr.beside d, (tr.got.part e.1 e.2.1).bad.any id = false) :
    tr.servedAt (s.writeStep g tr d) = some pa
    ∧ (s.writeStep g tr d).next.lineDone (p.move i (s.writeStep g tr d).rest) tr (s.writeStep g tr d) =
      (s.putDsts g tr.got (tr.beside d), p.move i (tr.without d)) := by
  obtain ⟨es, hes⟩ := List.head?_eq_some_iff.1 hhead
  have hbad : ((tr.beside d).any fun e => (tr.got.part e.1 e.2.1).bad.any id) = false :=
    List.any_eq_false.2 fun e he => Bool.eq_false_iff.1 (hclean e he)
  obtain ⟨k, n, dst⟩ := d
  obtain rfl : dst = .phys pa := hphys
  rw [hes] at hbad
  simp only [State.writeStep, Transfer.servedAt, State.lineDone, hes, hbad, Progress.move, hlines, Option.isSome_none, Bool.or_self,
    List.contains_nil, Bool.false_and, Bool.false_eq_true, if_false, true_and]

theorem State.putDsts_singleton {got : Moved} (hok : s.dstFails g d.2.2 = none) :
    s.putDsts g got [d] = s.putDst g d.2.2 (got.part d.1 d.2.1) := by
  simp only [State.putDsts, List.foldl_cons, List.foldl_nil, hok, Option.isSome_none, Bool.false_eq_true, if_false]

end

end

/-! ### Moves of an active command (R274, R285) -/

section
variable {s t : State} {g : Nat} {q : Queue} {m : Cmd} {r : List Cmd} (hg : g < Config.coreNumbers) (hqueue : (s.work g).queue q = m :: r)
include hg hqueue

theorem exec_stepCmd {p : Progress} (hst : m.st = .active p) (hruns : s.engineRuns g q = true) (n : Nat) :
    exec (.commandActivation (moveNo g (n + 1)) q) s = .next (s.stepCmd g m p n) := by
  rw [exec_commandActivation hg]
  simp only [State.activate, hqueue, hst, hruns, if_true]

theorem exec_walkEnds {w : Walk} {p : Plan} (hst : m.st = .walking w) (hsent : (s.work g).misses = []) (hworks : s.works g = true)
    (hplan : s.plan g m = (t, .ok p)) (hwatch : t.cmdWatch g m = none) (hroom : t.planRoom g m p = true) (n : Nat) :
    exec (.commandActivation (moveNo g (n + 1)) q) s = .next (t.beginPlan g m p) := by
  rw [exec_commandActivation hg, ← State.runCmd_begins (q := q) hplan hwatch hroom]
  simp only [State.activate, hqueue, hst, hsent, hworks, List.isEmpty_nil, Bool.and_self, if_true]

section
variable {p : Progress} {i : Nat} {tr : Transfer} (k : Nat) (hst : m.st = .active p) (hruns : s.engineRuns g q = true)
  (hi : i < p.moves.length) (hmove : p.moves[i]? = some tr)
include hst hruns hi hmove

/-- Move (k, i) of an active command is a step of its transfer i, with k choosing among the pieces that may be next. -/
theorem exec_transfer {a : Advance} (hadvance : s.advance g tr k = some a) (hok : a.failed = none)
    {u : State} {x : Progress} (hlines : a.next.lineDone (p.move i a.rest) tr a = (u, x)) :
    (tr.servedAt a = none → exec (.commandActivation (moveNo g (k * p.moves.length + i + 1)) q) s =
      .next ((u.markCmd g m (.active x)).countWritten g (sumOf (a.wrote.map tr.counted))))
    ∧ ∀ pa, tr.servedAt a = some pa →
      (s.pieceTurn g pa = true → exec (.commandActivation (moveNo g (k * p.moves.length + i + 1)) q) s = .next
        (((u.markCmd g m (.active x)).served pa ((u.markCmd g m (.active x)).tag g) 1).countWritten g (sumOf (a.wrote.map tr.counted))))
      ∧ (s.pieceTurn g pa = false → exec (.commandActivation (moveNo g (k * p.moves.length + i + 1)) q) s = .next s) := by
  have hmod : (k * p.moves.length + i) % p.moves.length = i := by rw [Nat.mul_add_mod', Nat.mod_eq_of_lt hi]
  have hdiv : (k * p.moves.length + i) / p.moves.length = k := by
    rw [Nat.mul_comm, Nat.mul_add_div (by omega), Nat.div_eq_of_lt hi, Nat.add_zero]
  obtain ⟨hlocal, hmemory⟩ := State.stepCmd_of_advance (m := m) hmod hdiv hmove hadvance hok hlines
  rw [exec_stepCmd hg hqueue hst hruns]
  exact ⟨fun hserved => congrArg _ (hlocal hserved), fun pa hserved =>
    ⟨fun hturn => congrArg _ ((hmemory pa hserved).1 hturn), fun hturn => congrArg _ ((hmemory pa hserved).2 hturn)⟩⟩

/-- A source block that is read: one of memory once its agent serves it. -/
theorem exec_fetches {x : Src} {xs rest : List Src} (hready : tr.ready = []) (hdsts : tr.dsts ≠ [])
    (hsrcs : nextSrcs tr.srcs = (x :: xs, rest)) (hsources : ∀ y ∈ x :: xs, s.srcReady g y = true) :
    let t := s.markCmd g m (.active { p with
      moves := listSet p.moves i { tr with srcs := rest, got := s.fetched g tr (x :: xs) } })
    (x.memAddr = none → exec (.commandActivation (moveNo g (k * p.moves.length + i + 1)) q) s = .next t)
    ∧ ∀ pa, x.memAddr = some pa →
      (s.pieceTurn g pa = true →
        exec (.commandActivation (moveNo g (k * p.moves.length + i + 1)) q) s = .next (t.served pa (s.tag g) 1))
      ∧ (s.pieceTurn g pa = false → exec (.commandActivation (moveNo g (k * p.moves.length + i + 1)) q) s = .next s) := by
  intro t
  have htag : t.tag g = s.tag g := s.tag_markCmd ..
  have hstep := exec_transfer hg hqueue k hst hruns hi hmove (State.advance_fetches hready hsrcs hsources k) rfl
    (State.lineDone_fetchStep hdsts)
  rw [Transfer.servedAt_fetchStep hsrcs] at hstep
  rw [← htag]
  exact hstep

section
variable {d : Nat × Nat × Dst} (hd : tr.ready[k % tr.ready.length]? = some d) (hready : s.dstReady g d.2.2 = true)
  (hok : ∀ e ∈ tr.beside d, s.dstFails g e.2.2 = none)
include hd hready hok

theorem exec_writes_spad {h off : Nat} (hspad : d.2.2 = .spad h off) :
    exec (.commandActivation (moveNo g (k * p.moves.length + i + 1)) q) s = .next
      (((s.putDsts g tr.got (tr.beside d)).markCmd g m (.active (p.move i (tr.without d)))).countWritten g
        (sumOf ((tr.beside d).map tr.counted))) := by
  obtain ⟨hserved, hlines⟩ := State.writeStep_spad (s := s) (g := g) (p := p) (i := i) hd hspad
  exact (exec_transfer hg hqueue k hst hruns hi hmove (State.advance_writes hd hready hok) rfl hlines).1 hserved

theorem exec_writes_phys {pa : Nat} (hphys : d.2.2 = .phys pa) (hnone : p.lines = []) (hhead : (tr.beside d).head? = some d)
    (hturn : s.pieceTurn g pa = true) (hclean : ∀ e ∈ tr.beside d, (tr.got.part e.1 e.2.1).bad.any id = false) :
    let v := (s.putDsts g tr.got (tr.beside d)).markCmd g m (.active (p.move i (tr.without d)))
    exec (.commandActivation (moveNo g (k * p.moves.length + i + 1)) q) s = .next
      ((v.served pa (v.tag g) 1).countWritten g (sumOf ((tr.beside d).map tr.counted))) := by
  obtain ⟨hserved, hlines⟩ := State.writeStep_phys (s := s) (g := g) (i := i) hphys hnone hhead hclean
  exact ((exec_transfer hg hqueue k hst hruns hi hmove (State.advance_writes hd hready hok) rfl hlines).2 pa hserved).1 hturn

end

end

end

/-! ### Credits (R151, R284) -/

theorem BarObj.check_te (o : BarObj) : o.check.te = o.te := by
  unfold BarObj.check
  split <;> rfl

/-- A credit leaves the enable of the overshoot trap. -/
theorem BarObj.credit_te (o : BarObj) (n : Nat) : (o.credit n).1.te = o.te := by
  unfold BarObj.credit
  dsimp only
  split
  · rfl
  · rw [BarObj.check_te]
    split <;> rfl

/-- The object of a command after an ENGINE_CREDIT of n bytes, and whether the credit crossed zero. -/
def State.creditedBar (s : State) (g off n : Nat) (m : Cmd) (p : Progress) : BarObj × Bool :=
  (readBar (s.work g).spad off).credit (p.credits m.body n)

/-- The machine in which a command has credited its barrier. -/
def State.credited (s : State) (g off n : Nat) (m : Cmd) (p : Progress) : State :=
  (s.creditBar g m off (s.creditedBar g off n m p).1).markCmd g m (.active { p with owes := p.owes - p.credits m.body n })

section
variable {s : State} {g n off : Nat} {q : Queue} {m : Cmd} {r : List Cmd} {p : Progress} (hqueue : (s.work g).queue q = m :: r)
include hqueue

section
variable (hst : m.st = .active p) (hbar : m.body.bar = some off) (hn : 0 < p.credits m.body n) (hruns : s.engineRuns g q = true)
  (hregion : regionOk true (s.work g).power off false = true) (hroom : s.creditRoom g m off (s.creditedBar g off n m p).1 = true)
include hst hbar hn hruns hregion hroom

theorem exec_engineCredit : exec (.engineCredit g q n) s = .next
    (if (s.creditedBar g off n m p).2 && (s.creditedBar g off n m p).1.te then (s.credited g off n m p).overshoot g q m off
    else s.credited g off n m p) := by
  rw [State.creditedBar] at hroom
  rw [State.creditedBar, BarObj.credit_te]
  show execEngineCredit g q n s = _
  simp only [execEngineCredit, hqueue, hst, hbar, hregion, if_true, hruns, hroom, decide_eq_false hn.ne', Bool.not_true, Bool.or_self,
    Bool.false_eq_true, if_false]
  rfl

theorem exec_engineCredit_lands (hover : ((s.creditedBar g off n m p).2 && (s.creditedBar g off n m p).1.te) = false) :
    exec (.engineCredit g q n) s = .next (s.credited g off n m p) := by
  rw [exec_engineCredit hqueue hst hbar hn hruns hregion hroom, hover]
  rfl

/-- An overshoot of an object with TE is noted in the ring entry of an attached command (R210). -/
theorem exec_engineCredit_overshoots (hover : ((s.creditedBar g off n m p).2 && (s.creditedBar g off n m p).1.te) = true)
    (hattached : m.attached = true) : exec (.engineCredit g q n) s = .next ((s.credited g off n m p).cmdEntry g m fun e =>
      if e.cause = 0 then { e with cause := 0x0B, fault := BitVec.ofNat 64 off } else e) := by
  rw [exec_engineCredit hqueue hst hbar hn hruns hregion hroom, hover, if_pos rfl, State.overshoot, if_pos hattached]

end

/-! ### Completion and the events of a walk (R275, R276, R342) -/

/-- A command that has nothing left to do, or a fence that stands first in all its queues. -/
def State.CmdEnds (s : State) (g : Nat) (q : Queue) (m : Cmd) : Prop :=
  ((∀ w, m.body ≠ .fence w) ∧ m.st.ended = true ∧ s.engineRuns g q = true)
    ∨ ∃ w, m.body = .fence w ∧ (s.work g).fencePasses m w = true ∧ s.runs g = true

theorem exec_commandCompletion (hends : s.CmdEnds g q m) : exec (.commandCompletion g q) s = .next (s.finishCmd g m) := by
  show execCommandCompletion g q s = _
  rcases hends with ⟨hbody, hended, hruns⟩ | ⟨w, hbody, hpasses, hruns⟩
  · simp only [execCommandCompletion, hqueue, hended, hruns]
    cases hm : m.body
    case fence w => exact absurd hm (hbody w)
    all_goals rfl
  · simp only [execCommandCompletion, hqueue, hbody, hpasses, hruns, Bool.and_self, if_true]

end

section
variable {s : State} {g : Nat} {m : Cmd}

theorem State.finishCmd_leaves (hlate : s.lateEntry g m = none) :
    s.finishCmd g m = (s.dropCmd g m.id).cmdEntry g m RingEntry.complete := by
  simp only [State.finishCmd, hlate]

theorem State.finishCmd_late (hlate : s.lateEntry g m ≠ none) : s.finishCmd g m =
    ((s.markCmd g m .faulted).cmdEntry g m fun e => { e with st := .faulted, finished := true }).holdBehind g m := by
  obtain ⟨e, he⟩ := Option.ne_none_iff_exists'.1 hlate
  simp only [State.finishCmd, he]
  rfl

theorem exec_tierMissEvent {e : Msg} {es : List Msg} (hmisses : (s.work g).misses = e :: es) (hroom : s.requestRoom g = true)
    (hworks : s.works g = true) : exec (.tierMissEvent g) s =
      .next ((s.setWork g { s.work g with misses := es }).enqueue g ⟨.msg e, e.sctx, []⟩) := by
  show execTierMissEvent g s = _
  simp only [execTierMissEvent, hmisses, hroom, hworks, Bool.and_self, if_true]

end

/-- Settles O45: each step is the move, the credit or the completion that its conditions choose. -/
theorem engineEvents : Obligations.EngineEvents := by
  intro s t g n q m act u
  refine ⟨fun hg hnext hchosen => ?_, fun r hqueue => ⟨fun p i tr k hg hst hruns hi hmove => ?_, ?_, ?_, ?_⟩,
    fun e es => exec_tierMissEvent⟩
  · have htakes := exec_takesCommand hg hnext hchosen
    refine ⟨fun hst hbusy => htakes.trans (congrArg _ (State.takeCmd_shadow hst hbusy)), fun hidle =>
      ⟨fun p hst => htakes.trans (congrArg _ (State.takeCmd_paused hidle hst)), fun hst => ?_⟩⟩
    have hrun := htakes.trans (congrArg _ (State.takeCmd_queued hidle hst))
    exact ⟨fun p hplan hwatch hroom => hrun.trans (congrArg _ (State.runCmd_begins hplan hwatch hroom)),
      fun p i a hplan hwatch => hrun.trans (congrArg _ (State.runCmd_watched hplan hwatch)),
      fun cause a hplan => ⟨fun hwatch => hrun.trans (congrArg _ (State.runCmd_faults hplan hwatch)), fun hcause i hwatch =>
        hrun.trans (congrArg _ (hcause ▸ State.runCmd_faults_watched (hcause ▸ hplan) hwatch))⟩,
      fun va k f hplan => hrun.trans (congrArg _ (State.runCmd_parks hplan)),
      fun a hplan => hrun.trans (congrArg _ (State.runCmd_poisoned hplan)),
      fun hplan => hrun.trans (congrArg _ (State.runCmd_retry hplan)),
      fun k ms hplan hwatch => hrun.trans (congrArg _ (State.runCmd_walks hplan hwatch))⟩
  · intro go move
    constructor
    · intro hready hdsts x xs rest hsrcs hsources got
      obtain ⟨hlocal, hmemory⟩ := exec_fetches hg hqueue k hst hruns hi hmove hready hdsts hsrcs hsources
      exact ⟨fun h off l hx => hlocal (hx ▸ rfl), fun pa l hx _ => hmemory pa (hx ▸ rfl)⟩
    · intro d hd hready ds tr1 n done put hok
      exact ⟨fun h off hspad => exec_writes_spad hg hqueue k hst hruns hi hmove hd hready hok hspad,
        fun pa hphys hlines hhead hturn hclean =>
          exec_writes_phys hg hqueue k hst hruns hi hmove hd hready hok hphys hlines hhead hturn hclean,
        fun hone => hone ▸ State.putDsts_singleton (hok d (hone ▸ List.mem_singleton_self d))⟩
  · exact fun w p k hg hst hsent hworks hplan hwatch hroom => exec_walkEnds hg hqueue hst hsent hworks hplan hwatch hroom k
  · intro p off hst hbar hn hruns hregion o hroom v
    exact ⟨exec_engineCredit_lands hqueue hst hbar hn hruns hregion hroom,
      exec_engineCredit_overshoots hqueue hst hbar hn hruns hregion hroom⟩
  · intro ends hends
    have hfinish := exec_commandCompletion hqueue hends
    exact ⟨fun hlate => hfinish.trans (congrArg _ (State.finishCmd_leaves hlate)),
      fun hlate => hfinish.trans (congrArg _ (State.finishCmd_late hlate))⟩

end Sys2Proof.Machine
end

section
/-! The counting fabric: balancers and exits (O38). -/

namespace Sys2Proof.Machine

theorem listSet_eq_set {α : Type} : ∀ (l : List α) (i : Nat) (a : α), listSet l i a = l.set i a
  | [], _, _ => rfl
  | _ :: _, 0, _ => rfl
  | b :: r, i + 1, a => congrArg (b :: ·) (listSet_eq_set r i a)

theorem getElem?_listSet_self {α : Type} {l : List α} {i : Nat} (h : i < l.length) (a : α) : (listSet l i a)[i]? = some a := by
  rw [listSet_eq_set, List.getElem?_set_self h]

/-- What stood at a place, put back over what was put there. -/
theorem listSet_restore {α : Type} {l : List α} {i : Nat} (h : i < l.length) (a d : α) :
    listSet (listSet l i a) i ((l[i]?).getD d) = l := by
  rw [listSet_eq_set, listSet_eq_set, List.set_set, List.getElem?_eq_getElem h, Option.getD_some, List.set_getElem_self]

theorem bitOf_not (b : Bool) : bitOf (!b) = 1 - bitOf b := by cases b <;> rfl

theorem bitOf_beq_zero (b : Bool) : (bitOf b == 0) = !b := by cases b <;> rfl

namespace Counter

section
variable {k : Counter} {i j : Nat}

/-! ### Balancers (R162) -/

theorem tokenAt_bit (hi : i < k.bal.length) : (k.tokenAt i).2.bal[i]? = some !(k.bal[i]?).getD false :=
  getElem?_listSet_self hi _

/-- An antitoken after a token takes the token's output and restores the balancer. -/
theorem antiAt_tokenAt (hi : i < k.bal.length) : (k.tokenAt i).2.antiAt i = ((k.tokenAt i).1, k) := by
  have hbit := tokenAt_bit (k := k) hi
  have hback := listSet_restore hi (!(k.bal[i]?).getD false) false
  rw [antiAt, hbit, Option.getD_some, Bool.not_not]
  exact congrArg (fun l => ((k.tokenAt i).1, { k with bal := l })) hback

/-! ### Exits (R162, R163) -/

/-- The count of exit j. -/
def countAt (k : Counter) (j : Nat) : Int := (k.c[j]?).getD 0

/-- The values that cancels gave back to exit j, the top first. -/
def holesAt (k : Counter) (j : Nat) : List Int := (k.holes[j]?).getD []

/-- The value that exit j hands out at a count. -/
def valueAt (k : Counter) (j : Nat) (c : Int) : Int := (j : Int) + k.w * c

theorem exitToken_hole {h : Int} {r : List Int} (hh : k.holesAt j = h :: r) :
    k.exitToken j = (some h, { k with holes := listSet k.holes j r }) := by
  rw [exitToken, show (k.holes[j]?).getD [] = h :: r from hh]

theorem exitToken_counts (hh : k.holesAt j = []) (hok : valueOk (k.valueAt j (k.countAt j)) = true) :
    k.exitToken j = (some (k.valueAt j (k.countAt j)), { k with c := listSet k.c j (k.countAt j + 1) }) := by
  rw [exitToken, show (k.holes[j]?).getD [] = [] from hh]
  exact if_pos hok

theorem exitToken_exhausts (hh : k.holesAt j = []) (hout : ¬ valueOk (k.valueAt j (k.countAt j)) = true) :
    k.exitToken j = (none, { k with exhausted := true }) := by
  rw [exitToken, show (k.holes[j]?).getD [] = [] from hh]
  exact if_neg hout

theorem exitAnti_counts (hok : valueOk (k.valueAt j (k.countAt j - 1)) = true) :
    k.exitAnti j = (some (k.valueAt j (k.countAt j - 1)), { k with
      c := listSet k.c j (k.countAt j - 1),
      holes := listSet k.holes j ((k.holesAt j).erase (k.valueAt j (k.countAt j - 1))) }) :=
  if_pos hok

theorem exitAnti_exhausts (hout : valueOk (k.valueAt j (k.countAt j - 1)) = false) :
    k.exitAnti j = (none, { k with exhausted := true }) :=
  if_neg (Bool.eq_false_iff.1 hout)

/-- An antitoken after a token takes the token's value back and restores the exit. -/
theorem exitAnti_exitToken (hj : j < k.c.length) (hlen : k.holes.length = k.c.length) (hh : k.holesAt j = [])
    (hok : valueOk (k.valueAt j (k.countAt j)) = true) :
    (k.exitToken j).2.exitAnti j = (some (k.valueAt j (k.countAt j)), k) := by
  rw [exitToken_counts hh hok]
  set q : Counter := { k with c := listSet k.c j (k.countAt j + 1) } with hq
  have hcount : q.countAt j - 1 = k.countAt j := by
    rw [countAt, hq, getElem?_listSet_self hj, Option.getD_some, add_sub_cancel_right]
  have hcs : listSet q.c j (k.countAt j) = k.c := listSet_restore hj (k.countAt j + 1) 0
  have hholes : listSet q.holes j ((q.holesAt j).erase (q.valueAt j (k.countAt j))) = k.holes := by
    have hempty : q.holesAt j = [] := hh
    rw [hempty, List.erase_nil, listSet_eq_set, ← hh, holesAt, List.getElem?_eq_getElem (hlen ▸ hj), Option.getD_some,
      List.set_getElem_self]
  rw [exitAnti_counts (hcount ▸ hok), hcount, hcs, hholes]
  rfl

end

/-! ### Cancels (R162) -/

section
variable {k : Counter} {v : Int}

/-- A cancel finds no value to take back: negative, not handed out yet, or taken back already. -/
def CancelGone (k : Counter) (v : Int) : Prop :=
  v < 0 ∨ v ≥ k.valueAt (k.exitFor v) (k.countAt (k.exitFor v)) ∨ v ∈ k.holesAt (k.exitFor v)

theorem exitCancel_gone (h : k.CancelGone v) : k.exitCancel v = (2, k) :=
  if_pos (h.imp_right (Or.imp_right List.contains_iff_mem.2))

theorem exitCancel_live (h : ¬ k.CancelGone v) : k.exitCancel v =
    if (k.holesAt (k.exitFor v)).length = 4 then (1, k)
    else (0, { k with holes := listSet k.holes (k.exitFor v) (v :: k.holesAt (k.exitFor v)) }) :=
  if_neg fun hgone => h (hgone.imp_right (Or.imp_right List.contains_iff_mem.1))

end

end Counter

/-- Settles O38: each row of the table of R162 by the branch that its conditions choose. -/
theorem balancersAndExits : Obligations.BalancersAndExits := by
  intro k i j v hi hj hlen b c hs free x xs gone
  have hholes : j < k.holes.length := hlen ▸ hj
  refine ⟨rfl, (Counter.tokenAt_bit hi).trans (congrArg some (bitOf_beq_zero _).symm), congrArg (k.w + 2 * i + ·) (bitOf_not _),
    Counter.antiAt_tokenAt hi, fun hempty hok => ⟨?_, ?_, Counter.exitAnti_exitToken hj hlen hempty hok⟩, fun h r hstack => ?_,
    Counter.exitToken_exhausts, fun hok => ?_, Counter.exitAnti_exhausts, Counter.exitCancel_gone,
    fun hlive hfull => (Counter.exitCancel_live hlive).trans (if_pos hfull),
    fun hlive hroom => (Counter.exitCancel_live hlive).trans (if_neg hroom)⟩
  · rw [Counter.exitToken_counts hempty hok]
    rfl
  · rw [Counter.exitToken_counts hempty hok]
    exact getElem?_listSet_self hj _
  · rw [Counter.exitToken_hole hstack]
    exact ⟨rfl, rfl, getElem?_listSet_self hholes _⟩
  · rw [Counter.exitAnti_counts hok]
    exact ⟨rfl, getElem?_listSet_self hj _, getElem?_listSet_self hholes _⟩

end Sys2Proof.Machine
end

section
/-! The counting fabric: the counter instructions (O39). -/

namespace Sys2Proof.Machine

/-! ### The reserved bits of a reference (R157) -/

theorem field_eq_zero_iff (x : Word) (p n : Nat) : field x p n = 0 ↔ ∀ i < n, x.getLsbD (p + i) = false := by
  have hfield : field x p n = (x.extractLsb' p n).toNat := by
    rw [BitVec.extractLsb'_toNat, Nat.shiftRight_eq_div_pow]
    rfl
  rw [hfield, show (x.extractLsb' p n).toNat = 0 ↔ x.extractLsb' p n = 0 from BitVec.toNat_inj (y := 0#n)]
  constructor
  · intro h i hi
    have hbit := congrArg (·.getLsbD i) h
    simpa [hi] using hbit
  · intro h
    refine BitVec.eq_of_getLsbD_eq fun i hi => ?_
    simp [hi, h i hi]

theorem getLsbD_lowOnes {p i : Nat} (hi : i < 64) : (BitVec.ofNat 64 (2 ^ p - 1)).getLsbD i = decide (i < p) := by
  rw [BitVec.getLsbD_ofNat, Nat.testBit_two_pow_sub_one, decide_eq_true hi, Bool.true_and]

/-- A reference whose bits from p on are 0 passes the mask of those bits. -/
theorem and_high_eq_zero_iff (x : Word) {p : Nat} (hp : p ≤ 64) :
    x &&& ~~~(BitVec.ofNat 64 (2 ^ p - 1)) = 0 ↔ field x p (64 - p) = 0 := by
  have hbit : ∀ i < 64, (x &&& ~~~(BitVec.ofNat 64 (2 ^ p - 1))).getLsbD i = (x.getLsbD i && !decide (i < p)) := fun i hi => by
    rw [BitVec.getLsbD_and, BitVec.getLsbD_not, getLsbD_lowOnes hi, decide_eq_true hi, Bool.true_and]
  rw [field_eq_zero_iff]
  constructor
  · intro h i hi
    have hhigh := hbit (p + i) (by omega)
    rw [h, decide_eq_false (by omega), Bool.not_false, Bool.and_true] at hhigh
    exact hhigh.symm.trans BitVec.getLsbD_zero
  · intro h
    refine BitVec.eq_of_getLsbD_eq fun i hi => (hbit i hi).trans ?_
    by_cases hip : i < p
    · simp [hip]
    · have hhigh := h (i - p) (by omega)
      rw [Nat.add_sub_cancel' (Nat.le_of_not_lt hip)] at hhigh
      simp [hhigh]

theorem and_refMask_eq_zero_iff (x : Word) : x &&& refMask = 0 ↔ field x 18 46 = 0 :=
  and_high_eq_zero_iff x (p := 18) (by decide)

/-- The selector of CREAD, bit 18, is no reserved bit (R177). -/
def readMask : Word := refMask &&& ~~~0x40000

theorem and_readMask_eq_zero_iff (x : Word) : x &&& readMask = 0 ↔ field x 19 45 = 0 :=
  and_high_eq_zero_iff x (p := 19) (by decide)

theorem field_read_of_reference {x : Word} (h : field x 18 46 = 0) : field x 19 45 = 0 :=
  (field_eq_zero_iff x 19 45).2 fun i hi => by
    have hbit := (field_eq_zero_iff x 18 46).1 h (i + 1) (by omega)
    rwa [show 18 + (i + 1) = 19 + i by omega] at hbit

/-! ### The checks of a reference (R157, R163) -/

/-- The key that a reference stands for in the partition of the executing core. -/
def State.keyOf (s : State) (x : Word) : Nat := counterKey (s.tag s.cur.1) (field x 12 6) (field x 0 12)

/-- The counter that it names there, if the partition has one. -/
def State.referred (s : State) (x : Word) : Option Counter := s.counter (s.tag s.cur.1) (s.keyOf x)

section
variable {s : State} {x mask : Word} {worn : Bool} {go : Nat → Counter → State} {k : Counter}

theorem State.withCounter_reserved (h : x &&& mask ≠ 0) : s.withCounter x mask worn go = s.trap 0x04 := if_pos h

section
variable (h : x &&& mask = 0)
include h

theorem State.withCounter_unknown (hno : s.referred x = none) : s.withCounter x mask worn go = s.trap 0x0A := by
  rw [State.withCounter, if_neg (not_not.2 h), show s.counter _ (counterKey _ _ _) = none from hno]

theorem State.withCounter_exhausted (hk : s.referred x = some k) (hend : k.exhausted = true) :
    s.withCounter x mask false go = s.trap 0x0A := by
  rw [State.withCounter, if_neg (not_not.2 h), show s.counter _ (counterKey _ _ _) = some k from hk]
  exact if_pos (by rw [hend]; rfl)

theorem State.withCounter_named (hk : s.referred x = some k) (hfit : k.exhausted = false ∨ worn = true) :
    s.withCounter x mask worn go = go (s.keyOf x) k := by
  have hpass : ¬ (k.exhausted && !worn) = true := by
    rcases hfit with hfit | hfit <;> simp [hfit]
  rw [State.withCounter, if_neg (not_not.2 h), show s.counter _ (counterKey _ _ _) = some k from hk]
  exact if_neg hpass

end
end

/-! ### Returns at a core that keeps no log (R372) -/

section
variable {s : State}

theorem State.chunkEnd_of_unlogged {g : Nat} (h : Unlogged s g) (c kind : Nat) (host : Option Msg) :
    s.chunkEnd g c kind host = some s := by
  have hmode : s.logMode g = 0 := h
  simp [State.chunkEnd, hmode]

theorem State.returns_of_unlogged (h : Unlogged s s.cur.1) (go : State → State) : s.returns go = go s := by
  rw [State.returns, State.chunkEnd_of_unlogged h]

theorem State.returns_of_stalled (h : s.chunkEnd s.cur.1 s.cur.2 1 none = none) (go : State → State) :
    s.returns go = (s.stalled s.cur.1 s.cur.2 1).hold (.blocked .turn) := by
  rw [State.returns, h]

end

/-! ### The forms that begin with the check of their reference (R157, R163) -/

section
variable {i : Instr} {s : State} {x mask : Word} {worn : Bool} {k : Counter}

/-- Instruction i checks reference x, with the bits of the mask reserved, and goes on with what it names. -/
def AsksCounter (i : Instr) (s : State) (x mask : Word) (worn : Bool) : Prop :=
  ∃ go, exec i s = .next (s.withCounter x mask worn go)

theorem AsksCounter.traps_reserved (hi : AsksCounter i s x mask worn) (h : x &&& mask ≠ 0) : Traps i s 0x04 0 := by
  obtain ⟨go, hgo⟩ := hi
  exact hgo.trans (congrArg _ (State.withCounter_reserved h))

theorem AsksCounter.traps_unknown (hi : AsksCounter i s x mask worn) (h : x &&& mask = 0) (hno : s.referred x = none) :
    Traps i s 0x0A 0 := by
  obtain ⟨go, hgo⟩ := hi
  exact hgo.trans (congrArg _ (State.withCounter_unknown h hno))

theorem AsksCounter.traps_exhausted (hi : AsksCounter i s x mask false) (h : x &&& mask = 0) (hk : s.referred x = some k)
    (hend : k.exhausted = true) : Traps i s 0x0A 0 := by
  obtain ⟨go, hgo⟩ := hi
  exact hgo.trans (congrArg _ (State.withCounter_exhausted h hk hend))

end

section
variable {s : State} {k : Counter} {d a b : XReg} {w : BitVec 3} {p : BitVec 2} (hspec : s.speculative s.cur.1 s.cur.2 = false)
include hspec

/-! ### CNEW (R173) -/

section
variable (hlog : Unlogged s s.cur.1)
include hlog

theorem exec_cnew_allocates {n : Nat} {u : State} (h : s.newCounter (s.tag s.cur.1) s.cur.1 p.toNat (2 ^ w.toNat) = some (n, u)) :
    exec (.cnew d p w) s = .next (writeX u 2 d (pack [(0, n % 4096), (12, chipOf s.cur.1)])) := by
  show execCnew d p w s = _
  rw [execCnew, State.whenSafe_of_not_speculative hspec, State.returns_of_unlogged hlog, h]

theorem exec_cnew_full (h : s.newCounter (s.tag s.cur.1) s.cur.1 p.toNat (2 ^ w.toNat) = none) :
    exec (.cnew d p w) s = .next (writeX s 2 d (BitVec.allOnes 64)) := by
  show execCnew d p w s = _
  rw [execCnew, State.whenSafe_of_not_speculative hspec, State.returns_of_unlogged hlog, h]

end

theorem exec_cnew_stalled (h : s.chunkEnd s.cur.1 s.cur.2 1 none = none) :
    exec (.cnew d p w) s = .next ((s.stalled s.cur.1 s.cur.2 1).hold (.blocked .turn)) := by
  show execCnew d p w s = _
  rw [execCnew, State.whenSafe_of_not_speculative hspec, State.returns_of_stalled h]

/-! ### What each form asks of its reference -/

theorem asks_ctake : AsksCounter (.ctake d a) s (s.x a) refMask false :=
  ⟨_, congrArg _ (State.whenSafe_of_not_speculative hspec _)⟩

theorem asks_cgive : AsksCounter (.cgive d a) s (s.x a) refMask false :=
  ⟨_, congrArg _ (State.whenSafe_of_not_speculative hspec _)⟩

theorem asks_ccancel : AsksCounter (.ccancel d a b) s (s.x a) refMask false :=
  ⟨_, congrArg _ (State.whenSafe_of_not_speculative hspec _)⟩

theorem asks_cfree : AsksCounter (.cfree a) s (s.x a) refMask true :=
  ⟨_, congrArg _ (State.whenSafe_of_not_speculative hspec _)⟩

theorem asks_cread : AsksCounter (.cread d a) s (s.x a) readMask true :=
  ⟨_, congrArg _ (State.whenSafe_of_not_speculative hspec _)⟩

theorem asks_carm (hb : field (s.x b) 47 16 = 0) : AsksCounter (.carm a b) s (s.x a) refMask false :=
  ⟨_, congrArg _ ((State.whenSafe_of_not_speculative hspec _).trans (if_neg (not_not.2 hb)))⟩

theorem asks_cwait (hb : field (s.x b) 16 48 = 0) : AsksCounter (.cwait a b) s (s.x a) refMask false :=
  ⟨_, congrArg _ ((State.whenSafe_of_not_speculative hspec _).trans (if_neg (not_not.2 hb)))⟩

theorem traps_carm_operand (hb : field (s.x b) 47 16 ≠ 0) : Traps (.carm a b) s 0x04 0 :=
  congrArg Host.Outcome.next ((State.whenSafe_of_not_speculative hspec _).trans (if_pos hb))

theorem traps_cwait_operand (hb : field (s.x b) 16 48 ≠ 0) : Traps (.cwait a b) s 0x04 0 :=
  congrArg Host.Outcome.next ((State.whenSafe_of_not_speculative hspec _).trans (if_pos hb))

theorem traps_of_reserved (h : field (s.x a) 18 46 ≠ 0) :
    ∀ i ∈ [Instr.cfree a, .ctake d a, .cgive d a, .ccancel d a b, .carm a b, .cwait a b], Traps i s 0x04 0 := by
  have hmask : s.x a &&& refMask ≠ 0 := mt (and_refMask_eq_zero_iff _).1 h
  have hcarm : Traps (.carm a b) s 0x04 0 := by
    by_cases hb : field (s.x b) 47 16 = 0
    · exact (asks_carm hspec hb).traps_reserved hmask
    · exact traps_carm_operand hspec hb
  have hcwait : Traps (.cwait a b) s 0x04 0 := by
    by_cases hb : field (s.x b) 16 48 = 0
    · exact (asks_cwait hspec hb).traps_reserved hmask
    · exact traps_cwait_operand hspec hb
  simp only [List.forall_mem_cons, List.not_mem_nil, false_imp_iff, implies_true, and_true]
  exact ⟨(asks_cfree hspec).traps_reserved hmask, (asks_ctake hspec).traps_reserved hmask, (asks_cgive hspec).traps_reserved hmask,
    (asks_ccancel hspec).traps_reserved hmask, hcarm, hcwait⟩

section
variable (hx : field (s.x a) 18 46 = 0)
include hx

theorem traps_of_unknown (hno : s.referred (s.x a) = none) :
    ∀ i ∈ [Instr.cfree a, .ctake d a, .cgive d a, .ccancel d a b, .cread d a], Traps i s 0x0A 0 := by
  have hmask := (and_refMask_eq_zero_iff _).2 hx
  have hread := (and_readMask_eq_zero_iff _).2 (field_read_of_reference hx)
  simp only [List.forall_mem_cons, List.not_mem_nil, false_imp_iff, implies_true, and_true]
  exact ⟨(asks_cfree hspec).traps_unknown hmask hno, (asks_ctake hspec).traps_unknown hmask hno,
    (asks_cgive hspec).traps_unknown hmask hno, (asks_ccancel hspec).traps_unknown hmask hno,
    (asks_cread hspec).traps_unknown hread hno⟩

theorem traps_of_exhausted (hk : s.referred (s.x a) = some k) (hend : k.exhausted = true) :
    ∀ i ∈ [Instr.ctake d a, .cgive d a, .ccancel d a b], Traps i s 0x0A 0 := by
  have hmask := (and_refMask_eq_zero_iff _).2 hx
  simp only [List.forall_mem_cons, List.not_mem_nil, false_imp_iff, implies_true, and_true]
  exact ⟨(asks_ctake hspec).traps_exhausted hmask hk hend, (asks_cgive hspec).traps_exhausted hmask hk hend,
    (asks_ccancel hspec).traps_exhausted hmask hk hend⟩

end

/-! ### CREAD (R177) -/

theorem exec_cread (hlog : Unlogged s s.cur.1) (hx : field (s.x a) 19 45 = 0) (hk : s.referred (s.x a) = some k) :
    exec (.cread d a) s = .next (writeX s 2 d (if (s.x a).getLsbD 18 then
        pack [(0, k.p.toNat), (16, k.pennant.code), (18, bitOf k.rep), (19, bitOf k.exhausted)]
      else valueWord (k.c.foldl (· + ·) 0))) := by
  have hmask := (and_readMask_eq_zero_iff _).2 hx
  exact congrArg Host.Outcome.next ((State.whenSafe_of_not_speculative hspec _).trans
    ((State.withCounter_named hmask hk (.inr rfl)).trans (State.returns_of_unlogged hlog _)))

section
variable (hx : field (s.x a) 18 46 = 0) (hk : s.referred (s.x a) = some k)
include hx hk

/-- Outside speculative events a reference that names a counter of the partition, fit for the operation, passes. -/
theorem whenSafe_withCounter {worn : Bool} (hfit : k.exhausted = false ∨ worn = true) (go : Nat → Counter → State) :
    s.whenSafe (s.withCounter (s.x a) refMask worn go) = go (s.keyOf (s.x a)) k :=
  (State.whenSafe_of_not_speculative hspec _).trans (State.withCounter_named ((and_refMask_eq_zero_iff _).2 hx) hk hfit)

/-! ### CFREE (R174) -/

theorem exec_cfree (hlog : Unlogged s s.cur.1) (hquiet : s.quiescent (s.tag s.cur.1) (s.keyOf (s.x a)) = true) :
    exec (.cfree a) s = .next ((s.freeCounter (s.tag s.cur.1) (s.keyOf (s.x a))).retire 2) :=
  congrArg Host.Outcome.next ((whenSafe_withCounter hspec hx hk (.inr rfl) _).trans
    ((if_pos hquiet).trans (State.returns_of_unlogged hlog _)))

theorem holds_cfree (hbusy : s.quiescent (s.tag s.cur.1) (s.keyOf (s.x a)) = false) :
    Holds (.cfree a) s (.blocked (.free (s.keyOf (s.x a)))) :=
  congrArg Host.Outcome.next ((whenSafe_withCounter hspec hx hk (.inr rfl) _).trans (if_neg (Bool.eq_false_iff.1 hbusy)))

variable (hfit : k.exhausted = false)
include hfit

/-! ### CTAKE, CGIVE and CCANCEL (R175, R176) -/

theorem exec_ctake : exec (.ctake d a) s = .next (s.sendOp (s.keyOf (s.x a)) k .token (inputWire s.cur.1 k.w) d) :=
  congrArg Host.Outcome.next (whenSafe_withCounter hspec hx hk (.inl hfit) _)

theorem exec_cgive : exec (.cgive d a) s = .next (s.sendOp (s.keyOf (s.x a)) k .anti (inputWire s.cur.1 k.w) d) :=
  congrArg Host.Outcome.next (whenSafe_withCounter hspec hx hk (.inl hfit) _)

theorem exec_ccancel_sends (hv : valueOk (s.x b).toInt = true) : exec (.ccancel d a b) s =
    .next (s.sendOp (s.keyOf (s.x a)) k (.cancel (s.x b).toInt) (((network k.w).1[k.exitFor (s.x b).toInt]?).getD 0) d) :=
  congrArg Host.Outcome.next ((whenSafe_withCounter hspec hx hk (.inl hfit) _).trans (if_pos hv))

theorem exec_ccancel_refused (hlog : Unlogged s s.cur.1) (hv : valueOk (s.x b).toInt = false) :
    exec (.ccancel d a b) s = .next (writeX s 2 d 2) :=
  congrArg Host.Outcome.next ((whenSafe_withCounter hspec hx hk (.inl hfit) _).trans
    ((if_neg (Bool.eq_false_iff.1 hv)).trans (State.returns_of_unlogged hlog _)))

/-! ### CARM (R167, R178) -/

section
variable (hb : field (s.x b) 47 16 = 0)
include hb

theorem exec_carm (hlog : Unlogged s s.cur.1) {q : Counter} (harm : k.arm (field (s.x b) 0 47) ((s.x b).getLsbD 63) = some q) :
    exec (.carm a b) s = .next ((s.setCounter (s.tag s.cur.1) (s.keyOf (s.x a)) q).retire 2) := by
  show execCarm a b s = _
  rw [execCarm, State.whenSafe_of_not_speculative hspec, if_neg (not_not.2 hb),
    State.withCounter_named ((and_refMask_eq_zero_iff _).2 hx) hk (.inl hfit), harm]
  exact congrArg _ (State.returns_of_unlogged hlog _)

theorem traps_carm_refused (harm : k.arm (field (s.x b) 0 47) ((s.x b).getLsbD 63) = none) : Traps (.carm a b) s 0x0A 0 := by
  show execCarm a b s = _
  rw [execCarm, State.whenSafe_of_not_speculative hspec, if_neg (not_not.2 hb),
    State.withCounter_named ((and_refMask_eq_zero_iff _).2 hx) hk (.inl hfit), harm]

end

/-! ### CWAIT (R166, R179) -/

section
variable (hb : field (s.x b) 16 48 = 0)
include hb

theorem exec_cwait (hlog : Unlogged s s.cur.1) (hraised : k.raised ((s.x b).setWidth 16) = true) :
    exec (.cwait a b) s = .next (s.retire 2) :=
  congrArg Host.Outcome.next ((State.whenSafe_of_not_speculative hspec _).trans ((if_neg (not_not.2 hb)).trans
    ((State.withCounter_named ((and_refMask_eq_zero_iff _).2 hx) hk (.inl hfit)).trans
      ((if_pos hraised).trans (State.returns_of_unlogged hlog _)))))

theorem holds_cwait (hraised : ¬ k.raised ((s.x b).setWidth 16) = true) :
    Holds (.cwait a b) s (.waiting (.pennant (s.keyOf (s.x a)) ((s.x b).setWidth 16))) :=
  congrArg Host.Outcome.next ((State.whenSafe_of_not_speculative hspec _).trans ((if_neg (not_not.2 hb)).trans
    ((State.withCounter_named ((and_refMask_eq_zero_iff _).2 hx) hk (.inl hfit)).trans (if_neg hraised))))

end
end
end

/-! ### The pennant machine (R166, R167) -/

namespace Counter

variable {k : Counter} {n : Nat}

/-- CARM is taken while the pennant is open, and with target 0 while the counter is armed. -/
def Armable (k : Counter) (n : Nat) : Prop := k.pennant = .opened ∨ k.pennant = .armed ∧ n = 0

theorem arm_of_armable (h : k.Armable n) (rep : Bool) : ∃ q, k.arm n rep = some q := by
  rcases h with hopen | ⟨harmed, hn⟩
  · exact ⟨_, by rw [arm, hopen]⟩
  · exact ⟨_, by rw [arm, harmed]; exact if_pos hn⟩

theorem arm_of_not_armable (h : ¬ k.Armable n) (rep : Bool) : k.arm n rep = none := by
  rw [arm]
  cases hp : k.pennant with
  | opened => exact absurd (.inl hp) h
  | armed => exact if_neg fun hn => h (.inr ⟨hp, hn⟩)
  | closing => rfl

/-- A pennant counts as raised in the 2^15 generations before the next one to be raised. -/
theorem raised_iff (k : Counter) (y : Word) :
    k.raised (y.setWidth 16) = true ↔ (k.p.toNat + 65535 - field y 0 16) % 65536 < 32768 := by
  have hp := k.p.isLt
  have hgen : (y.setWidth 16).toNat = field y 0 16 := by rw [BitVec.toNat_setWidth, field_zero]
  have hlt : field y 0 16 < 65536 := hgen ▸ (y.setWidth 16).isLt
  have hdistance : (k.p - 1 - y.setWidth 16).toNat = (k.p.toNat + 65535 - field y 0 16) % 65536 := by
    rw [BitVec.toNat_sub, BitVec.toNat_sub, hgen, show (1 : BitVec 16).toNat = 1 from rfl]
    omega
  exact decide_eq_true_iff.trans (Iff.of_eq (congrArg (· < 32768) hdistance))

end Counter

/-- The generation that CWAIT names is the low field of its operand. -/
theorem setWidth_eq_ofNat_field (y : Word) : y.setWidth 16 = BitVec.ofNat 16 (field y 0 16) := by
  refine BitVec.eq_of_toNat_eq ?_
  rw [BitVec.toNat_setWidth, BitVec.toNat_ofNat, field_zero, Nat.mod_mod]

/-- Settles O39: a form is refused by the checks of its reference and operand, or does what it does with the counter named. -/
theorem counterInstructions : Obligations.CounterInstructions := by
  intro s d a b w p key k hspec g t x y found sent armed
  refine ⟨fun n u hlog => exec_cnew_allocates hspec hlog, exec_cnew_full hspec, exec_cnew_stalled hspec,
    traps_of_reserved hspec, traps_of_unknown hspec, ?_, ?_, traps_carm_operand hspec, traps_cwait_operand hspec,
    exec_cread hspec, ?_, ?_⟩
  · rintro ⟨hx, rfl, hk⟩
    exact traps_of_exhausted hspec hx hk
  · rintro ⟨hx, rfl, hk⟩ hfit
    refine ⟨exec_ctake hspec hx hk hfit, exec_cgive hspec hx hk hfit, exec_ccancel_sends hspec hx hk hfit,
      exec_ccancel_refused hspec hx hk hfit, fun hlog hb harmed => ?_, fun hb harmed => ?_, fun hlog hb hraised => ?_,
      fun hb hraised => ?_⟩
    · obtain ⟨q, hq⟩ := Counter.arm_of_armable harmed (y.getLsbD 63)
      exact ⟨q, hq, exec_carm hspec hx hk hfit hb hlog hq⟩
    · exact traps_carm_refused hspec hx hk hfit hb (Counter.arm_of_not_armable harmed _)
    · exact exec_cwait hspec hx hk hfit hb hlog ((k.raised_iff y).2 hraised)
    · exact setWidth_eq_ofNat_field y ▸ holds_cwait hspec hx hk hfit hb (mt (k.raised_iff y).1 hraised)
  · rintro hlog ⟨hx, rfl, hk⟩
    exact exec_cfree hspec hx hk hlog
  · rintro ⟨hx, rfl, hk⟩
    exact holds_cfree hspec hx hk

end Sys2Proof.Machine
end

section
/-! The counting fabric: its steps (O40). -/

namespace Sys2Proof.Machine

/-! ### Balancers and exits (R162, R163, R170) -/

/-- An operation that has left its exit: the counter it leaves behind and what it answers. -/
def State.leftExit (s : State) (n : Nat) (o : FabricOp) (q : Counter) (ok : Bool) (v : Word) : State :=
  ((s.count o.tag 5 1).setCounter o.tag o.key q).moveOp n o (.back ok v)

/-- The report of an operation with what it counts (R167). -/
def FabricOp.report (o : FabricOp) (d : Int) : ExitReport := ⟨o.g, o.c, o.tag, o.key, o.gen, o.waits, d⟩

/-- A token or an antitoken, of count d, with what its exit made of it: a value, or a counter error, which counts as having left with
0 (R163, R167). -/
def State.answered (s : State) (n : Nat) (o : FabricOp) (d : Int) : Option Int × Counter → State
  | (some v, q) => (s.leftExit n o q true (valueWord v)).exitReport (o.report d)
  | (none, q) => (s.leftExit n o q false 0).exitReport (o.report 0)

section
variable {s : State} {n : Nat} {o : FabricOp} {q : Counter} {w : Nat} (ho : Tab.find s.net.ops n = some o)
  (hq : s.counter o.tag o.key = some q) (hpos : o.pos = .wire w)
include ho hq hpos

section
variable {i : Nat} (hfeeds : feeds q.w w = some i)
include hfeeds

theorem exec_balancerToken (hkind : o.kind = .token) : exec (.balancerToken n) s = .next
    (((s.setCounter o.tag o.key (q.tokenAt i).2).moveOp n o (.wire (q.tokenAt i).1)).count o.tag 5 1) := by
  show execBalancerToken n s = _
  simp only [execBalancerToken, State.atBalancer, ho, hpos, hq, hkind, hfeeds]
  rfl

theorem exec_balancerAntitoken (hkind : o.kind = .anti) : exec (.balancerAntitoken n) s = .next
    (((s.setCounter o.tag o.key (q.antiAt i).2).moveOp n o (.wire (q.antiAt i).1)).count o.tag 5 1) := by
  show execBalancerAntitoken n s = _
  simp only [execBalancerAntitoken, State.atBalancer, ho, hpos, hq, hkind, hfeeds]
  rfl

end

section
variable (hexit : feeds q.w w = none)
include hexit

theorem exec_exitToken (hkind : o.kind = .token) {r : Option Int × Counter} (h : q.exitToken (exitOf q.w w) = r) :
    exec (.exitToken n) s = .next (s.answered n o 1 r) := by
  show execExitToken n s = _
  simp only [execExitToken, State.atExit, ho, hpos, hq, hkind, hexit, ← h]
  rcases q.exitToken (exitOf q.w w) with ⟨_ | v, q1⟩ <;> rfl

theorem exec_exitAntitoken (hkind : o.kind = .anti) {r : Option Int × Counter} (h : q.exitAnti (exitOf q.w w) = r) :
    exec (.exitAntitoken n) s = .next (s.answered n o (-1) r) := by
  show execExitAntitoken n s = _
  simp only [execExitAntitoken, State.atExit, ho, hpos, hq, hkind, hexit, ← h]
  rcases q.exitAnti (exitOf q.w w) with ⟨_ | v, q1⟩ <;> rfl

theorem exec_exitCancel {v : Int} (hkind : o.kind = .cancel v) : exec (.exitCancel n) s =
    .next (s.leftExit n o (q.exitCancel v).2 true (BitVec.ofNat 64 (q.exitCancel v).1)) := by
  show execExitCancel n s = _
  simp only [execExitCancel, State.atExit, ho, hpos, hq, hkind, hexit]
  rfl

end
end

/-! ### Replies (R74, R135, R175) -/

/-- The state without operation n. -/
def State.opGone (s : State) (n : Nat) : State := s.withNet fun u => { u with ops := Tab.drop u.ops n }

/-- The context of an operation goes on, ready from now on, and the time that a CTAKE took is sampled (R77, R374). -/
def State.opReturned (s : State) (n : Nat) (o : FabricOp) : State :=
  let u := (s.opGone n).awake o.g o.c
  if o.kind = .token then u.sampled o.g 1 (s.cycle o.g - o.born) 1 else u

section
variable {s : State} {n : Nat} {o : FabricOp} {ok : Bool} {v : Word} (ho : Tab.find s.net.ops n = some o)
include ho

section
variable (hst : (s.ctx o.g o.c).st = .blocked (.fabric n)) (hlog : Unlogged s o.g) {d : XReg} (huse : o.use = .reg d)
include hst hlog huse

theorem exec_fabricReply_reg (hpos : o.pos = .back ok v) : exec (.fabricReply n) s =
    .next ((s.opReturned n o).as o.g o.c fun u => if ok then writeX u 2 d v else u.trap 0x0A) := by
  show execFabricReply n s = _
  simp only [execFabricReply, ho, hpos, huse, if_neg (not_not.2 hst)]
  exact congrArg _ (State.atChunkEnd_of_unlogged hlog ..)

end

section
variable (hpos : o.pos = .back ok v)
include hpos

theorem exec_fabricReply_done (huse : o.use = .done) : exec (.fabricReply n) s = .next (s.opGone n) := by
  show execFabricReply n s = _
  simp only [execFabricReply, ho, hpos, huse]
  rfl

theorem exec_fabricReply_append {seq : Byte} (huse : o.use = .append seq)
    (hasked : ∃ e ∈ (s.ctx o.g o.c).ring, e.seq = seq ∧ n ∈ e.pieces) :
    exec (.fabricReply n) s = .next ((s.opGone n).slotAnswer o.g o.c seq ok v) := by
  have hany : ((s.ctx o.g o.c).ring.any fun e => e.seq == seq && e.pieces.contains n) = true := by
    simpa [List.any_eq_true] using hasked
  show execFabricReply n s = _
  simp only [execFabricReply, ho, hpos, huse, if_pos hany]
  rfl

theorem exec_fabricReply_crew (huse : o.use = .crew) : exec (.fabricReply n) s =
    .next ((s.opGone n).mapFor o.tag o.g fun w => w.claimed o.key ok v) := by
  show execFabricReply n s = _
  simp only [execFabricReply, ho, hpos, huse]
  rfl

end
end

/-! ### The answer of a crew dispatcher (R74) -/

section
variable {w : Work} {gr : Grid} {key : Nat} {ok : Bool} {v : Word} (hclaim : w.claim = some (.asked gr)) (hkey : gr.counter = key)
include hclaim hkey

theorem Work.claimed_starts (hok : ok = true) (hlow : 0 ≤ v.toInt) (hhigh : v.toInt < gr.launch.n) :
    (w.claimed key ok v).claim = some (.got v.toNat gr) := by
  simp only [Work.claimed, hclaim, hkey, hok, hlow, hhigh, ne_eq, not_true_eq_false, if_false, decide_true, Bool.and_self, if_true]

theorem Work.claimed_exhausts (hout : ¬ (0 ≤ v.toInt ∧ v.toInt < gr.launch.n)) : w.claimed key ok v = { w with
    claim := none, grids := w.grids.map fun q => if q.counter = key then { q with exhausted := true } else q } := by
  have hno : ¬ (ok && decide (0 ≤ v.toInt) && decide (v.toInt < gr.launch.n)) = true := by
    rw [Bool.and_assoc, Bool.and_eq_true, Bool.and_eq_true, decide_eq_true_iff, decide_eq_true_iff]
    exact fun h => hout h.2
  simp only [Work.claimed, hclaim, hkey, hno, ne_eq, not_true_eq_false, if_false, Bool.false_eq_true]

end

/-- The grids of a counter that is marked exhausted are marked. -/
theorem exhausted_of_mem_marked {key : Nat} {gs : List Grid} {q : Grid}
    (hq : q ∈ gs.map fun q => if q.counter = key then { q with exhausted := true } else q) (hkey : q.counter = key) :
    q.exhausted = true := by
  obtain ⟨r, -, rfl⟩ := List.mem_map.1 hq
  by_cases hr : r.counter = key
  · rw [if_pos hr]
  · rw [if_neg hr] at hkey
    exact absurd hkey hr

/-! ### Generations and pennants (R167) -/

section
variable {s : State} {t key : Nat} {k : Counter}

theorem State.counter_setCounter (s : State) (t key : Nat) (k : Counter) : (s.setCounter t key k).counter t key = some k := by
  rw [State.counter, State.setCounter, State.part_setPart, if_pos rfl, Tab.find_put, if_pos rfl]

variable (hreports : s.net.reports = []) (hk : s.counter t key = some k)
include hreports hk

/-- With no report held back, settling the reports leaves the counters. -/
theorem State.counter_settleReports : s.settleReports.counter t key = some k := by
  rw [State.settleReports, hreports]
  exact hk

theorem exec_generationClose (harmed : k.pennant = .armed) (htarget : (k.target : Int) ≤ (k.genCount k.p).net) :
    exec (.generationClose t key) s =
      .next (s.settleReports.setCounter t key { k with gen := k.p + 1, pennant := .closing }) := by
  show execGenerationClose t key s = _
  simp only [execGenerationClose, State.counter_settleReports hreports hk]
  exact congrArg _ (if_pos ⟨harmed, htarget⟩)

theorem exec_pennantRaise (hclosing : k.pennant = .closing) (hleft : (k.genCount k.p).entered = (k.genCount k.p).left) :
    exec (.pennantRaise t key) s = .next (s.settleReports.setCounter t key { k with
      p := k.p + 1, pennant := if k.rep then .armed else .opened,
      target := if k.rep then k.target else 0, gens := Tab.drop k.gens k.p.toNat }) := by
  show execPennantRaise t key s = _
  simp only [execPennantRaise, State.counter_settleReports hreports hk]
  exact congrArg _ (if_pos ⟨hclosing, hleft⟩)

end

/-- Settles O40: each step by its own lemma, for the operation, its place and the use of its answer. -/
theorem counterEvents : Obligations.CounterEvents := by
  intro s n o q w ho hq moved report j at_
  refine ⟨fun hpos i hfeeds => ⟨exec_balancerToken ho hq hpos hfeeds, exec_balancerAntitoken ho hq hpos hfeeds⟩,
    fun hpos hexit => ⟨fun hkind => ⟨fun v q1 => exec_exitToken ho hq hpos hexit hkind,
        fun q1 => exec_exitToken ho hq hpos hexit hkind⟩,
      fun hkind => ⟨fun v q1 => exec_exitAntitoken ho hq hpos hexit hkind,
        fun q1 => exec_exitAntitoken ho hq hpos hexit hkind⟩,
      fun v => exec_exitCancel ho hq hpos hexit⟩,
    fun v d hst hlog huse => ⟨fun hpos => exec_fabricReply_reg ho hst hlog huse hpos,
      fun hpos => exec_fabricReply_reg ho hst hlog huse hpos⟩,
    fun ok v hpos => ⟨exec_fabricReply_done ho hpos, fun seq => exec_fabricReply_append ho hpos, exec_fabricReply_crew ho hpos,
      fun w gr hclaim hkey => ⟨Work.claimed_starts hclaim hkey, fun hout => ?_⟩⟩,
    fun t key k hreports hk => ⟨fun harmed htarget => ?_, fun hclosing hleft => ?_⟩⟩
  · rw [Work.claimed_exhausts hclaim hkey hout]
    exact ⟨rfl, fun q => exhausted_of_mem_marked⟩
  · exact ⟨_, exec_generationClose hreports hk harmed htarget, State.counter_setCounter ..⟩
  · exact ⟨_, _, exec_pennantRaise hreports hk hclosing hleft, State.counter_setCounter .., rfl, rfl, rfl, rfl, rfl⟩

end Sys2Proof.Machine
end

section
/-! The head flit of a message (O35). -/

namespace Sys2Proof.Machine

/-! ### Fields laid side by side -/

/-- Where the first field of a list stands; past the last one a doubleword ends. -/
def firstBit : List (Nat × Nat) → Nat
  | [] => 64
  | f :: _ => f.1

/-- Each field of a list ends before the next one stands, and the last within the doubleword. -/
def Apart : List (Nat × Nat) → Prop
  | [] => True
  | f :: fs => f.1 ≤ firstBit fs ∧ firstBit fs ≤ 64 ∧ f.2 < 2 ^ (firstBit fs - f.1) ∧ Apart fs

/-- Fields that stand apart add up: none has a bit where another has one. -/
theorem toNat_pack : ∀ {fs : List (Nat × Nat)}, Apart fs →
    2 ^ firstBit fs ∣ (pack fs).toNat ∧ (pack fs).toNat = (fs.map fun f => 2 ^ f.1 * f.2).sum
  | [], _ => ⟨dvd_zero _, rfl⟩
  | f :: fs, ⟨hle, hend, hfit, hfs⟩ => by
    obtain ⟨hdvd, hsum⟩ := toNat_pack hfs
    have hlow : f.2 * 2 ^ f.1 < 2 ^ firstBit fs := by
      calc f.2 * 2 ^ f.1 < 2 ^ (firstBit fs - f.1) * 2 ^ f.1 := Nat.mul_lt_mul_of_pos_right hfit (Nat.two_pow_pos _)
        _ = 2 ^ firstBit fs := by rw [← pow_add, Nat.sub_add_cancel hle]
    have hword : f.2 * 2 ^ f.1 < 2 ^ 64 := hlow.trans_le (Nat.pow_le_pow_right (by decide) hend)
    have hadd : (pack (f :: fs)).toNat = f.2 * 2 ^ f.1 + (pack fs).toNat := by
      obtain ⟨a, ha⟩ := hdvd
      have hcons : pack (f :: fs) = pack fs ||| BitVec.ofNat 64 (f.2 * 2 ^ f.1) := rfl
      rw [hcons, BitVec.toNat_or, BitVec.toNat_ofNat, Nat.mod_eq_of_lt hword, ha, ← Nat.two_pow_add_eq_or_of_lt hlow, Nat.add_comm]
    refine ⟨hadd ▸ Nat.dvd_add (Nat.dvd_mul_left _ _) ((Nat.pow_dvd_pow 2 hle).trans hdvd), ?_⟩
    rw [hadd, hsum, List.map_cons, List.sum_cons, Nat.mul_comm]

theorem field_lt (w : Word) (p n : Nat) : field w p n < 2 ^ n := Nat.mod_lt _ (Nat.two_pow_pos n)

theorem bitOf_lt (b : Bool) : bitOf b < 2 := by cases b <;> decide

/-- A bit is a field of one bit. -/
theorem getLsbD_of_field {w : Word} {p : Nat} {b : Bool} (h : field w p 1 = bitOf b) : w.getLsbD p = b := by
  rw [field, pow_one] at h
  rw [BitVec.getLsbD, Nat.testBit_eq_decide_div_mod_eq, h]
  cases b <;> rfl

/-! ### The head of a message that a context sends (R187) -/

section
variable (s : State) (g c dst : Nat) (d vt : Word) {ch : Nat} {payload : List Byte} (bad : List Nat) (rel timed : Bool)
  (hch : ch < 64) (hlen : payload.length ≤ 2016)
include hch hlen

theorem State.toNat_message_d0 : (s.message g c dst d ch payload bad rel timed vt).d0.toNat =
    field d 0 18 + (2 ^ 18 * ch + (2 ^ 24 * field d 18 6 + (2 ^ 30 * s.tag g + (2 ^ 36 * payload.length + (2 ^ 48 * bitOf rel
      + (2 ^ 49 * bitOf timed + 2 ^ 53 * bitOf (!bad.isEmpty))))))) := by
  have hapart : Apart [(0, field d 0 18), (18, ch), (24, field d 18 6), (30, s.tag g), (36, payload.length), (48, bitOf rel),
      (49, bitOf timed), (53, bitOf (!bad.isEmpty))] := by
    have htag : s.tag g < 2 ^ 6 := (s.core g).ptag.isLt
    have hdest := field_lt d 0 18
    have hreply := field_lt d 18 6
    have hrel := bitOf_lt rel
    have htimed := bitOf_lt timed
    have hbad := bitOf_lt (!bad.isEmpty)
    simp only [Apart, firstBit, and_true]
    omega
  rw [State.message, (toNat_pack hapart).2]
  simp only [List.map_cons, List.map_nil, List.sum_cons, List.sum_nil, pow_zero, one_mul, add_zero]

end

/-- Settles O35: the fields of the head add up, and each is a digit of the sum. -/
theorem messageHead : Obligations.MessageHead := by
  intro s g c dst d vt ch payload bad rel timed hch hlen m
  have hsum : m.d0.toNat = _ := s.toNat_message_d0 g c dst d vt bad rel timed hch hlen
  have hdest := field_lt d 0 18
  have hreply := field_lt d 18 6
  have htag : s.tag g < 2 ^ 6 := (s.core g).ptag.isLt
  have hrel := bitOf_lt rel
  have htimed := bitOf_lt timed
  have hbad := bitOf_lt (!bad.isEmpty)
  have hcore : field d 0 12 = field d 0 18 % 2 ^ 12 := by simp only [field]; omega
  have hchip : field d 12 6 = field d 0 18 / 2 ^ 12 := by simp only [field]; omega
  have hplace : ∀ p n, field m.d0 p n = m.d0.toNat / 2 ^ p % 2 ^ n := fun _ _ => rfl
  rw [hsum] at hplace
  refine ⟨?_, ?_, ?_, ?_, ?_, ?_, getLsbD_of_field ?_, getLsbD_of_field ?_, getLsbD_of_field ?_, rfl, rfl, rfl⟩ <;>
    rw [hplace] <;> omega

end Sys2Proof.Machine
end

section
/-! The start of a handler (O36). -/

namespace Sys2Proof.Machine

/-! ### What a delivery leaves of the contexts -/

theorem State.ctx_setCore (s : State) (g h d : Nat) (k : Core) :
    (s.setCore g k).ctx h d = if h = g then Tab.look Ctx.reset k.work.ctxs d else s.ctx h d := by
  rw [State.ctx, State.work_setCore]
  split <;> rfl

theorem State.ctx_setDebug (s : State) (g h d : Nat) (k : Debug) : (s.setDebug g k).ctx h d = s.ctx h d := by
  rw [State.setDebug, State.ctx_setCore]
  split
  · next hg => rw [hg]; rfl
  · rfl

theorem State.ctx_sampled (s : State) (g q v n h d : Nat) : (s.sampled g q v n).ctx h d = s.ctx h d := by
  simp only [State.sampled]
  split
  · rfl
  · exact State.ctx_setDebug ..

/-- Contexts do not change with the rest of a core's work. -/
theorem State.ctx_setWork_of_ctxs {s : State} {g : Nat} {w : Work} (h : w.ctxs = (s.work g).ctxs) (j d : Nat) :
    (s.setWork g w).ctx j d = s.ctx j d := by
  rw [State.ctx_setWork, h]
  split
  · next hg => rw [hg]; rfl
  · rfl

theorem State.ctx_localStore (s : State) (g off : Nat) (bs : List Byte) (h d : Nat) : (s.localStore g off bs).ctx h d = s.ctx h d :=
  State.ctx_setWork_of_ctxs (by rfl) h d

theorem State.ctx_fillSlot (s : State) (g n : Nat) (m : Msg) (h d : Nat) : (s.fillSlot g n m).ctx h d = s.ctx h d :=
  (State.ctx_setWork_of_ctxs (by rfl) h d).trans (State.ctx_localStore ..)

/-- A delivery changes the context that it goes to, and no other (R191). -/
theorem State.ctx_deliver (s : State) (g c n : Nat) (m : Msg) (cell : Option Nat) (h d : Nat) :
    (s.deliver g c n m cell).ctx h d = if h = g ∧ d = c then (s.ctx g c).deliver m n cell else s.ctx h d := by
  rw [State.deliver, State.ctx_sampled, State.ctx_setCtx, State.ctx_setWork_of_ctxs (by rfl), State.ctx_setWork_of_ctxs (by rfl),
    State.ctx_fillSlot, State.ctx_fillSlot]

/-! ### Registers written from a list (R191) -/

/-- A register reads as the word of the list at its place, where it has one. -/
theorem Ctx.setXs_x : ∀ (ws : List Word) (k : Ctx) (r : Nat) {i : Nat} (hi : i < 16),
    (k.setXs r ws).x[i] = if r ≤ i ∧ i < r + ws.length then ws.getD (i - r) 0 else k.x[i]
  | [], k, r, i, hi => by rw [if_neg (by simp only [List.length_nil]; omega), Ctx.setXs]
  | w :: ws, k, r, i, hi => by
    rw [Ctx.setXs, Ctx.setXs_x ws _ _ hi, List.length_cons]
    rcases Nat.lt_trichotomy i r with hlt | rfl | hgt
    · rw [if_neg (by omega), if_neg (by omega)]
      exact Vector.getElem_setIfInBounds_ne hi (by omega)
    · rw [if_neg (by omega), if_pos (by omega), Nat.sub_self]
      exact Vector.getElem_setIfInBounds_self hi
    · obtain ⟨e, rfl⟩ : ∃ e, i = r + 1 + e := ⟨i - (r + 1), by omega⟩
      have hplace : r + 1 + e - r = e + 1 := by omega
      rw [hplace, List.getD_cons_succ, Nat.add_sub_cancel_left]
      refine if_congr (by omega) rfl ?_
      exact Vector.getElem_setIfInBounds_ne hi (by omega)

/-- The registers of a delivery: x1 to x8 hold the message, the others what they held (R191). -/
theorem Ctx.deliver_x (k : Ctx) (m : Msg) (n : Nat) (cell : Option Nat) {i : Nat} (hi : i < 16) : (k.deliver m n cell).x[i] =
    if 1 ≤ i ∧ i < 9 then [m.d1 &&& 0xFFFFFF, m.flags, BitVec.ofNat 64 (slotAddr n), BitVec.ofNat 64 m.length, m.word 0, m.word 1,
      m.word 2, m.word 3].getD (i - 1) 0 else k.x[i] :=
  Ctx.setXs_x _ k 1 hi

section
variable {s : State} {g c n : Nat} {m : Msg} {cell : Option Nat}

/-- A handler's context before its message is delivered. -/
def State.handlerCtx (s : State) (g : Nat) (m : Msg) : Ctx :=
  { Ctx.begin (.handler (BitVec.ofNat 6 m.channel)) (s.handler g m.channel).entry (s.cycle g) with
    rng := handlerSeed m, sup := channelSup m.channel, banks := none }

/-- A handler without banks starts with what its message delivers (R191). -/
theorem State.startHandler_bare (f : Ctx → Ctx) (hkept : (s.work g).retainedFor m.channel = none)
    (hbanks : field (s.handler g m.channel).ctl 5 4 = 0) : s.startHandler g c n m cell f =
      let t := ((s.setWork g (s.work g)).setCtx g c (s.handlerCtx g m)).deliver g c n m cell
      t.setCtx g c (f (t.ctx g c)) := by
  have hnone : (s.work g).handlerBanks m.channel 0 = ((0, 0), s.work g) := by
    rw [Work.handlerBanks, hkept]
    rfl
  simp only [State.startHandler, hbanks, hnone, if_true]
  rfl

theorem State.ctx_startHandler_bare (hkept : (s.work g).retainedFor m.channel = none)
    (hbanks : field (s.handler g m.channel).ctl 5 4 = 0) (h d : Nat) : (s.startHandler g c n m cell id).ctx h d =
      if h = g ∧ d = c then (s.handlerCtx g m).deliver m n cell else s.ctx h d := by
  have hsame : (s.setWork g (s.work g)).ctx h d = s.ctx h d := State.ctx_setWork_of_ctxs rfl h d
  simp only [State.startHandler_bare _ hkept hbanks, State.ctx_setCtx, State.ctx_deliver, and_self, if_true, hsame, id]
  split <;> rfl

/-- The registers that a delivery leaves are 0 at the start (R41). -/
theorem State.handlerCtx_x (s : State) (g : Nat) (m : Msg) {i : Nat} (hi : i < 16) : (s.handlerCtx g m).x[i] = 0 :=
  Vector.getElem_replicate ..

theorem channelSup_eq (ch : Nat) : channelSup ch = decide (ch = 0 ∨ ch = 2 ∨ ch = 7) := by
  rw [Bool.eq_iff_iff]
  simp [channelSup, or_assoc]

end

/-- Settles O36: without banks the start is the delivery to a context that was reset. -/
theorem handlerStartState : Obligations.HandlerStartState := by
  intro s g c n m cell hkept hbanks _ t k
  have hctx : ∀ h d, t.ctx h d = if h = g ∧ d = c then (s.handlerCtx g m).deliver m n cell else s.ctx h d :=
    State.ctx_startHandler_bare hkept hbanks
  have hk : k = (s.handlerCtx g m).deliver m n cell := (hctx g c).trans (if_pos ⟨rfl, rfl⟩)
  have hx : ∀ {i : Nat} (hi : i < 16), k.x[i] = _ := fun hi => (congrArg (fun q : Ctx => q.x[_]) hk).trans (Ctx.deliver_x _ m n cell hi)
  refine ⟨by rw [hk]; rfl, by rw [hk]; rfl, by rw [hk]; rfl, hx (by decide), hx (by decide), hx (by decide), hx (by decide),
    hx (by decide), hx (by decide), hx (by decide), hx (by decide), hx (by decide), fun i hi => ?_, by rw [hk]; rfl, by rw [hk]; rfl,
    by rw [hk]; rfl, by rw [hk]; rfl, by rw [hk]; exact channelSup_eq _, fun h d hne => ?_⟩
  · exact (hx i.isLt).trans ((if_neg (by omega)).trans (State.handlerCtx_x ..))
  · exact (hctx h d).trans (if_neg (by tauto))

end Sys2Proof.Machine
end

section
/-! The steps of the message network (O37). -/

namespace Sys2Proof.Machine

/-! ### Injection and resending (R193, R195, R359) -/

section
variable {s t : State} {g k : Nat} {m : Msg}

/-- The state in which release flits that wait have taken the free entries of a send queue (R195). -/
def State.flitsTaken (s : State) (g : Nat) (reply : Bool) : State := if (s.work g).flitsWait reply then s.fillFlits g reply else s

/-- What is left of a send queue when its oldest entry has sent an item: the entry stays at the front while it holds more (R195). -/
def SendEntry.left (e : SendEntry) (r : List SendEntry) : Option SendItem → List SendEntry
  | some i => { e with item := i } :: r
  | none => r

theorem exec_sendInjection {reply : Bool} {e : SendEntry} {r : List SendEntry} {rest : Option SendItem}
    (hq : ((s.flitsTaken g reply).work g).sendQueue reply = e :: r) (hready : (s.flitsTaken g reply).entryReady g e = true)
    (hretried : (s.flitsTaken g reply).retried g reply = 0) (hitem : (s.flitsTaken g reply).injectItem g e.item = some (t, rest)) :
    exec (.sendInjection g reply) s = .next (t.setWork g ((t.work g).setQueue reply (e.left r rest))) := by
  rw [State.flitsTaken] at hq hready hretried hitem
  show execSendInjection g reply s = _
  simp only [execSendInjection, hq, hready, hretried, hitem, Bool.not_true, bne_self_eq_false, Bool.or_self, Bool.false_eq_true, if_false]
  cases rest <;> rfl

theorem exec_retryResend {due : Nat} (hk : Tab.find s.net.retries k = some (due, .msg m)) (hdue : due ≤ s.cycle m.src) :
    exec (.retryResend k) s = .next ((s.withNet fun n => { n with retries := Tab.drop n.retries k }).withNet fun n =>
      { n with msgs := Tab.put n.msgs k m }) := by
  show execRetryResend k s = _
  simp only [execRetryResend, hk]
  exact congrArg _ (if_neg (Nat.not_lt.2 hdue))

/-! ### Arrival (R93, R188, R189, R193) -/

/-- Message k may reach its core: it is the oldest of its sender there, the core is not evicted, and no redelivered one goes first (R193,
R357, R360). -/
def State.Reaches (s : State) (k : Nat) (m : Msg) : Prop :=
  s.firstOfWay k m = true ∧ s.takes m.dst m.tag = true ∧ s.itsArrival k m = true

theorem State.Reaches.passes (h : s.Reaches k m) : ¬ (!s.firstOfWay k m || !s.takes m.dst m.tag || !s.itsArrival k m) = true := by
  obtain ⟨hfirst, htakes, horder⟩ := h
  simp [hfirst, htakes, horder]

theorem State.mismatched_iff : s.mismatched m.dst m = true ↔ m.tag ≠ s.tag m.dst ∨ s.holds m.tag m.dst = false := by
  simp [State.mismatched]

theorem State.not_mismatched (htag : m.tag = s.tag m.dst) (hholds : s.holds m.tag m.dst = true) : ¬ s.mismatched m.dst m = true := by
  rw [State.mismatched_iff, hholds]
  exact fun h => h.elim (absurd htag) Bool.noConfusion

section
variable (hk : Tab.find s.net.msgs k = some m) (hreach : s.Reaches k m)
include hk hreach

theorem exec_messageArrival_discards (hbad : s.mismatched m.dst m = true) : exec (.messageArrival k) s = .next (s.discardMsg k m) := by
  show execMessageArrival k s = _
  simp only [execMessageArrival, hk, if_neg hreach.passes, if_pos hbad]

theorem exec_messageArrival (hown : ¬ s.mismatched m.dst m = true) (hvt : s.needsVt m = false)
    (hroom : (s.work m.dst).ejection.length < 16) : let u := (s.landed k).fresh
    exec (.messageArrival k) s = .next (u.setWork m.dst
      (({ u.work m.dst with ejection := (u.work m.dst).ejection ++ [{ m with stamp := s.nextId }] } : Work).meet m.channel)) := by
  have hfree : ¬ (s.needsVt m || decide (Config.ejectEntries ≤ (s.work m.dst).ejection.length)) = true := by
    simpa [hvt] using hroom
  show execMessageArrival k s = _
  simp only [execMessageArrival, hk, if_neg hreach.passes, if_neg hown]
  exact congrArg _ (if_neg hfree)

end

end

/-! ### Spilling (R190, R263) -/

/-- Some number up to the length of a spill area is no place of it. -/
theorem exists_spillPlace (l : List (Nat × Msg)) : ∃ n ≤ l.length, ∀ e ∈ l, e.1 ≠ n := by
  by_contra! hfull
  have hsub : List.range (l.length + 1) ⊆ l.map Prod.fst := fun n hn => by
    obtain ⟨e, he, hen⟩ := hfull n (Nat.lt_succ_iff.1 (List.mem_range.1 hn))
    exact List.mem_map.2 ⟨e, he, hen⟩
  have hlen := (List.subperm_of_subset List.nodup_range hsub).length_le
  rw [List.length_range, List.length_map] at hlen
  exact Nat.not_succ_le_self _ hlen

/-- The lowest free place of a spill area: no message has it, and every lower one is taken (log entry 94). -/
theorem exists_lowestPlace (l : List (Nat × Msg)) : ∃ n, firstBelow (fun n => !(l.any fun e => e.1 == n)) (l.length + 1) = some n
    ∧ n ≤ l.length ∧ (∀ e ∈ l, e.1 ≠ n) ∧ ∀ j < n, ∃ e ∈ l, e.1 = j := by
  obtain ⟨i, hi, hfree⟩ := exists_spillPlace l
  have hsome : (firstBelow (fun n => !(l.any fun e => e.1 == n)) (l.length + 1)).isSome = true :=
    List.find?_isSome.2 ⟨i, List.mem_range.2 (Nat.lt_succ_iff.2 hi), by simpa using hfree⟩
  obtain ⟨n, hn⟩ := Option.isSome_iff_exists.1 hsome
  obtain ⟨hplace, hmem, hlower⟩ := List.find?_range_eq_some.1 hn
  exact ⟨n, hn, Nat.lt_succ_iff.1 (List.mem_range.1 hmem), by simpa using hplace, by simpa using hlower⟩

theorem Msg.length_headBytes (m : Msg) : m.headBytes.length = 32 := by
  simp only [Msg.headBytes, wordBytes, List.length_append, length_bytesOfNat]

section
variable {s : State} {g : Nat} {m : Msg} {r : List Msg}

/-- The state in which the head of the ejection queue of core g stands at place n of the spill area (R190). -/
def State.spilledTo (s : State) (g n : Nat) (m : Msg) (r : List Msg) : State :=
  { s.setWork g { s.work g with ejection := r, spill := (s.work g).spill ++ [(n, m)] } with
    mem := s.mem.store (s.oxbowAddr g (0x160000 + 2048 * n)) (m.headBytes ++ m.payload) }

theorem State.work_spilledTo {n : Nat} : (s.spilledTo g n m r).work g =
    { s.work g with ejection := r, spill := (s.work g).spill ++ [(n, m)] } :=
  (State.work_setWork ..).trans (if_pos rfl)

theorem State.bytes_spilledTo {n : Nat} (hwf : s.mem.wf = true) : (s.spilledTo g n m r).mem.bytes (s.oxbowAddr g (0x160000 + 2048 * n))
    (32 + m.payload.length) = m.headBytes ++ m.payload := by
  have hlen : 32 + m.payload.length = (m.headBytes ++ m.payload).length := by rw [List.length_append, m.length_headBytes]
  have hmem : (s.spilledTo g n m r).mem = s.mem.store (s.oxbowAddr g (0x160000 + 2048 * n)) (m.headBytes ++ m.payload) := by
    simp only [State.spilledTo]
  rw [hlen, hmem, Memory.bytes_store _ _ hwf]

theorem exec_messageSpill (hq : (s.work g).ejection = m :: r) (hheld : s.heldBack g m.channel = true)
    (hwaiters : s.waiters g m.channel = []) (hox : (s.work g).oxbow.getLsbD 0 = true) (hroom : (s.work g).spill.length < 1024) {n : Nat}
    (hplace : firstBelow (fun n => !((s.work g).spill.any fun e => e.1 == n)) ((s.work g).spill.length + 1) = some n)
    (hn : n ≤ (s.work g).spill.length) : exec (.messageSpill g) s = .next (s.spilledTo g n m r) := by
  have hlow : n < Config.spillEntries := hn.trans_lt hroom
  have hgo : (s.heldBack g m.channel && (s.waiters g m.channel).isEmpty && (s.work g).oxbow.getLsbD 0
      && decide ((s.work g).spill.length < Config.spillEntries)) = true := by
    rw [hheld, hwaiters, hox, decide_eq_true hroom]
    rfl
  show execMessageSpill g s = _
  simp only [execMessageSpill, hq]
  refine congrArg _ ((if_pos hgo).trans ?_)
  simp only [State.spillMsg, State.oxbowAddr, State.work_setWork, if_true, State.setWork_setWork, hplace, Option.getD_some, hox,
    decide_eq_true hlow, Bool.and_self]
  rfl

end

/-! ### Reply cells and window places (R194, R196) -/

section
variable {w : Work} {m : Msg} {n : Nat} {c : Cell}

theorem Work.window_setWindow (w : Work) {cls : Nat} (h : cls < 5) (v : Window) : (w.setWindow cls v).window cls = v := by
  simp [Work.window, Work.setWindow, h]

section
variable (hcell : Tab.find w.cells m.cell = some c)
include hcell

/-- A place that has been given back is not given back again. -/
theorem Work.replyPlace_returned (hback : c.injected = false) : w.replyPlace m = w := by
  simp [Work.replyPlace, hcell, hback]

theorem Work.replyPlace_held (hheld : c.injected = true) : w.replyPlace m =
    { w.setWindow c.cls ((w.window c.cls).back (m.d0.getLsbD 54)) with cells := Tab.put w.cells m.cell { c with injected := false } } := by
  simp [Work.replyPlace, hcell, hheld]

/-- The cell of a reply holds no window place any more (R196). -/
theorem Work.find_replyPlace : Tab.find (w.replyPlace m).cells m.cell = some { c with injected := false } := by
  cases hc : c.injected
  · rw [Work.replyPlace_returned hcell hc, hcell, ← hc]
  · rw [Work.replyPlace_held hcell hc, Tab.find_put, if_pos rfl]

theorem Work.landReply_eq : w.landReply m = { w.replyPlace m with
    cells := Tab.put (w.replyPlace m).cells m.cell { c with injected := false, reply := some m } } := by
  simp [Work.landReply, Work.find_replyPlace hcell]

theorem Work.find_landReply : Tab.find (w.landReply m).cells m.cell = some { c with injected := false, reply := some m } := by
  rw [Work.landReply_eq hcell, Tab.find_put, if_pos rfl]

theorem Work.windows_landReply (hback : c.injected = false) : (w.landReply m).windows = w.windows := by
  rw [Work.landReply_eq hcell, Work.replyPlace_returned hcell hback]

theorem Work.window_landReply (hheld : c.injected = true) (hcls : c.cls < 5) :
    (w.landReply m).window c.cls = (w.window c.cls).back (m.d0.getLsbD 54) := by
  rw [Work.landReply_eq hcell, Work.replyPlace_held hcell hheld]
  exact w.window_setWindow hcls _

end

section
variable (hcell : Tab.find w.cells n = some c)
include hcell

theorem Work.find_releaseCell : Tab.find (w.releaseCell n).cells n = none := by
  simp [Work.releaseCell, hcell]

theorem Work.window_releaseCell (hheld : c.injected = true) (hcls : c.cls < 5) :
    (w.releaseCell n).window c.cls = { w.window c.cls with used := (w.window c.cls).used - 1 } := by
  simp only [Work.releaseCell, hcell, hheld, if_true]
  exact w.window_setWindow hcls _

end

end

section
variable {s : State} {g k n : Nat} {m : Msg}

theorem exec_replyLanding (hk : Tab.find s.net.answers k = some m) (hreach : s.Reaches k m) (hown : ¬ s.mismatched m.dst m = true)
    (hvt : s.needsVt m = false) : let u := (s.landed k).fresh
    exec (.replyLanding k) s = .next (u.setWork m.dst (((u.work m.dst).landReply { m with stamp := s.nextId }).meet m.channel)) := by
  show execReplyLanding k s = _
  simp only [execReplyLanding, hk, if_neg hreach.passes, if_neg hown, hvt]
  rfl

section
variable {t : Nat} (hk : Tab.find s.net.releases k = some (t, g, n))
include hk

theorem exec_cellRelease_core (himage : s.imageOf t g = none) (htag : s.tag g = t) : exec (.cellRelease k) s =
    .next ((s.withNet fun z => { z with releases := Tab.drop z.releases k }).setWork g ((s.work g).releaseCell n)) := by
  show execCellRelease k s = _
  simp only [execCellRelease, hk, himage, Option.isSome_none, Bool.false_eq_true, if_false, if_pos htag]
  rfl

theorem exec_cellRelease_image {i : Image} (himage : s.imageOf t g = some i) : exec (.cellRelease k) s =
    .next ((s.withNet fun z => { z with releases := Tab.drop z.releases k }).setCore g { s.core g with
      image := some { i with work := i.work.releaseCell n } }) := by
  obtain ⟨hi, htag⟩ := Option.filter_eq_some_iff.1 himage
  have hi' : ((s.withNet fun z => { z with releases := Tab.drop z.releases k }).core g).image = some i := hi
  show execCellRelease k s = _
  simp only [execCellRelease, hk, himage, Option.isSome_some, if_true, State.mapFor, hi', if_pos (beq_iff_eq.1 htag)]
  rfl

end

/-! ### Evicted receivers (R358, R359) -/

/-- Message k kept for the evicted core that it goes to: in the image i, and at a place of its message area (R358, R359). -/
def State.kept (s : State) (k place : Nat) (m : Msg) (i : Image) : State :=
  (((s.landed k).headerTakes m).setCore m.dst { s.core m.dst with image := some i }).areaStore m.dst place m

section
variable {i : Image} (hk : s.flying k = some m)
include hk

theorem exec_evictedMessage_waits (hwait : s.waitsOut m = true) : exec (.evictedMessage k) s = .next s := by
  show execEvictedMessage k s = _
  simp only [execEvictedMessage, hk, hwait, if_true]
  cases (s.core m.dst).image with
  | none => rfl
  | some i => exact congrArg _ (ite_self s)

variable (hi : (s.core m.dst).image = some i) (htag : i.tag.toNat = m.tag) (hfirst : s.firstOfWay k m = true)
  (horder : s.itsArrival k m = true) (hwait : s.waitsOut m = false)
include hi htag hfirst horder hwait

theorem exec_evictedMessage : exec (.evictedMessage k) s = .next (
    if m.onReply then s.kept k (128 * m.cell) m { i with msgs := i.msgs ++ [(k, m)], work := i.work.replyPlace m }
    else if i.bytes + m.areaBytes ≤ 57344 then
      s.kept k (8192 + i.bytes) m { i with msgs := i.msgs ++ [(k, m)], bytes := i.bytes + m.areaBytes }
    else (s.landed k).withNet fun n => { n with retries := Tab.put n.retries k (s.cycle m.src + 512, .msg m) }) := by
  have hgo : ¬ (i.tag.toNat ≠ m.tag ∨ (!s.firstOfWay k m) = true ∨ (!s.itsArrival k m) = true) := by simp [htag, hfirst, horder]
  show execEvictedMessage k s = _
  simp only [execEvictedMessage, hk, hi, if_neg hgo, hwait]
  rfl

end

end

/-! ### The host window (R202, R373, R381, R387) -/

section
variable {s : State} {tag h off g : Nat} {data : List Byte}

/-- Whether a write to the message window of a partition is none that sends: of a length or at an offset that is not allowed, on a channel
that may not be named, or while a core of the partition replays (R202, R373). -/
def State.hostRefuses (s : State) (tag off : Nat) (data : List Byte) : Bool :=
  data.isEmpty || data.length % 8 != 0 || decide (512 < data.length) || off % 512 != 0 || decide (2 ^ 27 ≤ off)
    || !(off / 512 % 64 == 1 || decide (8 ≤ off / 512 % 64)) || (s.partCores tag).any fun g => s.logMode g == 2

theorem State.hostRefuses_of_misshapen (hbad : data.length % 8 ≠ 0 ∨ 512 < data.length ∨ off % 512 ≠ 0) :
    s.hostRefuses tag off data = true := by
  rcases hbad with hbad | hbad | hbad <;> simp [State.hostRefuses, hbad]

theorem State.hostRefuses_of_legal (hdata : data ≠ []) (hlen : data.length % 8 = 0) (hmax : data.length ≤ 512) (halign : off % 512 = 0)
    (hoff : off < 2 ^ 27) (hch : off / 512 % 64 = 1 ∨ 8 ≤ off / 512 % 64) (hlog : ∀ x ∈ s.partCores tag, s.logMode x ≠ 2) :
    s.hostRefuses tag off data = false := by
  have hchannel : (off / 512 % 64 == 1 || decide (8 ≤ off / 512 % 64)) = true := by simpa using hch
  have hreplay : (s.partCores tag).any (fun g => s.logMode g == 2) = false := by simpa using hlog
  rw [State.hostRefuses, hchannel, hreplay, hlen, halign, decide_eq_false (Nat.not_lt.2 hmax), decide_eq_false (Nat.not_le.2 hoff),
    List.isEmpty_eq_false_iff.2 hdata]
  rfl

theorem window_part (htag : tag < 64) : (tag + 64 * h) % 64 = tag := by rw [Nat.add_mul_mod_self_left, Nat.mod_eq_of_lt htag]

theorem window_chip (htag : tag < 64) : (tag + 64 * h) / 64 = h := by omega

variable (htag : tag < 64)
include htag

theorem exec_hostWindowWrite_unready (hready : (s.chip h).ready = false) : exec (.hostWindowWrite (tag + 64 * h) off data) s = .next s := by
  show execHostWindowWrite (tag + 64 * h) off data s = _
  simp only [execHostWindowWrite, window_chip htag, hready, Bool.not_false, if_true]

variable (hready : (s.chip h).ready = true)
include hready

theorem exec_hostWindowWrite_refused (hbad : s.hostRefuses tag off data = true) :
    exec (.hostWindowWrite (tag + 64 * h) off data) s = .next (s.discardHost tag) := by
  show execHostWindowWrite (tag + 64 * h) off data s = _
  simp only [execHostWindowWrite, window_part htag, window_chip htag, hready, Bool.not_true, Bool.false_eq_true, if_false]
  exact congrArg _ (if_pos hbad)

theorem exec_hostWindowWrite_sends (hlegal : s.hostRefuses tag off data = false) (hreach : s.reach tag h (off / 2 ^ 15) = some g) :
    exec (.hostWindowWrite (tag + 64 * h) off data) s = .next (s.putMsg (hostMsg tag h (off / 2 ^ 15) (off / 512 % 64) g data)) := by
  show execHostWindowWrite (tag + 64 * h) off data s = _
  simp only [execHostWindowWrite, window_part htag, window_chip htag, hready, hreach, Bool.not_true, Bool.false_eq_true, if_false]
  exact congrArg _ (if_neg (Bool.eq_false_iff.1 hlegal))

end

/-! ### Delivery to a handler or to a WAITCH (R95, R191, R333) -/

section
variable {s : State} {g k c n : Nat} {m : Msg} {src : Source}

theorem exec_handlerStart (hm : (s.work g).at src k = some m) (hjob : s.nextJob g = some (.handler src k)) :
    exec (.handlerStart g src k) s = .next (s.serve g src k m id) := by
  show execHandlerStart g src k s = _
  simp only [execHandlerStart, hm, if_pos hjob]

theorem exec_lateMessage (hm : (s.work g).at (placeOf k).1 (placeOf k).2 = some m) (hc : s.freeCtx g = some c)
    (hjob : s.nextJob g = some (.late (placeOf k).1 (placeOf k).2))
    (hstarted : ((s.serve g (placeOf k).1 (placeOf k).2 m id).ctx g c).role ≠ .free) : exec (.lateMessage g k) s =
      .next ((s.serve g (placeOf k).1 (placeOf k).2 m id).takeTrap g c (lateTrap (s.handler g m.channel).entry m.d2)) := by
  show execLateMessage g k s = _
  simp only [execLateMessage, hm, hc, if_pos hjob, if_neg hstarted]

theorem exec_waitchDelivery (hm : (s.work g).at src k = some m) (hc : s.longest g (s.waiters g m.channel) = some c)
    (hn : (s.ctx g c).slot.or (s.work g).freeSlot = some n) (hserves : s.serves g = true) (htakes : s.waitchTakes g m = true)
    (hfirst : s.firstWaiting g m = true) (hbehind : s.behind g m = false) (hlog : Unlogged s g) (hclean : m.bad.contains 0 = false) :
    let s1 := (s.setWork g ((s.work g).take src k)).deliver g c n m (cellOf src k)
    let s2 := s1.setCtx g c { s1.ctx g c with
      st := .ready, resumedWait := true, watch := 0, since := s.cycle g, age := s.cycle g, bump := 0 }
    exec (.waitchDelivery g src k) s = .next (s2.as g c fun t => t.retire 2) := by
  have hgo : ¬ (!s.serves g || !s.waitchTakes g m || !s.firstWaiting g m || s.behind g m) = true := by
    simp [hserves, htakes, hfirst, hbehind]
  show execWaitchDelivery g src k s = _
  simp only [execWaitchDelivery, hm, hc, hn, if_neg hgo, State.atChunkEnd_of_unlogged hlog, hclean]
  rfl

end

/-- Settles O37: each step takes the branch that its conditions choose; the spill area has a lowest free place while it has room. -/
theorem messageEvents : Obligations.MessageEvents := by
  intro s t g k m src
  refine ⟨fun reply e r rest hq hready hretried hitem => ?_,
    fun hk hfirst htakes horder => ⟨fun hbad => ?_, fun htag hholds hvt hroom => ?_⟩,
    fun r hq hheld hwaiters hox hroom => ?_,
    fun c hk hfirst htakes horder htag hholds hvt hcell => ?_,
    fun n c t' hk => ⟨fun himage htag hcell => ?_, fun i himage => exec_cellRelease_image hk himage⟩,
    fun due hk hdue => exec_retryResend hk hdue,
    fun i hk hi htag hfirst horder hwait => ?_,
    exec_evictedMessage_waits,
    fun tag h off data htag => ⟨exec_hostWindowWrite_unready htag, fun hready hdata hlen hmax halign hoff hch hlog => ?_,
      fun hready hbad => exec_hostWindowWrite_refused htag hready (State.hostRefuses_of_misshapen hbad)⟩,
    fun _ => rfl, exec_handlerStart, fun c hm hc hjob hstarted => exec_lateMessage hm hc hjob hstarted,
    fun c n hm hc hn hserves htakes hfirst hbehind hlog hclean =>
      exec_waitchDelivery hm hc hn hserves htakes hfirst hbehind hlog hclean⟩
  · exact (exec_sendInjection hq hready hretried hitem).trans (by cases rest <;> rfl)
  · exact exec_messageArrival_discards hk ⟨hfirst, htakes, horder⟩ (State.mismatched_iff.2 hbad)
  · exact exec_messageArrival hk ⟨hfirst, htakes, horder⟩ (State.not_mismatched htag hholds) hvt hroom
  · obtain ⟨n, hplace, hn, hfree, hlower⟩ := exists_lowestPlace (s.work g).spill
    exact ⟨_, n, exec_messageSpill hq hheld hwaiters hox hroom hplace hn, congrArg Work.ejection State.work_spilledTo,
      congrArg Work.spill State.work_spilledTo, hfree, hlower, State.bytes_spilledTo⟩
  · exact ⟨exec_replyLanding hk ⟨hfirst, htakes, horder⟩ (State.not_mismatched htag hholds) hvt,
      Work.find_landReply hcell, Work.windows_landReply hcell, Work.window_landReply hcell⟩
  · exact ⟨exec_cellRelease_core hk himage htag, Work.find_releaseCell hcell, Work.window_releaseCell hcell⟩
  · have hstep := exec_evictedMessage hk hi htag hfirst horder hwait
    refine ⟨fun hrequest harea => hstep.trans ?_, fun hreply => hstep.trans ?_, fun hrequest hfull => hstep.trans ?_⟩
    · rw [if_neg (Bool.eq_false_iff.1 hrequest), if_pos harea, State.kept]
    · rw [if_pos hreply, State.kept]
    · rw [if_neg (Bool.eq_false_iff.1 hrequest), if_neg (Nat.not_le.2 hfull)]
  · exact exec_hostWindowWrite_sends htag hready (State.hostRefuses_of_legal hdata hlen hmax halign hoff hch hlog)

end Sys2Proof.Machine
end

section
/-! Traps: the frame and the routes of an entry (O51, O52). -/

namespace Sys2Proof.Machine

/-! ### Doublewords beside others -/

namespace Memory

variable {m : Memory}

/-- Doublewords written leave every byte outside them. -/
theorem get_putWords_outside {a b : Nat} {ws : List Word} (hm : m.wf = true) (hb : b < a ∨ a + 8 * ws.length ≤ b) :
    (m.putWords a ws).get b = m.get b := by
  induction ws generalizing m a with
  | nil => rfl
  | cons w ws ih =>
    rw [List.length_cons] at hb
    rw [Memory.putWords, ih (wf_putWord a w hm) (by omega), Memory.putWord, get_store _ _ _ hm, if_neg (by rw [length_bytesOfNat]; omega)]

end Memory

/-! ### The frame (R205, R212) -/

section
variable {s : State} {g c : Nat} {k : Ctx} {t : TrapInfo}

theorem length_flatMap_triple {α β : Type} (p q r : α → β) (l : List α) : (l.flatMap fun e => [p e, q e, r e]).length = 3 * l.length := by
  simp [List.length_flatMap, Nat.mul_comm]

theorem length_loopWords {ls : List LoopEntry} (h : ls.length ≤ 4) : (loopWords ls).length = 12 := by
  simp only [loopWords, List.length_append, List.length_replicate, length_flatMap_triple, List.length_reverse]
  omega

theorem length_frameWords {sb : Word} {ch0 : Bool} (h : k.loops.length ≤ 4) : (frameWords k c t sb ch0).length = 37 := by
  simp [frameWords, length_loopWords h]

/-- Three words for each entry stand at three times its place. -/
theorem getElem?_flatMap_triple {α β : Type} (p q r : α → β) : ∀ (l : List α) (i : Nat),
    (l.flatMap fun e => [p e, q e, r e])[3 * i]? = l[i]?.map p
    ∧ (l.flatMap fun e => [p e, q e, r e])[3 * i + 1]? = l[i]?.map q
    ∧ (l.flatMap fun e => [p e, q e, r e])[3 * i + 2]? = l[i]?.map r
  | [], _ => ⟨rfl, rfl, rfl⟩
  | _ :: _, 0 => ⟨rfl, rfl, rfl⟩
  | _ :: l, i + 1 => getElem?_flatMap_triple p q r l i

/-- The loop stack in a frame: start, end and count of each entry, the bottom one first. -/
theorem getElem?_loopWords {ls : List LoopEntry} {i : Nat} (hi : i < ls.reverse.length) :
    (loopWords ls)[3 * i]? = some ls.reverse[i].start ∧ (loopWords ls)[3 * i + 1]? = some ls.reverse[i].stop
    ∧ (loopWords ls)[3 * i + 2]? = some ls.reverse[i].count := by
  have hws := length_flatMap_triple LoopEntry.start LoopEntry.stop LoopEntry.count ls.reverse
  obtain ⟨hstart, hstop, hcount⟩ := getElem?_flatMap_triple LoopEntry.start LoopEntry.stop LoopEntry.count ls.reverse i
  rw [List.getElem?_eq_getElem hi] at hstart hstop hcount
  simp only [loopWords]
  refine ⟨?_, ?_, ?_⟩ <;> rw [List.getElem?_append_left (by omega)] <;> assumption

section
variable {sb : Word} {ch0 : Bool}

/-- A frame without records counts none (R212). -/
theorem getElem?_frameWords_records (h : k.incomplete = []) : (frameWords k c t sb ch0)[4]? = some 0 := by
  simp only [frameWords, h]
  rfl

/-- Past its first eight doublewords a frame holds the registers, the loop stack and the depth. -/
theorem getElem?_frameWords_add_eight (i : Nat) : (frameWords k c t sb ch0)[i + 8]? =
    (k.x.toList ++ (loopWords k.loops ++ [BitVec.ofNat 64 k.loops.length]))[i]? := by
  rw [frameWords, List.append_assoc, List.append_assoc]
  rfl

theorem getElem?_frameWords_x (i : Fin 16) : (frameWords k c t sb ch0)[i.val + 8]? = some k.x[i] := by
  rw [getElem?_frameWords_add_eight, List.getElem?_append_left (by simp)]
  simp

theorem getElem?_frameWords_loops {j : Nat} {w : Word} (hw : (loopWords k.loops)[j]? = some w) :
    (frameWords k c t sb ch0)[j + 16 + 8]? = some w := by
  have hj : j < (loopWords k.loops).length := (List.getElem?_eq_some_iff.1 hw).1
  have hx : k.x.toList.length = 16 := Vector.length_toList
  rw [getElem?_frameWords_add_eight, List.getElem?_append_right (by omega), hx, Nat.add_sub_cancel, List.getElem?_append_left hj, hw]

theorem getElem?_frameWords_depth (h : k.loops.length ≤ 4) : (frameWords k c t sb ch0)[36]? = some (BitVec.ofNat 64 k.loops.length) := by
  have hx : k.x.toList.length = 16 := Vector.length_toList
  have hloops := length_loopWords h
  rw [getElem?_frameWords_add_eight, List.getElem?_append_right (by omega), List.getElem?_append_right (by omega), hx, hloops]
  rfl

end

/-- The doubleword of a frame that holds the cause, the context and the marks (R212). -/
def stateWord (k : Ctx) (c : Nat) (t : TrapInfo) (ch0 : Bool) : Word :=
  pack [(0, t.cause.toNat), (8, bitOf t.late), (9, bitOf k.sup), (10, c), (15, 1), (18, bitOf (t.cause == 0x08)), (19, bitOf ch0),
    (20, t.code.toNat), (30, bitOf t.dbg)]

theorem getElem?_frameWords_state {sb : Word} {ch0 : Bool} : (frameWords k c t sb ch0)[3]? = some (stateWord k c t ch0) := rfl

theorem toNat_stateWord {ch0 : Bool} (hc : c < 32) : (stateWord k c t ch0).toNat =
    t.cause.toNat + (2 ^ 8 * bitOf t.late + (2 ^ 9 * bitOf k.sup + (2 ^ 10 * c + (2 ^ 15 + (2 ^ 18 * bitOf (t.cause == 0x08)
      + (2 ^ 19 * bitOf ch0 + (2 ^ 20 * t.code.toNat + 2 ^ 30 * bitOf t.dbg))))))) := by
  have hapart : Apart [(0, t.cause.toNat), (8, bitOf t.late), (9, bitOf k.sup), (10, c), (15, 1), (18, bitOf (t.cause == 0x08)),
      (19, bitOf ch0), (20, t.code.toNat), (30, bitOf t.dbg)] := by
    have hcause : t.cause.toNat < 2 ^ 8 := t.cause.isLt
    have hcode : t.code.toNat < 2 ^ 10 := t.code.isLt
    have hlate := bitOf_lt t.late
    have hsup := bitOf_lt k.sup
    have hwatch := bitOf_lt (t.cause == 0x08)
    have hch0 := bitOf_lt ch0
    have hdbg := bitOf_lt t.dbg
    simp only [Apart, firstBit, and_true]
    omega
  rw [stateWord, (toNat_pack hapart).2]
  simp only [List.map_cons, List.map_nil, List.sum_cons, List.sum_nil, pow_zero, one_mul, add_zero, mul_one]

theorem stateWord_fields {ch0 : Bool} (hc : c < 32) : field (stateWord k c t ch0) 0 8 = t.cause.toNat
    ∧ (stateWord k c t ch0).getLsbD 8 = t.late ∧ (stateWord k c t ch0).getLsbD 9 = k.sup ∧ field (stateWord k c t ch0) 10 5 = c
    ∧ (stateWord k c t ch0).getLsbD 15 = true := by
  have hcause : t.cause.toNat < 2 ^ 8 := t.cause.isLt
  have hlate := bitOf_lt t.late
  have hsup := bitOf_lt k.sup
  have hlive : bitOf true = 1 := rfl
  have hplace : ∀ p n, field (stateWord k c t ch0) p n = (stateWord k c t ch0).toNat / 2 ^ p % 2 ^ n := fun _ _ => rfl
  rw [toNat_stateWord hc] at hplace
  refine ⟨?_, getLsbD_of_field ?_, getLsbD_of_field ?_, ?_, getLsbD_of_field ?_⟩ <;> rw [hplace] <;> omega

end

/-! ### The routes of an entry (R205) -/

section
variable (s : State) (g c : Nat) (t : TrapInfo)

/-- A context as any trap leaves it: nothing pends, the registers name the cause, and its own frame is the settling one (R208, R215). -/
def Ctx.caught (k : Ctx) (c now : Nat) (t : TrapInfo) : Ctx :=
  { k with
    trap := none, cause := (if t.late then 0x100 else 0) ||| t.cause.setWidth 9, tseq := if t.late then t.seq else 0, since := now,
    stepArm := false, settling := frameAddr c }

/-- A context whose incomplete entries have gone from the ring to the frame (R210, R212). -/
def Ctx.recorded (k : Ctx) : Ctx :=
  { k with framed := k.framed ++ k.incomplete, ring := k.ring.filter fun e => e.st == .done || e.st == .running }

/-- A context that waits until its frame is settled (R205). -/
def Ctx.unsettled (k : Ctx) : Ctx := { k with st := .waiting .settle }

/-- A context that starts the routine at TRAPVEC (R206, R219). -/
def Ctx.inRoutine (k : Ctx) (trapvec : Word) (now : Nat) (t : TrapInfo) : Ctx :=
  { k.resumeAt (entryPC trapvec) with
    sup := true, loops := [], age := now, bump := 0, watch := if t.cause = 0x11 then 0 else k.watch,
    watchTrap := k.watchTrap || t.cause == 0x11 }

/-- A context in its routine after an entry in place (R206). -/
def Ctx.trapped (k : Ctx) (c now : Nat) (trapvec : Word) (t : TrapInfo) : Ctx := (k.caught c now t).recorded.inRoutine trapvec now t

/-- A core whose frame of context c records the trap t (R212). -/
def State.withFrame : State :=
  let k := s.ctx g c
  let words := frameWords k c t (scoreWord k.incomplete) ((s.work g).trapvec == 0)
  s.setWork g { s.work g with
    spad := (((s.work g).spad.clear (frameAddr c) 0x400).putWords (frameAddr c) words).putWords (frameAddr c + 0x200)
      (k.incomplete.flatMap recordOf) }

variable {s g c t} {t' : TrapInfo} (hres : resolve t (s.ctx g c).incomplete = t')
include hres

theorem State.enterTrap_double (hlive : s.frameLive g (frameAddr c) = true) : s.enterTrap g c t =
    if (s.ctx g c).role == .handler 0 then (s.setCtx g c ((s.ctx g c).caught c (s.cycle g) t').unsettled).resetPart g
    else (s.setCtx g c ((s.ctx g c).caught c (s.cycle g) t').unsettled).reportTrap g c t' true := by
  subst hres
  exact if_pos hlive

theorem State.enterTrap_reported (hlive : s.frameLive g (frameAddr c) = false) (hvec : (s.work g).trapvec = 0) : s.enterTrap g c t =
    ((s.withFrame g c t').setCtx g c ((s.ctx g c).caught c (s.cycle g) t').recorded.unsettled).reportTrap g c t' false := by
  subst hres
  exact (if_neg (Bool.eq_false_iff.1 hlive)).trans (if_pos hvec)

theorem State.enterTrap_inPlace (hlive : s.frameLive g (frameAddr c) = false) (hvec : (s.work g).trapvec ≠ 0) : s.enterTrap g c t =
    (s.withFrame g c t').setCtx g c ((s.ctx g c).trapped c (s.cycle g) (s.work g).trapvec t') := by
  subst hres
  exact (if_neg (Bool.eq_false_iff.1 hlive)).trans (if_neg hvec)

omit hres

section
variable (hok : (s.work g).spad.wf = true) (hnone : (s.ctx g c).incomplete = [])
include hnone

/-- Where no entry is incomplete a frame is its doublewords up to the depth, and 0 above them (R212). -/
theorem State.spad_withFrame : ((s.withFrame g c t).work g).spad = ((s.work g).spad.clear (frameAddr c) 0x400).putWords (frameAddr c)
    (frameWords (s.ctx g c) c t 0 ((s.work g).trapvec == 0)) := by
  have hscore : scoreWord [] = 0 := rfl
  simp only [State.withFrame, State.work_setWork, if_true, hnone, hscore, List.flatMap_nil, Memory.putWords]

include hok

theorem State.word_withFrame {i : Nat} {w : Word} (hw : (frameWords (s.ctx g c) c t 0 ((s.work g).trapvec == 0))[i]? = some w) :
    ((s.withFrame g c t).work g).spad.word (frameAddr c + 8 * i) = w := by
  obtain ⟨hi, hget⟩ := List.getElem?_eq_some_iff.1 hw
  rw [State.spad_withFrame hnone, Memory.word_putWords (Memory.wf_clear (frameAddr c) 0x400 hok) hi, hget]

theorem State.get_withFrame (hloops : (s.ctx g c).loops.length ≤ 4) {a : Nat} (ha : a < frameAddr c ∨ frameAddr c + 0x400 ≤ a) :
    ((s.withFrame g c t).work g).spad.get a = (s.work g).spad.get a := by
  have hout : a < frameAddr c ∨ frameAddr c + 8 * (frameWords (s.ctx g c) c t 0 ((s.work g).trapvec == 0)).length ≤ a := by
    rw [length_frameWords hloops]
    omega
  rw [State.spad_withFrame hnone, Memory.get_putWords_outside (Memory.wf_clear _ _ hok) hout, Memory.get_clear _ _ _ hok,
    if_neg (by omega)]

end

end

/-! ### An exact trap with an empty ring (R207, R208) -/

theorem pack_singleton (n : Nat) : pack [(0, n)] = BitVec.ofNat 64 n := by
  rw [pack, List.foldr_cons, List.foldr_nil, pow_zero, Nat.mul_one]
  exact BitVec.zero_or

theorem Ctx.incomplete_of_empty {k : Ctx} (h : k.ring = []) : k.incomplete = [] := by rw [Ctx.incomplete, h, List.filter_nil]

/-- With an empty ring a trap is entered as it was raised (R208). -/
theorem resolve_of_empty {k : Ctx} (t : TrapInfo) (h : k.ring = []) : resolve t k.incomplete = t := by
  rw [Ctx.incomplete_of_empty h]
  rfl

theorem State.takeTrap_of_settled {s : State} {g c : Nat} (t : TrapInfo) (hset : (s.ctx g c).settled = true)
    (hrep : (s.ctx g c).replay = false) : s.takeTrap g c t = s.enterTrap g c t :=
  if_pos (by rw [hset, hrep]; rfl)

/-! ### An entry in place (R206) -/

section
variable (k : Ctx) (c now : Nat) (trapvec : Word) (t : TrapInfo)

@[simp] theorem Ctx.trapped_pc : (k.trapped c now trapvec t).pc = entryPC trapvec := rfl
@[simp] theorem Ctx.trapped_sup : (k.trapped c now trapvec t).sup = true := rfl
@[simp] theorem Ctx.trapped_loops : (k.trapped c now trapvec t).loops = [] := rfl
@[simp] theorem Ctx.trapped_st : (k.trapped c now trapvec t).st = .ready := rfl
@[simp] theorem Ctx.trapped_cause : (k.trapped c now trapvec t).cause = (if t.late then 0x100 else 0) ||| t.cause.setWidth 9 := rfl
@[simp] theorem Ctx.trapped_tseq : (k.trapped c now trapvec t).tseq = if t.late then t.seq else 0 := rfl
@[simp] theorem Ctx.trapped_settling : (k.trapped c now trapvec t).settling = frameAddr c := rfl
@[simp] theorem Ctx.trapped_framed : (k.trapped c now trapvec t).framed = k.framed ++ k.incomplete := rfl
@[simp] theorem Ctx.trapped_x : (k.trapped c now trapvec t).x = k.x := rfl
@[simp] theorem Ctx.trapped_v : (k.trapped c now trapvec t).v = k.v := rfl
@[simp] theorem Ctx.trapped_p : (k.trapped c now trapvec t).p = k.p := rfl
@[simp] theorem Ctx.trapped_fpflags : (k.trapped c now trapvec t).fpflags = k.fpflags := rfl
@[simp] theorem Ctx.trapped_rnd : (k.trapped c now trapvec t).rnd = k.rnd := rfl
@[simp] theorem Ctx.trapped_rng : (k.trapped c now trapvec t).rng = k.rng := rfl
@[simp] theorem Ctx.trapped_vt : (k.trapped c now trapvec t).vt = k.vt := rfl
@[simp] theorem Ctx.trapped_mbox : (k.trapped c now trapvec t).mbox = k.mbox := rfl

end

section
variable {s : State} {cause : Nat} (fault : Word) (hset : s.me.settled = true) (hrep : s.me.replay = false) (hring : s.me.ring = [])
  (hlive : s.frameLive s.cur.1 (frameAddr s.cur.2) = false) (hvec : (s.work s.cur.1).trapvec ≠ 0)

include hset hrep hring hlive hvec

theorem State.trap_inPlace : s.trap cause fault =
    (s.withFrame s.cur.1 s.cur.2 (s.trapInfo cause fault)).setCtx s.cur.1 s.cur.2
      (s.me.trapped s.cur.2 (s.cycle s.cur.1) (s.work s.cur.1).trapvec (s.trapInfo cause fault)) :=
  (State.takeTrap_of_settled _ hset hrep).trans (State.enterTrap_inPlace (resolve_of_empty _ hring) hlive hvec)

theorem State.me_trap : (s.trap cause fault).me =
    s.me.trapped s.cur.2 (s.cycle s.cur.1) (s.work s.cur.1).trapvec (s.trapInfo cause fault) := by
  rw [State.trap_inPlace fault hset hrep hring hlive hvec]
  exact (State.ctx_setCtx ..).trans (if_pos ⟨rfl, rfl⟩)

theorem State.spad_trap (h : Nat) :
    ((s.trap cause fault).work h).spad = ((s.withFrame s.cur.1 s.cur.2 (s.trapInfo cause fault)).work h).spad := by
  rw [State.trap_inPlace fault hset hrep hring hlive hvec, State.spad_setCtx]

theorem State.work_trap_other {h : Nat} (hh : h ≠ s.cur.1) : (s.trap cause fault).work h = s.work h := by
  rw [State.trap_inPlace fault hset hrep hring hlive hvec, State.work_setCtx, if_neg hh]
  exact (State.work_setWork ..).trans (if_neg hh)

theorem State.ctx_trap_other {c : Nat} (hc : c ≠ s.cur.2) : (s.trap cause fault).ctx s.cur.1 c = s.ctx s.cur.1 c := by
  rw [State.trap_inPlace fault hset hrep hring hlive hvec, State.ctx_setCtx, if_neg fun h => hc h.2]
  exact State.ctx_setWork_of_ctxs (by rfl) _ _

variable (hok : SpadsOk s)
include hok

theorem State.frameWord_trap {i : Nat} {w : Word}
    (hw : (frameWords s.me s.cur.2 (s.trapInfo cause fault) 0 ((s.work s.cur.1).trapvec == 0))[i]? = some w) :
    (s.trap cause fault).frameWord s.cur.1 (frameAddr s.cur.2) (8 * i) = w := by
  rw [State.frameWord, State.spad_trap fault hset hrep hring hlive hvec]
  exact State.word_withFrame (hok _) (Ctx.incomplete_of_empty hring) hw

theorem State.get_trap (hloops : s.me.loops.length ≤ 4) {a : Nat} (ha : a < frameAddr s.cur.2 ∨ frameAddr s.cur.2 + 0x400 ≤ a) :
    ((s.trap cause fault).work s.cur.1).spad.get a = (s.work s.cur.1).spad.get a := by
  rw [State.spad_trap fault hset hrep hring hlive hvec]
  exact State.get_withFrame (hok _) (Ctx.incomplete_of_empty hring) hloops ha

/-- The frame of an exact trap whose ring is empty (R207, R208, R212). -/
theorem State.frameWords_trap (hcause : cause < 23) (hloops : s.me.loops.length ≤ 4) :
    let word := (s.trap cause fault).frameWord s.cur.1 (frameAddr s.cur.2)
    word 0 = s.me.pc ∧ word 8 = fault
    ∧ word 0x18 = stateWord s.me s.cur.2 (s.trapInfo cause fault) ((s.work s.cur.1).trapvec == 0) ∧ word 0x20 = 0
    ∧ word 0x28 = BitVec.ofNat 64 (2 ^ cause) ∧ (∀ i : Fin 16, word (0x40 + 8 * i.val) = s.me.x[i])
    ∧ word 0x120 = BitVec.ofNat 64 s.me.loops.length := by
  have hword : ∀ {i : Nat} {w : Word}, _ → (s.trap cause fault).frameWord s.cur.1 (frameAddr s.cur.2) (8 * i) = w :=
    State.frameWord_trap fault hset hrep hring hlive hvec hok
  have hmask : (BitVec.ofNat 23 (2 ^ cause)).toNat = 2 ^ cause := by
    rw [BitVec.toNat_ofNat, Nat.mod_eq_of_lt (Nat.pow_lt_pow_right (by decide) hcause)]
  refine ⟨hword (i := 0) rfl, hword (i := 1) rfl, hword (i := 3) getElem?_frameWords_state,
    hword (i := 4) (getElem?_frameWords_records (Ctx.incomplete_of_empty hring)),
    hword (i := 5) (congrArg some ((pack_singleton _).trans (congrArg _ hmask))), fun i => ?_,
    hword (i := 36) (getElem?_frameWords_depth hloops)⟩
  have hx := hword (getElem?_frameWords_x i)
  rwa [Nat.mul_add, Nat.add_comm] at hx

end

/-- The cause register of an exact trap holds its code (R208). -/
theorem Ctx.toNat_trapped_cause {s : State} {cause : Nat} (fault : Word) (h : cause < 23) (k : Ctx) (c now : Nat) (trapvec : Word) :
    (k.trapped c now trapvec (s.trapInfo cause fault)).cause.toNat = cause := by
  have hcause : (k.trapped c now trapvec (s.trapInfo cause fault)).cause = (BitVec.ofNat 8 cause).setWidth 9 :=
    (Ctx.trapped_cause ..).trans BitVec.zero_or
  rw [hcause, BitVec.toNat_setWidth, BitVec.toNat_ofNat]
  omega

/-- Settles O51: the state after an entry in place is the routine's context over the frame, and each word of the frame is read back. -/
theorem trapEntry : Obligations.TrapEntry := by
  intro s cause fault _ hcause hc hok hset hrep hring _ hloops hlive hvec t g f word
  have hme : t.me = _ := State.me_trap fault hset hrep hring hlive hvec
  obtain ⟨hresume, hfault, hstate, hrecords, hmask, hx, hdepth⟩ :=
    State.frameWords_trap fault hset hrep hring hlive hvec hok hcause hloops
  obtain ⟨hcode, hlate, hpriv, hctx, hbit⟩ := stateWord_fields (k := s.me) (t := s.trapInfo cause fault)
    (ch0 := (s.work s.cur.1).trapvec == 0) (Nat.lt_trans hc (by decide))
  rw [← hstate] at hcode hlate hpriv hctx hbit
  have hcause8 : (BitVec.ofNat 8 cause).toNat = cause := (BitVec.toNat_ofNat ..).trans (Nat.mod_eq_of_lt (by omega))
  rw [hme]
  exact ⟨Ctx.trapped_pc .., Ctx.trapped_sup .., Ctx.trapped_loops .., Ctx.trapped_st .., Ctx.toNat_trapped_cause fault hcause ..,
    Ctx.trapped_tseq .., Ctx.trapped_settling .., Ctx.trapped_x .., Ctx.trapped_v .., Ctx.trapped_p .., Ctx.trapped_fpflags ..,
    Ctx.trapped_rnd .., Ctx.trapped_rng .., Ctx.trapped_vt .., Ctx.trapped_mbox .., hresume, hfault, hcode.trans hcause8, hlate, hpriv,
    hctx, hbit, congrArg (field · 8 6) hrecords, hmask, hx, hdepth, fun a => congrArg (Memory.get · a) (State.trap_mem ..),
    fun a => State.get_trap fault hset hrep hring hlive hvec hok hloops,
    fun h => State.work_trap_other fault hset hrep hring hlive hvec, fun c => State.ctx_trap_other fault hset hrep hring hlive hvec⟩

/-! ### The routes of a report (R205, R361) -/

section
variable {s : State} {g c : Nat}

theorem State.handler_setCtx (s : State) (g c h ch : Nat) (k : Ctx) : (s.setCtx g c k).handler h ch = s.handler h ch := by
  rw [State.handler, State.work_setCtx_field Work.handlers fun _ _ => rfl]
  rfl

theorem State.handler_withFrame (t : TrapInfo) (ch : Nat) : (s.withFrame g c t).handler g ch = s.handler g ch := by
  simp only [State.handler, State.withFrame, State.work_setWork, if_true]

theorem State.deviceMsg_setWork (s : State) (j g c dst ch : Nat) (ws : List Word) (w : Work) :
    (s.setWork j w).deviceMsg g c dst ch ws = s.deviceMsg g c dst ch ws := by
  simp only [State.deviceMsg, State.ident, State.logicalOf, State.tag_setWork]
  rfl

theorem State.reportTrap_of_valid (hvalid : (s.handler g 0).valid = true) (t : TrapInfo) (double : Bool) :
    s.reportTrap g c t double = s.report g c g 0 [BitVec.ofNat 64 (frameAddr c), pack [(0, c), (5, bitOf double)],
      pack [(0, t.cause.toNat), (8, bitOf t.late)], t.resume] := if_pos hvalid

theorem State.reportTrap_of_invalid (hvalid : (s.handler g 0).valid = false) (t : TrapInfo) (double : Bool) :
    s.reportTrap g c t double = s.resetPart g := if_neg (Bool.eq_false_iff.1 hvalid)

/-- The message of a report enters the network under the next number. -/
theorem State.find_report (s : State) (g c dst ch : Nat) (ws : List Word) :
    Tab.find (s.report g c dst ch ws).net.msgs s.nextId = some (s.bearing ((s.deviceMsg g c dst ch ws).marked s.nextId)) :=
  (Tab.find_put ..).trans (if_pos rfl)

/-- A message sent changes no byte. -/
theorem SameBytes.report {u : State} (h : SameBytes s u) (g c dst ch : Nat) (ws : List Word) : SameBytes s (u.report g c dst ch ws) := h

theorem State.resetDue_resetPart (s : State) (g : Nat) : ((s.resetPart g).part (s.tag g)).resetDue = true := by
  rw [State.resetPart, State.part, State.setPart, Tab.look_put, if_pos rfl]

/-- A change of a core's work leaves it in its partition. -/
theorem State.resetDue_resetPart_setWork (s : State) (g : Nat) (w : Work) :
    (((s.setWork g w).resetPart g).part (s.tag g)).resetDue = true := by
  rw [← State.tag_setWork s g g w]
  exact State.resetDue_resetPart ..

/-- The words that tell an exact trap (R205). -/
def State.trapReport (s : State) (cause : Nat) (double : Bool) : List Word :=
  [BitVec.ofNat 64 (frameAddr s.cur.2), pack [(0, s.cur.2), (5, bitOf double)], BitVec.ofNat 64 cause, s.me.pc]

/-- An exact trap told on channel 0 (R205). -/
theorem State.reportTrap_exact {u : State} {cause : Nat} (fault : Word) (hcause : cause < 23) (double : Bool)
    (hvalid : (u.handler s.cur.1 0).valid = true) : u.reportTrap s.cur.1 s.cur.2 (s.trapInfo cause fault) double =
      u.report s.cur.1 s.cur.2 s.cur.1 0 (s.trapReport cause double) := by
  have hcode : pack [(0, (BitVec.ofNat 8 cause).toNat), (8, bitOf false)] = BitVec.ofNat 64 cause := by
    rw [BitVec.toNat_ofNat, Nat.mod_eq_of_lt (by omega)]
    exact pack_singleton cause
  rw [State.reportTrap_of_valid hvalid]
  exact congrArg (fun v => State.report _ _ _ _ _ [_, _, v, _]) hcode

theorem State.find_report_setWork (s : State) (j g c dst ch : Nat) (w : Work) (ws : List Word) :
    Tab.find ((s.setWork j w).report g c dst ch ws).net.msgs s.nextId =
      some (s.bearing ((s.deviceMsg g c dst ch ws).marked s.nextId)) := by
  have h := (s.setWork j w).find_report g c dst ch ws
  rwa [State.deviceMsg_setWork] at h

end

section
variable {s : State} {cause : Nat} (fault : Word)

/-- A trap that cannot be entered yet is noted (R210). -/
theorem State.trap_noted (h : s.me.settled = false ∨ s.me.replay = true) :
    s.trap cause fault = s.setMe { s.me with trap := some (s.trapInfo cause fault), st := .ready } := by
  have hnot : ¬ (s.me.settled && !s.me.replay) = true := by
    rcases h with h | h <;> simp [h]
  exact if_neg hnot

variable (hset : s.me.settled = true) (hrep : s.me.replay = false)
include hset hrep

/-- Without a valid handler of channel 0 neither a double trap nor one without a vector is reported (R205, R361). -/
theorem State.resetDue_trap (hvalid : (s.handler s.cur.1 0).valid = false)
    (h : s.frameLive s.cur.1 (frameAddr s.cur.2) = true ∨ (s.work s.cur.1).trapvec = 0) :
    ((s.trap cause fault).part (s.tag s.cur.1)).resetDue = true := by
  rw [State.trap, State.takeTrap_of_settled _ hset hrep]
  cases hlive : s.frameLive s.cur.1 (frameAddr s.cur.2) with
  | true =>
    rw [State.enterTrap_double rfl hlive, State.reportTrap_of_invalid (by rw [State.handler_setCtx, hvalid]), ite_self]
    exact State.resetDue_resetPart_setWork ..
  | false =>
    have hvec := h.resolve_left (Bool.eq_false_iff.1 hlive)
    rw [State.enterTrap_reported rfl hlive hvec,
      State.reportTrap_of_invalid (by rw [State.handler_setCtx, State.handler_withFrame, hvalid]), State.setCtx, State.withFrame,
      State.setWork_setWork]
    exact State.resetDue_resetPart_setWork ..

variable (hring : s.me.ring = []) (hvalid : (s.handler s.cur.1 0).valid = true)
include hring hvalid

/-- A double trap leaves the frame and is told (R205). -/
theorem State.trap_double (hcause : cause < 23) (hrole : s.me.role ≠ .handler 0)
    (hlive : s.frameLive s.cur.1 (frameAddr s.cur.2) = true) : s.trap cause fault =
      (s.setMe (s.me.caught s.cur.2 (s.cycle s.cur.1) (s.trapInfo cause fault)).unsettled).report
        s.cur.1 s.cur.2 s.cur.1 0 (s.trapReport cause true) := by
  have henter := (State.enterTrap_double (resolve_of_empty (s.trapInfo cause fault) hring) hlive).trans (if_neg (by rwa [beq_iff_eq]))
  refine ((State.takeTrap_of_settled _ hset hrep).trans henter).trans (State.reportTrap_exact fault hcause true ?_)
  exact (congrArg _ (State.handler_setCtx ..)).trans hvalid

/-- A trap without a vector writes the frame and is told (R205). -/
theorem State.trap_reported (hcause : cause < 23) (hlive : s.frameLive s.cur.1 (frameAddr s.cur.2) = false)
    (hvec : (s.work s.cur.1).trapvec = 0) : s.trap cause fault =
      ((s.withFrame s.cur.1 s.cur.2 (s.trapInfo cause fault)).setMe
        (s.me.caught s.cur.2 (s.cycle s.cur.1) (s.trapInfo cause fault)).recorded.unsettled).report
          s.cur.1 s.cur.2 s.cur.1 0 (s.trapReport cause false) := by
  have henter := State.enterTrap_reported (resolve_of_empty (s.trapInfo cause fault) hring) hlive hvec
  refine ((State.takeTrap_of_settled _ hset hrep).trans henter).trans (State.reportTrap_exact fault hcause false ?_)
  exact (congrArg _ ((State.handler_setCtx ..).trans (State.handler_withFrame ..))).trans hvalid

end

/-! ### Several causes at once (R208, R217) -/

theorem lowestCause_spec {cs : List (Nat × Word)} (h : cs ≠ []) :
    ∃ e ∈ cs, lowestCause cs = some e ∧ ∀ d ∈ cs, e.1 ≤ d.1 := by
  induction cs with
  | nil => exact absurd rfl h
  | cons x r ih =>
    obtain rfl | hr := eq_or_ne r []
    · exact ⟨x, List.mem_singleton_self x, rfl, fun d hd => by rw [List.mem_singleton.1 hd]⟩
    · obtain ⟨e, he, hlow, hmin⟩ := ih hr
      by_cases hx : e.1 < x.1
      · refine ⟨e, List.mem_cons_of_mem _ he, ?_, List.forall_mem_cons.2 ⟨hx.le, hmin⟩⟩
        rw [lowestCause, hlow]
        exact if_pos hx
      · refine ⟨x, List.mem_cons_self, ?_, List.forall_mem_cons.2 ⟨le_rfl, fun d hd => (Nat.not_lt.1 hx).trans (hmin d hd)⟩⟩
        rw [lowestCause, hlow]
        exact if_neg hx

theorem getLsbD_causeBit {n : Nat} (hn : n < 23) (k : Nat) : (BitVec.ofNat 23 (2 ^ k)).getLsbD n = decide (k = n) := by
  rw [BitVec.getLsbD_ofNat, Nat.testBit_two_pow, decide_eq_true hn, Bool.true_and]

theorem getLsbD_causeMask {n : Nat} (hn : n < 23) (cs : List (Nat × Word)) (m : BitVec 23) :
    (cs.foldl (fun m e => m ||| BitVec.ofNat 23 (2 ^ e.1)) m).getLsbD n = true ↔ m.getLsbD n = true ∨ ∃ d ∈ cs, d.1 = n := by
  induction cs generalizing m with
  | nil => simp
  | cons e r ih =>
    rw [List.foldl_cons, ih, BitVec.getLsbD_or, getLsbD_causeBit hn]
    simp [or_assoc]

/-- The trap of several causes that an instruction raises: the lowest of them, with the bits of all (R208). -/
def TakesLowest (s : State) (cs : List (Nat × Word)) (t : State) : Prop :=
  ∃ e ∈ cs, (∀ d ∈ cs, e.1 ≤ d.1) ∧ ∃ m : BitVec 23, (∀ n, n < 23 → (m.getLsbD n = true ↔ ∃ d ∈ cs, d.1 = n))
    ∧ t = s.takeTrap s.cur.1 s.cur.2 { s.trapInfo e.1 e.2 with mask := m }

theorem State.trapAll_takesLowest (s : State) {cs : List (Nat × Word)} (h : cs ≠ []) : TakesLowest s cs (s.trapAll cs) := by
  obtain ⟨e, he, hlow, hmin⟩ := lowestCause_spec h
  refine ⟨e, he, hmin, _, fun n hn => (getLsbD_causeMask hn cs (BitVec.ofNat 23 (2 ^ e.1))).trans (or_iff_right_of_imp fun hbit => ?_), ?_⟩
  · rw [getLsbD_causeBit hn, decide_eq_true_eq] at hbit
    exact ⟨e, he, hbit⟩
  · rw [State.trapAll, hlow]
    rfl

theorem State.accessTrap_none (s : State) {cs : List Nat} (h : cs ≠ []) (a : Word) :
    s.accessTrap cs none a = s.trapAll (cs.map fun c => (c, a)) := by
  obtain ⟨c, r, rfl⟩ := List.exists_cons_of_ne_nil h
  rfl

theorem State.accessTrap_some (s : State) {cs : List Nat} (h : cs ≠ []) (i : Nat) (a : Word) :
    s.accessTrap cs (some i) a = (s.pull s.cur.1 i).trapAll ((cs ++ [0x08]).map fun c => (c, a)) := by
  obtain ⟨c, r, rfl⟩ := List.exists_cons_of_ne_nil h
  rfl

/-- Settles O52: a trap is noted or takes one of the routes of its entry; several causes are resolved to the lowest. -/
theorem trapRoutes : Obligations.TrapRoutes := by
  intro s cause fault hcause t g c f told
  refine ⟨fun h => ?_, fun hset hrep hring hvalid hrole => ⟨fun hlive => ?_, fun hlive hvec => ?_⟩,
    fun hset hrep hvalid h => State.resetDue_trap fault hset hrep hvalid h, fun cs i a hcs _ => ?_⟩
  · have ht : t = _ := State.trap_noted fault h
    rw [ht, State.me_setMe]
    exact ⟨onlyMe_setMe .., sameBytes_setMe .., rfl⟩
  · have ht : t = _ := State.trap_double fault hset hrep hring hvalid hcause hrole hlive
    have hme : t.me = _ := (congrArg State.me ht).trans (State.me_setMe ..)
    rw [hme]
    refine ⟨?_, rfl, rfl, rfl, ?_⟩
    · rw [ht]
      exact (sameBytes_setMe ..).report ..
    · rw [ht]
      exact State.find_report_setWork ..
  · have ht : t = _ := State.trap_reported fault hset hrep hring hvalid hcause hlive hvec
    have hme : t.me = _ := (congrArg State.me ht).trans (State.me_setMe ..)
    rw [hme]
    refine ⟨rfl, rfl, rfl, ?_⟩
    rw [ht, State.withFrame, State.setMe, State.setCtx, State.setWork_cur, State.setWork_setWork]
    exact State.find_report_setWork ..
  · have hmap : cs.map (fun e => e.1) ≠ [] := fun h => hcs (List.map_eq_nil_iff.1 h)
    refine ⟨State.trapAll_takesLowest s hcs, ?_, ?_⟩
    · rw [State.accessTrap_none s hmap, List.map_map]
      exact State.trapAll_takesLowest s fun h => hcs (List.map_eq_nil_iff.1 h)
    · rw [State.accessTrap_some s hmap, List.map_append, List.map_map]
      have h := State.trapAll_takesLowest (s.pull g i) (cs := cs.map (fun e => (e.1, a)) ++ [(0x08, a)]) (by simp)
      rwa [TakesLowest, State.pull_cur] at h

end Sys2Proof.Machine
end

section
/-! The return from a trap that was taken in place (O53). -/

namespace Sys2Proof.Machine

/-! ### The return (R216) -/

theorem frameOwner_frameAddr {n : Nat} (h : n < 24) : frameOwner (BitVec.ofNat 64 (frameAddr n)) = some n := by
  refine List.find?_range_eq_some.2 ⟨beq_self_eq_true _, List.mem_range.2 h, fun j hj => ?_⟩
  have hne : BitVec.ofNat 64 (frameAddr n) ≠ BitVec.ofNat 64 (frameAddr j) := by
    simp only [frameAddr, ne_eq, ← BitVec.toNat_inj, BitVec.toNat_ofNat]
    omega
  rw [beq_eq_false_iff_ne.2 hne]
  rfl

section
variable {s : State} {g f : Nat}

/-- A core whose frame at f is live no longer (R216). -/
def State.closeFrame (s : State) (g f : Nat) : State :=
  s.setWork g { s.work g with spad := (s.work g).spad.putWord (f + 0x18) ((s.work g).spad.word (f + 0x18) &&& ~~~0x8000) }

/-- A context that goes on where its frame says, with what the frame holds (R216). -/
def State.returned (s : State) (g f : Nat) (k : Ctx) : Ctx :=
  { (s.restored g f k).resumeAt (s.frameWord g f 0) with chunk := (s.restored g f k).chunk + 1 }

theorem State.frameLive_closeFrame (hok : (s.work g).spad.wf = true) : (s.closeFrame g f).frameLive g f = false := by
  rw [State.frameLive, State.closeFrame, State.work_setWork, if_pos rfl, Memory.word_putWord _ _ hok, BitVec.getLsbD_and]
  exact Bool.and_false _

/-- Writing registers leaves every other part of a context but what it still expects to read (R43). -/
theorem Ctx.setXs_field {α : Type} (p : Ctx → α) (hp : ∀ k x o a, p { k with x := x, owed := o, amos := a } = p k) :
    ∀ (ws : List Word) (k : Ctx) (r : Nat), p (k.setXs r ws) = p k
  | [], _, _ => rfl
  | _ :: ws, k, _ => (Ctx.setXs_field p hp ws _ _).trans (hp k _ _ _)

/-- A context keeps what its frame does not hold (R206, R216). -/
theorem State.returned_keeps (s : State) (g f : Nat) (k : Ctx) : (s.returned g f k).v = k.v ∧ (s.returned g f k).p = k.p
    ∧ (s.returned g f k).fpflags = k.fpflags ∧ (s.returned g f k).rnd = k.rnd ∧ (s.returned g f k).rng = k.rng
    ∧ (s.returned g f k).vt = k.vt ∧ (s.returned g f k).mbox = k.mbox := by
  have hkeeps := fun {α : Type} (p : Ctx → α) hp => Ctx.setXs_field p hp ((List.range 16).map fun i => s.frameWord g f (0x40 + 8 * i)) k 0
  exact ⟨hkeeps Ctx.v fun _ _ _ _ => rfl, hkeeps Ctx.p fun _ _ _ _ => rfl, hkeeps Ctx.fpflags fun _ _ _ _ => rfl,
    hkeeps Ctx.rnd fun _ _ _ _ => rfl, hkeeps Ctx.rng fun _ _ _ _ => rfl, hkeeps Ctx.vt fun _ _ _ _ => rfl,
    hkeeps Ctx.mbox fun _ _ _ _ => rfl⟩

/-- A context gets the registers that its frame holds. -/
theorem State.returned_x {x : Vector Word 16} (k : Ctx) (h : ∀ i : Fin 16, s.frameWord g f (0x40 + 8 * i.val) = x[i]) :
    (s.returned g f k).x = x := by
  refine Vector.ext fun i hi => ?_
  have hread := Ctx.setXs_x ((List.range 16).map fun i => s.frameWord g f (0x40 + 8 * i)) k 0 hi
  have hplace : 0 ≤ i ∧ i < 0 + ((List.range 16).map fun i => s.frameWord g f (0x40 + 8 * i)).length := by simpa using hi
  rw [if_pos hplace] at hread
  refine hread.trans ?_
  simpa [List.getD_eq_getElem?_getD, hi] using h ⟨i, hi⟩

/-- A context gets the loop stack that its frame holds. -/
theorem State.frameLoops_eq {ls : List LoopEntry} (h : ∀ (i : Nat) (hi : i < ls.reverse.length),
      s.frameWord g f (0xC0 + 24 * i) = ls.reverse[i].start ∧ s.frameWord g f (0xC8 + 24 * i) = ls.reverse[i].stop
      ∧ s.frameWord g f (0xD0 + 24 * i) = ls.reverse[i].count) : s.frameLoops g f ls.length = ls := by
  rw [State.frameLoops, List.reverse_eq_iff]
  refine List.ext_getElem (by simp) fun i _ hi => ?_
  obtain ⟨hstart, hstop, hcount⟩ := h i hi
  rw [List.getElem_map, List.getElem_range, hstart, hstop, hcount]

/-- ERET of a context that settles its own frame, which holds no records (R216). -/
theorem exec_eret_own (hsup : s.me.sup = true) (hc : s.cur.2 < 24) (hsettling : s.me.settling = frameAddr s.cur.2)
    (hlive : s.frameLive s.cur.1 (frameAddr s.cur.2) = true) (heven : (s.frameWord s.cur.1 (frameAddr s.cur.2) 0).getLsbD 0 = false)
    (hdepth : field (s.frameWord s.cur.1 (frameAddr s.cur.2) 0x120) 0 3 ≤ 4)
    (hrec : field (s.frameWord s.cur.1 (frameAddr s.cur.2) 0x20) 8 6 = 0) (hframed : s.me.framed = []) : exec .eret s =
      .next ((s.closeFrame s.cur.1 (frameAddr s.cur.2)).setMe (s.returned s.cur.1 (frameAddr s.cur.2) s.me)) := by
  have hrecords : (s.ctx s.cur.1 s.cur.2).framed = [] := hframed
  have hframe : (!s.frameLive s.cur.1 (frameAddr s.cur.2) || (s.frameWord s.cur.1 (frameAddr s.cur.2) 0).getLsbD 0
      || decide (4 < field (s.frameWord s.cur.1 (frameAddr s.cur.2) 0x120) 0 3)
      || (field (s.frameWord s.cur.1 (frameAddr s.cur.2) 0x20) 8 6 != 0
        && !(s.frameWord s.cur.1 (frameAddr s.cur.2) 0x18).getLsbD 16)) = false := by
    rw [hlive, heven, hrec, decide_eq_false (Nat.not_lt.mpr hdepth)]
    rfl
  show execEret s = _
  simp only [execEret, hsup, hsettling, frameOwner_frameAddr hc, hframe, hrecords, Bool.not_true, Bool.false_eq_true, ne_eq, not_true,
    false_and, if_false, if_true, List.foldl_nil]
  rfl

end

/-! ### The return from an entry in place (R206, R216) -/

section
variable {s : State} {cause : Nat} (fault : Word) (hset : s.me.settled = true) (hrep : s.me.replay = false) (hring : s.me.ring = [])
  (hlive : s.frameLive s.cur.1 (frameAddr s.cur.2) = false) (hvec : (s.work s.cur.1).trapvec ≠ 0) (hok : SpadsOk s)
include hset hrep hring hlive hvec hok

theorem State.wf_spad_trap : ((s.trap cause fault).work s.cur.1).spad.wf = true := by
  rw [State.spad_trap fault hset hrep hring hlive hvec, State.spad_withFrame (Ctx.incomplete_of_empty hring)]
  exact Memory.wf_putWords _ _ (Memory.wf_clear _ _ (hok _))

theorem State.frameLoops_trap : (s.trap cause fault).frameLoops s.cur.1 (frameAddr s.cur.2) s.me.loops.length = s.me.loops := by
  have hword : ∀ {i j : Nat} {w : Word}, _ → 8 * (i + 16 + 8) = j →
      (s.trap cause fault).frameWord s.cur.1 (frameAddr s.cur.2) j = w :=
    fun hw hj => hj ▸ State.frameWord_trap fault hset hrep hring hlive hvec hok (getElem?_frameWords_loops hw)
  refine State.frameLoops_eq fun i hi => ?_
  obtain ⟨hstart, hstop, hcount⟩ := getElem?_loopWords hi
  exact ⟨hword hstart (by omega), hword hstop (by omega), hword hcount (by omega)⟩

end

/-- Settles O53: the frame that the entry writes is live and whole, so that ERET takes each part of the context back from it. -/
theorem trapThenEret : Obligations.TrapThenEret := by
  intro s cause fault _ hcause hc hok hset hrep hring hframed hloops hlive hvec heven
  obtain ⟨hresume, -, hstate, hrecords, -, hx, hdepth⟩ := State.frameWords_trap fault hset hrep hring hlive hvec hok hcause hloops
  obtain ⟨-, -, hpriv, -, hbit⟩ := stateWord_fields (k := s.me) (t := s.trapInfo cause fault)
    (ch0 := (s.work s.cur.1).trapvec == 0) (Nat.lt_trans hc (by decide))
  rw [← hstate] at hpriv hbit
  have hme : (s.trap cause fault).me = _ := State.me_trap fault hset hrep hring hlive hvec
  have hcur : (s.trap cause fault).cur = s.cur := State.trap_cur ..
  have hlevel : field ((s.trap cause fault).frameWord s.cur.1 (frameAddr s.cur.2) 0x120) 0 3 = s.me.loops.length := by
    rw [hdepth, field_zero, BitVec.toNat_ofNat]
    omega
  have hno : (s.trap cause fault).me.framed = [] := by
    rw [hme, Ctx.trapped_framed, hframed, Ctx.incomplete_of_empty hring, List.append_nil]
  have heret := exec_eret_own (s := s.trap cause fault) (by rw [hme, Ctx.trapped_sup]) (by rwa [hcur])
    (by rw [hme, hcur, Ctx.trapped_settling]) (by rw [hcur]; exact hbit) (by rw [hcur, hresume, heven]) (by rwa [hcur, hlevel])
    (by rw [hcur, hrecords]; rfl) hno
  rw [hcur, hme] at heret
  obtain ⟨hv, hp, hflags, hrnd, hrng, hvt, hmbox⟩ := (s.trap cause fault).returned_keeps s.cur.1 (frameAddr s.cur.2)
    (s.me.trapped s.cur.2 (s.cycle s.cur.1) (s.work s.cur.1).trapvec (s.trapInfo cause fault))
  refine ⟨_, heret, hcur, ?_, ?_, ?_, ?_, ?_, ?_, ?_, ?_, ?_, ?_, ?_, ?_, ?_, fun a => ?_⟩
  case refine_13 =>
    have hwf := State.wf_spad_trap (cause := cause) fault hset hrep hring hlive hvec hok
    rw [← State.frameLive_closeFrame (s := s.trap cause fault) (f := frameAddr s.cur.2) hwf, State.frameLive, State.frameLive,
      State.spad_setMe]
  case refine_14 => exact congrArg (fun m => Memory.get m a) (State.trap_mem ..)
  all_goals rw [State.me_setMe]
  · exact hresume
  · rfl
  · exact State.returned_x _ hx
  · exact (congrArg _ hlevel).trans (State.frameLoops_trap fault hset hrep hring hlive hvec hok)
  · exact hpriv
  · exact hv.trans (Ctx.trapped_v ..)
  · exact hp.trans (Ctx.trapped_p ..)
  · exact hflags.trans (Ctx.trapped_fpflags ..)
  · exact hrnd.trans (Ctx.trapped_rnd ..)
  · exact hrng.trans (Ctx.trapped_rng ..)
  · exact hvt.trans (Ctx.trapped_vt ..)
  · exact hmbox.trans (Ctx.trapped_mbox ..)

end Sys2Proof.Machine
end

section
/-! What leaves memory alone (O5). -/

namespace Sys2Proof.Machine

/-- The state that an outcome goes on with: where it does not go on, the state before it. -/
def State.after (s : State) : Host.Outcome State Fault Refusal → State
  | .next t => t
  | .fault _ => s
  | .refused _ => s

@[simp] theorem State.after_next (s t : State) : s.after (.next t) = t := rfl

@[simp] theorem State.foldl_mem {α : Type} {f : State → α → State} (hf : ∀ s a, (f s a).mem = s.mem) (l : List α) (s : State) :
    (l.foldl f s).mem = s.mem := foldl_kept State.mem f hf l s

@[simp] theorem State.mem_ite (p : Prop) [Decidable p] (s t : State) : (if p then s else t).mem = if p then s.mem else t.mem :=
  apply_ite State.mem p s t

/-! ### Operands -/

/-- A V-slot body that leaves memory alone: what it computes goes to its context, to scratchpads and to the send queue. -/
def KeepsMem (b : VBody) : Prop := ∀ s g c e, (b s g c e).mem = s.mem

theorem State.issueV_mem (s : State) (i : Instr) (len : Nat) {b : VBody} (hb : KeepsMem b) : (s.issueV i len b).mem = s.mem := by
  rw [State.issueV, State.retire_mem, hb, State.setMe_mem]

/-! ### Contexts -/

@[simp] theorem State.fillFlits_mem (s : State) (g : Nat) (reply : Bool) : (s.fillFlits g reply).mem = s.mem := rfl

@[simp] theorem State.accessTrap_mem (s : State) (cs : List Nat) (w : Option Nat) (a : Word) : (s.accessTrap cs w a).mem = s.mem := by
  unfold State.accessTrap
  split <;> simp

/-! ### Event -/

@[simp] theorem State.whenSafe_mem {s t : State} (h : t.mem = s.mem) : (s.whenSafe t).mem = s.mem := by
  simp [State.whenSafe, h]

@[simp] theorem State.logGranules_mem (s : State) (g slot id : Nat) (vt : Word) (l : List Nat) :
    (s.logGranules g slot id vt l).mem = s.mem := by
  induction l generalizing s with
  | nil => rfl
  | cons a r ih =>
    simp only [State.logGranules]
    split <;> simp [ih]

@[simp] theorem State.scratchWrites_mem (s : State) (g c : Nat) (ws : List (Nat × List Byte)) : (s.scratchWrites g c ws).mem = s.mem := by
  unfold State.scratchWrites
  split <;> simp

/-! ### Branch -/

@[simp] theorem State.branch_mem (s : State) (len : Nat) (taken : Bool) (a : Word) : (s.branch len taken a).mem = s.mem := by
  simp [State.branch]

@[simp] theorem execJal_mem (r : XReg) (d : BitVec 20) (s : State) : (s.after (execJal r d s)).mem = s.mem := by
  simp [execJal]

@[simp] theorem State.startLoop_mem (s : State) (n : Word) (e : BitVec 12) : (s.startLoop n e).mem = s.mem := by
  simp [State.startLoop]

@[simp] theorem execBreakl_mem (s : State) : (s.after (execBreakl s)).mem = s.mem := by
  unfold execBreakl
  split <;> simp

@[simp] theorem State.doYield_mem (s : State) (len : Nat) : (s.doYield len).mem = s.mem := by
  simp [State.doYield]

@[simp] theorem State.writeCr_mem (s : State) (r : BitVec 12) (v : Word) : (s.writeCr r v).mem = s.mem := by
  simp [State.writeCr]

@[simp] theorem execCrd_mem (d : XReg) (r : BitVec 12) (s : State) : (s.after (execCrd d r s)).mem = s.mem := by
  simp [execCrd]

@[simp] theorem execCwr_mem (a : XReg) (r : BitVec 12) (s : State) : (s.after (execCwr a r s)).mem = s.mem := by
  simp [execCwr]

@[simp] theorem execTrap_mem (c : BitVec 10) (s : State) : (s.after (execTrap c s)).mem = s.mem := by
  simp [execTrap]

@[simp] theorem execBrk_mem (c : BitVec 10) (s : State) : (s.after (execBrk c s)).mem = s.mem := by
  simp [execBrk]

/-! ### Local -/

@[simp] theorem State.loadLocal_mem (s : State) (len size : Nat) (signed : Bool) (d : XReg) (a : Word) :
    (s.loadLocal len size signed d a).mem = s.mem := by
  simp only [State.loadLocal]
  repeat' split
  all_goals simp

@[simp] theorem State.storeLocal_mem (s : State) (size : Nat) (v : Word) (a : Word) : (s.storeLocal size v a).mem = s.mem := by
  simp only [State.storeLocal]
  repeat' split
  all_goals simp

theorem keepsMem_localBody (d : Nat) (p : BitVec 3) (write : Bool) (addr : Ctx → Vector Word 16 → Nat → Word) :
    KeepsMem (localBody d p write addr) := by
  intro s g c e
  simp only [localBody]
  repeat' split
  all_goals simp

theorem State.issueLoad_mem (s : State) (i : Instr) (p : BitVec 3) (addr : Ctx → Vector Word 16 → Nat → Word) {b : VBody} (hb : KeepsMem b) :
    (s.issueLoad i p addr b).mem = s.mem := by
  unfold State.issueLoad
  repeat' split
  all_goals simp [State.issueV_mem, hb]

theorem State.issueStore_mem (s : State) (i : Instr) (d : Nat) (p : BitVec 3) (addr : Ctx → Vector Word 16 → Nat → Word) {b : VBody}
    (hb : KeepsMem b) : (s.issueStore i d p addr b).mem = s.mem := by
  simp [State.issueStore, State.issueV_mem, hb]

theorem keepsMem_bodyTblld (t : BitVec 5) (a : BitVec 6) : KeepsMem (bodyTblld t a) := by
  intro s g c e
  unfold bodyTblld
  dsimp only
  split
  · rw [State.setCtx_mem]
    split
    · exact State.pull_mem ..
    · rfl
  · split
    · rw [State.setCtx_mem, State.pull_mem]
    · rw [State.setCtx_mem, State.setWork_mem]

@[simp] theorem execTblld_mem (t : BitVec 5) (a : BitVec 6) (s : State) : (s.after (execTblld t a s)).mem = s.mem := by
  refine State.whenSafe_mem ?_
  simp [State.issueV_mem, keepsMem_bodyTblld]

@[simp] theorem State.putBarFor_mem (s : State) (g c off : Nat) (o : BarObj) : (s.putBarFor g c off o).mem = s.mem := by
  unfold State.putBarFor
  split <;> simp

@[simp] theorem State.putBar_mem (s : State) (off : Nat) (o : BarObj) : (s.putBar off o).mem = s.mem := by
  simp [State.putBar]

@[simp] theorem State.withBar_mem {s : State} {a : Word} {write ok : Bool} {kinds : BitVec 3} {f : Nat → State} (hf : ∀ off, (f off).mem = s.mem) :
    (s.withBar a write ok kinds f).mem = s.mem := by
  simp only [State.withBar]
  repeat' split
  all_goals simp [hf]

@[simp] theorem State.readsBar_mem {s : State} {a : Word} {write ok : Bool} {kinds : BitVec 3} {f : Nat → State} (hf : ∀ off, (f off).mem = s.mem) :
    (s.readsBar a write ok kinds f).mem = s.mem := by
  simp [State.readsBar, hf]

@[simp] theorem execBinit_mem (a b : XReg) (s : State) : (s.after (execBinit a b s)).mem = s.mem := by
  simp [execBinit]

@[simp] theorem execBexpect_mem (a b : XReg) (s : State) : (s.after (execBexpect a b s)).mem = s.mem := by
  simp [execBexpect]

@[simp] theorem execBarrive_mem (a : XReg) (s : State) : (s.after (execBarrive a s)).mem = s.mem := by
  simp [execBarrive]

@[simp] theorem execBwait_mem (a b : XReg) (s : State) : (s.after (execBwait a b s)).mem = s.mem := by
  simp [execBwait]

@[simp] theorem execBtest_mem (a b d : XReg) (s : State) : (s.after (execBtest a b d s)).mem = s.mem := by
  simp [execBtest]

/-! ### Xlate -/

@[simp] theorem State.count_mem (s : State) (t i n : Nat) : (s.count t i n).mem = s.mem := rfl

@[simp] theorem State.countBytes_mem (s : State) (t n : Nat) : (s.countBytes t n).mem = s.mem := rfl

@[simp] theorem State.setWeir_mem (s : State) (pa : Nat) (w : Weir) : (s.setWeir pa w).mem = s.mem := by
  unfold State.setWeir
  split <;> simp

@[simp] theorem State.served_mem (s : State) (pa t cost : Nat) : (s.served pa t cost).mem = s.mem := by
  unfold State.served
  split <;> simp

@[simp] theorem State.chargeWalk_mem (s : State) (g : Nat) (va : Word) : (s.chargeWalk g va).mem = s.mem := by
  simp [State.chargeWalk]

@[simp] theorem State.fillTlb_mem (s : State) (g : Nat) (k : Access) (e : TlbEntry) : (s.fillTlb g k e).mem = s.mem := rfl

@[simp] theorem State.translate_mem (s : State) (g : Nat) (user : Bool) (va : Word) (k : Access) :
    (s.translate g user va k).1.mem = s.mem := by
  simp only [State.translate]
  repeat' split
  all_goals simp

@[simp] theorem State.sendNotice_mem (s : State) (g : Nat) : (s.sendNotice g).mem = s.mem := by
  unfold State.sendNotice
  split <;> simp

@[simp] theorem State.recordFault_mem (s : State) (g : Nat) (va : Word) (k : Access) (f : XFail) (engine : Bool) :
    (s.recordFault g va k f engine).mem = s.mem := by
  simp [State.recordFault]

@[simp] theorem State.parkHere_mem (s : State) (va : Word) (k : Access) (f : XFail) : (s.parkHere va k f).mem = s.mem := by
  simp [State.parkHere]

/-! ### DevReg -/

@[simp] theorem State.putWindows_mem (s : State) (g : Nat) : (s.putWindows g).mem = s.mem := by
  simp [State.putWindows]

@[simp] theorem State.resumeCluster_mem (s : State) (g : Nat) : (s.resumeCluster g).mem = s.mem :=
  State.foldl_mem (fun _ _ => State.putWindows_mem ..) ..

@[simp] theorem State.beginFlush_mem (s : State) (g : Nat) : (s.beginFlush g).mem = s.mem := rfl

@[simp] theorem State.setDebug_mem (s : State) (g : Nat) (d : Debug) : (s.setDebug g d).mem = s.mem := rfl

@[simp] theorem State.writeStlog_mem (s : State) (g : Nat) (v : Word) : (s.writeStlog g v).mem = s.mem := rfl

@[simp] theorem State.writeHandler_mem (s : State) (g ch : Nat) (second : Bool) (v : Word) :
    (s.writeHandler g ch second v).mem = s.mem := rfl

@[simp] theorem State.dropSequencer_mem (s : State) (t : Nat) : (s.dropSequencer t).mem = s.mem := by
  simp [State.dropSequencer]

@[simp] theorem State.writeReg_mem (s : State) (g off : Nat) (v : Word) : (s.writeReg g off v).1.mem = s.mem := by
  have hite : ∀ (p : Prop) [Decidable p] (a b : State × Bool), (if p then a else b).1.mem = if p then a.1.mem else b.1.mem :=
    fun p _ a b => apply_ite (fun r : State × Bool => r.1.mem) p a b
  simp [State.writeReg, hite]

@[simp] theorem State.writeLink_mem (s : State) (chip die off : Nat) : (s.writeLink chip die off).mem = s.mem := by
  simp [State.writeLink]

/-! ### Trace -/

@[simp] theorem State.passChunk_mem (s : State) (g c kind : Nat) : (s.passChunk g c kind).mem = s.mem := rfl

@[simp] theorem State.stalled_mem (s : State) (g c kind : Nat) : (s.stalled g c kind).mem = s.mem := rfl

@[simp] theorem State.sampled_mem (s : State) (g q v n : Nat) : (s.sampled g q v n).mem = s.mem := by
  simp [State.sampled]

@[simp] theorem State.periodic_mem (s : State) (g a b : Nat) : (s.periodic g a b).mem = s.mem := by
  simp [State.periodic]

@[simp] theorem execMonitorSample_mem (g m : Nat) (v : Word) (s : State) : (s.after (execMonitorSample g m v s)).mem = s.mem := by
  simp only [execMonitorSample]
  split <;> simp

@[simp] theorem execMonitorClear_mem (g m : Nat) (s : State) : (s.after (execMonitorClear g m s)).mem = s.mem := by
  simp [execMonitorClear]

/-! ### Global -/

@[simp] theorem State.enqueue_mem (s : State) (g : Nat) (e : SendEntry) : (s.enqueue g e).mem = s.mem := rfl

@[simp] theorem State.send1_mem (s : State) (r : MemReq) : (s.send1 r).mem = s.mem := rfl

@[simp] theorem State.globalAccess_mem (s : State) (g c : Nat) (va : Word) (k : Access) (size : Nat) (scalar fadd : Bool) :
    (s.globalAccess g c va k size scalar fadd).1.mem = s.mem := by
  simp only [State.globalAccess]
  repeat' split
  all_goals simp

@[simp] theorem State.stop_mem (s : State) (x : Stop) : (s.stop x).mem = s.mem := by
  unfold State.stop
  split <;> simp

@[simp] theorem State.scalarGlobal_mem (s : State) {va : Word} {k : Access} {size : Nat} {fadd : Bool} {go : State → Nat → State}
    (hgo : ∀ t pa, (go t pa).mem = t.mem) : (s.scalarGlobal va k size fadd go).mem = s.mem := by
  simp only [State.scalarGlobal]
  split <;> simp [hgo]

@[simp] theorem execLdg_mem (z : BitVec 2) (d a : XReg) (sg : BitVec 1) (o : BitVec 13) (s : State) :
    (s.after (execLdg z d a sg o s)).mem = s.mem := by
  simp [execLdg]

@[simp] theorem State.sendStores_mem (s : State) (ws : List (Nat × List Byte)) : (s.sendStores ws).mem = s.mem := rfl

@[simp] theorem State.storeGlobal_mem (s : State) (va : Word) (bs : List Byte) : (s.storeGlobal va bs).mem = s.mem := by
  simp only [State.storeGlobal]
  repeat' split
  all_goals simp

@[simp] theorem State.sendAmo_mem (s : State) (f : BitVec 4) (size : Nat) (d a b c : XReg) : (s.sendAmo f size d a b c).mem = s.mem := by
  simp [State.sendAmo]

@[simp] theorem State.laneGlobal_mem (s : State) (g c : Nat) (k : Access) (a : Word) (now : Bool) :
    (s.laneGlobal g c k a now).1.mem = s.mem := by
  unfold State.laneGlobal
  repeat' split
  all_goals simp

@[simp] theorem State.lanesGlobal_mem (s : State) (g c : Nat) (k : Access) (addr : Nat → Word) (now : Nat → Bool) (l : List Nat) :
    (s.lanesGlobal g c k addr now l).1.mem = s.mem := by
  induction l generalizing s with
  | nil => rfl
  | cons i r ih =>
    simp only [State.lanesGlobal]
    split <;> simp [ih]

@[simp] theorem State.holdParts_mem (s : State) (g c : Nat) (ps : List Part) : (s.holdParts g c ps).mem = s.mem := by
  unfold State.holdParts
  split <;> simp

@[simp] theorem State.parkEntry_mem (s : State) (g c : Nat) (seq : Byte) (a : Word) (k : Access) (f : XFail) :
    (s.parkEntry g c seq a k f).mem = s.mem := by
  simp [State.parkEntry]

@[simp] theorem State.sendLanes_mem (s : State) (g c : Nat) (seq : Byte) (store : Bool) (rs : List MemReq) (late : BitVec 64) :
    (s.sendLanes g c seq store rs late).mem = s.mem := by
  simp [State.sendLanes]

theorem keepsMem_globalBody (d : BitVec 5) (p : BitVec 3) (store : Bool) (piece : Nat) (addr : Ctx → Vector Word 16 → Nat → Word) :
    KeepsMem (globalBody d p store piece addr) := by
  intro s g c e
  simp only [globalBody, vectorGlobal]
  repeat' split
  all_goals simp

theorem State.issueGlobal_mem (s : State) (i : Instr) {b : VBody} (hb : KeepsMem b) : (s.issueGlobal i b).mem = s.mem := by
  simp [State.issueGlobal, State.issueV_mem, hb]

theorem State.issueGlobalStore_mem (s : State) (i : Instr) (d : BitVec 5) (p : BitVec 3) (addr : Ctx → Vector Word 16 → Nat → Word) {b : VBody}
    (hb : KeepsMem b) : (s.issueGlobalStore i d p addr b).mem = s.mem := by
  simp [State.issueGlobalStore, State.issueGlobal_mem, hb]

@[simp] theorem State.waitSampled_mem (s : State) (r : MemReq) : (s.waitSampled r).mem = s.mem := by
  unfold State.waitSampled
  split <;> simp

@[simp] theorem State.windowBack_mem (s : State) (g cls : Nat) (spate : Bool) : (s.windowBack g cls spate).mem = s.mem := rfl

@[simp] theorem State.takeReply_mem (s : State) (k : Nat) (a : MemReply) : (s.takeReply k a).mem = s.mem := by
  simp [State.takeReply]

@[simp] theorem execStoreAck_mem (k : Nat) (s : State) : (s.after (execStoreAck k s)).mem = s.mem := by
  unfold execStoreAck
  split <;> simp

@[simp] theorem execDrain_mem (s : State) : (s.after (execDrain s)).mem = s.mem := by
  simp [execDrain]

@[simp] theorem execFence_mem (k : BitVec 2) (_sc : BitVec 3) (s : State) : (s.after (execFence k _sc s)).mem = s.mem := by
  simp [execFence]

@[simp] theorem execWeirPeriod_mem (h : Nat) (s : State) : (s.after (execWeirPeriod h s)).mem = s.mem := by
  simp [execWeirPeriod]

@[simp] theorem execPageWalk_mem (g : Nat) (va : Word) (kind : BitVec 2) (s : State) :
    (s.after (execPageWalk g va kind s)).mem = s.mem := by
  simp only [execPageWalk]
  split <;> simp

/-! ### Send -/

theorem State.queueMsg_mem {s t : State} {g c : Nat} {m : Msg} {ws : List Nat} (h : s.queueMsg g c m ws = some t) : t.mem = s.mem := by
  simp only [State.queueMsg] at h
  repeat' split at h
  all_goals simp at h
  all_goals simp [← h]

@[simp] theorem State.mapFor_mem (s : State) (t g : Nat) (f : Work → Work) : (s.mapFor t g f).mem = s.mem := by
  simp only [State.mapFor]
  repeat' split
  all_goals simp

@[simp] theorem State.sendNow_mem (s : State) (len : Nat) (m : Msg) (rel : Bool) : (s.sendNow len m rel).mem = s.mem := by
  simp only [State.sendNow]
  split
  · simp
  · split
    · next t h => simp [State.queueMsg_mem h]
    · simp

@[simp] theorem State.logOutput_mem (s : State) (g slot : Nat) (e : LpEvent) (m : Msg) : (s.logOutput g slot e m).mem = s.mem := by
  unfold State.logOutput
  split <;> simp

@[simp] theorem State.coastSend_mem (s : State) (g slot : Nat) (e : LpEvent) (m : Msg) : (s.coastSend g slot e m).mem = s.mem := by
  unfold State.coastSend
  split <;> simp

@[simp] theorem State.sendMsg_mem (s : State) (len : Nat) (m : Msg) (rel : Bool) : (s.sendMsg len m rel).mem = s.mem := by
  simp only [State.sendMsg]
  split
  · exact State.sendNow_mem ..
  · split
    · split <;> simp
    · split
      · repeat (split; · simp)
        split
        · next t h => simp [State.queueMsg_mem h]
        · simp
      · split <;> simp

@[simp] theorem State.send_mem (s : State) (len : Nat) (c : BitVec 6) (d : Word) (payload : List Byte) (bad : List Nat) (rel timed : Bool) (vt : Word) :
    (s.send len c d payload bad rel timed vt).mem = s.mem := by
  unfold State.send
  split <;> simp

@[simp] theorem execSend_mem (a b : XReg) (n : BitVec 2) (v r : BitVec 1) (c : BitVec 6) (s : State) :
    (s.after (execSend a b n v r c s)).mem = s.mem := by
  simp [execSend]

@[simp] theorem execSendl_mem (a b : XReg) (c : BitVec 6) (l : BitVec 12) (x : XReg) (v r : BitVec 1) (s : State) :
    (s.after (execSendl a b c l x v r s)).mem = s.mem := by
  simp only [execSendl]
  repeat' split
  all_goals simp

@[simp] theorem State.queueReply_mem (s : State) (g c : Nat) (m : Msg) (waits : List Nat) : (s.queueReply g c m waits).mem = s.mem := rfl

@[simp] theorem State.markAnswered_mem (s : State) (u : CurMsg) : (s.markAnswered u).mem = s.mem := rfl

@[simp] theorem execReply_mem (n : BitVec 2) (s : State) : (s.after (execReply n s)).mem = s.mem := by
  simp only [execReply]
  repeat' split
  all_goals simp

@[simp] theorem execMsgrd_mem (d a : XReg) (s : State) : (s.after (execMsgrd d a s)).mem = s.mem := by
  unfold execMsgrd
  split <;> simp

@[simp] theorem State.setMask_mem (s : State) (g ch : Nat) (m : Bool) : (s.setMask g ch m).mem = s.mem := rfl

@[simp] theorem execChmask_mem (m : BitVec 1) (c : BitVec 6) (s : State) : (s.after (execChmask m c s)).mem = s.mem := by
  simp [execChmask]

@[simp] theorem execWaitch_mem (c : BitVec 6) (s : State) : (s.after (execWaitch c s)).mem = s.mem := by
  refine State.whenSafe_mem ?_
  repeat' split
  all_goals simp

@[simp] theorem State.fillSlot_mem (s : State) (g n : Nat) (m : Msg) : (s.fillSlot g n m).mem = s.mem := rfl

@[simp] theorem State.deliver_mem (s : State) (g c n : Nat) (m : Msg) (cell : Option Nat) : (s.deliver g c n m cell).mem = s.mem := by
  simp [State.deliver]

theorem State.takePlace_mem {s t : State} {g cls : Nat} (h : s.takePlace g cls = some t) : t.mem = s.mem := by
  simp only [State.takePlace] at h
  split at h <;> simp at h
  simp [← h]

@[simp] theorem State.withNet_mem (s : State) (f : Net → Net) : (s.withNet f).mem = s.mem := rfl

@[simp] theorem State.putMsg_mem (s : State) (m : Msg) : (s.putMsg m).mem = s.mem := by
  simp [State.putMsg]

@[simp] theorem State.putOp_mem (s : State) (o : FabricOp) : (s.putOp o).mem = s.mem := by
  unfold State.putOp
  split <;> simp

theorem State.injectItem_mem {s t : State} {g : Nat} {i : SendItem} {o : Option SendItem} (h : s.injectItem g i = some (t, o)) :
    t.mem = s.mem := by
  unfold State.injectItem at h
  split at h
  · split at h
    · obtain ⟨u, hu, h⟩ := Option.map_eq_some_iff.1 h
      cases h
      simp [State.takePlace_mem hu]
    · cases h
      simp
  · cases h
    rfl
  · obtain ⟨u, hu, h⟩ := Option.map_eq_some_iff.1 h
    cases h
    simp [State.takePlace_mem hu]
  all_goals
    cases h
    simp

@[simp] theorem execSendInjection_mem (g : Nat) (reply : Bool) (s0 : State) : (s0.after (execSendInjection g reply s0)).mem = s0.mem := by
  simp only [execSendInjection, State.after_next]
  have hfill : (if (s0.work g).flitsWait reply then s0.fillFlits g reply else s0).mem = s0.mem := by simp
  generalize (if (s0.work g).flitsWait reply then s0.fillFlits g reply else s0) = s at hfill
  rw [← hfill]
  split
  · rfl
  · split
    · rfl
    · split
      · rfl
      · next h => exact (State.setWork_mem ..).trans (State.injectItem_mem h)

@[simp] theorem execRetryResend_mem (k : Nat) (s : State) : (s.after (execRetryResend k s)).mem = s.mem := by
  unfold execRetryResend
  repeat' split
  all_goals simp

@[simp] theorem State.landed_mem (s : State) (k : Nat) : (s.landed k).mem = s.mem := rfl

@[simp] theorem State.releaseFor_mem (s : State) (g : Nat) (m : Msg) : (s.releaseFor g m).mem = s.mem := by
  simp [State.releaseFor]

@[simp] theorem State.discardMsg_mem (s : State) (k : Nat) (m : Msg) : (s.discardMsg k m).mem = s.mem := by
  simp [State.discardMsg]

@[simp] theorem execMessageArrival_mem (k : Nat) (s : State) : (s.after (execMessageArrival k s)).mem = s.mem := by
  unfold execMessageArrival
  split <;> simp

@[simp] theorem execReplyLanding_mem (k : Nat) (s : State) : (s.after (execReplyLanding k s)).mem = s.mem := by
  unfold execReplyLanding
  split <;> simp

@[simp] theorem execCellRelease_mem (k : Nat) (s : State) : (s.after (execCellRelease k s)).mem = s.mem := by
  unfold execCellRelease
  split <;> simp

@[simp] theorem State.discardHost_mem (s : State) (t : Nat) : (s.discardHost t).mem = s.mem := rfl

@[simp] theorem execHostWindowWrite_mem (w off : Nat) (data : List Byte) (s : State) :
    (s.after (execHostWindowWrite w off data s)).mem = s.mem := by
  simp only [execHostWindowWrite, State.after_next]
  split
  · rfl
  · split
    · simp
    · split <;> simp

/-! ### Vector -/

theorem keepsMem_fpBody (f : Fmt) (d : BitVec 5) (a b : BitVec 6) (r : Option (BitVec 6)) (p : BitVec 3) (n : Nat)
    (op : Bool → Val → Val → Val → Exact) : KeepsMem (fpBody f d a b r p n op) := fun _ _ _ _ => finishFlags_mem ..

theorem keepsMem_elemBody (f : Fmt) (d : BitVec 5) (a b : BitVec 6) (p : BitVec 3) (op : Nat → Nat → Rounded) : KeepsMem (elemBody f d a b p op) :=
  fun _ _ _ _ => finishFlags_mem ..

theorem keepsMem_reduceBody (d : BitVec 5) (a : BitVec 6) (p : BitVec 3) (unit : Nat) (op : RMode → Nat → Nat → Acc → Nat × Acc) :
    KeepsMem (reduceBody d a p unit op) := fun _ _ _ _ => finishFlags_mem ..

theorem keepsMem_cmpBody (cc : Cmp) (f : Fmt) (d : BitVec 5) (a b : BitVec 6) (p : BitVec 3) : KeepsMem (cmpBody cc f d a b p) :=
  fun _ _ _ _ => finishFlags_mem ..

theorem keepsMem_moveBody (d : BitVec 5) (p : BitVec 3) (src : Ctx → Vector Word 16 → Nat → Lane) : KeepsMem (moveBody d p src) :=
  fun _ _ _ _ => State.setCtx_mem ..

theorem keepsMem_cvtBody (d : BitVec 5) (a : BitVec 6) (r fs p f : BitVec 3) : KeepsMem (cvtBody d a r fs p f) := fun _ _ _ _ => finishFlags_mem ..

theorem State.storeRecord_mem {s t : State} {g n : Nat} {sup : Bool} {r : List Byte} (h : s.storeRecord g sup n r = .ok t) : t.mem = s.mem := by
  unfold State.storeRecord at h
  split at h
  · nomatch h
  · obtain rfl := Except.ok.inj h
    exact State.localStore_mem ..

@[simp] theorem State.endNarrow_mem (s : State) (g c : Nat) (seq : Byte) : (s.endNarrow g c seq).mem = s.mem := by
  simp only [State.endNarrow]
  split <;> simp

@[simp] theorem State.recordDone_mem (s : State) (g c : Nat) (seq : Byte) : (s.recordDone g c seq).mem = s.mem := by
  simp [State.recordDone]

@[simp] theorem State.recordFails_mem (s : State) (g c : Nat) (seq : Byte) (cause : Nat) (a : Word) :
    (s.recordFails g c seq cause a).mem = s.mem := by
  simp [State.recordFails]

@[simp] theorem State.recordDropped_mem (s : State) (g c : Nat) (seq : Byte) : (s.recordDropped g c seq).mem = s.mem := by
  simp [State.recordDropped]

@[simp] theorem beginNarrow_mem (g c : Nat) (e : RingEntry) (d : BitVec 5) (ps : List (Nat × Nat)) (fl : Flags) (rs : List (List Byte)) (s : State) :
    (beginNarrow g c e d ps fl rs s).mem = s.mem := by
  simp [beginNarrow]

@[simp] theorem State.appendRecord_mem (s : State) (g c : Nat) (e : RingEntry) (r : List Byte) : (s.appendRecord g c e r).mem = s.mem := by
  simp only [State.appendRecord]
  split
  · split
    · exact State.recordFails_mem ..
    · next s1 h => simp [State.storeRecord_mem h]
  · exact State.recordDropped_mem ..

theorem keepsMem_narrowBody (d : BitVec 5) (a b : BitVec 6) (p f : BitVec 3) : KeepsMem (narrowBody d a b p f) := by
  intro s g c e
  simp only [narrowBody]
  split <;> simp

@[simp] theorem execVcvtn_mem (d : BitVec 5) (a b : BitVec 6) (p f : BitVec 3) (s : State) :
    (s.after (execVcvtn d a b p f s)).mem = s.mem :=
  State.whenSafe_mem (s.issueV_mem _ _ (keepsMem_narrowBody d a b p f))

theorem keepsMem_lookupBody (d : BitVec 5) (a : BitVec 6) (t p f : BitVec 3) : KeepsMem (lookupBody d a t p f) := fun _ _ _ _ => finishFlags_mem ..

theorem keepsMem_ropeBody (d : BitVec 5) (a b : BitVec 6) (p : BitVec 3) : KeepsMem (ropeBody d a b p) := by
  intro s g c e
  simp only [ropeBody]
  split <;> simp

/-! ### Fabric -/

theorem State.newCounter_mem {s t : State} {p g region w key : Nat} (h : s.newCounter p g region w = some (key, t)) : t.mem = s.mem := by
  unfold State.newCounter at h
  dsimp only at h
  split at h
  · obtain ⟨-, rfl⟩ := Prod.mk.inj (Option.some.inj h)
    exact State.setPart_mem ..
  · nomatch h

@[simp] theorem State.setCounter_mem (s : State) (t key : Nat) (k : Counter) : (s.setCounter t key k).mem = s.mem := rfl

@[simp] theorem State.exitReport_mem (s : State) (r : ExitReport) : (s.exitReport r).mem = s.mem := by
  unfold State.exitReport
  repeat' split
  all_goals simp

@[simp] theorem State.settleReports_mem (s : State) : s.settleReports.mem = s.mem := by
  simp [State.settleReports]

@[simp] theorem State.moveOp_mem (s : State) (k : Nat) (o : FabricOp) (p : FabricPos) : (s.moveOp k o p).mem = s.mem := rfl

@[simp] theorem State.atBalancer_mem (s : State) (k : Nat) (anti : Bool) : (s.atBalancer k anti).mem = s.mem := by
  unfold State.atBalancer
  repeat' split
  all_goals simp

@[simp] theorem State.atExit_mem (s : State) (k : Nat) (kind : FabricKind → Bool) : (s.atExit k kind).mem = s.mem := by
  simp only [State.atExit]
  repeat' split
  all_goals simp

@[simp] theorem execBalancerToken_mem (k : Nat) (s : State) : (s.after (execBalancerToken k s)).mem = s.mem := by
  simp [execBalancerToken]

@[simp] theorem execBalancerAntitoken_mem (k : Nat) (s : State) : (s.after (execBalancerAntitoken k s)).mem = s.mem := by
  simp [execBalancerAntitoken]

@[simp] theorem execExitToken_mem (k : Nat) (s : State) : (s.after (execExitToken k s)).mem = s.mem := by
  simp [execExitToken]

@[simp] theorem execExitAntitoken_mem (k : Nat) (s : State) : (s.after (execExitAntitoken k s)).mem = s.mem := by
  simp [execExitAntitoken]

@[simp] theorem execExitCancel_mem (k : Nat) (s : State) : (s.after (execExitCancel k s)).mem = s.mem := by
  simp [execExitCancel]

@[simp] theorem State.askSlot_mem (s : State) (g c key : Nat) (seq : Byte) : (s.askSlot g c key seq).mem = s.mem := by
  unfold State.askSlot
  split <;> simp

@[simp] theorem State.slotAnswer_mem (s : State) (g c : Nat) (seq : Byte) (ok : Bool) (v : Word) :
    (s.slotAnswer g c seq ok v).mem = s.mem := by
  unfold State.slotAnswer
  repeat' split
  case h_3 s1 h _ => simp [State.storeRecord_mem h]
  all_goals simp

@[simp] theorem State.as_mem (s : State) (g c : Nat) {f : State → State} (hf : ∀ t, (f t).mem = t.mem) : (s.as g c f).mem = s.mem := hf _

@[simp] theorem State.withCounter_mem {s : State} {x mask : Word} {worn : Bool} {go : Nat → Counter → State}
    (hgo : ∀ key k, (go key k).mem = s.mem) : (s.withCounter x mask worn go).mem = s.mem := by
  simp only [State.withCounter]
  repeat' split
  all_goals simp [hgo]

@[simp] theorem State.failWaiters_mem (s : State) (t key : Nat) (n : Counter) : (s.failWaiters t key n).mem = s.mem := by
  simp [State.failWaiters]

@[simp] theorem State.freeCounter_mem (s : State) (t key : Nat) : (s.freeCounter t key).mem = s.mem := by
  unfold State.freeCounter
  split <;> simp

@[simp] theorem State.sendOp_mem (s : State) (key : Nat) (k : Counter) (kind : FabricKind) (wire : Nat) (d : XReg) :
    (s.sendOp key k kind wire d).mem = s.mem := rfl

@[simp] theorem execCtake_mem (d a : XReg) (s : State) : (s.after (execCtake d a s)).mem = s.mem :=
  State.whenSafe_mem (State.withCounter_mem fun _ _ => State.sendOp_mem ..)

@[simp] theorem execCgive_mem (d a : XReg) (s : State) : (s.after (execCgive d a s)).mem = s.mem :=
  State.whenSafe_mem (State.withCounter_mem fun _ _ => State.sendOp_mem ..)

@[simp] theorem execGenerationClose_mem (t key : Nat) (s : State) : (s.after (execGenerationClose t key s)).mem = s.mem := by
  simp only [execGenerationClose]
  split <;> simp

@[simp] theorem execPennantRaise_mem (t key : Nat) (s : State) : (s.after (execPennantRaise t key s)).mem = s.mem := by
  simp only [execPennantRaise]
  split <;> simp

theorem keepsMem_bodyVcvtnCounter (d : BitVec 5) (a b : BitVec 6) (p f : BitVec 3) (n : BitVec 12) : KeepsMem (bodyVcvtnCounter d a b p f n) :=
  fun _ _ _ _ => beginNarrow_mem ..

@[simp] theorem State.narrowOn_mem (s : State) (g c : Nat) (e : RingEntry) : (s.narrowOn g c e).mem = s.mem := by
  unfold State.narrowOn
  split <;> simp

@[simp] theorem execVcvtnCounter_mem (d : BitVec 5) (a b : BitVec 6) (p f : BitVec 3) (n : BitVec 12) (s : State) :
    (s.after (execVcvtnCounter d a b p f n s)).mem = s.mem :=
  State.whenSafe_mem (s.issueV_mem _ _ (keepsMem_bodyVcvtnCounter d a b p f n))

/-! ### Bulk -/

@[simp] theorem State.mapPieces_mem (s : State) (g : Nat) (sup : Bool) (k : Access) (l : List (Nat × Nat)) :
    (s.mapPieces g sup k l).1.mem = s.mem := by
  induction l generalizing s with
  | nil => rfl
  | cons p r ih =>
    simp only [State.mapPieces]
    repeat' split
    all_goals simp [ih]

@[simp] theorem State.mapVirt_mem (s : State) (g : Nat) (sup : Bool) (k : Access) (va : Word) (n : Nat) :
    (s.mapVirt g sup k va n).1.mem = s.mem := by
  simp [State.mapVirt]

@[simp] theorem State.chargePieces_mem (s : State) (t : Nat) (write : Bool) (ps : List (Nat × Nat)) :
    (s.chargePieces t write ps).mem = s.mem := by
  simp [State.chargePieces]

@[simp] theorem State.readVirt_mem (s : State) (g : Nat) (sup : Bool) (va : Word) (n : Nat) : (s.readVirt g sup va n).1.mem = s.mem := by
  simp only [State.readVirt]
  split <;> simp

/-! ### Lp -/

@[simp] theorem State.readRegion_mem (s : State) (g : Nat) (r : Region) : (s.readRegion g r).1.mem = s.mem := by
  unfold State.readRegion
  split <;> simp

@[simp] theorem State.annihilate_mem (s : State) (g : Nat) (e : Source × Nat × Msg) : (s.annihilate g e).mem = s.mem := by
  unfold State.annihilate
  split <;> simp

@[simp] theorem State.meetAnti_mem (s : State) (g slot ch : Nat) : (s.meetAnti g slot ch).mem = s.mem := by
  simp only [State.meetAnti]
  repeat' split
  all_goals simp

@[simp] theorem State.meetAntis_mem (s : State) (g slot ch : Nat) : (s.meetAntis g slot ch).mem = s.mem := by
  simp [State.meetAntis]

@[simp] theorem execLpUnbind_mem (g slot : Nat) (s : State) : (s.after (execLpUnbind g slot s)).mem = s.mem := by
  unfold execLpUnbind
  split <;> simp

@[simp] theorem State.abort_mem (s : State) (g c : Nat) : (s.abort g c).mem = s.mem := by
  unfold State.abort
  split <;> simp

@[simp] theorem State.abortAll_mem (s : State) (g slot : Nat) (es : List LpEvent) : (s.abortAll g slot es).mem = s.mem := by
  simp [State.abortAll]

@[simp] theorem State.undoEddy_mem (s : State) (g : Nat) (ids : List Nat) (es : List EddyEntry) : (s.undoEddy g ids es).mem = s.mem :=
  State.foldl_mem (fun _ _ => State.localStore_mem ..) ..

@[simp] theorem execVtset_mem (a : XReg) (s : State) : (s.after (execVtset a s)).mem = s.mem := by
  simp [execVtset]

@[simp] theorem State.mapDomain_mem (s : State) (t d : Nat) (f : Domain → Domain) : (s.mapDomain t d f).mem = s.mem := rfl

@[simp] theorem execSwater_mem (a : XReg) (t : BitVec 8) (s : State) : (s.after (execSwater a t s)).mem = s.mem := by
  simp [execSwater]

@[simp] theorem execCkpt_mem (a : XReg) (s : State) : (s.after (execCkpt a s)).mem = s.mem := by
  unfold execCkpt
  split <;> simp

@[simp] theorem execScursor_mem (d a : XReg) (p : BitVec 1) (s : State) : (s.after (execScursor d a p s)).mem = s.mem := by
  unfold execScursor
  split <;> simp

@[simp] theorem State.raisePlay_mem (s : State) (g slot : Nat) (vt : Word) : (s.raisePlay g slot vt).mem = s.mem := by
  unfold State.raisePlay
  split <;> simp

@[simp] theorem State.playNow_mem (s : State) : s.playNow.mem = s.mem := by
  unfold State.playNow
  split <;> simp

@[simp] theorem State.irrevNow_mem (s : State) (i : Irrev) : (s.irrevNow i).mem = s.mem := by
  unfold State.irrevNow
  split
  · split
    · simp
    · split
      · next t h => simp [State.queueMsg_mem h]
      · simp
  · dsimp only
    split
    · simp
    · split <;> simp

@[simp] theorem execIrrev_mem (a : XReg) (s : State) : (s.after (execIrrev a s)).mem = s.mem := by
  simp only [execIrrev]
  repeat' split
  all_goals simp

/-! ### Grid -/

@[simp] theorem State.complete_mem (s : State) (t : Nat) (l : Launch) (status : Nat) : (s.complete t l status).mem = s.mem := by
  unfold State.complete
  split <;> simp

@[simp] theorem State.rejectLaunch_mem (s : State) (t : Nat) (addr cookie : Word) (reason : Nat) :
    (s.rejectLaunch t addr cookie reason).mem = s.mem := by
  unfold State.rejectLaunch
  split <;> simp

@[simp] theorem State.broadcast_mem (s : State) (gr : Grid) (l : List Nat) : (s.broadcast gr l).mem = s.mem := by
  induction l generalizing s with
  | nil => rfl
  | cons g r ih => simp [State.broadcast, ih]

theorem State.startGrid_mem {s u : State} {t : Nat} {l : Launch} (h : s.startGrid t l = some u) : u.mem = s.mem := by
  unfold State.startGrid at h
  dsimp only at h
  split at h
  · nomatch h
  · next kg s1 h1 =>
    split at h
    · nomatch h
    · next kd s2 h2 =>
      have h12 := (State.newCounter_mem h2).trans (State.newCounter_mem h1)
      rw [← Option.some.inj h, State.broadcast_mem, State.setPart_mem]
      split <;> simp [h12]

@[simp] theorem State.consume_mem (s : State) (g k : Nat) (m : Msg) : (s.consume g k m).mem = s.mem := by
  simp [State.consume]

theorem State.bank14_mem {s t : State} {g : Nat} {m : Msg} (h : s.bank14 g m = some t) : t.mem = s.mem := by
  obtain ⟨n, -, rfl⟩ := Option.map_eq_some_iff.1 h
  simp

@[simp] theorem execLaunchForward_mem (g k : Nat) (s : State) : (s.after (execLaunchForward g k s)).mem = s.mem := by
  simp only [execLaunchForward, State.after_next]
  repeat' split
  case h_1 s1 h => simp [State.bank14_mem h]
  all_goals rfl

@[simp] theorem execDispatchRetry_mem (t : Nat) (s : State) : (s.after (execDispatchRetry t s)).mem = s.mem := by
  simp only [execDispatchRetry, State.after_next]
  split
  · rfl
  · split
    · next u h => exact (State.setPart_mem ..).trans (State.startGrid_mem h)
    · rfl

@[simp] theorem execLaunch_mem (a : XReg) (s : State) : (s.after (execLaunch a s)).mem = s.mem := by
  refine State.whenSafe_mem ?_
  repeat' split
  all_goals simp

@[simp] theorem execGridDescriptor_mem (k : Nat) (s : State) : (s.after (execGridDescriptor k s)).mem = s.mem := by
  unfold execGridDescriptor
  split <;> simp

@[simp] theorem State.startStrands_mem (s : State) (g id v b : Nat) (gr : Grid) (n j : Nat) (cs : List Nat) :
    (s.startStrands g id v b gr n j cs).1.mem = s.mem := by
  induction n generalizing s j cs with
  | zero => rfl
  | succ n ih =>
    simp only [State.startStrands]
    split <;> simp [ih]

@[simp] theorem State.startCrew_mem (s : State) (g v : Nat) (gr : Grid) : (s.startCrew g v gr).mem = s.mem := by
  unfold State.startCrew
  split <;> simp

@[simp] theorem State.unitTake_mem (s : State) (g key : Nat) (use : FabricUse) : (s.unitTake g key use).mem = s.mem := rfl

@[simp] theorem State.askCrew_mem (s : State) (g : Nat) (gr : Grid) : (s.askCrew g gr).mem = s.mem := rfl

@[simp] theorem execRetainTimeout_mem (g k : Nat) (s : State) : (s.after (execRetainTimeout g k s)).mem = s.mem := by
  simp only [execRetainTimeout, State.after_next]
  split
  · rfl
  · simp

@[simp] theorem State.tellEnd_mem (s : State) (key : Nat) (l : List Nat) : (s.tellEnd key l).mem = s.mem := by
  induction l generalizing s with
  | nil => rfl
  | cons g r ih => simp [State.tellEnd, ih]

@[simp] theorem execGridEnd_mem (k : Nat) (s : State) : (s.after (execGridEnd k s)).mem = s.mem := by
  unfold execGridEnd
  split <;> simp

theorem State.popBottom_mem {s t : State} {g : Nat} {e : DequeEntry} (h : s.popBottom g = some (e, t)) : t.mem = s.mem := by
  simp only [State.popBottom] at h
  repeat' split at h
  all_goals simp at h
  all_goals simp [← h.2]

theorem State.popTop_mem {s t : State} {g : Nat} {e : DequeEntry} (h : s.popTop g = some (e, t)) : t.mem = s.mem := by
  simp only [State.popTop] at h
  repeat' split at h
  all_goals simp at h
  all_goals simp [← h.2]

@[simp] theorem State.workFound_mem (s : State) (g : Nat) : (s.workFound g).mem = s.mem := rfl

@[simp] theorem State.joinAdd_mem (s : State) (pa b : Nat) (track : Bool) : (s.joinAdd pa b track).mem = s.mem := by
  simp [State.joinAdd]

@[simp] theorem State.joinAccess_mem (s : State) (x : Word) (k : Access) : (s.joinAccess x k).1.mem = s.mem := by
  unfold State.joinAccess
  split <;> simp

@[simp] theorem State.startChild_mem (s : State) (g c : Nat) (e : DequeEntry) : (s.startChild g c e).mem = s.mem := by
  simp [State.startChild]

@[simp] theorem execJoin_mem (a : XReg) (s : State) : (s.after (execJoin a s)).mem = s.mem := by
  simp only [execJoin]
  split <;> simp

@[simp] theorem State.liftFrame_mem (s : State) (g c : Nat) : (s.liftFrame g c).mem = s.mem := by
  simp [State.liftFrame]

@[simp] theorem State.layFrame_mem (s : State) (g c : Nat) (k : Ctx) : (s.layFrame g c k).mem = s.mem := by
  simp [State.layFrame]

@[simp] theorem execJoinSwapOut_mem (g : Nat) (s : State) : (s.after (execJoinSwapOut g s)).mem = s.mem := by
  simp only [execJoinSwapOut, State.after_next]
  repeat' split
  case h_1 e t h => simp [State.popBottom_mem h]
  all_goals rfl

@[simp] theorem State.moveEvent_mem (s : State) (g c : Nat) (ev : Option (Nat × Nat)) : (s.moveEvent g c ev).mem = s.mem := by
  unfold State.moveEvent
  repeat' split
  all_goals simp

@[simp] theorem State.putBack_mem (s : State) (g c : Nat) (k : Ctx) : (s.putBack g c k).mem = s.mem := by
  simp only [State.putBack]
  repeat' split
  all_goals simp

@[simp] theorem execJoinReadmit_mem (g k : Nat) (s : State) : (s.after (execJoinReadmit g k s)).mem = s.mem := by
  simp only [execJoinReadmit]
  repeat' split
  all_goals simp

@[simp] theorem State.leaveBar_mem (s : State) (g c : Nat) : (s.leaveBar g c).mem = s.mem := by
  simp [State.leaveBar]

@[simp] theorem State.openBar_mem (s : State) (g id : Nat) : (s.openBar g id).mem = s.mem := by
  unfold State.openBar
  split <;> simp

@[simp] theorem execBar_mem (s : State) : (s.after (execBar s)).mem = s.mem := by
  simp only [execBar]
  repeat' split
  all_goals simp

@[simp] theorem State.endEvent_mem (s : State) (g c : Nat) : (s.endEvent g c).mem = s.mem := by
  unfold State.endEvent
  repeat' split
  all_goals simp

@[simp] theorem State.haltBanks_mem (s : State) (g c : Nat) (keep : Option (BitVec 6)) : (s.haltBanks g c keep).mem = s.mem := by
  unfold State.haltBanks
  split <;> simp

@[simp] theorem State.strandHalted_mem (s : State) (g : Nat) (keep : Option (BitVec 6)) (x : Role) :
    (s.strandHalted g keep x).mem = s.mem := by
  unfold State.strandHalted
  repeat' split
  all_goals simp

@[simp] theorem State.migrate_mem (s : State) (dst : Nat) (m : BitVec 16) : (s.migrate dst m).mem = s.mem := by
  simp [State.migrate]

@[simp] theorem execMigrate_mem (a : XReg) (m : BitVec 16) (s : State) : (s.after (execMigrate a m s)).mem = s.mem := by
  simp only [execMigrate]
  repeat' split
  all_goals simp

@[simp] theorem execMigrateHome_mem (a : XReg) (m : BitVec 16) (s : State) : (s.after (execMigrateHome a m s)).mem = s.mem := by
  simp only [execMigrateHome]
  repeat' split
  all_goals simp

/-! ### Serve -/

@[simp] theorem State.startHandler_mem (s : State) (g c n : Nat) (m : Msg) (cell : Option Nat) (f : Ctx → Ctx) :
    (s.startHandler g c n m cell f).mem = s.mem := by
  simp [State.startHandler]

@[simp] theorem execCrewAdmission_mem (g : Nat) (s : State) : (s.after (execCrewAdmission g s)).mem = s.mem := by
  unfold execCrewAdmission
  repeat' split
  all_goals simp

@[simp] theorem execForkChildStart_mem (g : Nat) (s : State) : (s.after (execForkChildStart g s)).mem = s.mem := by
  simp only [execForkChildStart, State.after_next]
  split
  · next h _ => simp [State.popBottom_mem h]
  · rfl

@[simp] theorem execStealRequest_mem (g : Nat) (s : State) : (s.after (execStealRequest g s)).mem = s.mem := by
  simp only [execStealRequest, State.after_next]
  split <;> simp

theorem State.give_mem {s t : State} {v thief : Nat} {e : DequeEntry} (h : s.give v thief = some (e, t)) : t.mem = s.mem :=
  State.popTop_mem (Option.filter_eq_some_iff.1 h).1

@[simp] theorem execStealServe_mem (k : Nat) (s : State) : (s.after (execStealServe k s)).mem = s.mem := by
  simp only [execStealServe, State.after_next]
  split
  · rfl
  · split
    · simp
    · split
      · rfl
      · split
        · next h => simp [State.give_mem h]
        · simp

@[simp] theorem execStealReply_mem (k : Nat) (s : State) : (s.after (execStealReply k s)).mem = s.mem := by
  simp only [execStealReply, State.after_next]
  split
  · rfl
  · split
    · simp
    · split
      · next h => simp [State.bank14_mem h]
      · rfl

@[simp] theorem execStealRound_mem (g : Nat) (s : State) : (s.after (execStealRound g s)).mem = s.mem := by
  simp [execStealRound]

@[simp] theorem execMigrationArrival_mem (g k : Nat) (s : State) : (s.after (execMigrationArrival g k s)).mem = s.mem := by
  simp only [execMigrationArrival, State.after_next]
  split
  · split
    · next s1 h => simp [State.bank14_mem h]
    · rfl
  · rfl

@[simp] theorem State.logCursors_mem (s : State) (g slot id : Nat) (vt : Word) (safe : Bool) :
    (s.logCursors g slot id vt safe).mem = s.mem := by
  unfold State.logCursors
  split <;> simp

@[simp] theorem State.logInput_mem (s : State) (g slot : Nat) (m : Msg) : (s.logInput g slot m).mem = s.mem := by
  unfold State.logInput
  split <;> simp

@[simp] theorem State.coastEvent_mem (s : State) (g slot c : Nat) (e : LpEvent) : (s.coastEvent g slot c e).mem = s.mem := by
  unfold State.coastEvent
  split <;> simp

/-! ### Reduce -/

@[simp] theorem State.setRounds_mem (s : State) (t g slot : Nat) (l : List Round) : (s.setRounds t g slot l).mem = s.mem := rfl

@[simp] theorem execNred_mem (a b : XReg) (s : State) : (s.after (execNred a b s)).mem = s.mem := by
  unfold execNred
  split <;> simp

@[simp] theorem State.takeRound_mem (s : State) (slot : Nat) (d : XReg) : (s.takeRound slot d).mem = s.mem := by
  simp only [State.takeRound]
  split <;> simp

@[simp] theorem execNredw_mem (d a : XReg) (s : State) : (s.after (execNredw d a s)).mem = s.mem := by
  unfold execNredw
  split <;> simp

/-! ### Traps -/

@[simp] theorem State.settleEntry_mem (s : State) (g c f n : Nat) (e : RingEntry) : (s.settleEntry g c f n e).mem = s.mem := by
  simp [State.settleEntry]

@[simp] theorem execResume_mem (a : XReg) (s : State) : (s.after (execResume a s)).mem = s.mem := by
  simp only [execResume]
  repeat' split
  all_goals simp

@[simp] theorem execEret_mem (s : State) : (s.after (execEret s)).mem = s.mem := by
  unfold execEret
  repeat' split
  all_goals simp

@[simp] theorem execRingEntryComplete_mem (g c : Nat) (seq : BitVec 8) (s : State) :
    (s.after (execRingEntryComplete g c seq s)).mem = s.mem := by
  simp only [execRingEntryComplete]
  repeat' split
  all_goals simp

@[simp] theorem execTrapEntry_mem (g c : Nat) (s : State) : (s.after (execTrapEntry g c s)).mem = s.mem := by
  simp only [execTrapEntry]
  split <;> simp

@[simp] theorem execWatchdog_mem (g c : Nat) (s : State) : (s.after (execWatchdog g c s)).mem = s.mem := by
  simp only [execWatchdog]
  repeat' split
  all_goals simp

@[simp] theorem execClassPromotion_mem (g c : Nat) (s : State) : (s.after (execClassPromotion g c s)).mem = s.mem := by
  simp [execClassPromotion]

@[simp] theorem State.fetchFor_mem (s : State) (g c : Nat) : (s.fetchFor g c).1.mem = s.mem := by
  unfold State.fetchFor
  dsimp only
  split
  · rfl
  · split
    · simp
    · split
      · simp
      · split
        · exact (State.as_mem _ _ _ fun _ => State.hold_mem ..).trans (State.translate_mem ..)
        · simp

@[simp] theorem execFetchLine_mem (g c : Nat) (s : State) : (s.after (execFetchLine g c s)).mem = s.mem := by
  simp [execFetchLine]

/-! ### Translate -/

@[simp] theorem State.flushTlbs_mem (s : State) (chip : Nat) (q : TlbEntry → Bool) : (s.flushTlbs chip q).mem = s.mem := rfl

@[simp] theorem State.invalidate_mem (s : State) (q : TlbEntry → Bool) : (s.invalidate q).mem = s.mem := by
  simp [State.invalidate]

@[simp] theorem State.invalidate2_mem (s : State) (q : TlbEntry → Bool) : (s.invalidate2 q).mem = s.mem := by
  simp [State.invalidate2]

@[simp] theorem execTlbinvPage_mem (a : XReg) (b : BitVec 1) (s : State) : (s.after (execTlbinvPage a b s)).mem = s.mem := by
  simp [execTlbinvPage]

@[simp] theorem execTlbinvPart_mem (a : XReg) (b : BitVec 1) (s : State) : (s.after (execTlbinvPart a b s)).mem = s.mem := by
  simp [execTlbinvPart]

@[simp] theorem execTlbinvAll_mem (s : State) : (s.after (execTlbinvAll s)).mem = s.mem := by
  simp [execTlbinvAll]

@[simp] theorem execTlbsync_mem (s : State) : (s.after (execTlbsync s)).mem = s.mem := by
  simp [execTlbsync]

@[simp] theorem execFbread_mem (d : XReg) (w : BitVec 2) (e : BitVec 3) (s : State) : (s.after (execFbread d w e s)).mem = s.mem := by
  simp [execFbread]

@[simp] theorem execFbpop_mem (s : State) : (s.after (execFbpop s)).mem = s.mem := by
  simp [execFbpop]

@[simp] theorem execXlate_mem (d a : XReg) (k : BitVec 2) (s : State) : (s.after (execXlate d a k s)).mem = s.mem := by
  simp only [execXlate]
  repeat' split
  all_goals simp

@[simp] theorem State.flushMaps_mem (s : State) (chip : Nat) (q : Nat × Nat × Nat → Bool) : (s.flushMaps chip q).mem = s.mem := rfl

@[simp] theorem execBmcinv_mem (a : XReg) (s : State) : (s.after (execBmcinv a s)).mem = s.mem := by
  simp [execBmcinv]

@[simp] theorem State.clearCtxs_mem (s : State) (g : Nat) (cs : List Nat) : (s.clearCtxs g cs).mem = s.mem := by
  simp [State.clearCtxs]

@[simp] theorem State.strandsBack_mem (s : State) (g : Nat) (l : List (Nat × Ctx)) (m : List (Nat × Nat)) :
    (s.strandsBack g l m).1.mem = s.mem := by
  induction l generalizing s m with
  | nil => rfl
  | cons e r ih =>
    simp only [State.strandsBack]
    split <;> simp [ih]

/-! ### Engines -/

@[simp] theorem State.queueCmd_mem (s : State) (g : Nat) (qs : List Queue) (m : Cmd) : (s.queueCmd g qs m).mem = s.mem := rfl

@[simp] theorem State.enterQueues_mem (s : State) (qs : List Queue) (i : Instr) (b : CmdBody) : (s.enterQueues qs i b).mem = s.mem := by
  unfold State.enterQueues
  split <;> simp

@[simp] theorem State.issueCommand_mem (s : State) (qs : List Queue) (i : Instr) (b : CmdBody) (ws : List Span) :
    (s.issueCommand qs i b ws).mem = s.mem := by
  simp only [State.issueCommand]
  split <;> simp

@[simp] theorem State.cmdMap_mem (s : State) (g : Nat) (sup : Bool) (k : Access) (va : Word) (n : Nat) :
    (s.cmdMap g sup k va n).1.mem = s.mem := by
  simp [State.cmdMap]

@[simp] theorem State.trapWith_mem (s : State) (cs : List (Nat × Word)) (hit : Option Nat) (x : Word) :
    (s.trapWith cs hit x).mem = s.mem := by
  unfold State.trapWith
  split <;> simp

@[simp] theorem execTmapset_mem (a : XReg) (i : BitVec 6) (s : State) : (s.after (execTmapset a i s)).mem = s.mem := by
  simp [execTmapset]

@[simp] theorem State.rowSrcs_mem (s : State) (g : Nat) (sup : Bool) (m : Tmap) (l : List TileRow) :
    (s.rowSrcs g sup m l).1.mem = s.mem := by
  induction l generalizing s with
  | nil => rfl
  | cons r rs ih =>
    simp only [State.rowSrcs]
    repeat' split
    all_goals simp [ih]

@[simp] theorem State.globalRows_mem (s : State) (g : Nat) (sup own : Bool) (x : Word) (p : Nat) (l : List (Nat × List Src)) :
    (s.globalRows g sup own x p l).1.mem = s.mem := by
  induction l generalizing s p with
  | nil => rfl
  | cons e r ih =>
    simp only [State.globalRows]
    repeat' split
    all_goals simp [ih]

@[simp] theorem State.planCopy_mem (s : State) (g : Nat) (m : Cmd) (origin dst : Word) (entry : List Byte) (kind : BitVec 2) :
    (s.planCopy g m origin dst entry kind).1.mem = s.mem := by
  simp only [State.planCopy]
  repeat' split
  all_goals simp

@[simp] theorem execCopy_mem (q : BitVec 1) (a b c : XReg) (i : BitVec 6) (t : BitVec 2) (f : BitVec 1) (s : State) :
    (s.after (execCopy q a b c i t f s)).mem = s.mem := by
  simp [execCopy]

@[simp] theorem State.planPagein_mem (s : State) (g : Nat) (m : Cmd) (a b : Word) : (s.planPagein g m a b).1.mem = s.mem := by
  simp only [State.planPagein]
  repeat' split
  all_goals simp

@[simp] theorem execPagein_mem (q : BitVec 1) (a b c : XReg) (s : State) : (s.after (execPagein q a b c s)).mem = s.mem := by
  simp [execPagein]

@[simp] theorem State.readBlockEntry_mem (s : State) (g : Nat) (sup : Bool) (va : Word) : (s.readBlockEntry g sup va).1.mem = s.mem := by
  simp only [State.readBlockEntry]
  repeat' split
  all_goals simp

@[simp] theorem State.fetchBlocks_mem (s : State) (g : Nat) (sup : Bool) (size : Nat) (l : List (Nat × Nat)) :
    (s.fetchBlocks g sup size l).1.mem = s.mem := by
  induction l generalizing s with
  | nil => rfl
  | cons e r ih =>
    simp only [State.fetchBlocks]
    repeat' split
    all_goals simp [ih]

@[simp] theorem State.planBlocks_mem (s : State) (g : Nat) (m : Cmd) (w : Walk) : (s.planBlocks g m w).1.mem = s.mem := by
  simp [State.planBlocks]

@[simp] theorem State.walkOn_mem (s : State) (g : Nat) (m : Cmd) (w : Walk) : (s.walkOn g m w).1.mem = s.mem := by
  simp only [State.walkOn]
  split <;> simp

@[simp] theorem State.planGather_mem (s : State) (g : Nat) (m : Cmd) (x : Word) : (s.planGather g m x).1.mem = s.mem := by
  unfold State.planGather
  repeat' split
  all_goals simp

@[simp] theorem execGatherkv_mem (a c : XReg) (s : State) : (s.after (execGatherkv a c s)).mem = s.mem := by
  simp [execGatherkv]

@[simp] theorem execEqwait_mem (q : BitVec 2) (s : State) : (s.after (execEqwait q s)).mem = s.mem := by
  simp [execEqwait]

/-! ### Matrix -/

@[simp] theorem State.issueMatrix_mem (s : State) (i : Instr) (b : CmdBody) (countOk : Bool) (ops : List (Word × Nat × Nat)) (ws : List Span) :
    (s.issueMatrix i b countOk ops ws).mem = s.mem := by
  simp [State.issueMatrix]

@[simp] theorem execAread_mem (a b : XReg) (s : State) : (s.after (execAread a b s)).mem = s.mem := by
  simp [execAread]

@[simp] theorem execOfix_mem (a b c : XReg) (s : State) : (s.after (execOfix a b c s)).mem = s.mem := by
  simp [execOfix]

@[simp] theorem execMstat_mem (a : XReg) (s : State) : (s.after (execMstat a s)).mem = s.mem := by
  simp [execMstat]

/-! ### Commands -/

@[simp] theorem State.mapCmd_mem (s : State) (g id : Nat) (f : Cmd → Cmd) : (s.mapCmd g id f).mem = s.mem := rfl

@[simp] theorem State.dropCmd_mem (s : State) (g id : Nat) : (s.dropCmd g id).mem = s.mem := rfl

@[simp] theorem State.cmdEntry_mem (s : State) (g : Nat) (m : Cmd) (f : RingEntry → RingEntry) : (s.cmdEntry g m f).mem = s.mem := by
  simp [State.cmdEntry]

@[simp] theorem State.holdBehind_mem (s : State) (g : Nat) (m : Cmd) : (s.holdBehind g m).mem = s.mem := by
  simp [State.holdBehind]

@[simp] theorem State.failCmd_mem (s : State) (g : Nat) (q : Queue) (m : Cmd) (cause : Nat) (a : Word) :
    (s.failCmd g q m cause a).mem = s.mem := by
  simp [State.failCmd]

@[simp] theorem State.poisonCmd_mem (s : State) (g : Nat) (m : Cmd) (a : Word) : (s.poisonCmd g m a).mem = s.mem := by
  simp [State.poisonCmd]

@[simp] theorem State.putLocal_mem (s : State) (h off : Nat) (d : Moved) : (s.putLocal h off d).mem = s.mem := by
  simp [State.putLocal]

@[simp] theorem State.mapMatrix_mem (s : State) (g : Nat) (f : Matrix → Matrix) : (s.mapMatrix g f).mem = s.mem := rfl

@[simp] theorem State.lineDone_mem (s : State) (p : Progress) (t : Transfer) (a : Advance) : (s.lineDone p t a).1.mem = s.mem := by
  simp only [State.lineDone]
  repeat' split
  all_goals simp

@[simp] theorem State.failedPiece_mem (s : State) (g : Nat) (m : Cmd) (bad : Option Nat) : (s.failedPiece g m bad).mem = s.mem := by
  unfold State.failedPiece
  split <;> simp

@[simp] theorem State.beginPlan_mem (s : State) (g : Nat) (m : Cmd) (p : Plan) : (s.beginPlan g m p).mem = s.mem := by
  unfold State.beginPlan
  split <;> simp

@[simp] theorem State.plan_mem (s : State) (g : Nat) (m : Cmd) : (s.plan g m).1.mem = s.mem := by
  unfold State.plan
  split <;> simp

@[simp] theorem State.turned_mem (s : State) (g : Nat) (q : Queue) : (s.turned g q).mem = s.mem := rfl

@[simp] theorem State.faultCmd_mem (s : State) (g : Nat) (q : Queue) (m : Cmd) (cause : Nat) (a : Word) :
    (s.faultCmd g q m cause a).mem = s.mem := by
  unfold State.faultCmd
  split <;> simp

@[simp] theorem State.watchCmd_mem (s : State) (g : Nat) (q : Queue) (m : Cmd) (n : Nat) (a : Word) :
    (s.watchCmd g q m n a).mem = s.mem := by
  simp [State.watchCmd]

@[simp] theorem State.runCmd_mem (s : State) (g : Nat) (q : Queue) (m : Cmd) : (s.runCmd g q m).mem = s.mem := by
  simp only [State.runCmd]
  repeat' split
  all_goals simp

@[simp] theorem State.takeCmd_mem (s : State) (g : Nat) (q : Queue) (m : Cmd) : (s.takeCmd g q m).mem = s.mem := by
  unfold State.takeCmd
  repeat' split
  all_goals simp

@[simp] theorem State.creditBar_mem (s : State) (g : Nat) (m : Cmd) (off : Nat) (o : BarObj) : (s.creditBar g m off o).mem = s.mem := by
  unfold State.creditBar
  repeat' split
  all_goals simp

@[simp] theorem State.overshoot_mem (s : State) (g : Nat) (q : Queue) (m : Cmd) (off : Nat) : (s.overshoot g q m off).mem = s.mem := by
  simp [State.overshoot]

@[simp] theorem execEngineCredit_mem (g : Nat) (q : Queue) (n : Nat) (s : State) : (s.after (execEngineCredit g q n s)).mem = s.mem := by
  unfold execEngineCredit
  repeat' split
  all_goals simp

@[simp] theorem State.finishCmd_mem (s : State) (g : Nat) (m : Cmd) : (s.finishCmd g m).mem = s.mem := by
  unfold State.finishCmd
  split <;> simp

@[simp] theorem execCommandCompletion_mem (g : Nat) (q : Queue) (s : State) : (s.after (execCommandCompletion g q s)).mem = s.mem := by
  unfold execCommandCompletion
  split <;> simp

@[simp] theorem execTierMissEvent_mem (g : Nat) (s : State) : (s.after (execTierMissEvent g s)).mem = s.mem := by
  unfold execTierMissEvent
  split <;> simp

/-! ### Gvt -/

@[simp] theorem execGvtRound_mem (t d : Nat) (s : State) : (s.after (execGvtRound t d s)).mem = s.mem := by
  simp [execGvtRound]

@[simp] theorem State.lateCause_mem (s : State) (g c cause : Nat) (a : Word) : (s.lateCause g c cause a).mem = s.mem := by
  simp only [State.lateCause]
  split <;> simp

@[simp] theorem State.commitFault_mem (s : State) (g slot : Nat) (e : LpEvent) (cause : Nat) (a : Word) :
    (s.commitFault g slot e cause a).mem = s.mem := by
  simp [State.commitFault]

@[simp] theorem State.commitFails_mem (s : State) (g slot : Nat) (e : LpEvent) (a : Word) : (s.commitFails g slot e a).mem = s.mem := by
  simp [State.commitFails]

@[simp] theorem State.commitScratch_mem (s : State) (g slot : Nat) (e : LpEvent) (a : Word) (bs : List Byte) :
    (s.commitScratch g slot e a bs).mem = s.mem := by
  unfold State.commitScratch
  split <;> simp

theorem State.commitSend_mem {s t : State} {g c : Nat} {m : Msg} {ws : List Nat} (h : s.commitSend g c m ws = some t) : t.mem = s.mem := by
  unfold State.commitSend at h
  dsimp only at h
  split at h
  · split at h
    · rw [← Option.some.inj h, State.queueReply_mem]
    · nomatch h
  · exact State.queueMsg_mem h

@[simp] theorem State.noteIrrev_mem (s : State) (g slot : Nat) (vt : Word) : (s.noteIrrev g slot vt).mem = s.mem := by
  unfold State.noteIrrev
  split <;> simp

theorem State.commitCommand_mem {s t : State} {g slot : Nat} {e : LpEvent} {q : Queue} {i : Instr} {m : Cmd}
    (h : s.commitCommand g slot e q i m = some t) : t.mem = s.mem := by
  simp only [State.commitCommand] at h
  repeat' split at h
  all_goals simp at h
  all_goals simp [← h]

@[simp] theorem State.freeCommit_mem (s : State) (g slot : Nat) (h : Held) : (s.freeCommit g slot h).mem = s.mem := by
  unfold State.freeCommit
  split <;> simp

@[simp] theorem State.releaseOwed_mem (s : State) (g : Nat) (es : List LpEvent) : (s.releaseOwed g es).mem = s.mem := by
  simp [State.releaseOwed]

@[simp] theorem State.publishAt_mem (s : State) (g : Word) (l : List (Nat × Nat × Lp)) : (s.publishAt g l).mem = s.mem := by
  induction l generalizing s with
  | nil => rfl
  | cons e r ih => simp [State.publishAt, ih]

@[simp] theorem State.lagSampled_mem (s : State) (t : Nat) : (s.lagSampled t).mem = s.mem := by
  simp [State.lagSampled]

/-! ### Partitions -/

@[simp] theorem State.saveCounters_mem (s : State) (t : Nat) : (s.saveCounters t).1.mem = s.mem := rfl

@[simp] theorem State.addCounters_mem (s : State) (t : Nat) (c : Tab Word) : (s.addCounters t c).mem = s.mem := rfl

@[simp] theorem State.redeliver_mem (s : State) (g : Nat) (ms : List (Nat × Msg)) : (s.redeliver g ms).mem = s.mem := by
  rw [State.redeliver, State.setWork_mem]
  exact State.foldl_mem (fun _ _ => State.withNet_mem ..) ..

@[simp] theorem State.discardAll_mem (s : State) (g : Nat) (ms : List Msg) : (s.discardAll g ms).mem = s.mem := by
  simp [State.discardAll]

@[simp] theorem State.resetWork_mem (s : State) (g : Nat) (all : Bool) : (s.resetWork g all).mem = s.mem := by
  simp [State.resetWork]

@[simp] theorem State.dropImage_mem (s : State) (g : Nat) (i : Image) : (s.dropImage g i).mem = s.mem := by
  unfold State.dropImage
  split <;> simp

@[simp] theorem State.resetCore_mem (s0 : State) (t g : Nat) : (s0.resetCore t g).mem = s0.mem := by
  unfold State.resetCore
  split <;> simp

@[simp] theorem State.purge_mem (s : State) (t : Nat) : (s.purge t).mem = s.mem := rfl

@[simp] theorem State.dropFlights_mem (s : State) (t : Nat) : (s.dropFlights t).mem = s.mem := rfl

@[simp] theorem State.resetPartition_mem (s : State) (t : Nat) : (s.resetPartition t).mem = s.mem := by
  simp [State.resetPartition]

@[simp] theorem execPartitionReset_mem (t : Nat) (s : State) : (s.after (execPartitionReset t s)).mem = s.mem := by
  simp [execPartitionReset]

@[simp] theorem execTencntFlush_mem (t i : Nat) (s : State) : (s.after (execTencntFlush t i s)).mem = s.mem := by
  simp [execTencntFlush]

@[simp] theorem execTcsyncFlush_mem (t : Nat) (s : State) : (s.after (execTcsyncFlush t s)).mem = s.mem := rfl

@[simp] theorem execGvtperWrite_mem (g : Nat) (v : Word) (s : State) : (s.after (execGvtperWrite g v s)).mem = s.mem := by
  simp [execGvtperWrite]

@[simp] theorem execDispatchRegisterWrite_mem (g off : Nat) (v : Word) (s : State) :
    (s.after (execDispatchRegisterWrite g off v s)).mem = s.mem := by
  simp [execDispatchRegisterWrite]

@[simp] theorem execRegisterWrite_mem (g off : Nat) (v : Word) (s : State) : (s.after (execRegisterWrite g off v s)).mem = s.mem := by
  simp [execRegisterWrite]

/-! ### Errors -/

@[simp] theorem State.countError_mem (s : State) (g bank : Nat) : (s.countError g bank).mem = s.mem := by
  simp [State.countError]

@[simp] theorem State.stopCore_mem (s : State) (g : Nat) : (s.stopCore g).mem = s.mem := by
  unfold State.stopCore
  repeat' split
  all_goals simp

@[simp] theorem State.machineCheck_mem (s : State) (g : Nat) (unit index : BitVec 8) (syndrome : BitVec 32) (off : Nat) :
    (s.machineCheck g unit index syndrome off).mem = s.mem := by
  simp [State.machineCheck]

@[simp] theorem execArrayError_mem (g : Nat) (unit index : BitVec 8) (correctable : Bool) (syndrome : BitVec 32) (off : Nat) (s : State) :
    (s.after (execArrayError g unit index correctable syndrome off s)).mem = s.mem := by
  simp [execArrayError]

@[simp] theorem execMachineCheck_mem (g : Nat) (unit index : BitVec 8) (syndrome : BitVec 32) (off : Nat) (s : State) :
    (s.after (execMachineCheck g unit index syndrome off s)).mem = s.mem := by
  simp [execMachineCheck]

@[simp] theorem execHalyardHalt_mem (cl : Nat) (cmp : Word) (s : State) : (s.after (execHalyardHalt cl cmp s)).mem = s.mem := by
  simp only [execHalyardHalt]
  repeat' split
  all_goals simp

@[simp] theorem State.fence_mem (s : State) (g : Nat) : (s.fence g).mem = s.mem := by
  simp [State.fence]

@[simp] theorem State.testResult_mem (s : State) (g : Nat) (r : BitVec 32) : (s.testResult g r).mem = s.mem := by
  simp [State.testResult]

@[simp] theorem execFtestComplete_mem (cl : Nat) (results : List (BitVec 32)) (s : State) :
    (s.after (execFtestComplete cl results s)).mem = s.mem := by
  simp [execFtestComplete]

@[simp] theorem execDramceClear_mem (g : Nat) (s : State) : (s.after (execDramceClear g s)).mem = s.mem := rfl

@[simp] theorem execMcrecClear_mem (g : Nat) (v : Word) (s : State) : (s.after (execMcrecClear g v s)).mem = s.mem := by
  simp [execMcrecClear]

@[simp] theorem execMarginMeasurement_mem (port : Nat) (vals : List Byte) (s : State) :
    (s.after (execMarginMeasurement port vals s)).mem = s.mem := rfl

@[simp] theorem execPortRecordClear_mem (port : Nat) (s : State) : (s.after (execPortRecordClear port s)).mem = s.mem := rfl

@[simp] theorem State.resetAll_mem (s : State) (h : Nat) : (s.resetAll h).mem = s.mem := rfl

@[simp] theorem State.alarm_mem (s : State) (h : Nat) : (s.alarm h).mem = s.mem := rfl

@[simp] theorem execSecurityAlarm_mem (cause : AlarmCause) (s : State) : (s.after (execSecurityAlarm cause s)).mem = s.mem := by
  unfold execSecurityAlarm
  split <;> simp

@[simp] theorem State.out_mem (s : State) (o : Output) : (s.out o).mem = s.mem := rfl

@[simp] theorem execAttest_mem (nonce : List Byte) (s : State) : (s.after (execAttest nonce s)).mem = s.mem := by
  simp [execAttest]

@[simp] theorem execLoggedHostDelivery_mem (g : Nat) (s : State) : (s.after (execLoggedHostDelivery g s)).mem = s.mem := by
  unfold execLoggedHostDelivery
  split <;> simp

/-! ### Package -/

@[simp] theorem State.hostOther_mem (s : State) (closed : Bool) (n : Nat) : (s.hostOther closed n).mem = s.mem := by
  simp [State.hostOther]

@[simp] theorem execMsixDoorbell_mem (t v : Nat) (s : State) : (s.after (execMsixDoorbell t v s)).mem = s.mem := by
  simp [execMsixDoorbell]

@[simp] theorem execPortFailure_mem (port : Nat) (s : State) : (s.after (execPortFailure port s)).mem = s.mem := rfl

@[simp] theorem execCxlDeviceFailure_mem (seg : Nat) (s : State) : (s.after (execCxlDeviceFailure seg s)).mem = s.mem := rfl

@[simp] theorem State.assign_mem (s : State) (t g : Nat) : (s.assign t g).mem = s.mem := rfl

@[simp] theorem execPartitionForm_mem (t : Nat) (hyper : Bool) (cores : List Nat) (limit floor : Nat) (s : State) :
    (s.after (execPartitionForm t hyper cores limit floor s)).mem = s.mem := by
  simp only [execPartitionForm, State.after_next]
  split
  · rfl
  · rw [State.setPart_mem]
    exact State.foldl_mem (fun _ _ => State.assign_mem ..) ..

@[simp] theorem State.unassign_mem (s : State) (g : Nat) : (s.unassign g).mem = s.mem := rfl

@[simp] theorem execPartitionResize_mem (t : Nat) (cores : List Nat) (limit floor : Nat) (s : State) :
    (s.after (execPartitionResize t cores limit floor s)).mem = s.mem := by
  simp only [execPartitionResize, State.after_next]
  split
  · rfl
  · rw [State.setPart_mem]
    refine (State.foldl_mem (fun u g => ?_) ..).trans (State.foldl_mem (fun _ _ => State.unassign_mem ..) ..)
    split <;> simp

@[simp] theorem execPartitionRelease_mem (t : Nat) (s : State) : (s.after (execPartitionRelease t s)).mem = s.mem := by
  simp only [execPartitionRelease, State.after_next]
  split
  · rfl
  · rw [State.setPart_mem]
    exact (State.foldl_mem (fun _ _ => State.unassign_mem ..) ..).trans (State.resetPartition_mem ..)

@[simp] theorem execSelfTestCommand_mem (cl : Nat) (s : State) : (s.after (execSelfTestCommand cl s)).mem = s.mem := rfl

@[simp] theorem execStatusHealth_mem (s : State) : (s.after (execStatusHealth s)).mem = s.mem := rfl

@[simp] theorem execFirmwareUpdate_mem (image : List Byte) (signed : Bool) (s : State) :
    (s.after (execFirmwareUpdate image signed s)).mem = s.mem := by
  simp [execFirmwareUpdate]

@[simp] theorem execReplaceRequest_mem (s : State) : (s.after (execReplaceRequest s)).mem = s.mem := by
  simp [execReplaceRequest]

@[simp] theorem State.restart_mem (s : State) (h : Nat) : (s.restart h).mem = s.mem := rfl

@[simp] theorem execPackageReset_mem (s : State) : (s.after (execPackageReset s)).mem = s.mem := rfl

@[simp] theorem State.setClock_mem (s : State) (isl f : Nat) : (s.setClock isl f).mem = s.mem := rfl

@[simp] theorem execIslandClockChange_mem (isl f : Nat) (s : State) : (s.after (execIslandClockChange isl f s)).mem = s.mem := by
  simp [execIslandClockChange]

@[simp] theorem execThermalThrottle_mem (isls : List Nat) (s : State) : (s.after (execThermalThrottle isls s)).mem = s.mem :=
  State.foldl_mem (fun _ _ => State.setClock_mem ..) ..

@[simp] theorem execThermalShutdown_mem (s : State) : (s.after (execThermalShutdown s)).mem = s.mem := by
  simp [execThermalShutdown]

/-! ### Replay -/

theorem keepsMem_bodyOf {i : Instr} {b : VBody} (h : bodyOf i = some b) : KeepsMem b := by
  cases i
  case vadd | vsub | vmul | vfma | vfms | vfmaPrefixed | vfmsPrefixed | vdiv | vsqrt => cases h; apply keepsMem_fpBody
  case vmin | vmax | vabs | vneg | viadd | vimul | vand | vor | vxor | vshl | vshr | vshrA => cases h; apply keepsMem_elemBody
  case vcmpEq | vcmpNe | vcmpLt | vcmpLe | vcmpGt | vcmpGe => cases h; apply keepsMem_cmpBody
  case vmov | vbcast | vperm | vsel | vpack | vunpack => cases h; apply keepsMem_moveBody
  case vredadd | vredmax => cases h; apply keepsMem_reduceBody
  case vldl | vstl | vgathl | vscatl => cases h; apply keepsMem_localBody
  case vldg | vstg | vgathg | vscatg => cases h; apply keepsMem_globalBody
  case vcvtnCounter => cases h; apply keepsMem_bodyVcvtnCounter
  case tblld => cases h; apply keepsMem_bodyTblld
  case vcvt => cases h; apply keepsMem_cvtBody
  case vcvtn => cases h; apply keepsMem_narrowBody
  case vtlu => cases h; apply keepsMem_lookupBody
  case vrope => cases h; apply keepsMem_ropeBody
  all_goals nomatch h

@[simp] theorem State.rerun_mem (s : State) (g c : Nat) (e : RingEntry) : (s.rerun g c e).mem = s.mem := by
  unfold State.rerun
  split
  · simp
  · next b hb =>
    repeat' split
    · rfl
    · simp
    · exact (keepsMem_bodyOf hb ..).trans (State.setCtx_mem ..)

@[simp] theorem execContextReplay_mem (g c : Nat) (s : State) : (s.after (execContextReplay g c s)).mem = s.mem := by
  simp only [execContextReplay]
  repeat' split
  all_goals simp

/-! ### Issue -/

@[simp] theorem State.checkTrap_mem (s0 : State) (cause : Nat) : (s0.checkTrap cause).mem = s0.mem := by
  simp only [State.checkTrap]
  split <;> simp

@[simp] theorem State.issued_mem (s : State) (g c : Nat) : (s.issued g c).mem = s.mem := by
  simp [State.issued]

@[simp] theorem State.watchdogs_mem (t s : State) : (t.watchdogs s).mem = t.mem := rfl

@[simp] theorem State.samples_mem (t s : State) : (t.samples s).mem = t.mem := by
  simp [State.samples]

@[simp] theorem State.tick_mem (s : State) : s.tick.mem = s.mem := by
  simp [State.tick]

/-! ### Neutral steps left -/

@[simp] theorem execCrewDone_mem (g k : Nat) (s : State) : (s.after (execCrewDone g k s)).mem = s.mem := by
  simp only [execCrewDone, State.after_next]
  split
  · rfl
  · split <;> simp

@[simp] theorem execGridCompletion_mem (t k : Nat) (s : State) : (s.after (execGridCompletion t k s)).mem = s.mem := by
  simp only [execGridCompletion, State.after_next]
  repeat' split
  all_goals simp

@[simp] theorem execNredContribution_mem (k : Nat) (s : State) : (s.after (execNredContribution k s)).mem = s.mem := by
  simp only [execNredContribution, State.after_next]
  repeat' split
  all_goals simp

@[simp] theorem execRestore_mem (g : Nat) (s : State) : (s.after (execRestore g s)).mem = s.mem := by
  simp only [execRestore, State.after_next]
  split
  · rfl
  · split
    · rfl
    · split <;> simp

@[simp] theorem execJournalReplay_mem (t : Nat) (s : State) : (s.after (execJournalReplay t s)).mem = s.mem := by
  simp only [execJournalReplay, State.after_next]
  split
  · rfl
  · split
    · rfl
    · split
      · simp
      · exact (State.foldl_mem (fun _ _ => State.report_mem ..) ..).trans (by simp)

@[simp] theorem execHalyardResume_mem (cl : Nat) (s : State) : (s.after (execHalyardResume cl s)).mem = s.mem := by
  simp [execHalyardResume]

@[simp] theorem execFtestStart_mem (cl : Nat) (s : State) : (s.after (execFtestStart cl s)).mem = s.mem := by
  simp [execFtestStart]

end Sys2Proof.Machine
end

section
/-! What keeps memory in its canonical form (O5). -/

namespace Sys2Proof.Machine

section
variable {s : State} (h : s.mem.wf = true)
include h

/-! ### The state log and chunks (R371, R372) -/

theorem State.logRecord_wf (g : Nat) (st : BitVec 2) (n : Nat) : (s.logRecord g st n).mem.wf = true := Memory.wf_store _ _ h

theorem State.logLong_wf (g : Nat) (st : BitVec 2) (n : Nat) : (s.logLong g st n).mem.wf = true := by
  induction n generalizing s with
  | zero => exact h
  | succ n ih => exact ih (State.logRecord_wf h ..)

theorem State.logState_wf (g : Nat) : (s.logState g).mem.wf = true := by
  simp only [State.logState]
  split
  · exact h
  · exact State.logRecord_wf (State.logLong_wf h ..) ..

omit h in
theorem State.foldl_wf {α : Type} {f : State → α → State} (hf : ∀ s a, s.mem.wf = true → (f s a).mem.wf = true) (l : List α) {s : State}
    (h : s.mem.wf = true) : (l.foldl f s).mem.wf = true := by
  induction l generalizing s with
  | nil => exact h
  | cons a r ih => exact ih (hf s a h)

theorem State.logStates_wf : s.logStates.mem.wf = true := State.foldl_wf (fun _ _ h => State.logState_wf h ..) _ h

theorem State.recordChunk_wf (g c kind : Nat) (host : Option Msg) : (s.recordChunk g c kind host).mem.wf = true := by
  unfold State.recordChunk
  dsimp only
  split
  · exact h
  · split <;> split <;> simp [Memory.wf_store, h]

theorem State.chunkEnd_wf {t : State} {g c kind : Nat} {host : Option Msg} (ht : s.chunkEnd g c kind host = some t) : t.mem.wf = true := by
  simp only [State.chunkEnd] at ht
  split at ht
  · split at ht
    · rw [← Option.some.inj ht]
      exact h
    · nomatch ht
  · split at ht <;> rw [← Option.some.inj ht]
    · exact State.recordChunk_wf h ..
    · exact h

theorem State.atChunkEnd_wf {go : State → State} (hgo : ∀ t, t.mem.wf = true → (go t).mem.wf = true) (g c kind : Nat) (host : Option Msg) :
    (s.atChunkEnd g c kind host go).mem.wf = true := by
  simp only [State.atChunkEnd]
  split
  · next t ht => exact hgo t (State.chunkEnd_wf h ht)
  · rwa [State.stalled_mem]

theorem State.returns_wf {go : State → State} (hgo : ∀ t, t.mem.wf = true → (go t).mem.wf = true) : (s.returns go).mem.wf = true := by
  simp only [State.returns]
  split
  · next t ht => exact hgo t (State.chunkEnd_wf h ht)
  · rwa [State.hold_mem, State.stalled_mem]

theorem State.whenSafe_wf {t : State} (ht : t.mem.wf = true) : (s.whenSafe t).mem.wf = true := by
  simp only [State.whenSafe]
  split
  · exact h
  · exact ht

theorem State.withCounter_wf {x mask : Word} {worn : Bool} {go : Nat → Counter → State} (hgo : ∀ key k, (go key k).mem.wf = true) :
    (s.withCounter x mask worn go).mem.wf = true := by
  simp only [State.withCounter]
  repeat' split
  case isFalse => exact hgo ..
  all_goals simpa using h

/-! ### Accesses at their homes (R228, R231, R232) -/

theorem State.homeStore_wf (pa : Nat) (bs : List Byte) : (s.homeStore pa bs).1.mem.wf = true := by
  unfold State.homeStore
  split
  · rwa [State.writeReg_mem]
  · rwa [State.writeLink_mem]
  · split
    · exact h
    · exact s.writePhys_wf _ _ h

theorem State.storeParts_wf (ps : List (Nat × List Byte)) : (s.storeParts ps).mem.wf = true := by
  induction ps generalizing s with
  | nil => exact h
  | cons p r ih => exact ih (s.writePhys_wf _ _ h)

theorem State.perform_wf (r : MemReq) : (s.perform r).1.mem.wf = true := by
  unfold State.perform
  split
  case h_2 => exact State.homeStore_wf h ..
  case h_3 =>
    dsimp only
    split
    · exact h
    · exact s.writePhys_wf _ _ h
  case h_5 =>
    split
    · exact h
    · exact State.storeParts_wf h _
  all_goals exact h

theorem State.serveReq_wf (r : MemReq) : (s.serveReq r).1.mem.wf = true := by
  unfold State.serveReq
  split
  · exact State.perform_wf h r
  · exact h

theorem execMemoryAccess_wf (k : Nat) : (s.after (execMemoryAccess k s)).mem.wf = true := by
  simp only [execMemoryAccess, State.after_next]
  repeat' split
  any_goals exact h
  rw [State.waitSampled_mem, State.served_mem]
  exact State.serveReq_wf h _

theorem execLoadReply_wf (k : Nat) : (s.after (execLoadReply k s)).mem.wf = true := by
  simp only [execLoadReply, State.after_next]
  split
  · exact h
  · split
    · exact h
    · repeat (split; · simpa using h)
      split
      · exact State.atChunkEnd_wf h (fun t ht => by simpa using ht) ..
      · simpa using h

/-! ### Messages that wait in memory (R190, R358, R359) -/

theorem State.spillMsg_wf (g : Nat) (m : Msg) : (s.spillMsg g m).mem.wf = true := by
  unfold State.spillMsg
  dsimp only
  split <;> simp [Memory.wf_store, h]

theorem execMessageSpill_wf (g : Nat) : (s.after (execMessageSpill g s)).mem.wf = true := by
  simp only [execMessageSpill, State.after_next]
  split
  · exact h
  · split
    · exact State.spillMsg_wf (by rwa [State.setWork_mem]) ..
    · exact h

theorem State.areaStore_wf (g n : Nat) (m : Msg) : (s.areaStore g n m).mem.wf = true :=
  Memory.wf_lay (vaultAddr g (Config.vaultUser + 0x140000 + n)) (m.headBytes ++ m.payload) h

theorem State.headerTakes_wf (m : Msg) : (s.headerTakes m).mem.wf = true := by
  unfold State.headerTakes
  dsimp only
  split <;> simp [Memory.wf_putWord, h]

theorem execEvictedMessage_wf (k : Nat) : (s.after (execEvictedMessage k s)).mem.wf = true := by
  have hput : ∀ (m : Msg) (g : Nat) (i : Core) (n : Nat), ((((s.landed k).headerTakes m).setCore g i).areaStore g n m).mem.wf = true :=
    fun m g i n => State.areaStore_wf (s := ((s.landed k).headerTakes m).setCore g i) (State.headerTakes_wf (by rwa [State.landed_mem]) m) ..
  simp only [execEvictedMessage, State.after_next]
  repeat' split
  any_goals exact hput ..
  all_goals simpa using h

/-! ### Counters (R135, R173 to R179) -/

theorem execFabricReply_wf (k : Nat) : (s.after (execFabricReply k s)).mem.wf = true := by
  simp only [execFabricReply, State.after_next]
  split
  · exact h
  · split
    · exact h
    · split
      · exact h
      · simpa using h
      · split <;> simpa using h
      · split
        · exact h
        · refine State.atChunkEnd_wf h (fun t ht => ?_) ..
          rw [State.as_mem _ _ _ (fun u => by split <;> simp)]
          split <;> simpa using ht

theorem execCnew_wf (d : XReg) (p : BitVec 2) (w : BitVec 3) : (s.after (execCnew d p w s)).mem.wf = true := by
  refine State.whenSafe_wf h (State.returns_wf h fun t ht => ?_)
  split
  · next hnew =>
    simp only [writeX_mem, State.newCounter_mem hnew]
    exact ht
  · simp only [writeX_mem]
    exact ht

theorem execCfree_wf (a : XReg) : (s.after (execCfree a s)).mem.wf = true := by
  refine State.whenSafe_wf h (State.withCounter_wf h fun key k => ?_)
  split
  · exact State.returns_wf h fun t ht => by simpa using ht
  · exact h

theorem execCcancel_wf (d a b : XReg) : (s.after (execCcancel d a b s)).mem.wf = true := by
  refine State.whenSafe_wf h (State.withCounter_wf h fun key k => ?_)
  dsimp only
  by_cases hv : valueOk (s.x b).toInt = true
  · rw [if_pos hv, State.sendOp_mem]
    exact h
  · rw [if_neg hv]
    exact State.returns_wf h fun t ht => by rwa [writeX_mem]

theorem execCread_wf (d a : XReg) : (s.after (execCread d a s)).mem.wf = true :=
  State.whenSafe_wf h (State.withCounter_wf h fun key k => State.returns_wf h fun t ht => by simpa using ht)

theorem execCarm_wf (a b : XReg) : (s.after (execCarm a b s)).mem.wf = true := by
  refine State.whenSafe_wf h ?_
  by_cases hb : field (s.x b) 47 16 ≠ 0
  · rwa [if_pos hb, State.illegal_mem]
  · rw [if_neg hb]
    refine State.withCounter_wf h fun key k => ?_
    split
    · exact State.returns_wf h fun t ht => by simpa using ht
    · rwa [State.trap_mem]

theorem execCwait_wf (a b : XReg) : (s.after (execCwait a b s)).mem.wf = true := by
  refine State.whenSafe_wf h ?_
  split
  · simpa using h
  · refine State.withCounter_wf h fun key k => ?_
    split
    · exact State.returns_wf h fun t ht => by simpa using ht
    · exact h

/-! ### Stores of units of the device (R318, R324, R362) -/

theorem State.writeVirt_wf {t : State} {g : Nat} {sup : Bool} {va : Word} {bs : List Byte} (ht : s.writeVirt g sup va bs = .ok t) :
    t.mem.wf = true := by
  unfold State.writeVirt at ht
  dsimp only at ht
  generalize hm : (s.mapVirt g sup .write va bs.length).2 = r at ht
  match r with
  | .ok ps =>
    rw [← Except.ok.inj ht, State.chargePieces_mem]
    exact State.writePieces_wf _ _ _ (by rwa [State.mapVirt_mem])

theorem State.writeRegion_wf {t : State} {g : Nat} {r : Region} {bs : List Byte} (ht : s.writeRegion g r bs = .ok t) : t.mem.wf = true := by
  unfold State.writeRegion at ht
  split at ht
  · exact State.writeVirt_wf h ht
  · rwa [← Except.ok.inj ht, State.localStore_mem]

theorem State.saveRegions_wf {t : State} {g n : Nat} {vt : Word} {rs : List Region} (ht : s.saveRegions g n vt rs = .ok t) :
    t.mem.wf = true := by
  induction rs generalizing s with
  | nil => rwa [← Except.ok.inj ht]
  | cons r rs ih =>
    simp only [State.saveRegions] at ht
    split at ht
    · nomatch ht
    · split at ht
      · nomatch ht
      · next u hu => exact ih (State.writeVirt_wf (by rwa [State.readRegion_mem]) hu) ht

theorem State.loadRegions_wf {t : State} {g n : Nat} {rs : List Region} (ht : s.loadRegions g n rs = .ok t) : t.mem.wf = true := by
  induction rs generalizing s with
  | nil => rwa [← Except.ok.inj ht]
  | cons r rs ih =>
    simp only [State.loadRegions] at ht
    split at ht
    · nomatch ht
    · split at ht
      · nomatch ht
      · next u hu => exact ih (State.writeRegion_wf (by rwa [State.readVirt_mem]) hu) ht

theorem State.snapshot_wf {t : State} {g slot : Nat} {vt : Word} (ht : s.snapshot g slot vt = .ok t) : t.mem.wf = true := by
  unfold State.snapshot at ht
  split at ht
  · rwa [← Except.ok.inj ht]
  · next lp _ =>
    generalize hr : s.saveRegions g lp.nextSnap vt lp.checkpoints = r at ht
    match r with
    | .ok u =>
      rw [← Except.ok.inj ht, State.setLp_mem]
      exact State.saveRegions_wf h hr

theorem execCheckpointSnapshot_wf (g slot : Nat) : (s.after (execCheckpointSnapshot g slot s)).mem.wf = true := by
  simp only [execCheckpointSnapshot, State.after_next]
  split
  · exact h
  · split
    · exact h
    · split
      · exact h
      · split
        · next t ht => exact State.snapshot_wf h ht
        · exact h

theorem State.bindNew_wf (off ch domain : Nat) : (s.bindNew off ch domain).mem.wf = true := by
  unfold State.bindNew
  dsimp only
  split
  · split
    · next t ht =>
      have hw : t.mem.wf = true := State.snapshot_wf (by rwa [State.setLp_mem]) ht
      rw [State.retire_mem]
      split <;> simpa using hw
    · split <;> simpa using h
  · simpa using h

theorem State.bind_wf (x : Word) (ch : Nat) : (s.bind x ch).mem.wf = true := by
  unfold State.bind
  dsimp only
  split
  · simpa using h
  · split
    · rwa [State.illegal_mem]
    · split
      · rwa [State.hold_mem]
      · split
        · split <;> simpa using h
        · split <;> simpa using h
        · rwa [State.illegal_mem]
        · exact State.bindNew_wf h ..

theorem execLpbind_wf (a : XReg) (c : BitVec 6) : (s.after (execLpbind a c s)).mem.wf = true := by
  refine State.whenSafe_wf h ?_
  repeat (split; · simpa using h)
  split
  · split <;> simpa using h
  · exact State.bind_wf h ..

/-! ### Rollback (R323 to R326) -/

theorem State.rollback_wf (g slot : Nat) (vt : Word) : (s.rollback g slot vt).1.mem.wf = true := by
  unfold State.rollback
  split
  · exact h
  · next lp _ =>
    have hwait : ∀ t : State, t.mem = s.mem → (match t.lp g slot with
        | some q => (t.setLp g slot { q with rolling := some vt }, false)
        | none => (t, false)).1.mem.wf = true := by
      intro t ht
      split <;> simpa [ht] using h
    dsimp only
    split
    · rwa [State.setLp_mem]
    · split
      · exact hwait _ (State.abortAll_mem ..)
      · split
        · exact hwait _ (State.abortAll_mem ..)
        · next u hu =>
          refine State.foldl_wf (fun t e ht => State.spillMsg_wf ht ..) _ ?_
          rw [State.fillFlits_mem, State.setWork_mem, State.setLp_mem]
          split at hu
          · exact State.loadRegions_wf (by rwa [State.undoEddy_mem, State.setWork_mem, State.abortAll_mem]) hu
          · rwa [← Except.ok.inj hu, State.undoEddy_mem, State.setWork_mem, State.abortAll_mem]

theorem State.takeAnti_wf (g slot : Nat) (lp : Lp) (k n : Nat) (a : Msg) : (s.takeAnti g slot lp k n a).mem.wf = true := by
  have hback : ∀ vt : Word, (if s.publishes (s.tag g) lp.domain vt then (s, false) else s.rollback g slot vt).1.mem.wf = true := by
    intro vt
    split
    · exact h
    · exact State.rollback_wf h ..
  unfold State.takeAnti
  dsimp only
  split
  · rwa [State.setLp_mem, State.landed_mem]
  · split
    · rwa [State.annihilate_mem, State.landed_mem]
    · split
      · exact h
      · next ev _ =>
        have hr := hback ev.vt
        generalize (if s.publishes (s.tag g) lp.domain ev.vt then (s, false) else s.rollback g slot ev.vt) = r at hr ⊢
        split
        · exact hr
        · split <;> simpa using hr

theorem execStragglerRollback_wf (g k : Nat) : (s.after (execStragglerRollback g k s)).mem.wf = true := by
  simp only [execStragglerRollback, State.after_next]
  split
  · exact h
  · split
    · exact h
    · split
      · exact State.rollback_wf h ..
      · exact h

theorem execAntiMessageArrival_wf (g k m : Nat) : (s.after (execAntiMessageArrival g k m s)).mem.wf = true := by
  simp only [execAntiMessageArrival, State.after_next]
  split
  · exact h
  · split
    · exact h
    · split
      · exact h
      · split
        · exact State.takeAnti_wf h ..
        · split <;> simpa using h

theorem execStrunc_wf (a b : XReg) : (s.after (execStrunc a b s)).mem.wf = true := by
  have hback : ∀ slot, (s.rollback s.cur.1 slot (s.x b)).1.mem.wf = true := fun slot => State.rollback_wf h ..
  refine State.whenSafe_wf h ?_
  split
  · rwa [State.illegal_mem]
  · next slot lp _ =>
    have hr := hback slot
    split
    · rwa [State.illegal_mem]
    · split
      · split <;> simpa using h
      · split
        · rwa [State.trap_mem]
        · split
          · rwa [State.hold_mem]
          · dsimp only
            split
            · rwa [State.hold_mem]
            · split <;> simpa using hr

/-! ### Launches and the deque (R86, R362) -/

theorem State.journal_wf (t : Nat) (entry : Word) : (s.journal t entry).mem.wf = true := by
  unfold State.journal
  dsimp only
  have hr : (s.readVirt (s.dispatcher t) true ((s.part t).journal &&& ~~~0xFFF) 8).1.mem.wf = true := by rwa [State.readVirt_mem]
  split
  · exact hr
  · split
    · exact hr
    · next u hu =>
      have hu' := State.writeVirt_wf hr hu
      split
      · exact hu'
      · next v hv =>
        have hv' := State.writeVirt_wf hu' hv
        rwa [State.setPart_mem]

theorem execJfenceMark_wf (t : Nat) : (s.after (execJfenceMark t s)).mem.wf = true := by
  simp only [execJfenceMark, State.after_next]
  split
  · exact h
  · split
    · exact h
    · exact State.journal_wf (by rwa [State.setPart_mem]) ..

theorem State.accept_wf (t : Nat) (l : Launch) : (s.accept t l).1.mem.wf = true := by
  unfold State.accept
  split
  · exact State.journal_wf h ..
  · exact h

theorem State.launch_wf (t : Nat) (addr : Word) : (s.launch t addr).mem.wf = true := by
  unfold State.launch
  dsimp only
  split
  · rwa [State.rejectLaunch_mem]
  · have hr : (s.readVirt (s.dispatcher t) false addr 128).1.mem.wf = true := by rwa [State.readVirt_mem]
    split
    · rwa [State.rejectLaunch_mem]
    · next bs _ =>
      have ha := State.accept_wf hr t (readLaunch addr bs)
      split
      · rwa [State.rejectLaunch_mem]
      · split
        · simpa only [State.complete_mem] using hr
        · split
          · simpa only [State.setPart_mem, State.complete_mem] using ha
          · split
            · next u hu => simpa only [State.startGrid_mem hu] using ha
            · simpa only [State.setPart_mem] using ha

theorem execLaunchMessage_wf (t k : Nat) : (s.after (execLaunchMessage t k s)).mem.wf = true := by
  simp only [execLaunchMessage, State.after_next]
  split
  · exact h
  · split
    · exact h
    · split
      · exact h
      · split
        · next u hu => exact State.launch_wf (by rwa [State.consume_mem, State.bank14_mem hu]) ..
        · exact h

theorem State.pushDeque_wf (g : Nat) (e : DequeEntry) : (s.pushDeque g e).mem.wf = true := by
  unfold State.pushDeque
  dsimp only
  split
  · split <;> simp [Memory.wf_store, h]
  · exact h

theorem execFork_wf (a : XReg) (d : BitVec 16) : (s.after (execFork a d s)).mem.wf = true := by
  refine State.whenSafe_wf h ?_
  dsimp only
  split
  · simpa using h
  · split
    · rwa [State.hold_mem]
    · split
      · rwa [State.hold_mem]
      · rw [State.retire_mem, State.workFound_mem]
        exact State.pushDeque_wf (by simpa using h) ..

/-! ### The end of a context (R92, R93) -/

theorem State.halted_wf (keep : Option (BitVec 6)) (pa : Option Nat) : (s.halted keep pa).mem.wf = true := by
  refine State.atChunkEnd_wf h (fun t ht => ?_) ..
  rw [State.strandHalted_mem, State.free_mem, State.haltBanks_mem, State.endEvent_mem]
  split <;> simpa using ht

theorem State.halt_wf (keep : Option (BitVec 6)) : (s.halt keep).mem.wf = true := by
  have hgo : ∀ (t : State) (pa : Option Nat), t.mem.wf = true → ∀ (p q r u : Prop) [Decidable p] [Decidable q] [Decidable r] [Decidable u],
      (if p then s.hold (.blocked .quiet) else if q then s.hold (.blocked .drain) else if r then s.hold (.blocked .sendQueue)
        else if u then s.hold (.blocked .replyQueue) else t.halted keep pa).mem.wf = true := by
    intro t pa ht p q r u _ _ _ _
    repeat (split; · rwa [State.hold_mem])
    exact State.halted_wf ht ..
  unfold State.halt
  dsimp only
  split
  · exact hgo s none h ..
  · split
    · simpa using h
    · exact hgo _ _ (by rwa [State.globalAccess_mem]) ..

theorem execHalt_wf : (s.after (execHalt s)).mem.wf = true := State.halt_wf h _

theorem execHaltCompact_wf : (s.after (execHaltCompact s)).mem.wf = true := State.halt_wf h _

theorem execHaltK_wf (c : BitVec 6) : (s.after (execHaltK c s)).mem.wf = true := State.whenSafe_wf h (State.halt_wf h _)

/-! ### Starts and deliveries (R95, R189, R191, R324) -/

theorem State.serve_wf (g : Nat) (src : Source) (k : Nat) (m : Msg) (f : Ctx → Ctx) : (s.serve g src k m f).mem.wf = true := by
  unfold State.serve
  split
  · exact State.atChunkEnd_wf h (fun t ht => by simpa using ht) ..
  · exact h

theorem execHandlerStart_wf (g : Nat) (src : Source) (k : Nat) : (s.after (execHandlerStart g src k s)).mem.wf = true := by
  simp only [execHandlerStart, State.after_next]
  split
  · exact h
  · split
    · exact State.serve_wf h ..
    · exact h

theorem execLateMessage_wf (g k : Nat) : (s.after (execLateMessage g k s)).mem.wf = true := by
  simp only [execLateMessage, State.after_next]
  split
  · next m _ _ _ =>
    have hs := State.serve_wf h g (placeOf k).1 (placeOf k).2 m id
    split
    · split
      · exact hs
      · rwa [State.takeTrap_mem]
    · exact h
  · exact h

theorem execWaitchDelivery_wf (g : Nat) (src : Source) (k : Nat) : (s.after (execWaitchDelivery g src k s)).mem.wf = true := by
  simp only [execWaitchDelivery, State.after_next]
  split
  · exact h
  · split
    · exact h
    · split
      · exact h
      · split
        · exact h
        · refine State.atChunkEnd_wf h (fun t ht => ?_) ..
          simpa using ht

theorem State.retag_wf (g slot : Nat) (vt : Word) : (s.retag g slot vt).mem.wf = true := by
  unfold State.retag
  split
  · exact h
  · split
    · exact h
    · split
      · exact h
      · refine State.foldl_wf (fun t r ht => ?_) _ (by rwa [State.setLp_mem])
        split
        · next u hu => exact State.writeVirt_wf ht hu
        · exact ht

theorem State.beginEvent_wf (g slot c : Nat) (m : Msg) (safe : Bool) : (s.beginEvent g slot c m safe).mem.wf = true := by
  have hr := State.retag_wf h g slot m.d2
  simp only [State.beginEvent, State.logCursors_mem, State.setCtx_mem]
  split <;> simpa using hr

theorem execLpEventStart_wf (g slot : Nat) : (s.after (execLpEventStart g slot s)).mem.wf = true := by
  simp only [execLpEventStart, State.after_next]
  split
  · split
    · exact h
    · split
      · simpa using h
      · refine State.atChunkEnd_wf h (fun t ht => ?_) ..
        have hb : ∀ (u : State) (c : Nat) (m : Msg) (safe : Bool), u.mem = t.mem → ((u.beginEvent g slot c m safe).workFound g).mem.wf = true := by
          intro u c m safe hu
          rw [State.workFound_mem]
          exact State.beginEvent_wf (by rwa [hu]) ..
        split
        · rw [State.terminate_mem]
          exact hb _ _ _ _ (by simp)
        · exact hb _ _ _ _ (by simp)
  · exact h

theorem execWaitWake_wf (g c : Nat) : (s.after (execWaitWake g c s)).mem.wf = true := by
  simp only [execWaitWake, State.after_next]
  split
  · split
    case h_3 | h_4 => exact State.atChunkEnd_wf h (fun t ht => by simpa using ht) ..
    all_goals simpa using h
  · exact h

/-! ### Images of crews (R258, R264, R265) -/

theorem State.markImages_wf (g : Nat) (w : Work) : (s.markImages g w).mem.wf = true :=
  State.foldl_wf (fun _ _ ht => Memory.wf_putWord _ _ ht) _ h

theorem State.replayAt_wf (t g : Nat) : (s.replayAt t g).mem.wf = true := by
  unfold State.replayAt
  dsimp only
  split
  · split
    · exact State.markImages_wf (by rwa [State.setCore_mem]) ..
    · exact h
  · split
    · exact h
    · split
      · exact State.markImages_wf (by rwa [State.setCore_mem]) ..
      · exact State.markImages_wf (by rwa [State.setWork_mem]) ..

theorem execReplayall_wf : (s.after (execReplayall s)).mem.wf = true := by
  simp only [execReplayall, State.after_next]
  split
  · rwa [State.privTrap_mem]
  · split
    · rwa [State.hold_mem]
    · rw [State.retire_mem]
      split
      · rw [State.sendNotice_mem]
        exact State.foldl_wf (fun _ _ ht => State.replayAt_wf ht ..) _ h
      · exact State.foldl_wf (fun _ _ ht => State.replayAt_wf ht ..) _ h

theorem State.swapOut_wf (g id : Nat) (q : Crew) : (s.swapOut g id q).mem.wf = true := by
  unfold State.swapOut
  dsimp only
  split
  · exact h
  · rw [State.setWork_mem, State.clearCtxs_mem]
    dsimp only
    exact Memory.wf_copyFrom _ _ _ _ (Memory.wf_putWords _ _ h)

theorem execCrewSwapOut_wf (g k : Nat) : (s.after (execCrewSwapOut g k s)).mem.wf = true := by
  simp only [execCrewSwapOut, State.after_next]
  split
  · exact h
  · split
    · exact State.swapOut_wf h ..
    · exact h

theorem execIdleCrewSwap_wf (g : Nat) : (s.after (execIdleCrewSwap g s)).mem.wf = true := by
  simp only [execIdleCrewSwap, State.after_next]
  split
  · split
    · exact State.swapOut_wf h ..
    · exact h
  · exact h

theorem State.readmit_wf (g slot : Nat) (i : SwapImage) : (s.readmit g slot i).mem.wf = true := by
  unfold State.readmit
  dsimp only
  simp [Memory.wf_putWord, h]

theorem execCrewReadmission_wf (g : Nat) : (s.after (execCrewReadmission g s)).mem.wf = true := by
  simp only [execCrewReadmission, State.after_next]
  split
  · split
    · rw [State.workFound_mem]
      exact State.readmit_wf h ..
    · exact h
  · exact h

/-! ### Engines (R274, R285, R286) -/

theorem State.putDst_wf (g : Nat) (d : Dst) (x : Moved) : (s.putDst g d x).mem.wf = true := by
  unfold State.putDst
  split
  · rw [State.markPoison_mem]
    exact s.writePhys_wf _ _ h
  all_goals simpa using h

theorem State.putDsts_wf (g : Nat) (got : Moved) (ds : List (Nat × Nat × Dst)) : (s.putDsts g got ds).mem.wf = true := by
  refine State.foldl_wf (fun t d ht => ?_) _ h
  split
  · exact ht
  · exact State.putDst_wf ht ..

theorem State.doAfter_wf {t : State} {g : Nat} {a : After} {bad : Option Nat} (ht : s.doAfter g a = some (t, bad)) : t.mem.wf = true := by
  unfold State.doAfter at ht
  split at ht
  · obtain ⟨rfl, -⟩ := Prod.mk.inj (Option.some.inj ht)
    rwa [State.mapMatrix_mem]
  · obtain ⟨rfl, -⟩ := Prod.mk.inj (Option.some.inj ht)
    rwa [State.mapMatrix_mem]
  · split at ht
    · nomatch ht
    · obtain ⟨rfl, -⟩ := Prod.mk.inj (Option.some.inj ht)
      rw [State.setCluster_mem, State.served_mem]
      split
      · exact s.writePhys_wf _ _ h
      · exact h

theorem State.advance_wf {g : Nat} {t : Transfer} {j : Nat} {a : Advance} (ha : s.advance g t j = some a) : a.next.mem.wf = true := by
  unfold State.advance at ha
  dsimp only at ha
  split at ha
  · split at ha
    · nomatch ha
    · rw [← Option.some.inj ha]
      exact State.putDsts_wf h ..
  · split at ha
    · rwa [← Option.some.inj ha]
    · split at ha
      · rwa [← Option.some.inj ha]
      · nomatch ha

theorem State.stepCmd_wf (g : Nat) (m : Cmd) (p : Progress) (n : Nat) : (s.stepCmd g m p n).mem.wf = true := by
  unfold State.stepCmd
  dsimp only
  split
  · split
    · exact h
    · split
      · exact h
      · next t bad ht =>
        rw [State.failedPiece_mem, State.mapCmd_mem]
        exact State.doAfter_wf h ht
  · split
    · exact h
    · next a ha =>
      have hnext := State.advance_wf h ha
      split
      · exact h
      · rw [State.failedPiece_mem]
        split <;> split <;> simpa using hnext

theorem State.activate_wf (g : Nat) (q : Queue) (n : Nat) : (s.activate g q n).mem.wf = true := by
  unfold State.activate
  split
  · split
    · split <;> simpa using h
    · exact h
  · split
    · exact h
    · split
      · split <;> simpa using h
      · split
        · exact State.stepCmd_wf h ..
        · exact h
      · exact h

theorem execCommandActivation_wf (n : Nat) (q : Queue) : (s.after (execCommandActivation n q s)).mem.wf = true := State.activate_wf h ..

/-! ### Commits (R322, R328 to R330) -/

theorem State.commitStore_wf {t : State} {g slot : Nat} {e : LpEvent} {va : Word} {bs : List Byte}
    (ht : s.commitStore g slot e va bs = some t) : t.mem.wf = true := by
  unfold State.commitStore at ht
  dsimp only at ht
  have hu : (s.translate g (!e.sup) va .write).1.mem.wf = true := by rwa [State.translate_mem]
  split at ht
  · rwa [← Option.some.inj ht, State.commitFault_mem]
  · split at ht
    · rwa [← Option.some.inj ht, State.commitFault_mem]
    · split at ht
      · nomatch ht
      · split at ht
        · rwa [← Option.some.inj ht, State.commitFails_mem]
        · rw [← Option.some.inj ht]
          split
          · rw [State.served_mem]
            exact State.homeStore_wf hu ..
          · rw [State.commitFails_mem]
            exact State.homeStore_wf hu ..

theorem State.commitIrrev_wf {t : State} {g slot : Nat} {e : LpEvent} {bs : List Byte} {ws : List Nat}
    (ht : s.commitIrrev g slot e bs ws = some t) : t.mem.wf = true := by
  unfold State.commitIrrev at ht
  dsimp only at ht
  split at ht
  · rwa [← Option.some.inj ht, State.noteIrrev_mem]
  · obtain ⟨u, hu, rfl⟩ := Option.map_eq_some_iff.1 ht
    rwa [State.noteIrrev_mem, State.commitSend_mem hu]
  · split at ht
    · rwa [← Option.some.inj ht, State.noteIrrev_mem, State.commitFault_mem]
    · obtain ⟨u, hu, rfl⟩ := Option.map_eq_some_iff.1 ht
      rw [State.noteIrrev_mem]
      exact State.commitStore_wf h hu

theorem State.commitItem_wf {t : State} {g slot : Nat} {e : LpEvent} {ws : List Nat} {i : HeldItem}
    (ht : s.commitItem g slot e ws i = some t) : t.mem.wf = true := by
  unfold State.commitItem at ht
  split at ht
  · exact State.commitStore_wf h ht
  · rwa [← Option.some.inj ht, State.commitScratch_mem]
  · exact State.commitIrrev_wf h ht
  · rwa [State.commitCommand_mem ht]
  · rwa [State.commitSend_mem ht]

theorem State.commitUpTo_wf (t d : Nat) (g : Word) (n : Nat) : (s.commitUpTo t d g n).1.mem.wf = true := by
  induction n generalizing s with
  | zero => exact h
  | succ n ih =>
    simp only [State.commitUpTo]
    split
    · exact h
    · split
      · exact h
      · next u hu => exact ih (by rw [State.freeCommit_mem]; exact State.commitItem_wf h hu)

theorem execGvtPublication_wf (t d : Nat) : (s.after (execGvtPublication t d s)).mem.wf = true := by
  simp only [execGvtPublication, State.after_next]
  split
  · exact h
  · next g _ =>
    split
    · exact h
    · have hr := State.commitUpTo_wf h t d g (sumOf ((s.domainLps t d).map fun e => e.2.2.commits.length))
      split <;> simpa using hr

/-! ### Images of cores (R357, R358) -/

omit h in
theorem Ctx.layOut_wf (k : Ctx) (b : Nat) {m : Memory} (hm : m.wf = true) : (k.layOut b m).wf = true := by
  unfold Ctx.layOut
  have hm3 := Memory.wf_putWords (b + 0x1900) (k.ring.flatMap RingEntry.words) (Memory.wf_putWords (b + 0x1780) k.loopWords
    (Memory.wf_putWords (b + 0x1700) k.stateWords (Memory.wf_lay b k.fileBytes (Memory.wf_clear b 0x4000 hm))))
  dsimp only
  split
  · exact Memory.wf_lay _ _ hm3
  · exact hm3

omit h in
theorem Memory.foldl_wf {α : Type} {f : Memory → α → Memory} (hf : ∀ m a, m.wf = true → (f m a).wf = true) (l : List α) {m : Memory}
    (hm : m.wf = true) : (l.foldl f m).wf = true := by
  induction l generalizing m with
  | nil => exact hm
  | cons a r ih => exact ih (hf m a hm)

omit h in
theorem Work.layCtxs_wf (w : Work) (a : Nat) {m : Memory} (hm : m.wf = true) : (w.layCtxs a m).wf = true :=
  Memory.foldl_wf (fun _ e hm => e.2.layOut_wf _ hm) _ hm

omit h in
theorem Work.layTables_wf (w : Work) (a : Nat) {m : Memory} (hm : m.wf = true) : (w.layTables a m).wf = true := by
  unfold Work.layTables
  dsimp only
  refine Memory.wf_putWords _ _ (Memory.wf_putWords _ _ (Memory.wf_lay _ _ (Memory.wf_putWords _ _ (Memory.wf_putWords _ _ ?_))))
  exact Memory.wf_clear _ _ hm

omit h in
theorem Work.layMessages_wf (w : Work) (a : Nat) {m : Memory} (hm : m.wf = true) : (w.layMessages a m).wf = true := by
  refine Memory.wf_lay _ _ (Memory.foldl_wf (fun m e hm => ?_) _ hm)
  split
  · exact Memory.wf_lay _ _ hm
  · exact hm

omit h in
theorem Work.layOut_wf (w : Work) (a : Nat) {m : Memory} (hm : m.wf = true) : (w.layOut a m).wf = true := by
  refine w.layMessages_wf _ (w.layTables_wf _ (Memory.wf_putWords _ _ ?_))
  exact Memory.foldl_wf (fun _ _ hm => Memory.wf_copyFrom _ _ _ _ hm) _ hm

theorem State.ctxsOut_wf (g : Nat) (w : Work) : (s.ctxsOut g w).mem.wf = true := w.layCtxs_wf _ h

theorem State.shadowHeader_wf (g : Nat) (i : Image) : (s.shadowHeader g i).mem.wf = true := by
  unfold State.shadowHeader
  simp only [Memory.wf_putWords, h]

theorem State.imaged_wf (g : Nat) (w : Work) (left : Option Ctx) : (s.imaged g w left).mem.wf = true := by
  unfold State.imaged
  refine State.shadowHeader_wf ?_ ..
  refine Memory.foldl_wf (fun _ _ hm => Memory.wf_putWord _ _ hm) _ (w.layOut_wf _ ?_)
  rw [State.setCore_mem]
  split
  · rwa [State.saveCounters_mem]
  · exact h

theorem execEviction_wf (g : Nat) : (s.after (execEviction g s)).mem.wf = true := by
  simp only [execEviction, State.after_next]
  split
  · split <;> simpa using h
  · split
    · exact h
    · split
      · exact State.imaged_wf (State.ctxsOut_wf h ..) ..
      · rw [State.setCore_mem]
        exact State.ctxsOut_wf h ..
  · split
    · exact State.imaged_wf h ..
    · exact h

theorem execEvictRoutineTimeout_wf (g : Nat) : (s.after (execEvictRoutineTimeout g s)).mem.wf = true := by
  simp only [execEvictRoutineTimeout, State.after_next]
  split
  · split
    · exact h
    · exact State.imaged_wf h ..
  · exact h

/-! ### The host and the package (R381, R387) -/

theorem State.hostStore_wf (ps : List (Nat × Nat)) (bs : List Byte) : (s.hostStore ps bs).mem.wf = true := by
  induction ps generalizing s bs with
  | nil => exact h
  | cons p r ih =>
    refine ih ?_ _
    split
    · exact h
    · rw [State.markPoison_mem]
      exact s.writePhys_wf _ _ h

theorem execHostMemoryAccess_wf (t win off : Nat) (write : Bool) (data : List Byte) :
    (s.after (execHostMemoryAccess t win off write data s)).mem.wf = true := by
  simp only [execHostMemoryAccess, State.after_next]
  split
  · split <;> simpa using h
  · split
    · split <;> simpa using h
    · split
      · split <;> simpa using h
      · split
        · exact h
        · rw [State.chargePieces_mem]
          split
          · exact State.hostStore_wf h ..
          · rwa [State.out_mem]

theorem execPowerOn_wf (chip : Nat) (found : Bringup) : (s.after (execPowerOn chip found s)).mem.wf = true := by
  simp only [execPowerOn, State.after_next]
  refine State.foldl_wf (fun _ _ ht => by rwa [State.testResult_mem]) _ ?_
  split
  · rw [State.setChip_mem, State.restart_mem]
    exact Memory.wf_filter _ h
  · rw [State.alarm_mem, State.setChip_mem, State.restart_mem]
    exact Memory.wf_filter _ h

end

end Sys2Proof.Machine
end

section
/-! That every step keeps memory in its canonical form (O5). -/

namespace Sys2Proof.Machine

/-! ### Instructions -/

/-- Most instructions leave memory alone; the stores of the others are canonical. -/
theorem exec_wf (i : Instr) {s : State} (h : s.mem.wf = true) : (s.after (exec i s)).mem.wf = true := by
  have kept : ∀ {t : State}, t.mem = s.mem → t.mem.wf = true := fun e => e ▸ h
  have body : ∀ {i : Instr} {len : Nat} {b : VBody}, bodyOf i = some b → (s.issueV i len b).mem = s.mem := fun e =>
    State.issueV_mem _ _ _ (keepsMem_bodyOf e)
  cases i
  case nop | hint => exact kept (State.retire_mem ..)
  case movCompact | addCompact | subCompact | andCompact | orCompact | xorCompact | addiCompact | liCompact | shlCompact | shrCompact |
    sraCompact | mulCompact | minCompact | maxCompact | sltCompact | seqCompact | clzCompact | popcCompact | sltuCompact | minuCompact |
    maxuCompact | add | sub | mul | mulh | mulhu | div | divu | rem | remu | and | or | xor | shl | shr | sra | min | max | minu | maxu |
    slt | sltu | seq | clz | popc | mov | sel | addsh | addi | andi | ori | xori | shlImm | shrImm | sraImm | li | lih | bfx | bfi | li64 |
    getid | vtget | gvtrd => exact kept (writeX_mem ..)
  case jCompact | jrCompact | j | jr => exact kept (State.retireTo_mem ..)
  case bzCompact | bnzCompact | bCc | bz | bnz => exact kept (State.branch_mem ..)
  case ldlDCompact | ldl => exact kept (State.loadLocal_mem ..)
  case stl => exact kept (State.storeLocal_mem ..)
  case yieldCompact | yield => exact kept (State.doYield_mem ..)
  case stg => exact kept (State.storeGlobal_mem ..)
  case amoAdd | amoMin | amoMax | amoAnd | amoOr | amoXor | amoSwap | amoCas | amoFadd => exact kept (State.sendAmo_mem ..)
  case loop | loopi => exact kept (State.startLoop_mem ..)
  case efence => exact kept (State.issueCommand_mem ..)
  case mloadb | mma | sacc | aswap | azero => simp [exec, execMloadb, execMma, execSacc, execAswap, execAzero, h]
  case vadd | vsub | vmul | vfma | vfms | vmin | vmax | vabs | vneg | vdiv | vsqrt | vredadd | vredmax | vfmaPrefixed | vfmsPrefixed | viadd
    | vimul | vand | vor | vxor | vshl | vshr | vshrA | vsel | vcmpEq | vcmpNe | vcmpLt | vcmpLe | vcmpGt | vcmpGe | vmov | vbcast | vperm |
    vtlu | vrope | vcvt | vpack | vunpack => exact kept (body rfl)
  case vldl | vgathl => exact kept (State.issueLoad_mem (hb := keepsMem_localBody _ _ _ _) ..)
  case vstl | vscatl => exact kept (State.issueStore_mem (hb := keepsMem_localBody _ _ _ _) ..)
  case vldg | vgathg => exact kept (State.issueGlobal_mem (hb := keepsMem_globalBody _ _ _ _ _) ..)
  case vstg | vscatg => exact kept (State.issueGlobalStore_mem (hb := keepsMem_globalBody _ _ _ _ _) ..)
  case ldg | crd | cwr | jal | breakl | launch | join | bar | migrateHome | migrate | waitch | tblld | vcvtn | vcvtnCounter | sendl | aread
    | ofix | mstat | copy | gatherkv | pagein | eqwait | tmapset | binit | bexpect | barrive | bwait | btest | ctake | cgive | send | reply
    | msgrd | chmask | vtset | irrev | ckpt | swater | scursor | nred | nredw | trap | eret | resume | brk | fence | drain | tlbinvPage |
    tlbinvPart | tlbinvAll | tlbsync | fbread | fbpop | xlate | bmcinv | fetchLine | classPromotion | ringEntryComplete | trapEntry |
    watchdog | storeAck | weirPeriod | pageWalk | contextReplay | messageArrival | sendInjection | replyLanding | cellRelease |
    hostWindowWrite | launchForward | dispatchRetry | gridDescriptor | crewAdmission | crewDone | gridCompletion | gridEnd | forkChildStart
    | stealRequest | stealServe | stealReply | stealRound | joinSwapOut | joinReadmit | retainTimeout | migrationArrival | balancerToken |
    balancerAntitoken | exitToken | exitAntitoken | exitCancel | generationClose | pennantRaise | nredContribution | engineCredit |
    commandCompletion | tierMissEvent | gvtRound | lpUnbind | retryResend | restore | partitionReset | journalReplay | arrayError |
    machineCheck | halyardHalt | halyardResume | monitorSample | monitorClear | tencntFlush | tcsyncFlush | gvtperWrite |
    dispatchRegisterWrite | dramceClear | mcrecClear | ftestStart | ftestComplete | marginMeasurement | portRecordClear | registerWrite |
    securityAlarm | partitionForm | partitionResize | partitionRelease | selfTestCommand | statusHealth | attest | firmwareUpdate |
    replaceRequest | islandClockChange | thermalThrottle | thermalShutdown | portFailure | cxlDeviceFailure | msixDoorbell | packageReset |
    loggedHostDelivery => simp [exec, h]
  case haltCompact => exact execHaltCompact_wf h ..
  case fork => exact execFork_wf h ..
  case halt => exact execHalt_wf h ..
  case haltK => exact execHaltK_wf h ..
  case cnew =>
    simp only [exec]
    exact execCnew_wf h ..
  case cfree => exact execCfree_wf h ..
  case ccancel => exact execCcancel_wf h ..
  case cread => exact execCread_wf h ..
  case carm => exact execCarm_wf h ..
  case cwait => exact execCwait_wf h ..
  case lpbind => exact execLpbind_wf h ..
  case strunc => exact execStrunc_wf h ..
  case replayall => exact execReplayall_wf h ..
  case waitWake => exact execWaitWake_wf h ..
  case loadReply => exact execLoadReply_wf h ..
  case memoryAccess => exact execMemoryAccess_wf h ..
  case messageSpill => exact execMessageSpill_wf h ..
  case handlerStart => exact execHandlerStart_wf h ..
  case waitchDelivery => exact execWaitchDelivery_wf h ..
  case launchMessage => exact execLaunchMessage_wf h ..
  case crewSwapOut => exact execCrewSwapOut_wf h ..
  case idleCrewSwap => exact execIdleCrewSwap_wf h ..
  case crewReadmission => exact execCrewReadmission_wf h ..
  case commandActivation => exact execCommandActivation_wf h ..
  case gvtPublication => exact execGvtPublication_wf h ..
  case lpEventStart => exact execLpEventStart_wf h ..
  case checkpointSnapshot => exact execCheckpointSnapshot_wf h ..
  case stragglerRollback => exact execStragglerRollback_wf h ..
  case antiMessageArrival => exact execAntiMessageArrival_wf h ..
  case lateMessage => exact execLateMessage_wf h ..
  case eviction => exact execEviction_wf h ..
  case evictRoutineTimeout => exact execEvictRoutineTimeout_wf h ..
  case evictedMessage => exact execEvictedMessage_wf h ..
  case jfenceMark => exact execJfenceMark_wf h ..
  case powerOn => exact execPowerOn_wf h ..
  case fabricReply => exact execFabricReply_wf h ..
  case hostMemoryAccess => exact execHostMemoryAccess_wf h ..

/-! ### Device steps are instructions (spec/95) -/

/-- A device step that is what some instruction does. -/
def Move.IsExec (e : Move) : Prop := ∃ i, e = exec i

theorem isExec_ite {p : Prop} [Decidable p] {l : List Move} (h : ∀ e ∈ l, e.IsExec) : ∀ e ∈ if p then l else [], e.IsExec := by
  split
  · exact h
  · exact List.forall_mem_nil _

theorem Ctx.isExec_steps (g c : Nat) (k : Ctx) : ∀ e ∈ Ctx.steps g c k, e.IsExec := by
  unfold Ctx.steps
  split
  · exact List.forall_mem_nil _
  · simp only [List.forall_mem_append, List.forall_mem_cons, List.forall_mem_map, List.not_mem_nil, false_imp_iff, implies_true, and_true]
    exact ⟨⟨⟨.fetchLine g c, rfl⟩, ⟨.classPromotion g c, rfl⟩, ⟨.trapEntry g c, rfl⟩, ⟨.watchdog g c, rfl⟩, ⟨.waitWake g c, rfl⟩,
      ⟨.contextReplay g c, rfl⟩⟩, fun e _ => ⟨.ringEntryComplete g c e.seq, rfl⟩⟩

theorem Job.isExec_step (g : Nat) (j : Job) : Move.IsExec (j.step g) := by
  cases j with
  | handler src k => exact ⟨.handlerStart g src k, rfl⟩
  | late src k => exact ⟨.lateMessage g (placeNumber src k), rfl⟩
  | migration k => exact ⟨.migrationArrival g k, rfl⟩
  | event slot => exact ⟨.lpEventStart g slot, rfl⟩
  | stolen k => exact ⟨.stealReply k, rfl⟩
  | readmit _ => exact ⟨.crewReadmission g, rfl⟩
  | crew => exact ⟨.crewAdmission g, rfl⟩
  | joined k => exact ⟨.joinReadmit g k, rfl⟩
  | child => exact ⟨.forkChildStart g, rfl⟩

theorem isExec_queueSteps (g : Nat) : ∀ e ∈ queueSteps g, e.IsExec := by
  unfold queueSteps
  refine List.forall_mem_flatMap.2 fun q _ => ?_
  simp only [List.forall_mem_cons, List.not_mem_nil, false_imp_iff, implies_true, and_true]
  exact ⟨⟨.commandActivation (moveNo g 0) q, rfl⟩, ⟨.commandActivation (moveNo g 1) q, rfl⟩, ⟨.engineCredit g q (2 ^ 31), rfl⟩,
    ⟨.commandCompletion g q, rfl⟩⟩

theorem isExec_evictionSteps (g : Nat) : ∀ e ∈ [execEviction g, execEvictRoutineTimeout g], Move.IsExec e := by
  simp only [List.forall_mem_cons, List.not_mem_nil, false_imp_iff, implies_true, and_true]
  exact ⟨⟨.eviction g, rfl⟩, ⟨.evictRoutineTimeout g, rfl⟩⟩

theorem State.isExec_coreSteps (s : State) (g : Nat) (k : Core) : ∀ e ∈ s.coreSteps g k, e.IsExec := by
  simp only [State.coreSteps, List.forall_mem_append, List.forall_mem_flatMap, List.forall_mem_map, List.forall_mem_cons, sampleSteps,
    List.not_mem_nil, false_imp_iff, implies_true, and_true]
  exact ⟨⟨⟨⟨⟨⟨⟨⟨⟨⟨⟨fun e _ => Ctx.isExec_steps g e.1 e.2, fun j _ => j.isExec_step g⟩, fun e _ => ⟨.waitchDelivery g e.1 e.2.1, rfl⟩⟩,
    fun i _ => ⟨⟨.launchForward g i, rfl⟩, ⟨.launchMessage (s.tag g) i, rfl⟩⟩⟩, fun m _ => ⟨.stealReply m.stamp, rfl⟩⟩,
    ⟨.messageSpill g, rfl⟩, ⟨.sendInjection g true, rfl⟩, ⟨.sendInjection g false, rfl⟩, ⟨.stealRequest g, rfl⟩, ⟨.stealRound g, rfl⟩,
      ⟨.joinSwapOut g, rfl⟩, ⟨.idleCrewSwap g, rfl⟩, ⟨.tierMissEvent g, rfl⟩, ⟨.loggedHostDelivery g, rfl⟩⟩,
    fun e _ => ⟨⟨.crewDone g e.1, rfl⟩, ⟨.crewSwapOut g e.1, rfl⟩⟩⟩, fun i _ => ⟨.retainTimeout g i, rfl⟩⟩, isExec_queueSteps g⟩,
    fun e _ => ⟨⟨.checkpointSnapshot g e.1, rfl⟩, ⟨.lpUnbind g e.1, rfl⟩⟩⟩, fun x _ => ⟨.monitorSample g x.mon x.val, rfl⟩⟩,
    isExec_ite (isExec_evictionSteps g)⟩

theorem Net.isExec_steps (n : Net) : ∀ e ∈ n.steps, e.IsExec := by
  have hmsg : ∀ e : Nat × Msg, Move.IsExec (execStragglerRollback e.2.dst e.1) ∧ Move.IsExec (execAntiMessageArrival e.2.dst e.1 0)
      ∧ Move.IsExec (execEvictedMessage e.1) := fun e =>
    ⟨⟨.stragglerRollback e.2.dst e.1, rfl⟩, ⟨.antiMessageArrival e.2.dst e.1 0, rfl⟩, ⟨.evictedMessage e.1, rfl⟩⟩
  simp only [Net.steps, List.forall_mem_append, List.forall_mem_flatMap, List.forall_mem_map, List.forall_mem_cons,
    List.not_mem_nil, false_imp_iff, implies_true, and_true]
  exact ⟨⟨⟨⟨⟨⟨⟨⟨⟨⟨⟨fun e _ => ⟨.memoryAccess e.1, rfl⟩, fun e _ => ⟨⟨.loadReply e.1, rfl⟩, ⟨.storeAck e.1, rfl⟩⟩⟩,
    fun e _ => hmsg e, fun e _ => hmsg e⟩, fun e _ => ⟨.messageArrival e.1, rfl⟩⟩, fun e _ => ⟨.replyLanding e.1, rfl⟩⟩, fun e _ => ⟨.cellRelease e.1, rfl⟩⟩,
    fun e _ => ⟨.nredContribution e.1, rfl⟩⟩,
    fun e _ => ⟨⟨.balancerToken e.1, rfl⟩, ⟨.balancerAntitoken e.1, rfl⟩, ⟨.exitToken e.1, rfl⟩, ⟨.exitAntitoken e.1, rfl⟩,
      ⟨.exitCancel e.1, rfl⟩, ⟨.fabricReply e.1, rfl⟩⟩⟩,
    fun e _ => ⟨.retryResend e.1, rfl⟩⟩, fun e _ => ⟨.stealServe e.1, rfl⟩⟩, fun e _ => ⟨.gridDescriptor e.1, rfl⟩⟩,
    fun e _ => ⟨.gridEnd e.1, rfl⟩⟩

theorem isExec_partitionReset (t : Nat) : ∀ e ∈ [execPartitionReset t], Move.IsExec e :=
  List.forall_mem_singleton.2 ⟨.partitionReset t, rfl⟩

theorem State.isExec_partSteps (s : State) (t : Nat) (p : Partition) : ∀ e ∈ s.partSteps t p, e.IsExec := by
  simp only [State.partSteps, List.forall_mem_append, List.forall_mem_flatMap, List.forall_mem_map, List.forall_mem_cons,
    List.not_mem_nil, false_imp_iff, implies_true, and_true]
  exact ⟨⟨⟨⟨⟨isExec_ite (isExec_partitionReset t), fun i _ => ⟨.tencntFlush t i, rfl⟩⟩,
    ⟨.journalReplay t, rfl⟩, ⟨.jfenceMark t, rfl⟩, ⟨.dispatchRetry t, rfl⟩⟩, fun i _ => ⟨.gridCompletion t i, rfl⟩⟩,
    fun e _ => ⟨⟨.generationClose t e.1, rfl⟩, ⟨.pennantRaise t e.1, rfl⟩⟩⟩,
    fun d _ => ⟨⟨.gvtPublication t d, rfl⟩, ⟨.gvtRound t d, rfl⟩⟩⟩

theorem Cluster.isExec_steps (cl : Nat) (k : Cluster) : ∀ e ∈ Cluster.steps cl k, e.IsExec := by
  simp only [Cluster.steps, List.forall_mem_append, List.forall_mem_map, List.forall_mem_singleton]
  exact ⟨fun v _ => ⟨.halyardHalt cl v, rfl⟩, ⟨.ftestStart cl, rfl⟩⟩

theorem isExec_bellSteps (h : Nat) (k : Chip) : ∀ e ∈ bellSteps h k, e.IsExec := by
  simp only [bellSteps, List.forall_mem_map]
  exact fun e _ => ⟨.msixDoorbell (64 * h + e.1) e.2, rfl⟩

theorem State.isExec_candidates (s : State) : ∀ e ∈ s.candidates, e.IsExec := by
  simp only [State.candidates, List.forall_mem_append, List.forall_mem_flatMap]
  exact ⟨⟨⟨⟨fun e _ => s.isExec_partSteps e.1 e.2, fun e _ => Cluster.isExec_steps e.1 e.2⟩, fun e _ => s.isExec_coreSteps e.1 e.2⟩,
    fun e _ => isExec_bellSteps e.1 e.2⟩, s.net.isExec_steps⟩

/-! ### Steps of the machine (R63, R388) -/

/-- An outcome whose next state, where it has one, has its memory in canonical form. -/
def KeptWf (o : Host.Outcome State Fault Refusal) : Prop := ∀ t, o = .next t → t.mem.wf = true

theorem keptWf_next {t : State} (h : t.mem.wf = true) : KeptWf (.next t) := by
  rintro _ ⟨⟩
  exact h

theorem keptWf_exec (i : Instr) {s : State} (h : s.mem.wf = true) : KeptWf (exec i s) := by
  intro t ht
  have hi := exec_wf i h
  rwa [ht] at hi

theorem keptWf_or {a b : Option (Host.Outcome State Fault Refusal)} (ha : ∀ o ∈ a, KeptWf o) (hb : ∀ o ∈ b, KeptWf o) :
    ∀ o ∈ a.or b, KeptWf o := by
  cases a with
  | none => exact hb
  | some x => exact ha

theorem State.settle_mem (s : State) (g : Nat) : (s.settle g).mem = s.mem := foldl_kept State.mem _ (fun _ _ => State.setCtx_mem ..) _ _

theorem State.settleAll_mem (s : State) : s.settleAll.mem = s.mem := foldl_kept State.mem _ (fun _ _ => State.settle_mem ..) _ _

theorem keptWf_logged {o : Host.Outcome State Fault Refusal} (h : KeptWf o) : KeptWf (logged o) := by
  cases o with
  | next t => exact keptWf_next (State.logStates_wf (by rw [State.settleAll_mem]; exact h t rfl))
  | fault => nofun
  | refused => nofun

section
variable {s : State} (h : s.mem.wf = true)
include h

theorem State.keptWf_run (i : Instr) : KeptWf (s.run i) := by
  have hi := keptWf_exec i (s := s.setMe { s.me with st := .ready, ring := s.me.ring.filter fun e => e.st != .done }) h
  simp only [State.run]
  split
  · next t ht => exact keptWf_next (by rw [State.issued_mem]; exact hi t ht)
  · nofun
  · nofun

theorem State.keptWf_checked (bs : List Byte) : KeptWf (s.checked bs) := by
  simp only [State.checked]
  split
  · exact keptWf_next (by rwa [State.checkTrap_mem])
  · split
    · exact keptWf_next (by rwa [State.checkTrap_mem])
    · split
      · exact keptWf_next (by rwa [State.watchTrap_mem])
      · split
        · exact keptWf_next (by rwa [State.hold_mem])
        · exact State.keptWf_run h _

theorem State.fetchFor_wf (g c : Nat) : (({ s with cur := (g, c) } : State).fetchFor g c).1.mem.wf = true := by
  rwa [State.fetchFor_mem]

theorem State.keptWf_attempt (g c : Nat) : KeptWf (s.attempt g c) := by
  have hf := State.fetchFor_wf h g c
  simp only [State.attempt]
  split
  · exact keptWf_next hf
  · exact State.keptWf_checked hf _

theorem State.keptWf_issueAt (g c : Nat) : KeptWf (s.issueAt g c) := by
  have hf := State.fetchFor_wf h g c
  simp only [State.issueAt]
  split
  · exact keptWf_next hf
  · split
    · exact State.keptWf_checked hf _
    · exact keptWf_next hf

theorem State.keptWf_firstIssue (g : Nat) (l : List Nat) : ∀ o ∈ s.firstIssue g l, KeptWf o := by
  induction l with
  | nil => nofun
  | cons c r ih =>
    have hc := State.keptWf_attempt h g c
    obtain ⟨t, ht⟩ := s.goes_attempt g c
    simp only [State.firstIssue, ht]
    split
    · exact ih
    · rintro _ ⟨⟩
      exact ht ▸ hc

theorem State.keptWf_anyIssue (v : Bool) (l : List Nat) : ∀ o ∈ s.anyIssue v l, KeptWf o := by
  induction l with
  | nil => nofun
  | cons g r ih =>
    simp only [State.anyIssue]
    split
    · next o ho =>
      rintro _ ⟨⟩
      exact State.keptWf_firstIssue h g _ o ho
    · exact ih

theorem State.keptWf_firstEvent {l : List Move} (hl : ∀ e ∈ l, e.IsExec) : ∀ o ∈ s.firstEvent l, KeptWf o := by
  induction l with
  | nil => nofun
  | cons e r ih =>
    obtain ⟨⟨i, rfl⟩, hr⟩ := List.forall_mem_cons.1 hl
    have hi := keptWf_exec i h
    obtain ⟨t, ht⟩ := goes_exec i s
    simp only [State.firstEvent, ht]
    split
    · exact ih hr
    · rintro _ ⟨⟩
      exact ht ▸ hi

theorem State.keptWf_free_ : KeptWf s.free_ := by
  have hdevice : ∀ o ∈ s.firstEvent (turn s.stepNo s.candidates), KeptWf o :=
    State.keptWf_firstEvent h fun e he => s.isExec_candidates e (mem_of_mem_turn he)
  have hissue : ∀ v gs, ∀ o ∈ (s.anyIssue v gs).or (s.anyIssue (!v) gs), KeptWf o :=
    fun v gs => keptWf_or (State.keptWf_anyIssue h v gs) (State.keptWf_anyIssue h (!v) gs)
  simp only [State.free_]
  split
  · next o ho =>
    split at ho
    · exact keptWf_or hdevice (hissue _ _) o ho
    · exact keptWf_or (hissue _ _) hdevice o ho
  · exact keptWf_next h

theorem State.keptWf_take (x : Choice) : KeptWf (s.take x) := by
  cases x with
  | event i => exact keptWf_exec i h
  | issue g c =>
    simp only [State.take]
    split
    · exact State.keptWf_issueAt h g c
    · exact keptWf_next h

theorem State.keptWf_move : KeptWf s.move := by
  simp only [State.move]
  split
  · next x r _ => exact keptWf_logged (State.keptWf_take (s := { s with schedule := r }) h x)
  · exact keptWf_logged (State.keptWf_free_ h)

end

/-- Settles O5: each instruction keeps the form, and a step is made of what instructions do, of traps and of waits. -/
theorem stepInv : Obligations.StepInv := fun s t h => State.keptWf_move (by rwa [State.tick_mem]) t

end Sys2Proof.Machine
end

section
/-! The order of contributions (O48). -/

namespace Sys2Proof.Machine

/-- Two lanes of partial rounds as one: the sums are exact, so they add up as integers do (R237, R239). -/
def SumLane.merge (l m : SumLane) : SumLane := ⟨l.a + m.a, l.pinf || m.pinf, l.ninf || m.ninf, l.nan || m.nan, l.z && m.z⟩

/-- A contribution joins a lane as the round that holds it alone would. -/
theorem SumLane.join_eq_merge (l : SumLane) (b : Nat) : l.join b = l.merge (SumLane.start.join b) := by
  unfold SumLane.join
  rcases value 0 b with ⟨⟩ | (_ | _) | ⟨neg, n, d⟩ <;> simp [SumLane.merge, SumLane.start, Bool.and_assoc]

theorem SumLane.merge_right_comm (l m n : SumLane) : (l.merge m).merge n = (l.merge n).merge m := by
  simp only [SumLane.merge, add_right_comm, Bool.or_right_comm, Bool.and_right_comm]

theorem SumLane.join_right_comm (l : SumLane) (a b : Nat) : (l.join a).join b = (l.join b).join a := by
  rw [(l.join a).join_eq_merge, (l.join b).join_eq_merge, l.join_eq_merge a, l.join_eq_merge b, SumLane.merge_right_comm]

/-- Settles O48: lane by lane, a contribution is merged into an exact sum. -/
theorem reductionOrder : Obligations.ReductionOrder := by
  intro r v w
  simp only [Round.join, Vector.get_ofFn, SumLane.join_right_comm]

end Sys2Proof.Machine
end

section
/-! What an access leaves alone while it is translated, and global accesses at issue (O23, O24). -/

namespace Sys2Proof.Machine

/-! ### Translation (R246 to R250, R352) -/

/-- Only what caches, weirs, monitors and counters of traffic hold differs: the memory, the work of every core, the network, the
executing context and the next number are as they were. -/
structure SameWork (s t : State) : Prop where
  mem : t.mem = s.mem
  cur : t.cur = s.cur
  nextId : t.nextId = s.nextId
  net : t.net = s.net
  work : ∀ g, t.work g = s.work g

theorem SameWork.refl (s : State) : SameWork s s := ⟨rfl, rfl, rfl, rfl, fun _ => rfl⟩

theorem SameWork.trans {s t u : State} (h : SameWork s t) (h' : SameWork t u) : SameWork s u :=
  ⟨h'.mem.trans h.mem, h'.cur.trans h.cur, h'.nextId.trans h.nextId, h'.net.trans h.net, fun g => (h'.work g).trans (h.work g)⟩

section
variable {s t : State} (h : SameWork s t)
include h

theorem SameWork.ctx (g c : Nat) : t.ctx g c = s.ctx g c := congrArg (fun w : Work => Tab.look Ctx.reset w.ctxs c) (h.work g)

theorem SameWork.me : t.me = s.me := by rw [State.me, h.cur, h.ctx, State.me]

theorem SameWork.sameBytes : SameBytes s t := ⟨fun a => by rw [h.mem], fun g a => by rw [h.work g]⟩

end

theorem State.sameWork_setCore (s : State) (g : Nat) {k : Core} (h : k.work = s.work g) : SameWork s (s.setCore g k) := by
  refine ⟨rfl, rfl, rfl, rfl, fun j => ?_⟩
  rw [State.work_setCore]
  split
  · next hj => rw [h, hj]
  · rfl

theorem State.sameWork_served (s : State) (pa t cost : Nat) : SameWork s (s.served pa t cost) := by
  have hweir : ∀ w, SameWork s (s.setWeir pa w) := by
    intro w
    unfold State.setWeir
    split
    case h_1 | h_2 | h_3 => exact s.sameWork_setCore _ rfl
    all_goals exact ⟨rfl, rfl, rfl, rfl, fun _ => rfl⟩
  unfold State.served
  split
  · exact (hweir _).trans ⟨rfl, rfl, rfl, rfl, fun _ => rfl⟩
  · exact .refl s

theorem State.sameWork_chargeWalk (s : State) (g : Nat) (va : Word) : SameWork s (s.chargeWalk g va) := by
  unfold State.chargeWalk
  generalize s.walkReads g va = l
  suffices ∀ u, SameWork s u → SameWork s (l.foldl (fun u pa => u.served pa (s.tag g) 1) u) from this s (.refl s)
  induction l with
  | nil => exact fun _ hu => hu
  | cons pa l ih => exact fun u hu => ih _ (hu.trans (u.sameWork_served ..))

theorem State.sameWork_fillTlb (s : State) (g : Nat) (k : Access) (e : TlbEntry) : SameWork s (s.fillTlb g k e) := by
  have hcore := s.sameWork_setCore g (k := if k = .fetch then { s.core g with itlb := tlbAdd 32 (s.core g).itlb e }
    else { s.core g with dtlb := tlbAdd 64 (s.core g).dtlb e }) (by split <;> rfl)
  exact hcore.trans ⟨rfl, rfl, rfl, rfl, fun _ => rfl⟩

theorem State.sameWork_translate (s : State) (g : Nat) (user : Bool) (va : Word) (k : Access) : SameWork s (s.translate g user va k).1 := by
  unfold State.translate
  dsimp only
  split
  · exact .refl s
  · split
    · exact s.sameWork_chargeWalk ..
    · exact (s.sameWork_chargeWalk ..).trans (State.sameWork_fillTlb ..)

theorem State.sameWork_globalAccess (s : State) (g c : Nat) (va : Word) (k : Access) (size : Nat) (scalar fadd : Bool) :
    SameWork s (s.globalAccess g c va k size scalar fadd).1 := by
  have ht := s.sameWork_translate g (!(s.ctx g c).sup) va k
  unfold State.globalAccess
  dsimp only
  split
  · split <;> exact ht
  · generalize unaligned va size ++ _ = cs
    split <;> exact ht

/-! ### Scalar accesses (R229, R232, R233) -/

section
variable {s t : State} {va : Word} {k : Access} {size pa : Nat} {fadd : Bool} {go : State → Nat → State}

theorem GlobalAt.sameWork (h : GlobalAt s va k size fadd t pa) : SameWork s t := by
  have hkept := s.sameWork_globalAccess s.cur.1 s.cur.2 va k size true fadd
  rwa [h] at hkept

theorem State.scalarGlobal_goes (h : GlobalAt s va k size fadd t pa) (hroom : s.requestRoom s.cur.1 = true) :
    s.scalarGlobal va k size fadd go = go t pa := by
  rw [GlobalAt] at h
  simp only [State.scalarGlobal, h, hroom, if_true]

theorem State.scalarGlobal_waits (h : GlobalAt s va k size fadd t pa) (hroom : ¬ s.requestRoom s.cur.1 = true) :
    s.scalarGlobal va k size fadd go = s.hold (.blocked .sendQueue) := by
  rw [GlobalAt] at h
  simp only [State.scalarGlobal, h, hroom, if_false, Bool.false_eq_true]

theorem State.scalarGlobal_stops {e : Stop} (h : GlobalStops s va k size fadd t e) : s.scalarGlobal va k size fadd go = t.stop e := by
  rw [GlobalStops] at h
  simp only [State.scalarGlobal, h]

/-- An access off its multiple raises cause 0x06, whatever else its checks find (R227). -/
theorem State.globalStops_unaligned (hmis : va.toNat % size ≠ 0) :
    ∃ u cs w, GlobalStops s va k size fadd u (.fail (0x06 :: cs) w va) := by
  have hcause : unaligned va size = [0x06] := if_neg hmis
  simp only [GlobalStops, State.globalAccess, hcause]
  split
  · split
    · exact ⟨_, _, _, rfl⟩
    · exact ⟨_, _, _, rfl⟩
  · exact ⟨_, _, _, rfl⟩

theorem State.storeGlobal_plain (h : Plain s) (bs : List Byte) :
    s.storeGlobal va bs = s.scalarGlobal va .write bs.length false fun t pa => (t.sendStores [(pa, bs)]).retire 2 := by
  rw [Plain] at h
  simp only [State.storeGlobal, h]

theorem exec_stg_plain (hplain : Plain s) (z : BitVec 2) (d a : XReg) (o : BitVec 13) :
    exec (.stg z d a o) s = .next (s.scalarGlobal (s.x a + o.signExtend 64) .write (2 ^ z.toNat) false fun t pa =>
      (t.sendStores [(pa, bytesOfNat (2 ^ z.toNat) (s.x d).toNat)]).retire 2) := by
  refine congrArg Host.Outcome.next ((State.storeGlobal_plain hplain _).trans ?_)
  rw [length_bytesOfNat]

end

/-- The request of an AMO leaves, and its registers are owed (R232). -/
def State.amoSent (t : State) (pa : Nat) (f : BitVec 4) (size : Nat) (d b c : XReg) : State :=
  let u := t.send1 (newRequest t pa (.amo f size (t.amoOperand size b) (if f = 7 then t.amoOperand size c else 0)) (some d))
  u.setMe (u.me.owe t.nextId (amoDest size d))

theorem exec_amo {s : State} (h : s.speculative s.cur.1 s.cur.2 = false) (z : BitVec 2) (d a b c : XReg) :
    ∀ q ∈ [(Instr.amoAdd z d a b, (0 : BitVec 4), amoBytes z), (.amoMin z d a b, 1, amoBytes z), (.amoMax z d a b, 2, amoBytes z),
      (.amoAnd z d a b, 3, amoBytes z), (.amoOr z d a b, 4, amoBytes z), (.amoXor z d a b, 5, amoBytes z),
      (.amoSwap z d a b, 6, amoBytes z), (.amoCas z d a b c, 7, amoBytes z), (.amoFadd d a b, 8, 4)],
    exec q.1 s = .next (s.scalarGlobal (s.x a) .amo q.2.2 (q.2.1 == 8) fun t pa => (t.amoSent pa q.2.1 q.2.2 d b c).retire 2) := by
  have hsend : ∀ (f : BitVec 4) (n : Nat) (c : XReg), s.sendAmo f n d a b c
      = s.scalarGlobal (s.x a) .amo n (f == 8) fun t pa => (t.amoSent pa f n d b c).retire 2 := by
    intro f n c
    rw [State.sendAmo, State.whenSafe_of_not_speculative h]
    rfl
  simp only [List.forall_mem_cons, List.not_mem_nil, false_imp_iff, implies_true, and_true]
  exact ⟨congrArg _ (hsend 0 _ 0), congrArg _ (hsend 1 _ 0), congrArg _ (hsend 2 _ 0), congrArg _ (hsend 3 _ 0), congrArg _ (hsend 4 _ 0),
    congrArg _ (hsend 5 _ 0), congrArg _ (hsend 6 _ 0), congrArg _ (hsend 7 _ c), congrArg _ (hsend 8 _ 0)⟩

/-- Settles O23: the access is translated and checked first, and its request leaves with what it names. -/
theorem globalRequests : Obligations.GlobalRequests := by
  intro s t z d a b c sg o pa size va room
  refine ⟨fun hplain hat hroom => ?_, fun hplain hat hroom => ?_, fun hat hroom => ?_, fun hplain hat hroom => ?_, fun e hstop => ?_,
    fun e hplain hstop => ?_, fun k n f hmis => State.globalStops_unaligned hmis, fun hspec q hq => ⟨fun hat hroom => ?_, fun hat hroom => ?_,
    fun e hstop => ?_⟩⟩
  · refine congrArg Host.Outcome.next ((State.scalarGlobal_goes hat hroom).trans ?_)
    rw [State.covered_plain hplain]
    rfl
  · rw [exec_stg_plain hplain, State.scalarGlobal_goes hat hroom]
    rfl
  · exact congrArg Host.Outcome.next (State.scalarGlobal_waits hat hroom)
  · rw [Holds, exec_stg_plain hplain, State.scalarGlobal_waits hat hroom]
  · exact congrArg Host.Outcome.next (State.scalarGlobal_stops hstop)
  · rw [exec_stg_plain hplain, State.scalarGlobal_stops hstop]
  · rw [exec_amo hspec z d a b c q hq, State.scalarGlobal_goes hat hroom]
    rfl
  · rw [Holds, exec_amo hspec z d a b c q hq, State.scalarGlobal_waits hat hroom]
  · rw [exec_amo hspec z d a b c q hq, State.scalarGlobal_stops hstop]

/-! ### What a scalar access leaves alone at issue (R228) -/

/-- A machine that has sent a request: no byte differs, and of the executing context only what it is owed and awaits. -/
def SentBy (s t : State) : Prop :=
  SameBytes s t ∧ t.me = { s.me with owed := t.me.owed, acks := t.me.acks, amos := t.me.amos }

theorem State.me_enqueue (s : State) (g : Nat) (e : SendEntry) : (s.enqueue g e).me = s.me := s.ctx_enqueue g e ..

theorem State.sameBytes_enqueue (s : State) (g : Nat) (e : SendEntry) : SameBytes s (s.enqueue g e) := by
  refine ⟨fun _ => rfl, fun j a => ?_⟩
  rw [State.enqueue, State.work_setWork]
  split
  · next hj => rw [hj]
  · rfl

theorem SameBytes.trans {s t u : State} (h : SameBytes s t) (h' : SameBytes t u) : SameBytes s u :=
  ⟨fun a => (h'.1 a).trans (h.1 a), fun g a => (h'.2 g a).trans (h.2 g a)⟩

section
variable {s t : State}

theorem SentBy.retire (h : SentBy s t) (harm : s.me.stepArm = false) (len : Nat) :
    SameBytes s (t.retire len)
    ∧ SameButFlow { s.me with owed := (t.retire len).me.owed, acks := (t.retire len).me.acks, amos := (t.retire len).me.amos }
      (t.retire len).me := by
  obtain ⟨hbytes, hme⟩ := h
  have hretire : t.retire len = t.setMe (t.me.retired len) := State.retire_eq _ _ (by rw [hme]; exact harm)
  rw [hretire, State.me_setMe]
  refine ⟨hbytes.trans (sameBytes_setMe ..), ?_⟩
  have hflow := t.me.retired_sameButFlow len
  rw [hme] at hflow ⊢
  exact hflow

theorem sentBy_owe (h : SameWork s t) (r : MemReq) (n : Nat) (ds : List XReg) :
    SentBy s ((t.send1 r).setMe ((t.send1 r).me.owe n ds)) := by
  have hsent : (t.send1 r).me = s.me := (State.me_enqueue ..).trans h.me
  refine ⟨(h.sameBytes.trans (State.sameBytes_enqueue t.fresh ..)).trans (sameBytes_setMe ..), ?_⟩
  rw [State.me_setMe, hsent]
  rfl

theorem sentBy_sendStores (h : SameWork s t) (ws : List (Nat × List Byte)) : SentBy s (t.sendStores ws) := by
  let rs := t.storeReqs t.nextId ws
  let u : State := { t with nextId := t.nextId + rs.length }
  have hbytes : SameBytes s u := h.sameBytes
  refine ⟨(hbytes.trans (sameBytes_setMe u _)).trans (State.sameBytes_enqueue ..), ?_⟩
  have hme : (t.sendStores ws).me = { u.me with acks := u.me.acks ++ rs.map fun r => r.id } :=
    (State.me_enqueue ..).trans (u.me_setMe _)
  have hu : u.me = s.me := h.me
  rw [hme, hu]

end

/-- Settles O24: an access leaves as a request, and retiring changes the flow of control. -/
theorem globalIssueFrame : Obligations.GlobalIssueFrame := by
  intro s t z d a b c sg o pa harm hroom hplain hspec va frame
  have hframe : ∀ {i : Instr} {u : State}, exec i s = .next (u.retire 2) → SentBy s u → frame i := fun hi hu =>
    ⟨_, hi, hu.retire harm 2⟩
  have hamo := fun q hq (hat : GlobalAt s (s.x a) .amo q.2.2 (q.2.1 == 8) t pa) =>
    hframe ((exec_amo hspec z d a b c q hq).trans (congrArg _ (State.scalarGlobal_goes hat hroom))) (sentBy_owe hat.sameWork ..)
  simp only [List.forall_mem_cons, List.not_mem_nil, false_imp_iff, implies_true, and_true] at hamo ⊢
  obtain ⟨h0, h1, h2, h3, h4, h5, h6, h7, h8⟩ := hamo
  refine ⟨fun hat => ?_, fun hat => ?_, fun hat => ⟨h0 hat, h1 hat, h2 hat, h3 hat, h4 hat, h5 hat, h6 hat, h7 hat⟩, h8⟩
  · exact hframe (congrArg Host.Outcome.next (State.scalarGlobal_goes hat hroom)) (sentBy_owe hat.sameWork ..)
  · exact hframe ((exec_stg_plain hplain ..).trans (congrArg _ (State.scalarGlobal_goes hat hroom))) (sentBy_sendStores hat.sameWork _)

end Sys2Proof.Machine
end

section
/-! Accesses at their homes (O25). -/

namespace Sys2Proof.Machine

/-! ### Bytes and signs -/

theorem bytesOfNat_natOfBytes {bs : List Byte} {n : Nat} (h : bs.length = n) : bytesOfNat n (natOfBytes bs) = bs := by
  subst h
  induction bs with
  | nil => rfl
  | cons b r ih =>
    have hb := b.isLt
    have hdiv : (b.toNat + 256 * natOfBytes r) / 256 = natOfBytes r := by omega
    simp only [List.length_cons, natOfBytes, bytesOfNat, hdiv, ih, List.cons.injEq, and_true]
    apply BitVec.eq_of_toNat_eq
    rw [BitVec.toNat_ofNat]
    omega

theorem length_bytes (m : Memory) (a n : Nat) : (m.bytes a n).length = n := by
  induction n generalizing a with
  | zero => rfl
  | succ n ih => simp [Memory.bytes, ih]

/-! ### Service at the agent (R353) -/

theorem State.sameWork_setDebug (s : State) (g : Nat) (d : Debug) : SameWork s (s.setDebug g d) := s.sameWork_setCore g rfl

theorem State.sameWork_waitSampled (s : State) (r : MemReq) : SameWork s (s.waitSampled r) := by
  unfold State.waitSampled
  split
  · unfold State.sampled
    dsimp only
    split
    · exact .refl s
    · exact s.sameWork_setDebug ..
  · exact .refl s

/-- A request that is answered: its answer is on the way. -/
def State.reqAnswered (s : State) (k : Nat) (a : MemReply) : State :=
  { s with net := { s.net with reqs := Tab.drop s.net.reqs k, replies := Tab.put s.net.replies k a } }

/-- A request that is sent again after 512 cycles of its sender (R357). -/
def State.resentReq (s : State) (k : Nat) (r : MemReq) : State :=
  { s with net := { s.net with reqs := Tab.drop s.net.reqs k, retries := Tab.put s.net.retries k (s.cycle r.g + 512, .mem [r]) } }

section
variable {s : State} {k : Nat} {r : MemReq} (hr : Tab.find s.net.reqs k = some r) (hfirst : s.firstToHome k r = true)
include hr

theorem execMemoryAccess_off (hoff : s.homeOff r.pa = true) : exec (.memoryAccess k) s = .next s := by
  show execMemoryAccess k s = _
  simp [execMemoryAccess, hr, hoff]

include hfirst

theorem execMemoryAccess_turned (hoff : s.homeOff r.pa = false) (hturn : (s.homeAway r.g r.pa || s.homeBusy r.pa) = true) :
    exec (.memoryAccess k) s = .next (s.resentReq k r) := by
  show execMemoryAccess k s = _
  simp only [execMemoryAccess, hr, hfirst, hoff, hturn]
  rfl

theorem execMemoryAccess_waits (hoff : s.homeOff r.pa = false) (hturn : (s.homeAway r.g r.pa || s.homeBusy r.pa) = false)
    (hits : s.itsTurn k r = false) : exec (.memoryAccess k) s = .next s := by
  show execMemoryAccess k s = _
  simp only [execMemoryAccess, hr, hfirst, hoff, hturn, hits]
  rfl

/-- What a served request leaves: the state after the access at its home, and the answer on its way. -/
theorem execMemoryAccess_serves (hoff : s.homeOff r.pa = false) (hturn : (s.homeAway r.g r.pa || s.homeBusy r.pa) = false)
    (hits : s.itsTurn k r = true) :
    ∃ t, exec (.memoryAccess k) s = .next t ∧ SameWork ((s.serveReq r).1.reqAnswered k (s.serveReq r).2) t := by
  refine ⟨(((s.serveReq r).1.reqAnswered k (s.serveReq r).2).served r.pa (s.tag r.g) r.cost).waitSampled r, ?_,
    (State.sameWork_served ..).trans (State.sameWork_waitSampled ..)⟩
  show execMemoryAccess k s = _
  simp only [execMemoryAccess, hr, hfirst, hoff, hturn, hits]
  rfl

end

section
variable {s t : State} {k : Nat} {a : MemReply} (h : SameWork (s.reqAnswered k a) t)
include h

theorem SameWork.answered_reqs : Tab.find t.net.reqs k = none := by
  rw [h.net]
  exact (Tab.find_drop ..).trans (if_pos rfl)

theorem SameWork.answered_replies : Tab.find t.net.replies k = some a := by
  rw [h.net]
  exact (Tab.find_put ..).trans (if_pos rfl)

end

/-! ### A home in user vault memory (R225, R228) -/

section
variable {s : State} {r : MemReq} {h off : Nat} (hhome : homeOf r.pa = .vault h off)
include hhome

theorem State.not_turned_of_vault (s : State) (g : Nat) : (s.homeAway g r.pa || s.homeBusy r.pa) = false := by
  simp [State.homeAway, State.homeAwayFor, State.homeBusy, hhome]

theorem State.serveReq_of_vault (s : State) : s.serveReq r = s.perform r := by
  simp [State.serveReq, State.reaches, hhome]

theorem State.homeLoad_of_vault (n : Nat) : s.homeLoad r.pa n = s.mem.bytes r.pa n := by
  simp [State.homeLoad, State.readPhys, hhome]

theorem State.writePhys_of_vault (bs : List Byte) : s.writePhys r.pa bs = { s with mem := s.mem.store r.pa bs } := by
  simp [State.writePhys, hhome]

theorem State.homeStore_of_vault (bs : List Byte) : s.homeStore r.pa bs = ({ s with mem := s.mem.store r.pa bs }, true) := by
  simp [State.homeStore, State.storeFails, hhome, State.writePhys_of_vault hhome]

theorem State.physPoison_of_vault (hpoison : s.poison = []) (n : Nat) : s.physPoison r.pa n = false := by
  simp [State.physPoison, hhome, hpoison]

theorem State.perform_load_of_vault (hpoison : s.poison = []) {n : Nat} {sg : Bool} (hop : r.op = .load n sg) :
    s.perform r = (s, ⟨r, s.mem.bytes r.pa n, true, false⟩) := by
  rw [State.perform, hop]
  dsimp only
  rw [State.homeLoad_of_vault hhome, State.physPoison_of_vault hhome hpoison]

theorem State.perform_store_of_vault {bs : List Byte} (hop : r.op = .store bs) :
    s.perform r = ({ s with mem := s.mem.store r.pa bs }, ⟨r, [], true, false⟩) := by
  rw [State.perform, hop]
  dsimp only
  rw [State.homeStore_of_vault hhome]

theorem State.perform_amo_of_vault (hpoison : s.poison = []) {f : BitVec 4} {n b c : Nat} (hop : r.op = .amo f n b c) :
    s.perform r = ({ s with mem := s.mem.store r.pa (bytesOfNat n (amoResult f n (natOfBytes (s.mem.bytes r.pa n)) b c)) },
      ⟨r, s.mem.bytes r.pa n, true, false⟩) := by
  have hold : bytesOfNat n (natOfBytes (s.mem.bytes r.pa n)) = s.mem.bytes r.pa n := bytesOfNat_natOfBytes (length_bytes ..)
  rw [State.perform, hop]
  dsimp only
  rw [State.homeLoad_of_vault hhome, State.physPoison_of_vault hhome hpoison, if_neg Bool.false_ne_true, State.writePhys_of_vault hhome, hold]

end

/-! ### Functions of the AMOs (R30, R232) -/

theorem toSigned_amoMin (size old b c : Nat) :
    toSigned (8 * size) (amoResult 1 size old b c) = min (toSigned (8 * size) old) (toSigned (8 * size) b) := by
  have hdef : amoResult 1 size old b c = if toSigned (8 * size) b < toSigned (8 * size) old then b else old := rfl
  rw [hdef]
  split <;> omega

theorem toSigned_amoMax (size old b c : Nat) :
    toSigned (8 * size) (amoResult 2 size old b c) = max (toSigned (8 * size) old) (toSigned (8 * size) b) := by
  have hdef : amoResult 2 size old b c = if toSigned (8 * size) old < toSigned (8 * size) b then b else old := rfl
  rw [hdef]
  split <;> omega

/-- Settles O25: a request waits, is turned away, or is served, and then it is answered with what its home did. -/
theorem homeAccess : Obligations.HomeAccess := by
  refine ⟨fun s k r hr hfirst hwf => ⟨execMemoryAccess_off hr, ?_⟩, fun size old b c _ _ =>
    ⟨rfl, toSigned_amoMin size old b c, toSigned_amoMax size old b c, rfl, rfl, rfl, rfl, rfl⟩⟩
  intro hoff turned
  refine ⟨fun h off hhome hpoison hits => ?_, execMemoryAccess_waits hr hfirst hoff, fun hturn hits hreach => ?_, fun hturn => ?_⟩
  · obtain ⟨t, ht, hsame⟩ := execMemoryAccess_serves hr hfirst hoff (State.not_turned_of_vault hhome s r.g) hits
    rw [State.serveReq_of_vault hhome] at hsame
    refine ⟨t, ht, hsame.answered_reqs, fun hop g a => ?_, fun ps hop a => ?_, fun n sg hop => ?_, fun bs hop => ?_, fun f n b c hop => ?_⟩
    · have hspad := congrArg (fun w : Work => w.spad.get a) (hsame.work g)
      obtain ⟨n, sg, hop⟩ | ⟨bs, hop⟩ | ⟨f, n, b, c, hop⟩ | ⟨ps, hop⟩ := hop
      · rwa [State.perform_load_of_vault hhome hpoison hop] at hspad
      · rwa [State.perform_store_of_vault hhome hop] at hspad
      · rwa [State.perform_amo_of_vault hhome hpoison hop] at hspad
      · rwa [State.perform, hop] at hspad
    · rw [State.perform, hop] at hsame
      exact congrArg (Memory.get · a) hsame.mem
    · rw [State.perform_load_of_vault hhome hpoison hop] at hsame
      exact ⟨hsame.answered_replies, fun a => congrArg (Memory.get · a) hsame.mem⟩
    · rw [State.perform_store_of_vault hhome hop] at hsame
      refine ⟨hsame.answered_replies, fun a => ?_⟩
      rw [hsame.mem]
      exact Memory.get_store _ _ _ hwf
    · rw [State.perform_amo_of_vault hhome hpoison hop] at hsame
      refine ⟨hsame.answered_replies, fun a => ?_⟩
      rw [hsame.mem]
      refine (Memory.get_store _ _ _ hwf).trans ?_
      rw [length_bytesOfNat]
  · obtain ⟨t, ht, hsame⟩ := execMemoryAccess_serves hr hfirst hoff hturn hits
    have hserve : s.serveReq r = (s, r.failure) := by simp [State.serveReq, hreach]
    rw [hserve] at hsame
    have hanswer := hsame.answered_replies
    refine ⟨t, ht, hsame.sameBytes, hsame.answered_reqs, fun n sg hop => ?_, fun bs hop => ?_, fun f n b c hop => ?_⟩
    all_goals rwa [MemReq.failure, hop] at hanswer
  · exact ⟨_, execMemoryAccess_turned hr hfirst hoff hturn, ⟨fun _ => rfl, fun _ _ => rfl⟩, (Tab.find_drop ..).trans (if_pos rfl),
      (Tab.find_put ..).trans (if_pos rfl)⟩

end Sys2Proof.Machine
end

section
/-! Eviction, images and restores (O58). -/

namespace Sys2Proof.Machine

/-! ### Stores beside bytes that stay (R225) -/

namespace Memory

/-- A memory in canonical form whose bytes at the addresses of p read as they did. -/
structure Leaves (p : Nat → Prop) (m m' : Memory) : Prop where
  wf : m'.wf = true
  get : ∀ b, p b → m'.get b = m.get b

/-- n bytes from address a on are none of the addresses of p. -/
def Apart (p : Nat → Prop) (a n : Nat) : Prop := ∀ b, p b → b < a ∨ a + n ≤ b

variable {p : Nat → Prop} {m m' : Memory} {a n : Nat}

theorem Leaves.refl (h : m.wf = true) : Leaves p m m := ⟨h, fun _ _ => rfl⟩

theorem foldl_set_get_other {α : Type} (f : α → Nat × Byte) (l : List α) {b : Nat} {m : Memory} (hm : m.wf = true)
    (h : ∀ e ∈ l, (f e).1 ≠ b) : (l.foldl (fun m e => m.set (f e).1 (f e).2) m).get b = m.get b := by
  induction l generalizing m with
  | nil => rfl
  | cons e l ih =>
    obtain ⟨he, hl⟩ := List.forall_mem_cons.1 h
    rw [List.foldl_cons, ih (wf_set _ _ hm) hl, get_set _ _ _ hm, if_neg he.symm]

theorem get_lay_outside {b : Nat} {bs : List Byte} (hm : m.wf = true) (hb : b < a ∨ a + bs.length ≤ b) :
    (m.lay a bs).get b = m.get b := by
  have hset := foldl_set_get_other (fun e : Byte × Nat => (a + e.2, e.1)) (bs.zipIdx.filter fun e => e.1 != 0) (b := b)
    (wf_clear a bs.length hm) ?_
  · exact hset.trans ((get_clear a bs.length b hm).trans (if_neg (by omega)))
  · rintro ⟨v, i⟩ he
    have hi := (List.mem_zipIdx (List.mem_of_mem_filter he)).2.1
    dsimp only
    omega

variable (h : Leaves p m m')
include h

theorem Leaves.clear (ha : Apart p a n) : Leaves p m (m'.clear a n) :=
  ⟨wf_clear _ _ h.wf, fun b hb => by
    have hout := ha b hb
    rw [get_clear _ _ _ h.wf, if_neg (by omega), h.get b hb]⟩

theorem Leaves.lay {bs : List Byte} (ha : Apart p a bs.length) : Leaves p m (m'.lay a bs) :=
  ⟨wf_lay _ _ h.wf, fun b hb => (get_lay_outside h.wf (ha b hb)).trans (h.get b hb)⟩

theorem Leaves.putWords {ws : List Word} (ha : Apart p a (8 * ws.length)) : Leaves p m (m'.putWords a ws) :=
  ⟨wf_putWords _ _ h.wf, fun b hb => (get_putWords_outside h.wf (ha b hb)).trans (h.get b hb)⟩

theorem Leaves.copyFrom (src : Memory) (o : Nat) (ha : Apart p a n) : Leaves p m (m'.copyFrom a src o n) := by
  refine ⟨wf_copyFrom _ _ _ _ h.wf, fun b hb => ?_⟩
  have hout := ha b hb
  have hset := foldl_set_get_other (fun e : Host.Cell => (a + (e.1 - o), e.2)) (src.cells o n) (b := b) (wf_clear a n h.wf) ?_
  · exact hset.trans ((h.clear ha).get b hb)
  · intro e he
    have hin := (List.mem_filter.1 he).2
    simp only [Bool.and_eq_true, decide_eq_true_eq] at hin
    dsimp only
    omega

theorem Leaves.foldl {α : Type} {f : Memory → α → Memory} (l : List α) (hf : ∀ e ∈ l, ∀ m', Leaves p m m' → Leaves p m (f m' e)) :
    Leaves p m (l.foldl f m') := by
  induction l generalizing m' with
  | nil => exact h
  | cons e l ih =>
    obtain ⟨he, hl⟩ := List.forall_mem_cons.1 hf
    exact ih (he m' h) hl

end Memory

/-! ### The layout of an image (R357, R358) -/

theorem length_wordBytes (w : Word) : (wordBytes w).length = 8 := length_bytesOfNat ..

theorem length_flatMap_const {α β : Type} {f : α → List β} {n : Nat} (h : ∀ a, (f a).length = n) (l : List α) :
    (l.flatMap f).length = n * l.length := by
  simp [List.length_flatMap, h, Nat.mul_comm]

theorem DequeEntry.length_bytes (e : DequeEntry) : e.bytes.length = 128 := by
  simp [DequeEntry.bytes, length_wordBytes, length_bytesOfNat, List.length_flatMap]

theorem Work.arrays_tail (w : Work) : ∀ e ∈ w.arrays.tail, 0xE5000 ≤ e.1 ∧ e.1 + e.2.2.2 ≤ 0x150000 := by
  simp only [Work.arrays, List.cons_append, List.tail_cons, List.nil_append, List.forall_mem_cons, List.forall_mem_map, List.mem_range]
  refine ⟨by decide, by decide, by decide, by decide, by decide, fun t ht => ?_⟩
  omega

/-- The lists of a core's work that an image writes have the sizes of their hardware. -/
structure Work.Bounded (w : Work) : Prop where
  cells : ∀ e ∈ w.cells, e.1 < 64 ∧ ∀ x, e.2.reply = some x → x.payload.length ≤ 96
  ejection : (w.ejection.flatMap fun x => x.headBytes ++ x.payload).length ≤ 57344
  deque : w.deque.length ≤ 64
  lps : w.lps.length ≤ 16
  queues : ([Queue.qc0, .qc1, .qg, .qm].flatMap w.queue).length ≤ 128

section
variable {w : Work} {a : Nat} {p : Nat → Prop} {m m' : Memory}
  (hp : ∀ b, p b → b < a + 0xE5000 ∨ a + 0x150000 ≤ b ∧ w.Bounded) (h : Memory.Leaves p m m')
include hp

theorem Work.apart_fixed {o n : Nat} (ho : 0xE5000 ≤ o) (hn : o + n ≤ 0x150000) : Memory.Apart p (a + o) n := by
  intro b hb
  have := hp b hb
  omega

theorem Work.apart_bounded {o n : Nat} (ho : 0xE5000 ≤ o) (hn : w.Bounded → o + n ≤ 0x150000) : Memory.Apart p (a + o) n := by
  intro b hb
  obtain hb | ⟨hb, hw⟩ := hp b hb
  · omega
  · have := hn hw
    omega

include h

theorem Work.leaves_layTables : Memory.Leaves p m (w.layTables a m') := by
  unfold Work.layTables
  dsimp only
  refine ((((((h.clear ?_).putWords ?_).putWords ?_).lay ?_).putWords ?_).putWords ?_)
  · exact Work.apart_fixed hp (by decide) (by decide)
  · exact Work.apart_fixed hp (by decide) (by simp [Work.ctlWords])
  · exact Work.apart_fixed hp (by decide) (by rw [length_flatMap_const (n := 2) fun _ => rfl]; decide)
  · refine Work.apart_bounded hp (by decide) fun hw => ?_
    have := hw.deque
    rw [length_flatMap_const DequeEntry.length_bytes]
    omega
  · refine Work.apart_bounded hp (by decide) fun hw => ?_
    have := hw.queues
    rw [length_flatMap_const (n := 4) fun _ => rfl]
    omega
  · refine Work.apart_bounded hp (by decide) fun hw => ?_
    have := hw.lps
    rw [length_flatMap_const (n := 5) fun _ => rfl]
    omega

theorem Work.leaves_layMessages : Memory.Leaves p m (w.layMessages a m') := by
  unfold Work.layMessages
  dsimp only
  refine (h.foldl _ fun e he m'' h' => ?_).lay ?_
  · split
    · next r hr =>
      refine h'.lay ?_
      rw [Nat.add_assoc]
      refine Work.apart_bounded hp (by omega) fun hw => ?_
      obtain ⟨hplace, hreply⟩ := hw.cells e he
      have := hreply r hr
      rw [List.length_append, Msg.length_headBytes]
      omega
    · exact h'
  · refine Work.apart_bounded hp (by decide) fun hw => ?_
    have := hw.ejection
    omega

omit h

/-- Laying an image out changes, once its scratchpad is written, nothing below its matrix engine and nothing behind its area. -/
theorem Work.leaves_layOut (h : Memory.Leaves p m (m'.copyFrom (a + 0x65000) w.spad 0 0x80000)) : Memory.Leaves p m (w.layOut a m') := by
  unfold Work.layOut
  dsimp only
  refine Work.leaves_layMessages hp (Work.leaves_layTables hp (Memory.Leaves.putWords ?_
    (Work.apart_fixed hp (by decide) (by simp [Matrix.words]))))
  have hcons : w.arrays = (0x65000, w.spad, 0, 0x80000) :: w.arrays.tail := rfl
  rw [hcons, List.foldl_cons]
  refine h.foldl _ fun e he m'' h' => h'.copyFrom _ _ ?_
  obtain ⟨hlow, hhigh⟩ := w.arrays_tail e he
  exact Work.apart_fixed hp hlow hhigh

end

end Sys2Proof.Machine
end

section
/-! The steps of eviction and restore (O58). -/

namespace Sys2Proof.Machine

/-- A read-back scratchpad is the one that was laid out; below it nothing is written (R357, R360). -/
theorem Work.spad_readBack_layOut (w : Work) {m : Memory} (a n : Nat) {o : Nat} (hm : m.wf = true) (hspad : w.spad.wf = true)
    (ho : o < 0x80000) : (w.stripped.readBack (w.layOut a m) a n).spad.get o = w.spad.get o := by
  let m1 := m.copyFrom (a + 0x65000) w.spad 0 0x80000
  have hm1 : m1.wf = true := Memory.wf_copyFrom _ _ _ _ hm
  have hkept := Work.leaves_layOut (w := w) (a := a) (p := fun b => b < a + 0xE5000) (m := m1) (m' := m) (fun b hb => .inl hb) (.refl hm1)
  have hback : (w.stripped.readBack (w.layOut a m) a n).spad.get o = (w.layOut a m).get (a + 0x65000 + o) := by
    refine (Memory.get_copyFrom (m := []) 0 (a + 0x65000) 0x80000 o rfl hkept.wf).trans ?_
    rw [if_pos ⟨Nat.zero_le _, by omega⟩, Nat.sub_zero]
  rw [hback, hkept.get _ (by omega), Memory.get_copyFrom _ _ _ _ hm hspad, if_pos ⟨by omega, by omega⟩, Nat.add_sub_cancel_left, Nat.zero_add]

theorem Work.get_layOut_below (w : Work) {m : Memory} {a b : Nat} (hm : m.wf = true) (hb : b < a + 0x65000) :
    (w.layOut a m).get b = m.get b := by
  refine (Work.leaves_layOut (p := fun b => b < a + 0x65000) (fun b hb => ?_) ((Memory.Leaves.refl hm).copyFrom _ _ ?_)).get b hb
  · omega
  · exact fun b hb => .inl hb

theorem Work.get_layOut_above (w : Work) {m : Memory} {a b : Nat} (hm : m.wf = true) (hw : w.Bounded) (hb : a + 0x150000 ≤ b) :
    (w.layOut a m).get b = m.get b := by
  refine (Work.leaves_layOut (p := fun b => a + 0x150000 ≤ b) (fun b hb => .inr ⟨hb, hw⟩) ((Memory.Leaves.refl hm).copyFrom _ _ ?_)).get b hb
  intro b hb
  omega

/-! ### EVICTION and EVICT_ROUTINE_TIMEOUT (R357) -/

section
variable {s : State} {g : Nat}

theorem exec_eviction_asks (hev : (s.core g).evicting = none) (hcan : s.canEvict g = true) :
    exec (.eviction g) s = .next (s.setCore g { s.core g with evicting := some .stopping }) := by
  show execEviction g s = _
  simp only [execEviction, hev, hcan]
  rfl

section
variable (hev : (s.core g).evicting = some .stopping) (hstop : s.stopped g = true) (hhalt : (s.cluster g).halted = false)
  (htest : (s.cluster g).ftest.getLsbD 0 = false)
include hev hstop hhalt htest

theorem exec_eviction_images (hvec : (s.part (s.tag g)).evictvec = 0) :
    exec (.eviction g) s = .next ((s.ctxsOut g (s.core g).work.stopEngines).imaged g (s.core g).work.stopEngines none) := by
  show execEviction g s = _
  simp only [execEviction, hev, hstop, hhalt, htest, hvec]
  rfl

theorem exec_eviction_routine (hvec : (s.part (s.tag g)).evictvec ≠ 0) :
    exec (.eviction g) s = .next ((s.ctxsOut g (s.core g).work.stopEngines).setCore g { s.core g with
      work := { (s.core g).work.stopEngines.bare with ctxs := [(0, routineCtx (s.part (s.tag g)).evictvec (s.cycle g))] },
      evicting := some (.routine (s.cycle g) (s.core g).work.stopEngines.aside) }) := by
  show execEviction g s = _
  simp only [execEviction, hev, hstop, hhalt, htest, hvec]
  rfl

end

section
variable {n : Nat} {w : Work} (hev : (s.core g).evicting = some (.routine n w)) (hway : s.onWay g = false)
include hev hway

theorem exec_eviction_ends (hfree : (s.ctx g 0).role = .free) :
    exec (.eviction g) s = .next (s.imaged g (w.withRoutine (s.core g).work) none) := by
  show execEviction g s = _
  simp only [execEviction, hev, hfree, hway]
  rfl

theorem exec_evictRoutineTimeout (htime : n + 8192 ≤ s.cycle g) :
    exec (.evictRoutineTimeout g) s = .next (s.imaged g (w.withRoutine (s.core g).work) (some (s.ctx g 0))) := by
  show execEvictRoutineTimeout g s = _
  simp only [execEvictRoutineTimeout, hev, hway, decide_eq_false (Nat.not_lt.2 htime)]
  rfl

end

/-! ### The image of a core (R357) -/

theorem State.core_saveCounters (s : State) (t h : Nat) : (s.saveCounters t).1.core h = s.core h := rfl

/-- The image that is made of core g with the work w. -/
def State.imageFor (s : State) (g : Nat) (w : Work) (left : Option Ctx) : Image :=
  ⟨(s.core g).ptag, w.stripped, left, s.cycle g, [], w.ejection.foldl (fun n m => n + m.areaBytes) 0, false,
    (if s.isDispatch g then some (s.saveCounters (s.core g).ptag.toNat).2 else none)⟩

/-- The core is empty and keeps the image that was made of it, under a header in the memory as it then is. -/
theorem State.imaged_eq (s : State) (g : Nat) (w : Work) (left : Option Ctx) (hm : s.mem.wf = true) :
    ∃ u : State, s.imaged g w left = u.shadowHeader g (s.imageFor g w left) ∧ u.mem.wf = true
      ∧ u.core g = { s.core g with work := Work.reset, image := some (s.imageFor g w left), evicting := none } := by
  have hsaved : ∀ (l : Tab Word) {m : Memory}, m.wf = true →
      (l.foldl (fun m e => m.putWord (vaultAddr g shadowBase + 0x13FFC0 + 8 * e.1) e.2) (w.layOut (vaultAddr g shadowBase) m)).wf = true :=
    fun l m hm => Memory.foldl_wf (fun _ _ hm => Memory.wf_putWord _ _ hm) _ (w.layOut_wf _ hm)
  unfold State.imaged State.imageFor
  dsimp only
  split
  · exact ⟨_, rfl, hsaved _ hm, by simp [State.core, State.setCore]⟩
  · exact ⟨_, rfl, hsaved _ hm, by simp [State.core, State.setCore]⟩

theorem State.core_withMem (s : State) (m : Memory) (h : Nat) : ({ s with mem := m } : State).core h = s.core h := rfl

theorem State.core_shadowHeader (s : State) (g : Nat) (i : Image) (h : Nat) : (s.shadowHeader g i).core h = s.core h := by
  unfold State.shadowHeader
  exact s.core_withMem _ h

/-- The first doublewords of a header, with more of them written from 0x800 bytes on. -/
theorem Memory.word_header {m : Memory} (h : m.wf = true) (a : Nat) (v w x y : Word) (ts : List Word) :
    ((m.putWords a [v, w, x, y]).putWords (a + 0x800) ts).word a = v
    ∧ ((m.putWords a [v, w, x, y]).putWords (a + 0x800) ts).word (a + 8) = w := by
  have hplace : ∀ (k : Nat) (hk : k < [v, w, x, y].length),
      ((m.putWords a [v, w, x, y]).putWords (a + 0x800) ts).word (a + 8 * k) = [v, w, x, y][k] := by
    intro k hk
    rw [← Memory.word_putWords h hk]
    refine Memory.word_congr fun i hi => Memory.get_putWords_below _ (Memory.wf_putWords _ _ h) ?_
    simp only [List.length_cons, List.length_nil] at hk
    omega
  exact ⟨hplace 0 (by simp), hplace 1 (by simp)⟩

/-- The header of an image names its owner and the CYCLE at which it was made. -/
theorem State.word_shadowHeader (s : State) (g : Nat) (i : Image) (h : s.mem.wf = true) :
    (s.shadowHeader g i).mem.word (vaultAddr g shadowBase) = i.tag.setWidth 64
    ∧ (s.shadowHeader g i).mem.word (vaultAddr g shadowBase + 8) = BitVec.ofNat 64 i.cycle := by
  unfold State.shadowHeader
  dsimp only
  exact Memory.word_header h _ _ _ _ _ _

end

end Sys2Proof.Machine
end

section
/-! Restores and partition resets (O58). -/

namespace Sys2Proof.Machine

/-! ### RESTORE (R358, R360) -/

/-- A message of an image back on its way, as an answer or as a message. -/
def State.resend (s : State) (e : Nat × Msg) : State :=
  s.withNet fun n => if e.2.onReply then { n with answers := Tab.put n.answers e.1 e.2 } else { n with msgs := Tab.put n.msgs e.1 e.2 }

/-- Message e is on its way. -/
def State.Carries (s : State) (e : Nat × Msg) : Prop :=
  if e.2.onReply then Tab.find s.net.answers e.1 = some e.2 else Tab.find s.net.msgs e.1 = some e.2

theorem State.carries_resend (s : State) (e : Nat × Msg) : (s.resend e).Carries e := by
  unfold State.Carries State.resend State.withNet
  dsimp only
  split <;> simp [Tab.find_put]

theorem State.Carries.resend {s : State} {e : Nat × Msg} (h : s.Carries e) {f : Nat × Msg} (hne : e.1 ≠ f.1) : (s.resend f).Carries e := by
  unfold State.Carries at h ⊢
  have hfind : ∀ t : Tab Msg, Tab.find (Tab.put t f.1 f.2) e.1 = Tab.find t e.1 := fun t => (Tab.find_put ..).trans (if_neg hne)
  by_cases hf : f.2.onReply = true <;> simpa only [State.resend, State.withNet, hf, if_true, if_false, Bool.false_eq_true, hfind] using h

theorem State.Carries.foldl_resend {e : Nat × Msg} (l : List (Nat × Msg)) {s : State} (h : s.Carries e) (hnot : e.1 ∉ l.map fun e => e.1) :
    (l.foldl State.resend s).Carries e := by
  induction l generalizing s with
  | nil => exact h
  | cons f l ih =>
    obtain ⟨hf, hl⟩ := not_or.1 (mt List.mem_cons.2 hnot)
    exact ih (h.resend hf) hl

theorem State.carries_foldl_resend (l : List (Nat × Msg)) (s : State) (h : (l.map fun e => e.1).Nodup) :
    ∀ e ∈ l, (l.foldl State.resend s).Carries e := by
  induction l generalizing s with
  | nil => nofun
  | cons f l ih =>
    obtain ⟨hf, hl⟩ := List.nodup_cons.1 h
    exact List.forall_mem_cons.2 ⟨(s.carries_resend f).foldl_resend l hf, ih _ hl⟩

theorem State.carries_redeliver (s : State) (g : Nat) {ms : List (Nat × Msg)} (h : (ms.map fun e => e.1).Nodup) :
    ∀ e ∈ ms, (s.redeliver g ms).Carries e := State.carries_foldl_resend ms s h

theorem State.mem_redeliver (s : State) (g : Nat) (ms : List (Nat × Msg)) : ∀ e ∈ ms, e.1 ∈ ((s.redeliver g ms).work g).redeliver := by
  intro e he
  rw [State.redeliver, State.work_setWork, if_pos rfl]
  exact List.mem_eraseDups.2 (List.mem_append_right _ (List.mem_map_of_mem he))

/-- The machine once core g has its image back, before the saved messages are sent again. -/
def State.broughtBack (s : State) (g : Nat) (m : Image) : State :=
  let w0 := m.work.readBack s.mem (vaultAddr g Config.vaultUser) (s.cycle g)
  let w := if m.replay then w0.replayAll else w0
  let u := s.setCore g { s.core g with work := { w with flits := w.flits ++ (s.work g).flits }, ptag := m.tag, image := none, evicting := none }
  match m.counters with
  | some c => u.addCounters m.tag.toNat c
  | none => u

theorem exec_restore {s : State} {g : Nat} {m : Image} (hm : (s.core g).image = some m) (hvacated : s.vacated g m.tag.toNat = true)
    (hholds : s.holds m.tag.toNat g = true) (hev : (s.core g).evicting = none) (hhalt : (s.cluster g).halted = false)
    (htest : (s.cluster g).ftest.getLsbD 0 = false) (hcheck : (s.core g).dbg.checked = false) :
    exec (.restore g) s = .next ((s.broughtBack g m).redeliver g m.msgs) := by
  show execRestore g s = _
  simp only [execRestore, hm, hvacated, hholds, hev, hhalt, htest, hcheck]
  rfl

/-! ### PARTITION_RESET (R361) -/

/-- The registers and tables of a core's work that a reset keeps (R331). -/
def Work.kept (w : Work) : Tab Handler × Word × Memory × Matrix := (w.handlers, w.trapvec, w.tables, w.matrix)

/-- What a reset of core g leaves of the machine: its other cores, the registers of every partition, and of core g all but its work,
which keeps its handlers, its tables and its matrix engine. -/
structure OneReset (g : Nat) (s t : State) : Prop where
  parts : t.parts = s.parts
  other : ∀ h, h ≠ g → t.core h = s.core h
  rest : t.core g = { s.core g with work := t.work g }
  kept : (t.work g).kept = (s.work g).kept

namespace OneReset

variable {g : Nat} {s t u : State}

theorem refl (g : Nat) (s : State) : OneReset g s s := ⟨rfl, fun _ _ => rfl, rfl, rfl⟩

theorem trans (h : OneReset g s t) (h' : OneReset g t u) : OneReset g s u where
  parts := h'.parts.trans h.parts
  other j hj := (h'.other j hj).trans (h.other j hj)
  rest := by rw [h'.rest, h.rest]
  kept := h'.kept.trans h.kept

theorem setWork (s : State) (g : Nat) {w : Work} (hw : w.kept = (s.work g).kept) : OneReset g s (s.setWork g w) := by
  have hwork : (s.setWork g w).work g = w := (State.work_setWork ..).trans (if_pos rfl)
  refine ⟨rfl, fun j hj => (State.core_setWork ..).trans (if_neg hj), ?_, ?_⟩
  · rw [hwork]
    exact (State.core_setWork ..).trans (if_pos rfl)
  · rwa [hwork]

theorem setCtx (s : State) (g c : Nat) (k : Ctx) : OneReset g s (s.setCtx g c k) := setWork s g rfl

theorem foldl {α : Type} {f : State → α → State} (l : List α) (hf : ∀ s a, OneReset g s (f s a)) (s : State) :
    OneReset g s (l.foldl f s) := by
  induction l generalizing s with
  | nil => exact refl g s
  | cons a l ih => exact (hf s a).trans (ih _)

end OneReset

section
variable (s : State) (g : Nat)

theorem State.oneReset_dropMsg (u : CurMsg) : OneReset g s (s.dropMsg g u) := OneReset.setWork s g rfl

theorem State.oneReset_releaseCur (c : Nat) : OneReset g s (s.releaseCur g c) := by
  unfold State.releaseCur
  split
  · exact (s.oneReset_dropMsg g _).trans (OneReset.setCtx ..)
  · exact .refl g s

theorem State.oneReset_vacate (c : Nat) : OneReset g s (s.vacate g c) := by
  unfold State.vacate
  refine (s.oneReset_releaseCur g c).trans (.trans (OneReset.setWork _ g ?_) (OneReset.setCtx ..))
  cases ((s.releaseCur g c).ctx g c).slot <;> split <;> rfl

theorem State.oneReset_releaseFor (m : Msg) : OneReset g s (s.releaseFor g m) := by
  unfold State.releaseFor
  split
  · exact OneReset.setWork s g rfl
  · exact .refl g s

theorem State.oneReset_discardAll (ms : List Msg) : OneReset g s (s.discardAll g ms) :=
  OneReset.foldl ms (fun s m => s.oneReset_releaseFor g m) s

end

/-- The work of a core after the reset of its partition: nothing runs at it, and nothing waits for it (R361). -/
structure Work.Cleared (w : Work) : Prop where
  ctxs : w.ctxs = []
  power : w.power = 0
  queues : w.queues = []
  crews : w.crews = []
  grids : w.grids = []
  lps : w.lps = []
  swapped : w.swapped = []
  deque : w.deque = []
  spill : w.spill = []

theorem Work.cleared_afterReset (w : Work) (all : Bool) : (if all then w.afterReset.emptied else w.afterReset).Cleared := by
  split <;> exact ⟨rfl, rfl, rfl, rfl, rfl, rfl, rfl, rfl, rfl⟩

theorem Work.kept_afterReset (w : Work) (all : Bool) : (if all then w.afterReset.emptied else w.afterReset).kept = w.kept := by
  split <;> rfl

theorem State.oneReset_resetWork (s : State) (g : Nat) (all : Bool) : OneReset g s (s.resetWork g all) := by
  have hvacate : ∀ (s : State) (c : Nat), OneReset g s (if (s.ctx g c).role = .free then s else s.vacate g c) := by
    intro s c
    split
    · exact .refl g s
    · exact s.oneReset_vacate g c
  unfold State.resetWork
  exact ((OneReset.foldl _ hvacate s).trans (OneReset.foldl _ (fun s u => s.oneReset_dropMsg g u) _)).trans
    ((State.oneReset_discardAll ..).trans (OneReset.setWork _ g (Work.kept_afterReset ..)))

theorem State.cleared_resetWork (s : State) (g : Nat) (all : Bool) : ((s.resetWork g all).work g).Cleared := by
  unfold State.resetWork
  rw [State.work_setWork, if_pos rfl]
  exact Work.cleared_afterReset ..

/-- The marks of a core that is reset: one that machine-checked and has passed a self-test serves again. -/
def Debug.served (d : Debug) : Debug := if d.checked && d.passed then { d with checked := false, passed := false } else d

theorem State.resetCore_eq {s : State} {t g : Nat} (htag : s.tag g = t) (himage : s.imageOf t g = none)
    (hev : (s.core g).evicting = none) : s.resetCore t g = (s.setDebug g (s.core g).dbg.served).resetWork g (s.renumbers t) := by
  have htag' : ¬ (s.core g).ptag.toNat ≠ t := not_not_intro htag
  have hcore : ({ s.core g with work := s.work g, evicting := none, dbg := (s.core g).dbg.served } : Core)
      = { s.core g with dbg := (s.core g).dbg.served } := by
    rw [← hev]
    rfl
  have hset : s.resetCore t g = (s.setCore g { s.core g with
      work := s.work g, evicting := none, dbg := (s.core g).dbg.served }).resetWork g (s.renumbers t) := by
    simp only [State.resetCore, himage, hev, if_neg htag']
    rfl
  rw [hset, hcore]
  rfl

end Sys2Proof.Machine
end

section
/-! The reset of a partition (O58). -/

namespace Sys2Proof.Machine

/-- What the reset of core g leaves of the machine around it, whatever image or eviction it has: the other cores, and of every partition
the registers of its dispatch core. -/
structure ResetsAt (g : Nat) (s t : State) : Prop where
  other : ∀ h, h ≠ g → t.core h = s.core h
  journal : ∀ i, (t.part i).journal = (s.part i).journal
  evictvec : ∀ i, (t.part i).evictvec = (s.part i).evictvec

namespace ResetsAt

variable {g : Nat} {s t u : State}

theorem refl (g : Nat) (s : State) : ResetsAt g s s := ⟨fun _ _ => rfl, fun _ => rfl, fun _ => rfl⟩

theorem trans (h : ResetsAt g s t) (h' : ResetsAt g t u) : ResetsAt g s u :=
  ⟨fun j hj => (h'.other j hj).trans (h.other j hj), fun i => (h'.journal i).trans (h.journal i),
    fun i => (h'.evictvec i).trans (h.evictvec i)⟩

theorem setCore (s : State) (g : Nat) (k : Core) : ResetsAt g s (s.setCore g k) :=
  ⟨fun _ hj => (State.core_setCore ..).trans (if_neg hj), fun _ => rfl, fun _ => rfl⟩

theorem ofOneReset (h : OneReset g s t) : ResetsAt g s t := by
  have hpart : ∀ i, t.part i = s.part i := fun i => congrArg (fun p => Tab.look Partition.reset p i) h.parts
  exact ⟨h.other, fun i => by rw [hpart], fun i => by rw [hpart]⟩

end ResetsAt

theorem State.resetsAt_addCounters (s : State) (g t : Nat) (c : Tab Word) : ResetsAt g s (s.addCounters t c) := by
  have hpart : ∀ i, (s.addCounters t c).part i = if i = t then { s.part t with
      tencnt := c.foldl (fun l e => Tab.put l e.1 (Tab.look 0 l e.1 + e.2)) (s.part t).tencnt } else s.part i := fun i => Tab.look_put ..
  refine ⟨fun _ _ => rfl, fun i => ?_, fun i => ?_⟩
  all_goals
    rw [hpart]
    split
    · next hi => rw [hi]
    · rfl

theorem State.resetsAt_dropImage (s : State) (g : Nat) (i : Image) : ResetsAt g s (s.dropImage g i) := by
  unfold State.dropImage
  dsimp only
  have hheld := fun (s1 : State) (ms : List Msg) => ResetsAt.ofOneReset (s1.oneReset_discardAll g ms)
  split
  · exact ((ResetsAt.setCore s g _).trans (hheld _ _)).trans (State.resetsAt_addCounters ..)
  · exact (ResetsAt.setCore s g _).trans (hheld _ _)

theorem State.resetsAt_resetCore (s : State) (t g : Nat) : ResetsAt g s (s.resetCore t g) := by
  have hreset : ∀ {u : State}, ResetsAt g s u → ∀ k all, ResetsAt g s ((u.setCore g k).resetWork g all) := fun hu k all =>
    (hu.trans (ResetsAt.setCore _ g k)).trans (ResetsAt.ofOneReset (State.oneReset_resetWork ..))
  cases himage : s.imageOf t g with
  | none =>
    simp only [State.resetCore, himage]
    split
    · exact .refl g s
    · exact hreset (.refl g s) _ _
  | some i =>
    simp only [State.resetCore, himage]
    split
    · exact s.resetsAt_dropImage g i
    · exact hreset (s.resetsAt_dropImage g i) _ _

section
variable {t : Nat}

/-- The cores of a partition reset one after the other. -/
def State.resetCores (s : State) (t : Nat) (l : List Nat) : State := l.foldl (fun u g => u.resetCore t g) s

theorem State.core_resetCores_other (l : List Nat) (s : State) {h : Nat} (hh : h ∉ l) : (s.resetCores t l).core h = s.core h := by
  induction l generalizing s with
  | nil => rfl
  | cons g l ih =>
    obtain ⟨hg, hl⟩ := not_or.1 (mt List.mem_cons.2 hh)
    exact (ih _ hl).trans ((s.resetsAt_resetCore t g).other h hg)

theorem State.part_resetCores (l : List Nat) (s : State) (i : Nat) :
    ((s.resetCores t l).part i).journal = (s.part i).journal ∧ ((s.resetCores t l).part i).evictvec = (s.part i).evictvec := by
  induction l generalizing s with
  | nil => exact ⟨rfl, rfl⟩
  | cons g l ih =>
    obtain ⟨hjournal, hvec⟩ := ih (s.resetCore t g)
    exact ⟨hjournal.trans ((s.resetsAt_resetCore t g).journal i), hvec.trans ((s.resetsAt_resetCore t g).evictvec i)⟩

/-- A core of partition t with no image and no eviction under way. -/
structure State.Settled (s : State) (t h : Nat) : Prop where
  tag : s.tag h = t
  image : s.imageOf t h = none
  evicting : (s.core h).evicting = none

/-- Such a core's reset clears its work but for what it keeps, and leaves it such a core. -/
theorem State.Settled.resetCore {s : State} {h : Nat} (hs : s.Settled t h) :
    (s.resetCore t h).Settled t h ∧ ((s.resetCore t h).work h).kept = (s.work h).kept ∧ ((s.resetCore t h).work h).Cleared := by
  have heq := State.resetCore_eq hs.tag hs.image hs.evicting
  have hone : OneReset h (s.setDebug h (s.core h).dbg.served) (s.resetCore t h) := heq ▸ State.oneReset_resetWork ..
  have hcore : (s.setDebug h (s.core h).dbg.served).core h = { s.core h with dbg := (s.core h).dbg.served } :=
    (State.core_setCore ..).trans (if_pos rfl)
  have hrest := hone.rest
  rw [hcore] at hrest
  refine ⟨⟨?_, ?_, ?_⟩, ?_, heq ▸ State.cleared_resetWork ..⟩
  · rw [State.tag, hrest]
    exact hs.tag
  · rw [State.imageOf, hrest]
    exact hs.image
  · rw [hrest]
    exact hs.evicting
  · rw [hone.kept, State.work, hcore]
    rfl

theorem State.Settled.resetCore_other {s : State} {g h : Nat} (hs : s.Settled t h) (hne : h ≠ g) :
    (s.resetCore t g).Settled t h ∧ (s.resetCore t g).work h = s.work h := by
  have hcore := (s.resetsAt_resetCore t g).other h hne
  refine ⟨⟨?_, ?_, ?_⟩, congrArg Core.work hcore⟩
  · rw [State.tag, hcore]
    exact hs.tag
  · rw [State.imageOf, hcore]
    exact hs.image
  · rw [hcore]
    exact hs.evicting

theorem State.Settled.resetCores {h : Nat} (l : List Nat) {s : State} (hs : s.Settled t h) :
    ((s.resetCores t l).work h).kept = (s.work h).kept ∧ (h ∈ l ∨ (s.work h).Cleared → ((s.resetCores t l).work h).Cleared) := by
  induction l generalizing s with
  | nil => exact ⟨rfl, fun h => h.resolve_left List.not_mem_nil⟩
  | cons g l ih =>
    by_cases hg : h = g
    · subst hg
      obtain ⟨hsettled, hkept, hclear⟩ := hs.resetCore
      obtain ⟨hkept', hclear'⟩ := ih hsettled
      exact ⟨hkept'.trans hkept, fun _ => hclear' (.inr hclear)⟩
    · obtain ⟨hsettled, hwork⟩ := hs.resetCore_other hg
      obtain ⟨hkept', hclear'⟩ := ih hsettled
      rw [hwork] at hkept' hclear'
      exact ⟨hkept', fun hin => hclear' (hin.imp_left fun hmem => (List.mem_cons.1 hmem).resolve_left hg)⟩

end

/-! ### The partition as a whole -/

section
variable (s : State) (t : Nat)

theorem State.core_purge (h : Nat) : (s.purge t).core h = { s.core h with
    itlb := (s.core h).itlb.filter fun e => e.tag != t, dtlb := (s.core h).dtlb.filter fun e => e.tag != t,
    nred := (s.core h).nred.filter fun e => e.1 / 16 != t } := Tab.look_each rfl ..

theorem State.core_resetPartition (h : Nat) : (s.resetPartition t).core h = ((s.resetCores t (s.partCores t)).purge t).core h := rfl

theorem State.part_resetPartition : ∃ cores, (s.resetPartition t).part t = { (s.resetCores t (s.partCores t)).part t with
    cores := cores, counters := [], resetDue := false, domains := [], waiting := none, runs := [], fences := [], jfence := 0,
    replayDue := ((s.resetCores t (s.partCores t)).part t).journal.getLsbD 0 } :=
  ⟨_, (Tab.look_put ..).trans (if_pos rfl)⟩

theorem State.work_resetPartition (h : Nat) : (s.resetPartition t).work h = (s.resetCores t (s.partCores t)).work h := by
  rw [State.work, State.core_resetPartition, State.core_purge]
  rfl

theorem State.tlbs_resetPartition (h : Nat) :
    ∀ e ∈ ((s.resetPartition t).core h).itlb ++ ((s.resetPartition t).core h).dtlb, e.tag ≠ t := by
  rw [State.core_resetPartition, State.core_purge, ← List.filter_append]
  intro e he
  exact bne_iff_ne.1 (List.mem_filter.1 he).2

end

section
variable {s : State} {t : Nat}

theorem exec_partitionReset (hcores : s.partCores t ≠ []) (h : s.renumbers t = false ∨ ∀ h ∈ s.partCores t, s.onWay h = false) :
    exec (.partitionReset t) s = .next (s.resetPartition t) := by
  have hready : (s.renumbers t && (s.partCores t).any s.onWay) = false := by
    obtain h | h := h
    · rw [h, Bool.false_and]
    · rw [List.any_eq_false.2 fun j hj => Bool.eq_false_iff.1 (h j hj), Bool.and_false]
  show execPartitionReset t s = _
  simp [execPartitionReset, hcores, hready]

theorem exec_partitionReset_waits (hcores : s.partCores t ≠ []) (hren : s.renumbers t = true) (h : ∃ h ∈ s.partCores t, s.onWay h = true) :
    exec (.partitionReset t) s = .next (s.setPart t { s.part t with resetDue := true }) := by
  show execPartitionReset t s = _
  simp only [execPartitionReset, List.isEmpty_eq_false_iff.2 hcores, hren, List.any_eq_true.2 h]
  rfl

theorem exec_partitionReset_unformed (hcores : s.partCores t = []) : exec (.partitionReset t) s = .next s := by
  show execPartitionReset t s = _
  simp [execPartitionReset, hcores]

end

end Sys2Proof.Machine
end

section
/-! The registers of a core, its journal, weirs and walks (O58). -/

namespace Sys2Proof.Machine

/-! ### REGISTER_WRITE (R226, R314, R349) -/

section
variable (s : State) (g : Nat) (v : Word)

theorem exec_registerWrite {off : Nat} (hlow : off < 2 ^ 20) (halign : off % 8 = 0) :
    exec (.registerWrite g off v) s = .next (s.writeReg g off v).1 := congrArg Host.Outcome.next (if_pos ⟨hlow, halign⟩)

theorem State.writeReg_handler {off : Nat} (h : 0x10000 ≤ off ∧ off < 0x10400) :
    s.writeReg g off v = (s.writeHandler g ((off - 0x10000) / 16) (off % 16 == 8) v, true) := if_pos h

theorem exec_registerWrite_entry {c : Nat} (hc : c < 64) : exec (.registerWrite g (0x10000 + 16 * c) v) s =
    .next (s.setWork g { s.work g with handlers := Tab.put (s.work g).handlers c { s.handler g c with entry := v } }) := by
  rw [exec_registerWrite s g v (by omega) (by omega), State.writeReg_handler s g v (by omega)]
  have hplace : (0x10000 + 16 * c - 0x10000) / 16 = c := by omega
  have hsecond : ((0x10000 + 16 * c) % 16 == 8) = false := beq_false_of_ne (by omega)
  rw [hplace, hsecond]
  rfl

theorem exec_registerWrite_ctl {c : Nat} (hc : c < 64) : exec (.registerWrite g (0x10008 + 16 * c) v) s =
    .next (s.setWork g { s.work g with handlers := Tab.put (s.work g).handlers c { s.handler g c with ctl := v &&& 0xFF01FF } }) := by
  rw [exec_registerWrite s g v (by omega) (by omega), State.writeReg_handler s g v (by omega)]
  have hplace : (0x10008 + 16 * c - 0x10000) / 16 = c := by omega
  have hsecond : ((0x10008 + 16 * c) % 16 == 8) = true := beq_of_eq (by omega)
  rw [hplace, hsecond]
  rfl

theorem State.writeReg_comparator {off : Nat} (h : 0x20000 ≤ off ∧ off < 0x20080) :
    s.writeReg g off v = (s.setDebug g (if off % 16 = 0 then
        { (s.core g).dbg with addr := Tab.put (s.core g).dbg.addr ((off - 0x20000) / 16) v }
      else { (s.core g).dbg with ctl := Tab.put (s.core g).dbg.ctl ((off - 0x20000) / 16) (v &&& 0x1FFFFFFFF) }), true) := by
  unfold State.writeReg
  dsimp only
  iterate 9 rw [if_neg (by omega)]
  rw [if_pos h]

theorem exec_registerWrite_comparatorAddr {i : Nat} (hi : i < 8) : exec (.registerWrite g (0x20000 + 16 * i) v) s =
    .next (s.setDebug g { (s.core g).dbg with addr := Tab.put (s.core g).dbg.addr i v }) := by
  have hplace : (0x20000 + 16 * i - 0x20000) / 16 = i := by omega
  rw [exec_registerWrite s g v (by omega) (by omega), State.writeReg_comparator s g v (by omega), if_pos (by omega), hplace]

theorem exec_registerWrite_comparatorCtl {i : Nat} (hi : i < 8) : exec (.registerWrite g (0x20008 + 16 * i) v) s =
    .next (s.setDebug g { (s.core g).dbg with ctl := Tab.put (s.core g).dbg.ctl i (v &&& 0x1FFFFFFFF) }) := by
  have hplace : (0x20008 + 16 * i - 0x20000) / 16 = i := by omega
  rw [exec_registerWrite s g v (by omega) (by omega), State.writeReg_comparator s g v (by omega), if_neg (by omega), hplace]

theorem State.writeReg_oxbow : s.writeReg g 0x10810 v = if field v 23 15 * 2 ^ 23 > 0xB000000 then (s, false)
    else (s.setWork g { s.work g with oxbow := v &&& 0x3FFF800001 }, true) := by
  unfold State.writeReg
  dsimp only
  rw [if_neg (by decide), if_neg (by decide), if_neg (by decide), if_pos rfl]
  rfl

theorem exec_registerWrite_oxbow (h : field v 23 15 * 2 ^ 23 ≤ 0xB000000) :
    exec (.registerWrite g 0x10810 v) s = .next (s.setWork g { s.work g with oxbow := v &&& 0x3FFF800001 }) := by
  rw [exec_registerWrite s g v (by decide) (by decide), State.writeReg_oxbow, if_neg (Nat.not_lt.2 h)]

theorem exec_registerWrite_oxbow_beyond (h : 0xB000000 < field v 23 15 * 2 ^ 23) : exec (.registerWrite g 0x10810 v) s = .next s := by
  rw [exec_registerWrite s g v (by decide) (by decide), State.writeReg_oxbow, if_pos h]

theorem exec_registerWrite_ftest (h : v.getLsbD 0 = true) : exec (.registerWrite g 0x20B00 v) s =
    .next (s.setCluster g { s.cluster g with ftest := (s.cluster g).ftest ||| 8 }) := by
  have hwrite : s.writeReg g 0x20B00 v = if v.getLsbD 0 then
    (s.setCluster g { s.cluster g with ftest := (s.cluster g).ftest ||| 8 }, true) else (s, true) := rfl
  rw [exec_registerWrite s g v (by decide) (by decide), hwrite, if_pos h]

theorem exec_registerWrite_readOnly : ∀ off ∈ [0x10808, 0x11000, 0x11008, 0x11030, 0x11040, 0x12000, 0x20208, 0x20408, 0x20800, 0x20B08],
    exec (.registerWrite g off v) s = .next s := by
  simp only [List.forall_mem_cons]
  exact ⟨rfl, rfl, rfl, rfl, rfl, rfl, rfl, rfl, rfl, rfl, List.forall_mem_nil _⟩

/-! ### Registers of the dispatch core (R314, R357, R362) -/

section
variable (hdispatch : s.isDispatch g = true)
include hdispatch

theorem exec_gvtperWrite : exec (.gvtperWrite g v) s = .next (s.setPart (s.tag g) { s.part (s.tag g) with gvtper := v.setWidth 16 }) := by
  have hwrite : s.writeReg g 0x10C00 v = if s.isDispatch g then
    (s.setPart (s.tag g) { s.part (s.tag g) with gvtper := v.setWidth 16 }, true) else (s, true) := rfl
  show Host.Outcome.next (s.writeReg g 0x10C00 v).1 = _
  rw [hwrite, if_pos hdispatch]

theorem exec_dispatchRegisterWrite_journal :
    exec (.dispatchRegisterWrite g 0x11010 v) s = .next (s.setPart (s.tag g) ((s.part (s.tag g)).placeJournal v)) := by
  have hwrite : s.writeReg g 0x11010 v = if s.isDispatch g then
    (s.setPart (s.tag g) ((s.part (s.tag g)).placeJournal v), true) else (s, true) := rfl
  show Host.Outcome.next (s.writeReg g 0x11010 v).1 = _
  rw [hwrite, if_pos hdispatch]

theorem exec_dispatchRegisterWrite_evictvec (halign : v.toNat % 128 = 0) : exec (.dispatchRegisterWrite g 0x11020 v) s =
    .next (s.setPart (s.tag g) { s.part (s.tag g) with evictvec := v }) := by
  have hwrite : s.writeReg g 0x11020 v = if v.toNat % 128 ≠ 0 then (s, false) else if s.isDispatch g then
    (s.setPart (s.tag g) { s.part (s.tag g) with evictvec := v }, true) else (s, true) := rfl
  show Host.Outcome.next (s.writeReg g 0x11020 v).1 = _
  rw [hwrite, if_neg (not_not_intro halign), if_pos hdispatch]

end

/-! ### JOURNAL_REPLAY (R362) -/

section
variable {t d : Nat} (hdue : (s.part t).replayDue = true) (hreset : (s.part t).resetDue = false) (hd : s.dispatchCore t = some d)
include hdue hreset hd

theorem exec_journalReplay_fails {u : State} {e : XFail × Word}
    (hread : (s.setPart t { s.part t with replayDue := false }).readVirt d true ((s.part t).journal &&& ~~~0xFFF) 4096 = (u, .error e)) :
    exec (.journalReplay t) s = .next u := by
  show execJournalReplay t s = _
  have hgoes : ¬ (!(s.part t).replayDue || (s.part t).resetDue) = true := by rw [hdue, hreset]; decide
  simp only [execJournalReplay, hd, if_neg hgoes, hread]

theorem exec_journalReplay {u : State} {bs : List Byte}
    (hread : (s.setPart t { s.part t with replayDue := false }).readVirt d true ((s.part t).journal &&& ~~~0xFFF) 4096 = (u, .ok bs)) :
    exec (.journalReplay t) s = .next ((((List.range (min 511 ((s.part t).jcount - max (s.part t).lastFence (s.part t).jstart))).map fun j =>
      wordAt bs (8 * placeBack (journalPlace (wordAt bs 0)) j)).reverse.filterMap journaled).foldl (fun u a => u.report d 31 d 1 [a]) u) := by
  show execJournalReplay t s = _
  have hgoes : ¬ (!(s.part t).replayDue || (s.part t).resetDue) = true := by rw [hdue, hreset]; decide
  simp only [execJournalReplay, hd, if_neg hgoes, hread]

end

/-! ### WEIR_PERIOD and the order of service (R352, R353) -/

theorem exec_weirPeriod_core (h : g < 163840) :
    exec (.weirPeriod g) s = .next (s.setCore g { s.core g with weir := s.refill (s.core g).weir }) := congrArg Host.Outcome.next (if_pos h)

theorem exec_weirPeriod_segment {c x : Nat} (hx : x < 256) : exec (.weirPeriod (163840 + 256 * c + x)) s =
    .next (s.setChip c { s.chip c with weirs := Tab.put (s.chip c).weirs x (s.refill (Tab.look ⟨[], 0⟩ (s.chip c).weirs x)) }) := by
  have hchip : (163840 + 256 * c + x - 163840) / 256 = c := by omega
  have hseg : (163840 + 256 * c + x - 163840) % 256 = x := by omega
  show execWeirPeriod _ s = _
  rw [execWeirPeriod, if_neg (by omega)]
  simp only [hchip, hseg]

/-! ### PAGE_WALK (R247, R249) -/

/-- The kind of access that a walk is for. -/
def walkKind (kd : BitVec 2) : Access := if kd = 0 then .read else if kd = 1 then .write else if kd = 2 then .fetch else .amo

theorem exec_pageWalk_fills {va : Word} {kd : BitVec 2} {e : TlbEntry} (h : s.walk g false va (walkKind kd) = .ok e) :
    exec (.pageWalk g va kd) s = .next ((s.chargeWalk g va).fillTlb g (walkKind kd) e) := by
  show execPageWalk g va kd s = _
  rw [walkKind] at h ⊢
  simp only [execPageWalk, h]

theorem exec_pageWalk_fails {va : Word} {kd : BitVec 2} {f : XFail} (h : s.walk g false va (walkKind kd) = .error f) :
    exec (.pageWalk g va kd) s = .next (s.chargeWalk g va) := by
  show execPageWalk g va kd s = _
  rw [walkKind] at h
  simp only [execPageWalk, h]

end

/-! ### Which request a weir serves (R353) -/

section
variable {l : List Waiting} {w : Weir}

/-- A request at the head of its partition, with the number of the first one of that partition. -/
theorem mem_heads {e : Waiting} : e ∈ heads l ↔ e ∈ l ∧ ∃ o, l.find? (fun o => o.tag == e.tag) = some o ∧ o.id = e.id := by
  simp [heads, List.mem_filter]

theorem exists_head_of_mem {e : Waiting} (he : e ∈ l) : ∃ o ∈ heads l, o.tag = e.tag := by
  obtain ⟨o, ho⟩ := Option.isSome_iff_exists.1 (List.find?_isSome (p := fun o : Waiting => o.tag == e.tag) |>.2 ⟨e, he, beq_self_eq_true e.tag⟩)
  have htag : o.tag = e.tag := beq_iff_eq.1 (List.find?_some (p := fun o : Waiting => o.tag == e.tag) ho)
  refine ⟨o, mem_heads.2 ⟨List.mem_of_find?_eq_some ho, o, ?_, rfl⟩, htag⟩
  rwa [htag]

/-- No request of the same partition stands before a head. -/
theorem tag_ne_of_takeWhile {r : Waiting} (hr : r ∈ heads l) : ∀ e ∈ l.takeWhile (fun e => e.id != r.id), e.tag ≠ r.tag := by
  obtain ⟨-, o, ho, hid⟩ := mem_heads.1 hr
  clear hr
  induction l with
  | nil => nofun
  | cons a l ih =>
    rw [List.takeWhile_cons]
    split
    · next hne =>
      rw [List.find?_cons] at ho
      split at ho
      · next ha =>
        obtain rfl := Option.some.inj ho
        exact absurd hid (bne_iff_ne.1 hne)
      · next ha => exact List.forall_mem_cons.2 ⟨beq_eq_false_iff_ne.1 ha, ih ho⟩
    · nofun

theorem Weir.next_isSome (htags : ∀ e ∈ l, e.tag < 64) (hne : l ≠ []) : (w.next l).isSome = true := by
  unfold Weir.next
  split
  · rfl
  · obtain ⟨a, ha⟩ := List.exists_mem_of_ne_nil l hne
    obtain ⟨o, ho, -⟩ := exists_head_of_mem ha
    have htag := htags o (mem_heads.1 ho).1
    let i := (o.tag + 63 * (w.last % 64 + 1)) % 64
    have hi : (w.last + 1 + i) % 64 = o.tag := by omega
    have hturn : ((heads l).any fun e => e.tag == (w.last + 1 + i) % 64) = true := by
      rw [hi]
      exact List.any_eq_true.2 ⟨o, ho, beq_self_eq_true o.tag⟩
    obtain ⟨k, hk⟩ := Option.isSome_iff_exists.1 ((List.find?_isSome
      (p := fun i => (heads l).any fun e => e.tag == (w.last + 1 + i) % 64)).2 ⟨i, List.mem_range.2 (by omega : i < 64), hturn⟩)
    have hk' : ((heads l).any fun e => e.tag == (w.last + 1 + k) % 64) = true :=
      List.find?_some (p := fun i => (heads l).any fun e => e.tag == (w.last + 1 + i) % 64) hk
    rw [firstBelow, hk, Option.bind_some, Option.isSome_map]
    exact List.find?_isSome.2 (List.any_eq_true.1 hk')

theorem Weir.next_spec {n : Nat} (h : w.next l = some n) :
    ∃ r ∈ heads l, r.id = n ∧ ((∃ e ∈ heads l, w.pays e.tag e.cost = true) → w.pays r.tag r.cost = true) := by
  unfold Weir.next at h
  split at h
  · next e he =>
    exact ⟨e, List.mem_of_find?_eq_some he, Option.some.inj h, fun _ => List.find?_some (p := fun e : Waiting => w.pays e.tag e.cost) he⟩
  · next hnone =>
    obtain ⟨i, -, hi⟩ := Option.bind_eq_some_iff.1 h
    obtain ⟨e, he, rfl⟩ := Option.map_eq_some_iff.1 hi
    exact ⟨e, List.mem_of_find?_eq_some he, rfl, fun ⟨o, ho, hpay⟩ => absurd hpay (List.find?_eq_none.1 hnone o ho)⟩

end

/-- Settles O58: each step under its conditions is what its definition says, an image is laid out apart from what stays, and a
partition's reset goes core by core. -/
theorem partitionEvents : Obligations.PartitionEvents := by
  intro s g t i off v va kd k p acc
  refine ⟨exec_eviction_asks, fun hev hstop hhalt htest => ⟨exec_eviction_images hev hstop hhalt htest,
    exec_eviction_routine hev hstop hhalt htest⟩, fun n w hev hway => ⟨exec_eviction_ends hev hway, exec_evictRoutineTimeout hev hway⟩,
    fun w left hm => ?_, fun m hm hvacated hholds hev hhalt htest hcheck => ?_, fun w m a n o hm hspad ho => ?_, fun hcores => ?_,
    exec_partitionReset_unformed, fun hdue hreset d u e hd hread => exec_journalReplay_fails s hdue hreset hd hread,
    fun hdue hreset d u bs hd hread => exec_journalReplay s hdue hreset hd hread, fun hi => congrArg Host.Outcome.next (if_pos hi), rfl,
    exec_registerWrite s g v, ?_, fun hdispatch => ?_, ⟨exec_weirPeriod_core s g, fun c x _ hx => exec_weirPeriod_segment s hx⟩,
    fun w l => ⟨Weir.next_isSome, fun n hn => ?_⟩, fun e he => exec_pageWalk_fills s g he, fun f hf => exec_pageWalk_fails s g hf⟩
  · obtain ⟨u, himaged, hu, hcore⟩ := s.imaged_eq g w left hm
    have hcore' : (s.imaged g w left).core g = { k with work := Work.reset, image := some (s.imageFor g w left), evicting := none } := by
      rw [himaged, State.core_shadowHeader, hcore]
    obtain ⟨htag, hcycle⟩ := u.word_shadowHeader g (s.imageFor g w left) hu
    rw [← himaged] at htag hcycle
    exact ⟨⟨congrArg Core.work hcore', congrArg Core.evicting hcore', _, congrArg Core.image hcore', rfl, rfl, rfl⟩, htag, hcycle⟩
  · exact ⟨exec_restore hm hvacated hholds hev hhalt htest hcheck,
      fun hnodup => ⟨State.carries_redeliver _ g hnodup, State.mem_redeliver _ g m.msgs⟩⟩
  · exact ⟨w.spad_readBack_layOut a n hm hspad ho, fun b hb => w.get_layOut_below hm hb,
      fun hcells hejection hdeque hlps hqueues b hb => w.get_layOut_above hm ⟨hcells, hejection, hdeque, hlps, hqueues⟩ hb⟩
  · obtain ⟨cores, hpart⟩ := s.part_resetPartition t
    obtain ⟨hjournal, hvec⟩ := State.part_resetCores (t := t) (s.partCores t) s t
    refine ⟨exec_partitionReset hcores, exec_partitionReset_waits hcores, ?_, fun h => ⟨s.tlbs_resetPartition t h, fun hout => ?_⟩,
      fun h hin htag himage hev => ?_⟩
    · rw [hpart]
      exact ⟨rfl, rfl, rfl, rfl, rfl, hjournal, hvec, congrArg (BitVec.getLsbD · 0) hjournal⟩
    · rw [s.work_resetPartition, State.work, State.core_resetCores_other _ _ hout]
      rfl
    · obtain ⟨hkept, hclear⟩ := (State.Settled.mk htag himage hev).resetCores (s.partCores t)
      have hcleared := hclear (.inl hin)
      rw [← s.work_resetPartition] at hkept hcleared
      obtain ⟨hctxs, hpower, hqueues, hcrews, hgrids, hlps, hswapped, hdeque, hspill⟩ := hcleared
      simp only [Work.kept, Prod.mk.injEq] at hkept
      exact ⟨hctxs, hpower, hqueues, hcrews, hgrids, hlps, hswapped, hdeque, hspill, hkept⟩
  · exact ⟨fun c hc => ⟨exec_registerWrite_entry s g v hc, exec_registerWrite_ctl s g v hc⟩, rfl, rfl, exec_registerWrite_oxbow s g v,
      exec_registerWrite_oxbow_beyond s g v, fun i hi => ⟨exec_registerWrite_comparatorAddr s g v hi, exec_registerWrite_comparatorCtl s g v hi⟩, rfl,
      exec_registerWrite_ftest s g v, exec_registerWrite_readOnly s g v⟩
  · exact ⟨exec_gvtperWrite s g v hdispatch, exec_dispatchRegisterWrite_journal s g v hdispatch,
      exec_dispatchRegisterWrite_evictvec s g v hdispatch⟩
  · obtain ⟨r, hr, rfl, hpays⟩ := Weir.next_spec hn
    exact ⟨r, (mem_heads.1 hr).1, rfl, tag_ne_of_takeWhile hr, hpays⟩

end Sys2Proof.Machine
end

section
/-! In-network reductions (O47). -/

namespace Sys2Proof.Machine

section
variable {s : State} {a b d : XReg} (hspec : s.speculative s.cur.1 s.cur.2 = false)
include hspec

theorem exec_nred {root : Nat} (hroot : s.groupRoot (s.x a) = some root) (hroom : s.requestRoom s.cur.1 = true) :
    let s1 := s.fresh.enqueue s.cur.1 ⟨.nred (s.contribution root (s.x a) (s.me.vreg b.toNat)), s.cur.2, s.me.pending⟩
    exec (.nred a b) s = .next ((s1.setMe { s1.me with acks := s1.me.acks ++ [s.nextId] }).retire 2) := by
  show execNred a b s = _
  simp only [execNred, State.whenSafe_of_not_speculative hspec, hroot, hroom]
  rfl

theorem holds_nred {root : Nat} (hroot : s.groupRoot (s.x a) = some root) (hroom : s.requestRoom s.cur.1 = false) :
    Holds (.nred a b) s (.blocked .sendQueue) := by
  show execNred a b s = _
  simp only [execNred, State.whenSafe_of_not_speculative hspec, hroot, hroom]
  rfl

theorem traps_nred (hroot : s.groupRoot (s.x a) = none) : Traps (.nred a b) s 0x04 0 := by
  show execNred a b s = _
  simp only [execNred, State.whenSafe_of_not_speculative hspec, hroot]
  rfl

theorem traps_nredw (hroot : s.groupRoot (s.x a) = none) : Traps (.nredw d a) s 0x04 0 := by
  show execNredw d a s = _
  simp only [execNredw, State.whenSafe_of_not_speculative hspec, hroot]
  rfl

theorem traps_nredw_elsewhere {root : Nat} (hroot : s.groupRoot (s.x a) = some root) (hne : root ≠ s.cur.1) :
    Traps (.nredw d a) s 0x04 0 := by
  show execNredw d a s = _
  simp only [execNredw, State.whenSafe_of_not_speculative hspec, hroot, if_pos hne]
  rfl

section
variable (hroot : s.groupRoot (s.x a) = some s.cur.1)
include hroot

theorem exec_nredw {r : Round} {rs : List Round} (hrounds : s.rounds s.cur.1 (field (s.x a) 18 4) = r :: rs) (hfull : r.c = r.n)
    (hsome : 0 < r.c) (hwait : s.roundWaiters s.cur.1 (field (s.x a) 18 4) = []) :
    exec (.nredw d a) s = .next (((s.setRounds (s.tag s.cur.1) s.cur.1 (field (s.x a) 18 4) rs).setMe
      ((s.setRounds (s.tag s.cur.1) s.cur.1 (field (s.x a) 18 4) rs).me.setV d.toNat
        (Vector.ofFn fun i : Fin 64 => (r.lanes.get i).result))).retire 2) := by
  have hcomplete : r.complete = true := by
    rw [Round.complete, decide_eq_true hsome, hfull, beq_self_eq_true]
    rfl
  have hready : s.roundReady s.cur.1 (field (s.x a) 18 4) = some r := by simp [State.roundReady, hrounds, hcomplete]
  show execNredw d a s = _
  simp only [execNredw, State.whenSafe_of_not_speculative hspec, hroot, hready, hwait, State.takeRound, hrounds]
  rw [if_neg (not_not_intro rfl)]
  rfl

theorem holds_nredw (hrounds : s.rounds s.cur.1 (field (s.x a) 18 4) = []) :
    Holds (.nredw d a) s (.waiting (.round (field (s.x a) 18 4) d)) := by
  have hready : s.roundReady s.cur.1 (field (s.x a) 18 4) = none := by simp [State.roundReady, hrounds]
  show execNredw d a s = _
  simp only [execNredw, State.whenSafe_of_not_speculative hspec, hroot, hready]
  simp

end

end

/-- A contribution that is acknowledged: it has left the network, and its answer is on the way (R233). -/
def State.nredAnswered (s : State) (k : Nat) (q : Contribution) (ok : Bool) : State :=
  s.withNet fun n => { n with nreds := Tab.drop n.nreds k, replies := Tab.put n.replies k (q.ack ok) }

section
variable {s : State} {k : Nat} {q : Contribution} (hk : Tab.find s.net.nreds k = some q) (hon : (s.chip (chipOf q.root)).off = false)
include hk hon

theorem exec_nredContribution_joins (hholds : s.holds (s.tag q.g) q.root = true) (hcheck : (s.core q.root).dbg.checked = false)
    (hfence : (s.core q.root).dbg.fenced = false) {l : List Round}
    (hjoin : joinRounds q.n q.v (Tab.look [] (s.core q.root).nred (slotKey (s.tag q.g) q.slot)) = some l) :
    exec (.nredContribution k) s =
      .next (((s.setRounds (s.tag q.g) q.root q.slot l).nredAnswered k q true).count (s.tag q.g) 6 1) := by
  show execNredContribution k s = _
  simp only [execNredContribution, hk, hon, hholds, hcheck, hfence, hjoin]
  rfl

theorem exec_nredContribution_fails (hholds : s.holds (s.tag q.g) q.root = false) :
    exec (.nredContribution k) s = .next (s.nredAnswered k q false) := by
  show execNredContribution k s = _
  simp only [execNredContribution, hk, hon, hholds]
  rfl

end

/-- Settles O47: each form's checks one after the other, and the round that a contribution joins. -/
theorem reductions : Obligations.Reductions := by
  intro s a b d k root q hspec g x slot key answered
  refine ⟨exec_nred hspec, holds_nred hspec, fun hroot => ⟨traps_nred hspec hroot, traps_nredw hspec hroot⟩,
    fun hroot hne => traps_nredw_elsewhere hspec hroot hne, fun hroot r rs hrounds hfull hsome hwait =>
      exec_nredw hspec hroot hrounds hfull hsome hwait, fun hroot hrounds => holds_nredw hspec hroot hrounds, fun hk => ?_⟩
  intro on lives
  exact ⟨fun hlives l hjoin => exec_nredContribution_joins hk hlives.1 hlives.2.1 hlives.2.2.1 hlives.2.2.2 hjoin,
    fun hon hholds => exec_nredContribution_fails hk hon hholds⟩

end Sys2Proof.Machine
end

section
/-! Replies, acknowledgements, DRAIN and FENCE (O26). -/

namespace Sys2Proof.Machine

/-! ### What taking a reply leaves alone (R196) -/

theorem State.ctx_windowBack (s : State) (g cls : Nat) (spate : Bool) (h c : Nat) : (s.windowBack g cls spate).ctx h c = s.ctx h c :=
  State.ctx_setWork_of_ctxs (by rfl) h c

theorem State.spad_windowBack (s : State) (g cls : Nat) (spate : Bool) (h : Nat) :
    ((s.windowBack g cls spate).work h).spad = (s.work h).spad := by
  rw [State.windowBack, State.work_setWork]
  split
  · next hh => rw [hh]; rfl
  · rfl

theorem State.ctx_takeReply (s : State) (k : Nat) (a : MemReply) (h c : Nat) : (s.takeReply k a).ctx h c = s.ctx h c := by
  unfold State.takeReply
  dsimp only
  split
  · rfl
  · exact State.ctx_windowBack ..

theorem State.sameBytes_takeReply (s : State) (k : Nat) (a : MemReply) : SameBytes s (s.takeReply k a) := by
  unfold State.takeReply
  dsimp only
  split
  · exact ⟨fun _ => rfl, fun _ _ => rfl⟩
  · exact ⟨fun _ => rfl, fun h b => congrArg (Memory.get · b) (State.spad_windowBack _ _ _ _ h)⟩

theorem State.sameWork_sampled (s : State) (g q v n : Nat) : SameWork s (s.sampled g q v n) := by
  unfold State.sampled
  dsimp only
  split
  · exact .refl s
  · exact s.sameWork_setDebug ..

theorem State.sameBytes_setCtx (s : State) (g c : Nat) (k : Ctx) : SameBytes s (s.setCtx g c k) :=
  ⟨fun _ => rfl, fun h b => congrArg (Memory.get · b) (s.work_setCtx_field Work.spad (fun _ _ => rfl) g c h k)⟩

/-- The machine once a reply has come in from the network: its window place is free, and its time is a sample for the monitors
(R196, R374). -/
def State.taken (s : State) (k : Nat) (a : MemReply) : State :=
  (s.takeReply k a).sampled a.req.g 0 (s.cycle a.req.g - a.req.born) 1

theorem State.ctx_taken (s : State) (k : Nat) (a : MemReply) (h c : Nat) : (s.taken k a).ctx h c = s.ctx h c :=
  (State.ctx_sampled ..).trans (s.ctx_takeReply k a h c)

theorem State.sameBytes_taken (s : State) (k : Nat) (a : MemReply) : SameBytes s (s.taken k a) :=
  (s.sameBytes_takeReply k a).trans (State.sameWork_sampled ..).sameBytes

/-! ### LOAD_REPLY (R229, R232, R363, R364) -/

theorem State.atChunkEnd_unlogged {s : State} {g : Nat} (h : Unlogged s g) (c kind : Nat) (host : Option Msg) (go : State → State) :
    s.atChunkEnd g c kind host go = go s := by
  have hend : s.chunkEnd g c kind host = some s := by
    rw [Unlogged] at h
    simp [State.chunkEnd, h]
  rw [State.atChunkEnd, hend]

section
variable {s : State} {k : Nat} {a : MemReply} (hk : Tab.find s.net.replies k = some a)
include hk

section
variable (hload : a.req.isStore = false)
include hload

theorem exec_loadReply_unwanted (hwait : (s.ctx a.req.g a.req.c).awaits a.req = false) : exec (.loadReply k) s = .next (s.taken k a) := by
  show execLoadReply k s = _
  simp only [execLoadReply, hk, hload, hwait]
  rfl

section
variable (hwait : (s.ctx a.req.g a.req.c).awaits a.req = true)
include hwait

theorem exec_loadReply_fails (hok : a.ok = false) :
    exec (.loadReply k) s = .next ((s.taken k a).terminate a.req.g a.req.c 2 (BitVec.ofNat 64 a.req.pa)) := by
  show execLoadReply k s = _
  simp only [execLoadReply, hk, hload, hwait, hok]
  rfl

theorem exec_loadReply_poisoned (hok : a.ok = true) (hbad : a.poison = true)
    (hwanted : (s.ctx a.req.g a.req.c).amos.contains a.req.id = false) :
    exec (.loadReply k) s = .next ((s.taken k a).terminate a.req.g a.req.c 1 (BitVec.ofNat 64 a.req.pa)) := by
  show execLoadReply k s = _
  simp only [execLoadReply, hk, hload, hwait, hok, hbad, hwanted]
  rfl

/-- A good answer that is awaited lands in its context. -/
theorem exec_loadReply_lands (hlog : Unlogged s a.req.g) (hok : a.ok = true)
    (hgood : (a.poison && !(s.ctx a.req.g a.req.c).amos.contains a.req.id) = false) :
    exec (.loadReply k) s = .next ((s.taken k a).setCtx a.req.g a.req.c ((s.ctx a.req.g a.req.c).land a)) := by
  rw [← s.ctx_taken k a]
  show execLoadReply k s = _
  simp only [execLoadReply, hk, hload, hwait, hok, hgood, State.atChunkEnd_unlogged hlog]
  cases a.req.isScalar <;> rfl

end

end

end

/-! ### What lands (R229, R230, R232) -/

section
variable {a : MemReply} {d : XReg} {n : Nat} (k : Ctx) (hdest : a.req.dest = some d)
include hdest

theorem Ctx.land_load {sg : Bool} (hop : a.req.op = .load n sg) :
    k.land a = k.landScalar a.req.id d n sg (overlay a.data a.req.late) := by
  simp only [Ctx.land, hop, hdest]

theorem Ctx.land_amo {f : BitVec 4} {b b' : Nat} (hop : a.req.op = .amo f n b b') : k.land a = k.landScalar a.req.id d n false a.data := by
  simp only [Ctx.land, hop, hdest]

end

theorem Ctx.awaits_of_owed {k : Ctx} {r : MemReq} {d : XReg} (h : k.owed.contains (r.id, d) = true) : k.awaits r = true := by
  have hany : (k.owed.any fun o => o.1 == r.id) = true :=
    List.any_eq_true.2 ⟨(r.id, d), List.contains_iff_mem.1 h, beq_self_eq_true r.id⟩
  rw [Ctx.awaits, hany, Bool.or_true, Bool.true_or]

theorem Ctx.awaits_of_amos {k : Ctx} {r : MemReq} (h : k.amos.contains r.id = true) : k.awaits r = true := by
  rw [Ctx.awaits, h, Bool.true_or, Bool.true_or, Bool.true_or]

theorem Ctx.awaits_of_piece {k : Ctx} {r : MemReq} {e : RingEntry} (he : e ∈ k.ring) (h : e.pieces.contains r.id = true) :
    k.awaits r = true := by
  have hany : (k.ring.any fun e => e.pieces.contains r.id) = true := List.any_eq_true.2 ⟨e, he, h⟩
  rw [Ctx.awaits, hany, Bool.or_true]

section
variable {k : Ctx} {id n : Nat} {d : XReg} {sg : Bool} {bs : List Byte}

theorem Ctx.landScalar_owed (hn : n ≤ 8) (h : k.owed.contains (id, d) = true) :
    k.landScalar id d n sg bs = { k with
      x := k.x.set d.toNat (extendTo n sg (natOfBytes bs)) d.isLt,
      owed := k.owed.filter fun o => o.1 != id, amos := k.amos.filter fun i => i != id } := by
  have hsize : n ≠ 16 := by omega
  simp only [Ctx.landScalar, if_neg hsize, if_pos h]
  rfl

theorem Ctx.landScalar_replaced (hn : n ≤ 8) (h : k.owed.contains (id, d) = false) : k.landScalar id d n sg bs = k.answered id := by
  have hsize : n ≠ 16 := by omega
  simp only [Ctx.landScalar, if_neg hsize, h, Bool.false_eq_true, if_false]

theorem Ctx.landScalar_pair (h : k.owed.contains (id, d) = true) (h' : k.owed.contains (id, d + 1) = true) :
    k.landScalar id d 16 sg bs = { k with
      x := (k.x.set d.toNat (BitVec.ofNat 64 (natOfBytes (bs.take 8))) d.isLt).set (d + 1).toNat
        (BitVec.ofNat 64 (natOfBytes (bs.drop 8))) (d + 1).isLt,
      owed := k.owed.filter fun o => o.1 != id, amos := k.amos.filter fun i => i != id } := by
  simp only [Ctx.landScalar, if_pos h, if_pos h']
  rfl

end

section
variable {v : VReg} {ps : List (Nat × Nat)} {bs : List Byte} {i : Nat}

theorem lane_setIfInBounds {j : Nat} (hj : j < 64) (w : Lane) : lane (v.setIfInBounds j w) i = if i = j then w else lane v i := by
  by_cases h : i = j
  · simp [lane, h, hj]
  · simp [lane, Ne.symm h, h]

/-- A lane that no piece has lands nothing. -/
theorem lane_putLanes_other (ps : List (Nat × Nat)) (hps : ∀ q ∈ ps, q.2 < 64) (hi : i ∉ ps.map fun q => q.2) :
    lane (putLanes v ps bs) i = lane v i := by
  induction ps generalizing v bs with
  | nil => rfl
  | cons q ps ih =>
    obtain ⟨hq, hps⟩ := List.forall_mem_cons.1 hps
    obtain ⟨hne, hi⟩ := not_or.1 (mt List.mem_cons.2 hi)
    exact (ih hps hi).trans ((lane_setIfInBounds hq _).trans (if_neg hne))

/-- Each lane of a piece gets its own 4 bytes. -/
theorem lane_putLanes (ps : List (Nat × Nat)) (hps : ∀ q ∈ ps, q.2 < 64) (hnodup : (ps.map fun q => q.2).Nodup) (j : Nat)
    (hj : j < ps.length) : lane (putLanes v ps bs) ps[j].2 = BitVec.ofNat 32 (natOfBytes ((bs.drop (4 * j)).take 4)) := by
  induction ps generalizing v bs j with
  | nil => exact absurd hj (Nat.not_lt_zero j)
  | cons q ps ih =>
    obtain ⟨hq, hps⟩ := List.forall_mem_cons.1 hps
    obtain ⟨hnew, hnodup⟩ := List.nodup_cons.1 hnodup
    cases j with
    | zero => exact (lane_putLanes_other ps hps hnew).trans ((lane_setIfInBounds hq _).trans (if_pos rfl))
    | succ j =>
      have hdrop : bs.drop (4 * (j + 1)) = (bs.drop 4).drop (4 * j) := by rw [List.drop_drop, Nat.mul_succ, Nat.add_comm]
      rw [hdrop]
      exact ih hps hnodup j (Nat.lt_of_succ_lt_succ hj)

end

theorem Ctx.pieceDone_pieces (k : Ctx) (seq : Byte) (id : Nat) : ∀ e ∈ (k.pieceDone seq id).ring, e.seq = seq → id ∉ e.pieces := by
  simp only [Ctx.pieceDone, Ctx.setEntry, List.forall_mem_map]
  intro e _ hseq
  have hgone : id ∉ e.pieces.filter fun n => n != id := fun hin => bne_iff_ne.1 (List.mem_filter.1 hin).2 rfl
  by_cases h : e.seq = seq
  · rw [if_pos h]
    split <;> exact hgone
  · rw [if_neg h] at hseq
    exact absurd hseq h

/-- A good reply of a piece of a vector load: only its own lanes change, and its entry waits for it no longer (R230). -/
theorem loadReply_piece {s : State} {k : Nat} {a : MemReply} {e : RingEntry} {ps : List (Nat × Nat)}
    (hk : Tab.find s.net.replies k = some a) (hlog : Unlogged s a.req.g) (hop : a.req.op = .vload ps)
    (he : ((s.ctx a.req.g a.req.c).ring.find? fun x => x.seq == a.req.seq && x.pieces.contains a.req.id) = some e)
    (hdest : loadDest e.instr < 22) (hlate : a.req.late = []) (hnodup : (ps.map fun q => q.2).Nodup) (hlanes : ∀ q ∈ ps, q.2 < 64)
    (hok : a.ok = true) (hgood : a.poison = false) :
    let c := s.ctx a.req.g a.req.c
    ∃ t, exec (.loadReply k) s = .next t ∧ SameBytes s t ∧ (t.ctx a.req.g a.req.c).x = c.x
      ∧ (∀ n, n ≠ loadDest e.instr → (t.ctx a.req.g a.req.c).vreg n = c.vreg n)
      ∧ (∀ j, (h : j < ps.length) → lane ((t.ctx a.req.g a.req.c).vreg (loadDest e.instr)) ps[j].2
          = BitVec.ofNat 32 (natOfBytes ((a.data.drop (4 * j)).take 4)))
      ∧ (∀ i < 64, i ∉ ps.map (fun q => q.2) →
          lane ((t.ctx a.req.g a.req.c).vreg (loadDest e.instr)) i = lane (c.vreg (loadDest e.instr)) i)
      ∧ ∀ x ∈ (t.ctx a.req.g a.req.c).ring, x.seq = a.req.seq → a.req.id ∉ x.pieces := by
  intro c
  have hwaits : e ∈ c.ring ∧ e.pieces.contains a.req.id = true :=
    ⟨List.mem_of_find?_eq_some he, (Bool.and_eq_true_iff.1
      (List.find?_some (p := fun x : RingEntry => x.seq == a.req.seq && x.pieces.contains a.req.id) he)).2⟩
  have hload : a.req.isStore = false := by rw [MemReq.isStore, hop]
  have hland : c.land a = (c.setV (loadDest e.instr) (putLanes (c.vreg (loadDest e.instr)) ps a.data)).pieceDone a.req.seq a.req.id := by
    simp only [Ctx.land, hop, he, hlate, c]
    rfl
  have hctx : ((s.taken k a).setCtx a.req.g a.req.c (c.land a)).ctx a.req.g a.req.c = c.land a :=
    (State.ctx_setCtx ..).trans (if_pos ⟨rfl, rfl⟩)
  have hvreg : (c.land a).vreg (loadDest e.instr) = putLanes (c.vreg (loadDest e.instr)) ps a.data := by
    rw [hland]
    exact Ctx.vreg_setV hdest
  refine ⟨_, exec_loadReply_lands hk hload (Ctx.awaits_of_piece hwaits.1 hwaits.2) hlog hok (by rw [hgood, Bool.false_and]),
    (s.sameBytes_taken k a).trans (State.sameBytes_setCtx ..), ?_⟩
  rw [hctx, hvreg]
  refine ⟨by rw [hland]; rfl, fun n hn => ?_, fun j hj => lane_putLanes ps hlanes hnodup j hj,
    fun i _ hi => lane_putLanes_other ps hlanes hi, ?_⟩
  · rw [hland]
    exact Ctx.vreg_setV_ne hn
  · rw [hland]
    exact Ctx.pieceDone_pieces _ _ _

/-! ### STORE_ACK (R233, R364) -/

section
variable {s : State} {k : Nat} {a : MemReply} (hk : Tab.find s.net.replies k = some a) (hstore : a.req.isStore = true)
include hk hstore

theorem exec_storeAck_unwanted (hwait : (s.ctx a.req.g a.req.c).acks.contains a.req.id = false) :
    exec (.storeAck k) s = .next (s.takeReply k a) := by
  rw [← s.ctx_takeReply k a] at hwait
  show execStoreAck k s = _
  simp only [execStoreAck, hk, hstore, hwait]
  rfl

theorem exec_storeAck (hwait : (s.ctx a.req.g a.req.c).acks.contains a.req.id = true) :
    let c := s.ctx a.req.g a.req.c
    let t := (s.takeReply k a).setCtx a.req.g a.req.c
      (({ c with acks := c.acks.filter fun i => i != a.req.id } : Ctx).pieceDone a.req.seq a.req.id)
    exec (.storeAck k) s = .next (if a.ok then t else t.terminate a.req.g a.req.c 2 (BitVec.ofNat 64 a.req.pa)) := by
  dsimp only
  rw [← s.ctx_takeReply k a] at hwait ⊢
  show execStoreAck k s = _
  simp only [execStoreAck, hk, hstore, hwait]
  rfl

end

/-! ### DRAIN and FENCE (R234, R235) -/

theorem Ctx.loadsDone_iff (k : Ctx) :
    k.loadsDone = true ↔ k.owed = [] ∧ k.amos = [] ∧ ∀ e ∈ k.ring, e.unit = 0 → e.st ≠ .running := by
  simp only [Ctx.loadsDone, Ctx.vquiet, Bool.and_eq_true, List.isEmpty_iff, List.all_eq_true, Bool.or_eq_true, bne_iff_ne, and_assoc,
    ← imp_iff_not_or]

theorem Ctx.drained_iff (k : Ctx) : k.drained = true ↔ k.loadsDone = true ∧ k.acks = [] := by
  rw [Ctx.drained, Bool.and_eq_true, List.isEmpty_iff]

section
variable {s : State} {k : BitVec 2} (sc : BitVec 3)

theorem exec_fence (hrelease : k.getLsbD 1 = true → s.me.drained = true) (hacquire : k.getLsbD 0 = true → s.me.loadsDone = true) :
    exec (.fence k sc) s = .next (s.retire 2) := by
  have hr : (k.getLsbD 1 && !s.me.drained) = false := by
    cases h : k.getLsbD 1
    · rfl
    · rw [hrelease h]
      rfl
  have ha : (k.getLsbD 0 && !s.me.loadsDone) = false := by
    cases h : k.getLsbD 0
    · rfl
    · rw [hacquire h]
      rfl
  show execFence k sc s = _
  simp only [execFence, hr, ha]
  rfl

theorem holds_fence_release (hkind : k.getLsbD 1 = true) (hdrain : s.me.drained = false) : Holds (.fence k sc) s (.blocked .drain) := by
  show execFence k sc s = _
  simp only [execFence, hkind, hdrain]
  rfl

theorem holds_fence_acquire (hrelease : k.getLsbD 1 = false) (hkind : k.getLsbD 0 = true) (hloads : s.me.loadsDone = false) :
    Holds (.fence k sc) s (.blocked .loads) := by
  show execFence k sc s = _
  simp only [execFence, hrelease, hkind, hloads]
  rfl

end

/-- Settles O26: a reply is taken from the network, and then its context takes it, ends of it, or wants it no longer. -/
theorem repliesAndAcknowledgements : Obligations.RepliesAndAcknowledgements := by
  refine ⟨fun s k a hk hlog => ?_, fun s k sc => ?_⟩
  · intro r c acked taken owed amos
    have hlands : r.isStore = false → c.awaits r = true → a.ok = true → (a.poison && !c.amos.contains r.id) = false →
        ∀ c', c.land a = c' → exec (.loadReply k) s = .next (taken.setCtx r.g r.c c') := by
      rintro hload hwait hok hgood _ rfl
      exact exec_loadReply_lands hk hload hwait hlog hok hgood
    refine ⟨fun n sg d hop hdest hlate hn howed hok hgood => ?_, fun f n b b' d hop hdest howed hok hgood => ?_,
      fun ps e hop he hd hlate hnodup hlanes hok hgood _ => loadReply_piece hk hlog hop he hd hlate hnodup hlanes hok hgood,
      fun n sg d hop hdest hn howed hamo hok => ?_, exec_loadReply_unwanted hk, exec_loadReply_fails hk,
      fun hload hwait hamo hok hbad => exec_loadReply_poisoned hk hload hwait hok hbad hamo, fun hstore hwait => ?_,
      exec_storeAck_unwanted hk⟩
    · refine hlands (by rw [MemReq.isStore, hop]) (Ctx.awaits_of_owed howed) hok (by rw [hgood, Bool.false_and]) _ ?_
      refine (Ctx.land_load c hdest hop).trans ((Ctx.landScalar_owed hn howed).trans ?_)
      rw [hlate]
      rfl
    · have hload : r.isStore = false := by rw [MemReq.isStore, hop]
      have hgood' : (a.poison && !c.amos.contains r.id) = false := by rw [hgood, Bool.false_and]
      refine ⟨fun hn => hlands hload (Ctx.awaits_of_owed howed) hok hgood' _ ?_, fun hn howed' =>
        hlands hload (Ctx.awaits_of_owed howed) hok hgood' _ ?_⟩
      · exact (Ctx.land_amo c hdest hop).trans (Ctx.landScalar_owed hn howed)
      · subst hn
        exact (Ctx.land_amo c hdest hop).trans (Ctx.landScalar_pair howed howed')
    · refine hlands (by rw [MemReq.isStore, hop]) (Ctx.awaits_of_amos hamo) hok (by rw [hamo, Bool.not_true, Bool.and_false]) _ ?_
      exact (Ctx.land_load c hdest hop).trans (Ctx.landScalar_replaced hn howed)
    · have hack := exec_storeAck hk hstore hwait
      exact ⟨fun hok => hack.trans (by rw [if_pos hok]), fun hok => hack.trans (by rw [hok]; rfl)⟩
  · exact ⟨fun hacks => congrArg _ (if_pos (List.isEmpty_iff.2 hacks)), fun hacks => congrArg _ (if_neg (mt List.isEmpty_iff.1 hacks)),
      exec_fence sc, holds_fence_release sc, s.me.drained_iff, s.me.loadsDone_iff, holds_fence_acquire sc⟩

end Sys2Proof.Machine
end

section
/-! Vector accesses of global memory at issue (O27). -/

namespace Sys2Proof.Machine

/-! ### Pieces (R231) -/

theorem groupLanes_eq_nil {n : Nat} {ps : List (Nat × Nat)} : groupLanes n ps = [] ↔ ps = [] := by
  refine ⟨fun h => ?_, fun h => by rw [h, groupLanes]⟩
  cases ps with
  | nil => rfl
  | cons q ps =>
    rw [groupLanes] at h
    split at h
    · split at h <;> cases h
    · cases h

section
variable (g c : Nat) (e : RingEntry) (event : Option (Nat × Nat)) (born : Nat) (data : Option (Nat → List (Nat × List Byte)))
  (late : Nat → List (Nat × Byte))

theorem pieceRequests_eq_nil {id : Nat} {ps : List (List (Nat × Nat))} : pieceRequests g c e event born data late id ps = [] ↔ ps = [] := by
  cases ps <;> simp [pieceRequests]

end

/-! ### A context outside speculative events (R320) -/

theorem SameWork.ahead {s t : State} (h : SameWork s t) (g c : Nat) : t.ahead g c = s.ahead g c := by
  have hlp : ∀ slot, t.lp g slot = s.lp g slot := fun slot => congrArg (fun w : Work => Tab.find w.lps slot) (h.work g)
  simp only [State.ahead, State.eventOf, h.ctx, hlp]

section
variable {s : State} {g c : Nat} (hplain : s.ahead g c = none)
include hplain

theorem State.laneNow_plain (data : VReg) (ad : Nat → Word) :
    s.laneNow g c data ad = fun i => [(0, bytesOfNat 4 (lane data i).toNat)] := by
  funext i
  rw [State.laneNow, hplain]

theorem State.holdParts_plain (ps : List Part) : s.holdParts g c ps = s := by
  rw [State.holdParts, hplain]

end

theorem State.globalRoom_plain {s : State} (hplain : Plain s) (d : Nat) (p : BitVec 3) (addr : Ctx → Vector Word 16 → Nat → Word) :
    s.globalRoom d p addr = true := by
  rw [Plain] at hplain
  rw [State.globalRoom, hplain]

/-! ### The translation of the lanes (R230, R247) -/

theorem State.sameWork_lanesGlobal (s : State) (g c : Nat) (k : Access) (addr : Nat → Word) (ls : List Nat) :
    SameWork s (s.lanesGlobal g c k addr (fun _ => true) ls).1 := by
  induction ls generalizing s with
  | nil => exact .refl s
  | cons i ls ih =>
    have hlane : SameWork s (s.laneGlobal g c k (addr i) true).1 := s.sameWork_globalAccess ..
    have hrest := hlane.trans (ih _)
    simp only [State.lanesGlobal]
    split
    · exact hrest
    · exact hrest
    · exact hrest

/-! ### The requests leave (R230, R233) -/

/-- An entry whose requests have left: it awaits them, and `late` lanes their replay. -/
def RingEntry.awaiting (x : RingEntry) (store : Bool) (ids : List Nat) (late : BitVec 64) : RingEntry :=
  { x with
    lanes := late, pieces := ids, finished := ids.isEmpty && late == 0, kept := x.kept || store,
    st := if ids.isEmpty then (if late = 0 then .done else .parked) else .running }

theorem RingEntry.awaiting_eq (k : Ctx) (i : Instr) (store : Bool) (ids : List Nat) : (k.newEntry i 0).awaiting store ids 0 =
    { k.newEntry i 0 with pieces := ids, finished := ids.isEmpty, kept := store, st := if ids = [] then .done else .running } := by
  cases ids <;> cases store <;> rfl

/-- A context that awaits the stores among the requests that have left. -/
def Ctx.awaiting (k : Ctx) (store : Bool) (ids : List Nat) : Ctx := if store then { k with acks := k.acks ++ ids } else k

section
variable (k : Ctx) (store : Bool) (ids : List Nat)

theorem Ctx.awaiting_x : (k.awaiting store ids).x = k.x := by
  unfold Ctx.awaiting
  split <;> rfl

theorem Ctx.awaiting_v : (k.awaiting store ids).v = k.v := by
  unfold Ctx.awaiting
  split <;> rfl

theorem Ctx.awaiting_ring : (k.awaiting store ids).ring = k.ring := by
  unfold Ctx.awaiting
  split <;> rfl

theorem Ctx.awaiting_stepArm : (k.awaiting store ids).stepArm = k.stepArm := by
  unfold Ctx.awaiting
  split <;> rfl

theorem Ctx.awaiting_acks : (k.awaiting store ids).acks = if store then k.acks ++ ids else k.acks := by
  unfold Ctx.awaiting
  split <;> rfl

end

/-- The machine once the requests of a vector access are in the queue. -/
def State.queued (s : State) (rs : List MemReq) : State :=
  let s1 : State := { s with nextId := s.nextId + rs.length }
  if rs.isEmpty then s1 else s1.enqueue s.cur.1 ⟨.mem rs, s.cur.2, []⟩

section
variable {s t : State} {i : Instr}

theorem State.me_queued (rs : List MemReq) : (t.queued rs).me = t.me := by
  unfold State.queued
  dsimp only
  split
  · rfl
  · exact State.me_enqueue ..

theorem State.sendLanes_eq (hsame : SameWork (s.withEntry i) t) (hnext : NextFree s) (store : Bool) (rs : List MemReq) :
    t.sendLanes s.cur.1 s.cur.2 s.me.nextSeq store rs 0 =
      (t.queued rs).setMe ((s.me.push ((s.me.newEntry i 0).awaiting store (rs.map fun r => r.id) 0)).awaiting store (rs.map fun r => r.id)) := by
  have hcur : t.cur = s.cur := hsame.cur
  have hctx : (t.queued rs).me = s.me.push (s.me.newEntry i 0) := (State.me_queued rs).trans (hsame.me.trans (State.me_setMe ..))
  have hsend : t.sendLanes t.cur.1 t.cur.2 s.me.nextSeq store rs 0 = (t.queued rs).setMe
      (((t.queued rs).me.setEntry s.me.nextSeq (RingEntry.awaiting · store (rs.map fun r => r.id) 0)).awaiting store (rs.map fun r => r.id)) := by
    cases rs <;> rfl
  rw [← hcur, hsend, hctx]
  exact congrArg _ (congrArg (Ctx.awaiting · store _) (Ctx.setEntry_push (k := s.me) (e := s.me.newEntry i 0) hnext _))

/-- What the machine is once the requests have left, and the instruction has retired. -/
theorem State.queued_requests (hsame : SameWork (s.withEntry i) t) (rs : List MemReq) :
    ((t.queued rs).work s.cur.1).requests
      = if rs = [] then (s.work s.cur.1).requests else (s.work s.cur.1).requests ++ [⟨.mem rs, s.cur.2, []⟩] := by
  have hreqs : (t.work s.cur.1).requests = (s.work s.cur.1).requests :=
    (congrArg Work.requests (hsame.work _)).trans (s.work_setCtx_field Work.requests (fun _ _ => rfl) ..)
  have hcur : t.cur = s.cur := hsame.cur
  unfold State.queued
  cases rs with
  | nil => exact hreqs
  | cons r rs =>
    rw [← hreqs, ← hcur]
    exact congrArg Work.requests ((State.work_setWork ..).trans (if_pos rfl))

theorem State.sameBytes_queued (rs : List MemReq) : SameBytes t (t.queued rs) := by
  unfold State.queued
  dsimp only
  split
  · exact ⟨fun _ => rfl, fun _ _ => rfl⟩
  · exact State.sameBytes_enqueue ({ t with nextId := t.nextId + rs.length }) ..

section
variable {d : BitVec 5} {p : BitVec 3} {store : Bool} {piece : Nat} {addr : Ctx → Vector Word 16 → Nat → Word} {ps : List (Nat × Nat)}
  (hplain : Plain s) (hexec : exec i s = .next (s.issueGlobal i (globalBody d p store piece addr)))
  (haddr : addr (s.me.push (s.me.newEntry i 0)) s.me.x = addr s.me s.me.x)

/-- The requests of a vector access of the executing context, for the lanes ps (R231). -/
def State.laneRequests (s : State) (i : Instr) (d : BitVec 5) (store : Bool) (piece : Nat) (ps : List (Nat × Nat)) : List MemReq :=
  pieceRequests s.cur.1 s.cur.2 (s.me.newEntry i 0) s.me.event (s.cycle s.cur.1)
    (if store then some fun n => [(0, bytesOfNat 4 (lane (s.me.vreg d.toNat) n).toNat)] else none) (fun _ => []) s.nextId (groupLanes piece ps)

include hplain haddr in
theorem globalBody_withEntry (hlanes : (s.withEntry i).lanesGlobal s.cur.1 s.cur.2 (if store then .write else .read) (addr s.me s.me.x)
      (fun _ => true) (activeLanes (s.me.pred p)) = (t, ps, [])) :
    globalBody d p store piece addr (s.withEntry i) s.cur.1 s.cur.2 (s.me.newEntry i 0) =
      t.sendLanes s.cur.1 s.cur.2 s.me.nextSeq store (s.laneRequests i d store piece ps) 0 := by
  have hahead : (s.withEntry i).ahead s.cur.1 s.cur.2 = none := (s.ahead_withEntry i).trans hplain
  have hsame : SameWork (s.withEntry i) t := by
    have hkept := (s.withEntry i).sameWork_lanesGlobal s.cur.1 s.cur.2 (if store then .write else .read) (addr s.me s.me.x)
      (activeLanes (s.me.pred p))
    rwa [hlanes] at hkept
  have hhold : ∀ l, t.holdParts s.cur.1 s.cur.2 l = t := State.holdParts_plain ((hsame.ahead ..).trans hahead)
  have hnow : (fun n => !store || !((fun n => [((0 : Nat), bytesOfNat 4 (lane ((s.me.push (s.me.newEntry i 0)).vreg d.toNat) n).toNat)])
      n).isEmpty) = fun _ => true := funext fun _ => Bool.or_true _
  have haddr' : addr (s.me.push (s.me.newEntry i 0)) (s.me.newEntry i 0).xs = addr s.me s.me.x := haddr
  have hlate : (fun n => if store then [] else (s.withEntry i).covered s.cur.1 s.cur.2 false (addr s.me s.me.x n).toNat 4) = fun _ => [] :=
    funext fun n => (congrArg (if store then [] else ·) (State.covered_plain (s := s.withEntry i) hahead false _ 4)).trans (ite_self _)
  have hstop : stopTaken [] = none := rfl
  have hid : t.nextId = s.nextId := hsame.nextId
  have hpred : (s.me.push (s.me.newEntry i 0)).pred p = s.me.pred p := rfl
  have htodo : (s.me.newEntry i 0).lanes = 0 := rfl
  unfold globalBody vectorGlobal
  dsimp only
  rw [State.ctx_withEntry, if_pos htodo, hpred, haddr', State.laneNow_plain hahead, hnow, hlanes, hstop]
  dsimp only
  rw [hhold, ite_self, hid, hlate]
  rfl

include hexec in
theorem holds_vectorGlobal (hroom : s.requestRoom s.cur.1 = false) : Holds i s (.blocked .sendQueue) := by
  rw [Holds, hexec, State.issueGlobal, hroom]
  rfl

include hplain hexec haddr in
/-- A vector access whose active lanes all translate: its requests are in one entry of the queue, and its ring entry awaits them. -/
theorem vectorGlobal_goes (hnext : NextFree s) (hroom : s.requestRoom s.cur.1 = true) (harm : s.me.stepArm = false)
    (hlanes : (s.withEntry i).lanesGlobal s.cur.1 s.cur.2 (if store then .write else .read) (addr s.me s.me.x)
      (fun _ => true) (activeLanes (s.me.pred p)) = (t, ps, [])) :
    let rs := s.laneRequests i d store piece ps
    let ids := rs.map fun r => r.id
    ∃ u, exec i s = .next u ∧ SameBytes s u ∧ u.me.x = s.me.x ∧ u.me.v = s.me.v
      ∧ (u.work s.cur.1).requests
          = (if ps = [] then (s.work s.cur.1).requests else (s.work s.cur.1).requests ++ [⟨.mem rs, s.cur.2, []⟩])
      ∧ u.me.acks = (if store then s.me.acks ++ ids else s.me.acks)
      ∧ u.me.ring = s.me.ring ++ [{ s.me.newEntry i 0 with
          pieces := ids, finished := ids.isEmpty, kept := store, st := if ps = [] then .done else .running }] := by
  intro rs ids
  have hsame : SameWork (s.withEntry i) t := by
    have hkept := (s.withEntry i).sameWork_lanesGlobal s.cur.1 s.cur.2 (if store then .write else .read) (addr s.me s.me.x)
      (activeLanes (s.me.pred p))
    rwa [hlanes] at hkept
  have hnil : rs = [] ↔ ps = [] := (pieceRequests_eq_nil ..).trans groupLanes_eq_nil
  let l := (s.me.push ((s.me.newEntry i 0).awaiting store ids 0)).awaiting store ids
  have harm' : l.stepArm = false := (Ctx.awaiting_stepArm ..).trans harm
  have hgoes : exec i s = .next ((t.queued rs).setMe (l.retired 2)) := by
    have hbody := (globalBody_withEntry (d := d) (piece := piece) hplain haddr hlanes).trans (State.sendLanes_eq hsame hnext store rs)
    rw [hexec, State.issueGlobal, if_pos hroom, ← State.retire_setMe _ 2 harm', ← hbody]
    rfl
  have hids : ids = [] ↔ ps = [] := List.map_eq_nil_iff.trans hnil
  have hring : l.ring = s.me.ring ++ [(s.me.newEntry i 0).awaiting store ids 0] := Ctx.awaiting_ring ..
  have hreqs : (((t.queued rs).setMe (l.retired 2)).work s.cur.1).requests = _ :=
    (State.work_setCtx_field Work.requests (fun _ _ => rfl) ..).trans (State.queued_requests hsame rs)
  refine ⟨_, hgoes, ?_, ?_, ?_, ?_, ?_, ?_⟩
  · exact (((sameBytes_setMe s _).trans hsame.sameBytes).trans (State.sameBytes_queued rs)).trans (sameBytes_setMe ..)
  · rw [State.me_setMe, Ctx.retired_x]
    exact Ctx.awaiting_x ..
  · rw [State.me_setMe, Ctx.retired_v]
    exact Ctx.awaiting_v ..
  · simp only [← hnil]
    exact hreqs
  · rw [State.me_setMe]
    exact Ctx.awaiting_acks ..
  · rw [State.me_setMe]
    refine hring.trans ?_
    rw [RingEntry.awaiting_eq]
    simp only [hids]

end

end

/-- Settles O27: under its checks each form is one vector access, whose lanes are translated and sent together. -/
theorem vectorGlobalIssue : Obligations.VectorGlobal := by
  intro s d a b p hplain hnext g c act none_
  have hgoes := fun {i : Instr} {store : Bool} {piece : Nat} {addr : Ctx → Vector Word 16 → Nat → Word}
      (hexec : exec i s = .next (s.issueGlobal i (globalBody d p store piece addr)))
      (haddr : addr (s.me.push (s.me.newEntry i 0)) s.me.x = addr s.me s.me.x) =>
    And.intro (holds_vectorGlobal hexec) fun hroom harm t ps hlanes =>
      vectorGlobal_goes (t := t) (ps := ps) hplain hexec haddr hnext hroom harm hlanes
  have hstore := fun {i : Instr} {piece : Nat} {addr : Ctx → Vector Word 16 → Nat → Word}
      (hexec : exec i s = .next (s.issueGlobalStore i d p addr (globalBody d p true piece addr))) =>
    hexec.trans (congrArg Host.Outcome.next (if_pos (State.globalRoom_plain hplain d.toNat p addr)))
  simp only [List.forall_mem_cons, List.not_mem_nil, false_imp_iff, implies_true, and_true]
  refine ⟨hgoes rfl rfl, hgoes rfl rfl, hgoes (hstore rfl) rfl, hgoes (hstore rfl) rfl⟩

end Sys2Proof.Machine
end

section
/-! Commands at issue (O44). -/

namespace Sys2Proof.Machine

/-! ### Queues (R272, R276) -/

theorem queueNum_injective : Function.Injective queueNum := by
  intro p q
  cases p <;> cases q <;> simp [queueNum]

theorem Work.queue_putQueue (w : Work) (p q : Queue) (l : List Cmd) : (w.putQueue q l).queue p = if p = q then l else w.queue p := by
  simp only [Work.queue, Work.putQueue, Tab.look_put, queueNum_injective.eq_iff]

/-- A core with a command at the end of each of some queues. -/
def Work.queued (w : Work) (qs : List Queue) (m : Cmd) : Work := qs.foldl (fun v q => v.putQueue q (v.queue q ++ [m])) w

section
variable (w : Work) (m : Cmd)

theorem Work.queued_eq (qs : List Queue) : ∃ ts, w.queued qs m = { w with queues := ts } := by
  obtain ⟨ts, h⟩ := Work.putQueues_eq (fun v e => v.queue e.1 ++ [e.2]) (qs.map fun q => (q, m)) w
  rw [List.foldl_map] at h
  exact ⟨ts, h⟩

theorem Work.queue_queued {qs : List Queue} (hqs : qs.Nodup) (p : Queue) :
    (w.queued qs m).queue p = if p ∈ qs then w.queue p ++ [m] else w.queue p := by
  induction qs generalizing w with
  | nil => rfl
  | cons q qs ih =>
    obtain ⟨hq, hqs⟩ := List.nodup_cons.1 hqs
    refine (ih (w.putQueue q (w.queue q ++ [m])) hqs).trans ?_
    rw [Work.queue_putQueue]
    by_cases hp : p = q
    · rw [hp, if_neg hq, if_pos rfl, if_pos List.mem_cons_self]
    · simp only [List.mem_cons, hp, false_or, if_false]

end

theorem nodup_maskQueues : ∀ m, (maskQueues m).Nodup := by decide

/-! ### A command enters its queues (R209, R272, R273) -/

section
variable (s : State) (qs : List Queue) (i : Instr) (b : CmdBody) (fs : List (Nat × Nat))

/-- The ring entry of a command. -/
def State.commandEntry : RingEntry := s.me.newEntry i (queueUnit (qs.headD .qc0))

/-- The machine in which a command has its number and its ring entry. -/
def State.withCommandEntry : State := s.fresh.setMe (s.me.push (s.commandEntry qs i))

theorem State.work_withCommandEntry_field {α : Type} (p : Work → α) (hp : ∀ w cs, p { w with ctxs := cs } = p w) (h : Nat) :
    p ((s.withCommandEntry qs i).work h) = p (s.work h) :=
  State.work_setCtx_field p hp s.fresh ..

/-- The machine in which the command is in its queues too, with the feeders fs (R283). -/
def State.withCommand : State := (s.withCommandEntry qs i).setWork s.cur.1
  { ((s.withCommandEntry qs i).work s.cur.1).queued qs (s.command b) with feeders := fs }

theorem State.work_withCommand_field {α : Type} (p : Work → α)
    (hp : ∀ w cs ts fs, p { w with ctxs := cs, queues := ts, feeders := fs } = p w) (h : Nat) :
    p ((s.withCommand qs i b fs).work h) = p (s.work h) := by
  have hentry := s.work_withCommandEntry_field qs i p (fun w cs => hp w cs w.queues w.feeders)
  obtain ⟨ts, hts⟩ := ((s.withCommandEntry qs i).work s.cur.1).queued_eq (s.command b) qs
  rw [State.withCommand, State.work_setWork, hts]
  split
  · next hg => exact (hp ((s.withCommandEntry qs i).work s.cur.1) _ ts fs).trans (by rw [hentry, hg])
  · exact hentry h

theorem State.queue_withCommand {qs : List Queue} (hqs : qs.Nodup) (p : Queue) :
    ((s.withCommand qs i b fs).work s.cur.1).queue p =
      if p ∈ qs then (s.work s.cur.1).queue p ++ [s.command b] else (s.work s.cur.1).queue p := by
  have hentry := s.work_withCommandEntry_field qs i (Work.queue · p) (fun _ _ => rfl) s.cur.1
  rw [State.withCommand, State.work_setWork, if_pos rfl, ← hentry]
  exact Work.queue_queued _ _ hqs p

theorem State.me_withCommand : (s.withCommand qs i b fs).me = s.me.push (s.commandEntry qs i) := by
  obtain ⟨ts, hts⟩ := ((s.withCommandEntry qs i).work s.cur.1).queued_eq (s.command b) qs
  exact (State.me_setWork (s.withCommandEntry qs i) s.cur.1 (by rw [hts])).trans (State.me_setMe ..)

theorem State.sameBytes_withCommand : SameBytes s (s.withCommand qs i b fs) :=
  ⟨fun _ => rfl, fun h a => congrArg (Memory.get · a) (s.work_withCommand_field qs i b fs Work.spad (fun _ _ _ _ => rfl) h)⟩

theorem State.enterQueues_room {qs : List Queue} (hroom : (s.work s.cur.1).fullQueue qs = none) :
    ∃ fs, s.enterQueues qs i b = (s.withCommand qs i b fs).retire 2 := by
  rw [State.enterQueues, hroom]
  simp only [State.queueCmd, State.setWork_setWork, State.work_setWork, if_true]
  exact ⟨_, rfl⟩

theorem State.enterQueues_full {qs : List Queue} {p : Queue} (hfull : (s.work s.cur.1).fullQueue qs = some p) :
    s.enterQueues qs i b = s.hold (.blocked (.command p)) := by
  rw [State.enterQueues, hfull]

/-- Instruction i puts a command of body b at the end of its queues qs and takes a ring entry, and moves nothing yet (R272, R273). -/
def JoinsQueues (s : State) (i : Instr) (qs : List Queue) (b : CmdBody) : Prop :=
  ∃ u n, exec i s = .next u ∧ SameBytes s u ∧ (u.work s.cur.1).matrix = (s.work s.cur.1).matrix ∧ u.me.ring = s.me.ring ++ [n]
    ∧ n.st = .running ∧ SameButFlow { s.me with ring := u.me.ring, nextSeq := u.me.nextSeq } u.me
    ∧ (∀ p ∈ qs, (u.work s.cur.1).queue p = (s.work s.cur.1).queue p ++ [s.command b])
    ∧ ∀ p, p ∉ qs → (u.work s.cur.1).queue p = (s.work s.cur.1).queue p

/-- Instruction i, its checks done, puts its command in its queues qs when all have room, and waits for the first that is full (R272). -/
def IssuesCommand (s : State) (i : Instr) (qs : List Queue) (b : CmdBody) : Prop :=
  ((s.work s.cur.1).fullQueue qs = none → s.me.stepArm = false → JoinsQueues s i qs b)
    ∧ ∀ p, (s.work s.cur.1).fullQueue qs = some p → Holds i s (.blocked (.command p))

end

section
variable {s : State} {i : Instr} {qs : List Queue} {b : CmdBody} (hexec : exec i s = .next (s.enterQueues qs i b)) (hqs : qs.Nodup)
include hexec hqs

theorem joinsQueues_of_enterQueues (hroom : (s.work s.cur.1).fullQueue qs = none) (harm : s.me.stepArm = false) :
    JoinsQueues s i qs b := by
  obtain ⟨fs, henter⟩ := s.enterQueues_room i b hroom
  let t := s.withCommand qs i b fs
  let l := s.me.push (s.commandEntry qs i)
  have hme : t.me = l := s.me_withCommand ..
  have hretire : t.retire 2 = t.setMe (l.retired 2) := by
    rw [State.retire_eq _ _ (by rw [hme]; exact harm), hme]
    rfl
  have hqueue : ∀ p, ((t.setMe (l.retired 2)).work s.cur.1).queue p =
      if p ∈ qs then (s.work s.cur.1).queue p ++ [s.command b] else (s.work s.cur.1).queue p := fun p =>
    (State.work_setCtx_field (Work.queue · p) (fun _ _ => rfl) ..).trans (s.queue_withCommand i b fs hqs p)
  have hmatrix : ((t.setMe (l.retired 2)).work s.cur.1).matrix = (s.work s.cur.1).matrix :=
    (State.work_setCtx_field Work.matrix (fun _ _ => rfl) ..).trans (s.work_withCommand_field qs i b fs Work.matrix (fun _ _ _ _ => rfl) _)
  refine ⟨t.setMe (l.retired 2), s.commandEntry qs i, by rw [hexec, henter, hretire],
    (s.sameBytes_withCommand qs i b fs).trans (sameBytes_setMe ..), hmatrix, ?_, rfl, ?_, fun p hp => ?_, fun p hp => ?_⟩
  · rw [State.me_setMe]
    rfl
  · rw [State.me_setMe]
    exact l.retired_sameButFlow 2
  · rw [hqueue, if_pos hp]
  · rw [hqueue, if_neg hp]

theorem issuesCommand_of_enterQueues : IssuesCommand s i qs b :=
  ⟨joinsQueues_of_enterQueues hexec hqs, fun _ hfull => hexec.trans (congrArg _ (s.enterQueues_full i b hfull))⟩

end

/-! ### The checks of the instructions (R273, R284, R293) -/

section
variable {s : State} (hplain : Plain s)

section
include hplain

theorem State.issueCommand_plain (qs : List Queue) (i : Instr) (b : CmdBody) (ws : List Span) :
    s.issueCommand qs i b ws = s.enterQueues qs i b := by
  rw [Plain] at hplain
  simp only [State.issueCommand, hplain]

theorem State.issueMatrix_plain {ok : Bool} {ops : List (Word × Nat × Nat)} (hok : ok = true) (hops : s.matCauses ops = []) (i : Instr)
    (b : CmdBody) (ws : List Span) : s.issueMatrix i b ok ops ws = s.enterQueues [.qm] i b := by
  simp only [State.issueMatrix, hok, hops]
  exact State.issueCommand_plain hplain ..

variable {q f : BitVec 1} {a b c : XReg} {ix : BitVec 6} {t : BitVec 2} (hbar : s.barOperand (s.x c) = [])
include hbar

theorem exec_copy_plain (hclean : (s.work s.cur.1).poison = []) : exec (.copy q a b c ix t f) s =
    .next (s.enterQueues [if q = 0 then .qc0 else .qc1] (.copy q a b c ix t f)
      (.copy (s.x a) (s.x b) (s.x c) ((s.work s.cur.1).spad.bytes (tmapAt ix.toNat) 64) t (f == 1))) := by
  show execCopy q a b c ix t f s = _
  simp only [execCopy, hbar, Work.poisonedAt, hclean]
  exact congrArg _ (State.issueCommand_plain hplain ..)

theorem exec_pagein_plain : exec (.pagein q a b c) s =
    .next (s.enterQueues [if q = 0 then .qc0 else .qc1] (.pagein q a b c) (.pagein (s.x a) (s.x b) (s.x c))) := by
  show execPagein q a b c s = _
  simp only [execPagein, hbar]
  exact congrArg _ (State.issueCommand_plain hplain ..)

theorem exec_gatherkv_plain {l : Unit} (hal : (s.x a).toNat % 16 = 0) (hown : (s.x a).toNat < 0x80000)
    (hend : (s.x a).toNat % 0x80000 + 64 ≤ 0x70000) (himage : s.imageAccess s.cur.1 s.me.sup (s.x a &&& ~~~15) 4 0 = .ok l) :
    exec (.gatherkv a c) s = .next (s.enterQueues [.qg] (.gatherkv a c) (.gather (s.x a) (s.x c))) := by
  have hin : ¬ ((s.x a).toNat ≥ 0x80000 ∨ field (s.x a) 0 19 + 64 > 0x70000) := by
    rw [field_zero]
    omega
  show execGatherkv a c s = _
  simp only [execGatherkv, hbar, himage, if_neg hin, hal]
  exact congrArg _ (State.issueCommand_plain hplain ..)

end

theorem exec_copy_refused {q f : BitVec 1} {a b c : XReg} {ix : BitVec 6} {t : BitVec 2} (hbar : s.barOperand (s.x c) ≠ []) :
    exec (.copy q a b c ix t f) s = .next (s.trapAll (s.barOperand (s.x c))) :=
  congrArg _ (if_pos (by simpa [List.isEmpty_iff] using hbar))

theorem exec_pagein_refused {q : BitVec 1} {a b c : XReg} (hbar : s.barOperand (s.x c) ≠ []) :
    exec (.pagein q a b c) s = .next (s.trapAll (s.barOperand (s.x c))) :=
  congrArg _ (if_pos (by simpa [List.isEmpty_iff] using hbar))

theorem State.issueMatrix_refused {ops : List (Word × Nat × Nat)} (hops : s.matCauses ops ≠ []) (i : Instr) (b : CmdBody)
    (ws : List Span) : s.issueMatrix i b true ops ws = s.trapAll (s.matCauses ops) :=
  if_neg (by simpa [List.isEmpty_iff] using hops)

end

/-- Settles O44: a command whose checks find nothing enters its queues or waits for room, and a refused one traps. -/
theorem commandIssue : Obligations.CommandIssue := by
  intro s a b c q f v m ix t mask sh ea eb hplain g w x y qc entry bar ranges sacc gather
  have hone : ∀ p : Queue, [p].Nodup := List.nodup_singleton
  have hmatrix := fun {i : Instr} {b : CmdBody} {ok : Bool} {ops : List (Word × Nat × Nat)} {ws : List Span}
      (hexec : exec i s = .next (s.issueMatrix i b ok ops ws)) (hok : ok = true) (hops : s.matCauses ops = []) =>
    issuesCommand_of_enterQueues (hexec.trans (congrArg _ (State.issueMatrix_plain hplain hok hops i b ws))) (hone .qm)
  refine ⟨?_, fun hbar => ⟨exec_copy_refused hbar, exec_pagein_refused hbar⟩,
    fun hops => congrArg _ (State.issueMatrix_refused hops ..)⟩
  change ∀ e ∈ (_ : List (Instr × List Queue × CmdBody × Prop)), e.2.2.2 → IssuesCommand s e.1 e.2.1 e.2.2.1
  simp only [List.forall_mem_cons, List.not_mem_nil, false_imp_iff, implies_true, and_true]
  refine ⟨fun ⟨hbar, hclean⟩ => ?copy, fun hbar => ?pagein, fun ⟨hbar, hal, hown, hend, l, himage⟩ => ?gatherkv, fun _ => ?efence,
    hmatrix rfl rfl, fun _ => hmatrix rfl rfl rfl, hmatrix rfl rfl, fun _ => hmatrix rfl rfl rfl, fun ⟨hal, hlow, hops⟩ => ?aread,
    fun _ => hmatrix rfl rfl rfl, fun ⟨hcount, hops⟩ => ?ofix⟩
  case copy => exact issuesCommand_of_enterQueues (exec_copy_plain hplain hbar hclean) (hone _)
  case pagein => exact issuesCommand_of_enterQueues (exec_pagein_plain hplain hbar) (hone _)
  case gatherkv => exact issuesCommand_of_enterQueues (exec_gatherkv_plain hplain hbar hal hown hend himage) (hone _)
  case efence =>
    exact issuesCommand_of_enterQueues (congrArg _ (State.issueCommand_plain hplain ..)) (nodup_maskQueues mask)
  case aread => exact hmatrix rfl (Bool.and_eq_true_iff.2 ⟨beq_iff_eq.2 hal, decide_eq_true hlow⟩) hops
  case ofix => exact hmatrix rfl (decide_eq_true hcount) hops

end Sys2Proof.Machine
end

section
/-! The lower bound of a round (O43). -/

namespace Sys2Proof.Machine

/-! ### Rounds (R327) -/

/-- The lesser of two virtual times, as the rounds choose it. -/
theorem lesser_le (a b : Word) : (if b.ult a then b else a) ≤ a ∧ (if b.ult a then b else a) ≤ b := by
  split
  case isTrue h => exact ⟨BitVec.le_of_lt (BitVec.ult_iff_lt.1 h), BitVec.le_refl b⟩
  case isFalse h => exact ⟨BitVec.le_refl a, BitVec.not_lt.1 fun hlt => h (BitVec.ult_iff_lt.2 hlt)⟩

theorem foldl_lesser_le (l : List Word) (a : Word) : (l.foldl (fun a b => if b.ult a then b else a) a) ≤ a
    ∧ ∀ v ∈ l, l.foldl (fun a b => if b.ult a then b else a) a ≤ v := by
  induction l generalizing a with
  | nil => exact ⟨BitVec.le_refl a, by simp⟩
  | cons b r ih =>
    obtain ⟨hstart, hrest⟩ := ih (if b.ult a then b else a)
    obtain ⟨hleft, hright⟩ := lesser_le a b
    exact ⟨BitVec.le_trans hstart hleft, List.forall_mem_cons.2 ⟨BitVec.le_trans hstart hright, hrest⟩⟩

theorem leastOf_le {l : List Word} {v : Word} (hv : v ∈ l) : leastOf l ≤ v := (foldl_lesser_le l _).2 v hv

/-- Settles O43: the result is the least of the times or the published GVT, whichever is greater. -/
theorem roundLowerBound : Obligations.RoundLowerBound := by
  intro s t d q r
  let times := q.water :: s.flyingTimes t d ++ (s.partCores t).flatMap (s.coreTimes t d)
  have hr : r = if (leastOf times).ult q.gvt then q.gvt else leastOf times := rfl
  by_cases hbelow : (leastOf times).ult q.gvt = true
  · rw [hr, if_pos hbelow]
    exact ⟨BitVec.le_refl _, fun habove => absurd habove (BitVec.lt_irrefl _)⟩
  · rw [hr, if_neg hbelow]
    have hleast : ∀ v ∈ times, leastOf times ≤ v := fun v => leastOf_le
    refine ⟨BitVec.not_lt.1 fun h => hbelow (BitVec.ult_iff_lt.2 h), fun _ => ⟨hleast _ (by simp [times]),
      fun v hv => hleast v (by simp [times, hv]), fun g hg v hv => hleast v ?_⟩⟩
    exact List.mem_append_right _ (List.mem_flatMap.2 ⟨g, hg, hv⟩)

end Sys2Proof.Machine
end

section
/-! The matrix multiplication (O46). -/

namespace Sys2Proof.Machine

/-! ### The partials of one pass (R296) -/

section
variable {m : Memory} (h : m.wf = true)
include h

theorem Memory.fp_setFp (e i v : Nat) : (m.setFp i v).fp e = if e = i then v % 2 ^ 32 else m.fp e := by
  unfold Memory.setFp Memory.fp
  split
  case isTrue heq =>
    subst heq
    have hread := Memory.bytes_store (4 * e) (bytesOfNat 4 v) h
    rw [length_bytesOfNat] at hread
    exact (congrArg natOfBytes hread).trans (natOfBytes_bytesOfNat 4 v)
  case isFalse hne =>
    refine congrArg natOfBytes (Memory.bytes_congr fun j hj => ?_)
    rw [Memory.get_store _ _ _ h, length_bytesOfNat, if_neg (by omega)]

end

/-- What one element of a pass does to the partials and the flags. -/
def Matrix.passStep (x : Matrix) (fa : Fmt) (valid : BitVec 8) (a : Memory × Flags) (e : Nat) : Memory × Flags :=
  if !valid.getLsbD (e / 2048) then a
  else
    let r := blockSum fa x.fmt (x.pairs fa (e / 2048) (e % 2048 / shapeN x.shape) (e % 2048 % shapeN x.shape))
    (a.1.setFp e r.1, a.2 ||| r.2)

theorem Matrix.pass_eq_foldl (x : Matrix) (fa : Fmt) (valid : BitVec 8) :
    x.pass fa valid = (List.range 16384).foldl (x.passStep fa valid) (x.partials, 0) := rfl

/-- What a pass leaves in element e of the partials: the BlockSum where its row is valid. -/
def Matrix.partialAt (x : Matrix) (fa : Fmt) (valid : BitVec 8) (e : Nat) : Nat :=
  if valid.getLsbD (e / 2048) then
    (blockSum fa x.fmt (x.pairs fa (e / 2048) (e % 2048 / shapeN x.shape) (e % 2048 % shapeN x.shape))).1 % 2 ^ 32
  else x.partials.fp e

section
variable {x : Matrix} (fa : Fmt) (valid : BitVec 8) (hwf : x.partials.wf = true)
include hwf

/-- After the first n elements: those are as the pass leaves them, the others as they were, in canonical form. -/
theorem Matrix.fp_foldl_passStep (n : Nat) :
    let a := (List.range n).foldl (x.passStep fa valid) (x.partials, 0)
    a.1.wf = true ∧ ∀ e, a.1.fp e = if e < n then x.partialAt fa valid e else x.partials.fp e := by
  induction n with
  | zero => exact ⟨hwf, fun e => rfl⟩
  | succ n ih =>
    obtain ⟨hform, hfp⟩ := ih
    simp only [List.range_succ, List.foldl_append, List.foldl_cons, List.foldl_nil, Matrix.passStep]
    by_cases hrow : valid.getLsbD (n / 2048) = true
    · simp only [hrow, Bool.not_true, Bool.false_eq_true, if_false]
      refine ⟨Memory.wf_store _ _ hform, fun e => ?_⟩
      rw [Memory.fp_setFp hform, hfp]
      rcases Nat.lt_trichotomy e n with hlt | rfl | hgt
      · rw [if_neg hlt.ne, if_pos hlt, if_pos (hlt.trans n.lt_succ_self)]
      · rw [if_pos rfl, if_pos e.lt_succ_self, Matrix.partialAt, if_pos hrow]
      · rw [if_neg hgt.ne', if_neg hgt.not_gt, if_neg (by omega)]
    · simp only [hrow, Bool.not_false, if_true]
      refine ⟨hform, fun e => ?_⟩
      rw [hfp]
      rcases Nat.lt_trichotomy e n with hlt | rfl | hgt
      · rw [if_pos hlt, if_pos (hlt.trans n.lt_succ_self)]
      · rw [if_neg e.lt_irrefl, if_pos e.lt_succ_self, Matrix.partialAt, if_neg hrow]
      · rw [if_neg hgt.not_gt, if_neg (by omega)]

theorem Matrix.fp_pass {e : Nat} (he : e < 16384) : (x.pass fa valid).1.fp e = x.partialAt fa valid e := by
  rw [Matrix.pass_eq_foldl, (Matrix.fp_foldl_passStep fa valid hwf 16384).2 e, if_pos he]

end

/-- The engine after an MMA on its valid rows whose pass gave partials and flags. -/
def Matrix.multiplied (x : Matrix) (valid : BitVec 8) (r : Memory × Flags) : Matrix :=
  { x with partials := r.1, full := true, pshape := x.shape, pvalid := valid }.raise r.2

theorem Matrix.partials_multiplied (x : Matrix) (valid : BitVec 8) (r : Memory × Flags) :
    (x.multiplied valid r).partials = r.1 := rfl

section
variable {x : Matrix} {fa : Fmt} {masked : Bool} (hclean : x.mmaPoison fa (x.validRows masked) = false)
include hclean

theorem Matrix.mma_loaded : x.mma x.shape fa x.fmt masked = .ok (x.multiplied (x.validRows masked) (x.pass fa (x.validRows masked))) := by
  unfold Matrix.mma
  rw [if_neg (by simp), if_neg (by simp [hclean])]
  rfl

/-- What O46 says of an MMA with the loaded shape and format holds wherever the partials are in canonical form. -/
theorem Matrix.mma_of_wf (hwf : x.partials.wf = true) :
    ∃ y, x.mma x.shape fa x.fmt masked = .ok y ∧ y.full = true ∧ y.pshape = x.shape ∧ y.pvalid = x.validRows masked
      ∧ y.working = x.working ∧ y.visible = x.visible ∧ y.cells = x.cells ∧ y.rows = x.rows
      ∧ ∀ e, e < 16384 → y.partials.fp e = x.partialAt fa (x.validRows masked) e := by
  have hpass := fun e => Matrix.fp_pass fa (x.validRows masked) hwf (e := e)
  rw [Matrix.mma_loaded hclean]
  generalize x.pass fa (x.validRows masked) = r at hpass
  exact ⟨x.multiplied (x.validRows masked) r, rfl, rfl, rfl, rfl, rfl, rfl, rfl, rfl, hpass⟩

end

/-! ### Partials that list an address twice -/

theorem Memory.element_nil (base : Nat) (f : Fmt) (i : Nat) : Memory.element [] base f i = 0 := by
  have hbytes : ∀ n a, natOfBytes (Memory.bytes [] a n) = 0 := by
    intro n
    induction n with
    | zero => exact fun _ => rfl
    | succ n ih => exact fun a => by simp [Memory.bytes, natOfBytes, Memory.get, ih]
  simp only [Memory.element, hbytes]
  split <;> simp [Memory.get]

/-- An engine with nothing in its row buffer and no cells, whose partials list address 0 twice. -/
def Matrix.twice : Matrix := { Matrix.reset with rowMask := 1, partials := [(0, 1), (0, 2)] }

theorem Matrix.pairs_twice (i b j : Nat) : Matrix.twice.pairs 1 i b j = List.replicate 32 (0, 0) := by
  have hzero : ∀ t, (Memory.element Matrix.twice.rows (1024 * i) 1 (32 * b + t), Matrix.twice.b (32 * b + t) j) = (0, 0) :=
    fun t => congrArg₂ Prod.mk (Memory.element_nil ..) (Memory.element_nil ..)
  simp only [Matrix.pairs, hzero]
  rfl

theorem Matrix.passStep_twice (valid : BitVec 8) (a : Memory × Flags) (e : Nat) :
    (Matrix.twice.passStep 1 valid a e).1 = if valid.getLsbD (e / 2048) then a.1.setFp e 0 else a.1 := by
  have hsum : blockSum 1 Matrix.twice.fmt (List.replicate 32 (0, 0)) = (0, 0) := rfl
  unfold Matrix.passStep
  simp only [Matrix.pairs_twice, hsum]
  cases valid.getLsbD (e / 2048) <;> rfl

/-- Zeros written above the one byte listed leave it. -/
theorem Memory.setFp_zero_above {e : Nat} (he : e ≠ 0) : Memory.setFp [(0, 2)] e 0 = [(0, 2)] := by
  have hset : ∀ a, a ≠ 0 → Memory.set [(0, 2)] a 0 = [(0, 2)] := fun a ha => by simp [Memory.set, ha]
  have hstore : ∀ n a, a ≠ 0 → Memory.store [(0, 2)] a (List.replicate n 0) = [(0, 2)] := by
    intro n
    induction n with
    | zero => exact fun _ _ => rfl
    | succ n ih => exact fun a ha => by rw [List.replicate_succ, Memory.store, hset a ha, ih _ a.succ_ne_zero]
  exact hstore 4 _ (by omega)

/-- The 0 written at address 0 drops the first entry of the two, and the second stays. -/
theorem Matrix.pass_twice : (Matrix.twice.pass 1 1).1 = [(0, 2)] := by
  rw [Matrix.pass_eq_foldl, List.range_succ_eq_map, List.foldl_cons]
  refine List.foldlRecOn (motive := fun a : Memory × Flags => a.1 = [(0, 2)]) _ _ ?first fun a ha e he => ?later
  case first =>
    rw [Matrix.passStep_twice]
    rfl
  case later =>
    obtain ⟨j, -, rfl⟩ := List.mem_map.1 he
    rw [Matrix.passStep_twice, ha, Memory.setFp_zero_above j.succ_ne_zero, ite_self]

/-- Refutes O46: the statement speaks of every list of bytes as partials, canonical or not. Where the list holds address 0 twice, the
BlockSum 0 of element 0 drops the first entry, and the element then reads the second, 2. For partials in canonical form
`Matrix.mma_of_wf` gives what the statement says. -/
theorem not_mmaPartials : ¬ Obligations.MmaPartials := by
  intro hall
  obtain ⟨y, hy, -, -, -, -, -, -, -, hfp⟩ := (hall Matrix.twice 0 1 1 true).1 rfl rfl rfl
  have hpass : y.partials.fp 0 = 2 := by
    rw [← Except.ok.inj ((Matrix.mma_loaded rfl).symm.trans hy), Matrix.partials_multiplied, show Matrix.twice.validRows true = 1 from rfl,
      Matrix.pass_twice]
    rfl
  have hsum : Matrix.twice.partialAt 1 1 0 = 0 := by
    rw [Matrix.partialAt, Matrix.pairs_twice]
    rfl
  exact absurd (hpass.symm.trans ((hfp 0 (by decide)).trans hsum)) (by decide)

end Sys2Proof.Machine
end

section
/-! The instructions of virtual time and LPBIND (O41). -/

namespace Sys2Proof.Machine

section
variable {s t : State} {a b d : XReg} {slot : Nat} {lp : Lp}

/-! ### VTSET, SCURSOR and CKPT (R335, R336) -/

theorem exec_vtset_plain (hplain : Plain s) : exec (.vtset a) s = .next ((s.setMe { s.me with vt := s.x a }).retire 2) :=
  congrArg _ (if_neg (by simp [State.isAhead, show s.ahead s.cur.1 s.cur.2 = none from hplain]))

theorem traps_vtset (hahead : ¬ Plain s) : Traps (.vtset a) s 0x04 0 :=
  congrArg _ (if_pos (Option.isSome_iff_ne_none.2 hahead))

section
variable (hlp : s.lpAt s.cur.1 (s.x a).toNat = some (slot, lp))
include hlp

theorem exec_scursor {p : BitVec 1} (hstream : lp.stream = true) :
    exec (.scursor d a p) s = .next (writeX s 2 d (if p = 1 then lp.play else lp.lvt)) := by
  show execScursor d a p s = _
  simp only [execScursor, hlp, hstream, if_true]

theorem traps_scursor {p : BitVec 1} (hstream : lp.stream = false) : Traps (.scursor d a p) s 0x04 0 := by
  show execScursor d a p s = _
  simp only [execScursor, hlp, hstream, Bool.false_eq_true, if_false]
  rfl

/-- An LP is reached but by an event of its own stream. -/
theorem State.otherLp_of_other (hother : lp.stream = false ∨ ∀ n e, s.me.event = some (n, e) → n ≠ slot) :
    s.otherLp (s.x a) = some (slot, lp) := by
  simp only [State.otherLp, hlp]
  split
  · rename_i n e hevent
    refine if_neg fun ⟨hn, hstream⟩ => ?_
    rcases hother with hfalse | hne
    · exact absurd (hstream.symm.trans hfalse) (by decide)
    · exact hne n e hevent hn
  · rfl

end

theorem exec_ckpt (hlp : s.otherLp (s.x a) = some (slot, lp)) :
    exec (.ckpt a) s = .next ((s.setLp s.cur.1 slot { lp with mark := true }).retire 2) := by
  show execCkpt a s = _
  simp only [execCkpt, hlp]

section
variable (hlp : s.lpAt s.cur.1 (s.x a).toNat = none)
include hlp

theorem traps_scursor_unbound {p : BitVec 1} : Traps (.scursor d a p) s 0x04 0 := by
  show execScursor d a p s = _
  simp only [execScursor, hlp]
  rfl

theorem State.otherLp_unbound : s.otherLp (s.x a) = none := by
  simp only [State.otherLp, hlp]

theorem traps_ckpt_unbound : Traps (.ckpt a) s 0x04 0 := by
  show execCkpt a s = _
  simp only [execCkpt, State.otherLp_unbound hlp]
  rfl

end

/-! ### SWATER (R327, R335) -/

/-- A publication goes beyond a watermark just where its time is above it. -/
theorem State.publishes_succ_iff {p n : Nat} {x : Word} :
    (s.publishes p n (x + 1) && x != BitVec.allOnes 64) = true ↔ ∃ v, ((s.part p).domain n).next = some v ∧ x < v := by
  unfold State.publishes
  cases ((s.part p).domain n).next with
  | none => simp
  | some v =>
    have hmax : x ≠ BitVec.allOnes 64 ↔ x.toNat ≠ 2 ^ 64 - 1 := not_congr (BitVec.toNat_eq.trans (by rw [BitVec.toNat_allOnes]))
    have hlt : (v.ult (x + 1) = true) ↔ v.toNat < (x.toNat + 1) % 2 ^ 64 := by simp [BitVec.ult, BitVec.toNat_add]
    simp only [Bool.and_eq_true, Bool.not_eq_true', bne_iff_ne, hmax, ← Bool.not_eq_true, hlt, Option.some.injEq, exists_eq_left',
      BitVec.lt_def]
    have := v.isLt
    omega

/-- The two bounds of a truncation (R336). -/
theorem below_cursor_iff {x play gvt : Word} : (!play.ult x || x.ult gvt) = true ↔ x ≤ play ∨ x < gvt := by
  rw [Bool.or_eq_true, Bool.not_eq_true', Bool.eq_false_iff, ne_eq, BitVec.ult_iff_lt, BitVec.ult_iff_lt, BitVec.not_lt]

section
variable (hspec : s.speculative s.cur.1 s.cur.2 = false)
include hspec

section
variable {q : BitVec 8}

theorem exec_swater (hbelow : ∀ v, ((s.part (s.tag s.cur.1)).domain q.toNat).next = some v → v ≤ s.x a) :
    exec (.swater a q) s =
      .next ((s.mapDomain (s.tag s.cur.1) q.toNat fun u => { u with water := s.x a }).retire 2) := by
  show execSwater a q s = _
  rw [execSwater, State.whenSafe_of_not_speculative hspec, if_neg]
  rw [State.publishes_succ_iff]
  exact fun ⟨v, hnext, hlt⟩ => absurd (hbelow v hnext) (BitVec.not_le.2 hlt)

theorem holds_swater {v : Word} (hnext : ((s.part (s.tag s.cur.1)).domain q.toNat).next = some v) (hlt : s.x a < v) :
    Holds (.swater a q) s (.blocked .commit) := by
  show execSwater a q s = _
  rw [execSwater, State.whenSafe_of_not_speculative hspec, if_pos (State.publishes_succ_iff.2 ⟨v, hnext, hlt⟩)]

end

/-! ### STRUNC (R323, R336) -/

theorem traps_strunc_unbound (hlp : s.lpAt s.cur.1 (s.x a).toNat = none) : Traps (.strunc a b) s 0x04 0 := by
  show execStrunc a b s = _
  simp only [execStrunc, State.whenSafe_of_not_speculative hspec, State.otherLp_unbound hlp]
  rfl

section
variable (hlp : s.otherLp (s.x a) = some (slot, lp)) (hstream : lp.stream = true) (hrolled : s.me.rolled = false)
include hlp hstream hrolled

theorem exec_strunc_stream : exec (.strunc a b) s = .next (
    if !lp.play.ult (s.x b) || (s.x b).ult (s.gvt s.cur.1 lp.domain) then s.trap 0x0F
    else if s.publishes (s.tag s.cur.1) lp.domain (s.x b) then s.hold (.blocked .commit)
    else
      let r := s.rollback s.cur.1 slot (s.x b)
      if !r.2 then r.1.hold (.blocked .commit)
      else if r.1.rolledBack s.cur.1 slot then r.1.retire 2
      else (r.1.setMe { r.1.me with rolled := true }).hold (.blocked .commit)) := by
  show execStrunc a b s = _
  simp only [execStrunc, State.whenSafe_of_not_speculative hspec, hlp, hstream, hrolled, Bool.not_true, Bool.false_eq_true, if_false]

theorem traps_strunc_below (hbelow : s.x b ≤ lp.play ∨ s.x b < s.gvt s.cur.1 lp.domain) : Traps (.strunc a b) s 0x0F 0 :=
  (exec_strunc_stream hspec hlp hstream hrolled).trans (congrArg _ (if_pos (below_cursor_iff.2 hbelow)))

section
variable (habove : ¬ (s.x b ≤ lp.play ∨ s.x b < s.gvt s.cur.1 lp.domain))
include habove

theorem holds_strunc (hpub : s.publishes (s.tag s.cur.1) lp.domain (s.x b) = true) : Holds (.strunc a b) s (.blocked .commit) :=
  (exec_strunc_stream hspec hlp hstream hrolled).trans
    (congrArg _ ((if_neg (mt below_cursor_iff.1 habove)).trans (if_pos hpub)))

theorem exec_strunc (hpub : s.publishes (s.tag s.cur.1) lp.domain (s.x b) = false)
    (hroll : s.rollback s.cur.1 slot (s.x b) = (t, true)) (hdone : t.rolledBack s.cur.1 slot = true) :
    exec (.strunc a b) s = .next (t.retire 2) := by
  rw [exec_strunc_stream hspec hlp hstream hrolled, if_neg (mt below_cursor_iff.1 habove), if_neg (Bool.eq_false_iff.1 hpub), hroll]
  simp only [hdone, Bool.not_true, Bool.false_eq_true, if_false, if_true]

end
end

/-! ### LPBIND (R315, R316, R335) -/

section
variable {c : BitVec 6}

theorem traps_lpbind_low (hlow : c.toNat < 8) : Traps (.lpbind a c) s 0x04 0 := by
  show execLpbind a c s = _
  rw [execLpbind, State.whenSafe_of_not_speculative hspec, if_pos hlow]
  rfl

section
variable (hhigh : 8 ≤ c.toNat)
include hhigh

theorem holds_lpbind_quiet (hvec : s.me.vectorsDone = false) : Holds (.lpbind a c) s (.blocked .quiet) := by
  show execLpbind a c s = _
  rw [execLpbind, State.whenSafe_of_not_speculative hspec, if_neg (Nat.not_lt.2 hhigh), hvec]
  rfl

section
variable (hvec : s.me.vectorsDone = true)
include hvec

theorem exec_lpbind_unbinds (hall : s.x a = BitVec.allOnes 64) (hlp : s.lpOf s.cur.1 c.toNat = some (slot, lp)) :
    exec (.lpbind a c) s =
      .next ((s.setLp s.cur.1 slot { lp with unbind := (lp.unbind ++ [c.toNat]).eraseDups }).hold (.blocked (.unbind c))) := by
  show execLpbind a c s = _
  simp only [execLpbind, State.whenSafe_of_not_speculative hspec, if_neg (Nat.not_lt.2 hhigh), hvec, hall, hlp]
  rfl

theorem exec_lpbind_binds (hall : s.x a ≠ BitVec.allOnes 64) : exec (.lpbind a c) s = .next (s.bind (s.x a) c.toNat) := by
  show execLpbind a c s = _
  simp only [execLpbind, State.whenSafe_of_not_speculative hspec, if_neg (Nat.not_lt.2 hhigh), hvec, if_neg hall]
  rfl

end
end
end
end

/-- A descriptor at offset `off` of the executing core is named legally, for a channel that may be bound (R315, R335). -/
structure State.Bindable (s : State) (x : Word) (ch off : Nat) : Prop where
  own : x.getLsbD 23 = false
  allowed : s.localAccess s.cur.1 s.me.sup x 1 false = .ok (s.cur.1, off)
  aligned : off % 64 = 0
  inside : off + 256 ≤ 0x70000
  valid : (s.handler s.cur.1 ch).valid = true
  optimistic : (s.handler s.cur.1 ch).optimistic = true

section
variable {x : Word} {ch off : Nat} (hlegal : s.Bindable x ch off)
include hlegal

theorem State.bind_of_clash (hclash : s.clashes s.cur.1 s.cur.2 [(s.cur.1, off, 256)] = true) : s.bind x ch = s.hold (.blocked .drain) := by
  obtain ⟨hown, hok, hal, hin, hvalid, hopt⟩ := hlegal
  simp only [State.bind, hok, hown, hal, hvalid, hopt, hclash]
  simp [Nat.not_lt.2 hin]

section
variable (hclash : s.clashes s.cur.1 s.cur.2 [(s.cur.1, off, 256)] = false) (hfree : s.lpOf s.cur.1 ch = none)
include hclash hfree

theorem State.bind_to_bound (hlp : s.lpAt s.cur.1 off = some (slot, lp)) (hdomain : lp.domain = field (s.handler s.cur.1 ch).ctl 16 8) :
    s.bind x ch = ((s.setLp s.cur.1 slot { lp with channels := lp.channels ++ [ch] }).meetAntis s.cur.1 slot ch).retire 2 := by
  obtain ⟨hown, hok, hal, hin, hvalid, hopt⟩ := hlegal
  simp only [State.bind, hok, hown, hal, hvalid, hopt, hclash, hlp, hfree, if_pos hdomain]
  simp [Nat.not_lt.2 hin]

theorem State.bind_to_unbound (hlp : s.lpAt s.cur.1 off = none) :
    s.bind x ch = s.bindNew off ch (field (s.handler s.cur.1 ch).ctl 16 8) := by
  obtain ⟨hown, hok, hal, hin, hvalid, hopt⟩ := hlegal
  simp only [State.bind, hok, hown, hal, hvalid, hopt, hclash, hlp, hfree]
  simp [Nat.not_lt.2 hin]

end
end

theorem State.bindNew_first {off ch domain : Nat} {lp1 : Lp}
    (hread : readDescriptor ((s.work s.cur.1).spad.bytes off 256) off ch domain = some lp)
    (hslot : firstBelow (fun n => (s.lp s.cur.1 n).isNone) 16 = some slot)
    (hsnap : (s.setLp s.cur.1 slot lp).snapshot s.cur.1 slot lp.lvt = .ok t) (hlp : t.lp s.cur.1 slot = some lp1) :
    s.bindNew off ch domain = ((t.setLp s.cur.1 slot { lp1 with ready := false }).meetAntis s.cur.1 slot ch).retire 2 := by
  simp only [State.bindNew, hread, Config.lpSlots, hslot, hsnap, hlp]

/-! ### IRREV (R329, R330) -/

section
variable {off off' : Nat} (hown : (s.x a).getLsbD 23 = false) (hwatch : s.watchHit s.cur.1 s.cur.2 (s.x a).toNat 64 2 = none)
  (hfirst : s.localAccess s.cur.1 s.me.sup (s.x a) 32 false = .ok (s.cur.1, off))
  (hsecond : s.localAccess s.cur.1 s.me.sup (s.x a + 32) 32 false = .ok (s.cur.1, off'))
include hown hwatch hfirst hsecond

theorem holds_irrev (hclash : s.clashes s.cur.1 s.cur.2 [(s.cur.1, off, 64)] = true) : Holds (.irrev a) s (.blocked .drain) := by
  show execIrrev a s = _
  simp only [execIrrev, hown, hwatch, hfirst, hsecond, hclash]
  rfl

section
variable (hclash : s.clashes s.cur.1 s.cur.2 [(s.cur.1, off, 64)] = false)
include hclash

theorem exec_irrev_poisoned (hbad : (s.work s.cur.1).poisonedAt off 64 = true) :
    exec (.irrev a) s = .next (s.terminate s.cur.1 s.cur.2 1 (s.x a)) := by
  show execIrrev a s = _
  simp only [execIrrev, hown, hwatch, hfirst, hsecond, hclash, hbad]
  rfl

variable (hbad : (s.work s.cur.1).poisonedAt off 64 = false) (hplain : Plain s)
include hbad hplain

theorem exec_irrev_now {act : Irrev}
    (hrecord : s.readIrrev s.cur.1 s.cur.2 s.me.sup ((s.work s.cur.1).spad.bytes off 64) = .ok act) :
    exec (.irrev a) s = .next (s.irrevNow act) := by
  show execIrrev a s = _
  simp only [execIrrev, hown, hwatch, hfirst, hsecond, hclash, hbad, State.covered_plain hplain, overlay, List.foldl_nil, hrecord,
    show s.ahead s.cur.1 s.cur.2 = none from hplain, Bool.false_eq_true, if_false]

theorem traps_irrev {cause : Nat}
    (hrecord : s.readIrrev s.cur.1 s.cur.2 s.me.sup ((s.work s.cur.1).spad.bytes off 64) = .error cause) :
    Traps (.irrev a) s cause 0 := by
  show execIrrev a s = _
  simp only [execIrrev, hown, hwatch, hfirst, hsecond, hclash, hbad, State.covered_plain hplain, overlay, List.foldl_nil, hrecord,
    Bool.false_eq_true, if_false]

end
end

theorem State.irrevNow_message {m : Msg} {rel : Bool} (hreply : m.replyChannel = 0)
    (hqueue : s.queueMsg s.cur.1 s.cur.2 m (if rel then s.me.pending else []) = some t) :
    s.irrevNow (.message m rel) = t.playNow.retire 2 := by
  simp only [State.irrevNow, if_neg (not_and_of_not_left _ (not_not.2 hreply)), hqueue]

section
variable {va : Word} {bs : List Byte}

theorem State.irrevNow_store {pa : Nat} (hok : s.globalAccess s.cur.1 s.cur.2 va .write bs.length false false = (t, .ok pa))
    (hroom : s.requestRoom s.cur.1 = true) : s.irrevNow (.store va bs) = ((t.sendStores [(pa, bs)]).playNow).retire 2 := by
  simp only [State.irrevNow, hok, hroom, if_true]

theorem State.irrevNow_store_stops {e : Stop} (hstop : s.globalAccess s.cur.1 s.cur.2 va .write bs.length false false = (t, .error e)) :
    s.irrevNow (.store va bs) = t.stop e := by
  simp only [State.irrevNow, hstop]

end

end

/-- Settles O41: each instruction by its own lemmas, those that wait for a speculative event outside one. -/
theorem virtualTimeInstructions : Obligations.VirtualTimeInstructions := by
  intro s a b d q p c g x
  refine ⟨rfl, rfl, exec_vtset_plain, traps_vtset, fun slot lp hlp => ⟨exec_scursor hlp, traps_scursor hlp,
    fun hother => exec_ckpt (State.otherLp_of_other hlp hother)⟩, fun hlp => ⟨traps_scursor_unbound hlp, traps_ckpt_unbound hlp⟩,
    fun hspec => ?_, fun off off' hfirst hsecond hwatch hown => ?irrev⟩
  case irrev =>
    intro record clash bad
    refine ⟨holds_irrev hown hwatch hfirst hsecond, exec_irrev_poisoned hown hwatch hfirst hsecond, fun hplain hclash hbad => ?_⟩
    have hnow := fun {act} => exec_irrev_now hown hwatch hfirst hsecond hclash hbad hplain (act := act)
    exact ⟨fun cause => traps_irrev hown hwatch hfirst hsecond hclash hbad hplain,
      fun m rel t hrecord hreply hqueue => (hnow hrecord).trans (congrArg _ (State.irrevNow_message hreply hqueue)),
      fun va bs hrecord => ⟨fun t pa hok hroom => (hnow hrecord).trans (congrArg _ (State.irrevNow_store hok hroom)),
        fun t e hstop => (hnow hrecord).trans (congrArg _ (State.irrevNow_store_stops hstop))⟩⟩
  refine ⟨exec_swater hspec, fun v => holds_swater hspec, traps_strunc_unbound hspec, fun slot lp hlp hother hstream hrolled => ?strunc,
    traps_lpbind_low hspec, holds_lpbind_quiet hspec, fun hhigh hvec hall slot lp => exec_lpbind_unbinds hspec hhigh hvec hall,
    fun hhigh hvec hall hown off hok hal hin hvalid hopt => ?bind⟩
  case strunc =>
    have hlp' := State.otherLp_of_other hlp (.inr hother)
    exact ⟨traps_strunc_below hspec hlp' hstream hrolled, fun habove => ⟨holds_strunc hspec hlp' hstream hrolled habove,
      fun hpub t => exec_strunc hspec hlp' hstream hrolled habove hpub⟩⟩
  case bind =>
    have hlegal : s.Bindable x c.toNat off := ⟨hown, hok, hal, hin, hvalid, hopt⟩
    have hexec := exec_lpbind_binds hspec hhigh hvec hall
    refine ⟨fun hclash => hexec.trans (congrArg _ (State.bind_of_clash hlegal hclash)), fun hclash => ⟨fun slot lp hlp hfree hdomain => ?_,
      fun hlp hfree lp slot t lp1 hread hslot hsnap hlp1 => ?_⟩⟩
    · exact hexec.trans (congrArg _ (State.bind_to_bound hlegal hclash hfree hlp hdomain))
    · exact hexec.trans (congrArg _ ((State.bind_to_unbound hlegal hclash hfree hlp).trans (State.bindNew_first hread hslot hsnap hlp1)))

end Sys2Proof.Machine
end

section
/-! The steps of logical processes, of rounds and of publications (O42). -/

namespace Sys2Proof.Machine

section
variable {s t : State} {g slot k n z : Nat} {lp : Lp} {m : Msg} {src : Source}

/-! ### Events that start (R319) -/

theorem exec_lpEventStart {c : Nat} (hlp : s.lp g slot = some lp) (hnext : s.nextEvent g slot = some (none, src, k, m))
    (hc : s.freeCtx g = some c) (hz : (s.work g).freeSlot = some z) (hjob : s.nextJob g = some (.event slot)) (hlog : Unlogged s g)
    (hclean : m.bad.contains 0 = false) :
    let s1 := (s.setWork g ((s.work g).take src k)).startHandler g c z m (cellOf src k) id
    exec (.lpEventStart g slot) s = .next ((s1.beginEvent g slot c m (s1.safeAt g lp m.d2)).workFound g) := by
  show execLpEventStart g slot s = _
  simp only [execLpEventStart, hnext, hc, hz, hlp, hjob, ne_eq, not_true_eq_false, if_false, State.atChunkEnd_of_unlogged hlog, hclean,
    Bool.false_eq_true]

/-! ### Stragglers and anti-messages (R323, R325) -/

theorem State.isStraggler_iff : s.isStraggler g lp m = true
    ↔ s.isLate g lp m = false ∧ m.d2 < lp.lvt ∧ ∃ e ∈ lp.events, e.safe = false ∧ m.d2 ≤ e.vt := by
  have hundone : (lp.undone m.d2).isEmpty = false ↔ ∃ e ∈ lp.events, e.safe = false ∧ m.d2 ≤ e.vt := by
    rw [List.isEmpty_eq_false_iff_exists_mem]
    simp only [Lp.undone, List.mem_filter, Bool.and_eq_true, Bool.not_eq_true', Bool.eq_false_iff, ne_eq, BitVec.ult_iff_lt, BitVec.not_lt]
  simp only [State.isStraggler, Lp.isStraggler, Bool.and_eq_true, Bool.not_eq_true', BitVec.ult_iff_lt, hundone, and_assoc]
  rfl

/-- Message k in flight may meet its LP on core g: it is the oldest of its sender there, the core is that of its partition and takes
it, and no redelivered one goes first (R193, R323, R357). -/
def State.MayMeet (s : State) (g k : Nat) (m : Msg) : Prop :=
  m.dst = g ∧ s.firstOfWay k m = true ∧ s.takes g m.tag = true ∧ s.itsArrival k m = true ∧ m.tag = s.tag g

section
variable (hk : s.flying k = some m) (hlp : s.lpOf m.dst m.channel = some (slot, lp)) (hmeet : s.MayMeet g k m)
include hk hlp hmeet

theorem exec_stragglerRollback (hmsg : m.anti = false) (hstraggler : s.isStraggler g lp m = true)
    (hpub : s.publishes m.tag lp.domain m.d2 = false) : exec (.stragglerRollback g k) s = .next (s.rollback g slot m.d2).1 := by
  obtain ⟨hdst, hfirst, htakes, horder, htag⟩ := hmeet
  show execStragglerRollback g k s = _
  simp only [execStragglerRollback, hk, hlp]
  exact congrArg _ (if_pos ⟨hdst, hfirst, htakes, horder, htag, by simp [hmsg], hstraggler, by simp [hpub]⟩)

theorem exec_antiMessageArrival : exec (.antiMessageArrival g k n) s = .next (
    if m.anti then s.takeAnti g slot lp k n m
    else match lp.antis.find? fun x => x.matchesAnti m with
      | none => s
      | some x => ((s.landed k).setLp g slot { lp with antis := lp.antis.erase x }).releaseFor g m) := by
  obtain ⟨hdst, hfirst, htakes, horder, htag⟩ := hmeet
  show execAntiMessageArrival g k n s = _
  simp only [execAntiMessageArrival, hk, hlp]
  refine congrArg _ (if_neg ?_)
  simp [hdst, hfirst, htakes, horder, ← htag]

theorem exec_antiMessageArrival_waits (hanti : m.anti = true)
    (hpending : ((s.work g).pendingOf lp).all (fun e => !m.matchesAnti e.2.2) = true)
    (hevents : lp.events.all (fun e => !(!e.safe && m.matchesAnti e.msg)) = true) :
    exec (.antiMessageArrival g k n) s = .next ((s.landed k).setLp g slot { lp with antis := lp.antis ++ [m] }) := by
  have hnone : (s.work g).antiMatches lp m = ([], []) := by
    refine Prod.ext (List.filter_eq_nil_iff.2 fun e he => ?_) (List.filter_eq_nil_iff.2 fun e he => ?_)
    · simpa using List.all_eq_true.1 hpending e he
    · exact Bool.eq_false_iff.1 (by simpa only [Bool.not_eq_true'] using List.all_eq_true.1 hevents e he)
  rw [exec_antiMessageArrival hk hlp hmeet, if_pos hanti, State.takeAnti, hnone]
  rfl

theorem exec_antiMessageArrival_annihilates {x : Msg} (hmsg : m.anti = false)
    (hx : (lp.antis.find? fun x => x.matchesAnti m) = some x) : exec (.antiMessageArrival g k n) s =
      .next (((s.landed k).setLp g slot { lp with antis := lp.antis.erase x }).releaseFor g m) := by
  rw [exec_antiMessageArrival hk hlp hmeet, if_neg (Bool.eq_false_iff.1 hmsg), hx]

end

/-! ### Snapshots and unbinding (R316, R324) -/

/-- Core g without the LP of a slot, and without the banks that were kept for it alone (R316). -/
def State.withoutLp (s : State) (g slot : Nat) : State :=
  let w := s.work g
  let w1 := { w with lps := Tab.drop w.lps slot }
  let gone := w1.orphans &&& ~~~w1.lpBanks
  s.setWork g { w1 with
    power := w1.power &&& ~~~gone, orphans := w1.orphans &&& ~~~gone, spad := clearBanks w1.spad gone,
    poison := clearPoison w1.poison gone }

theorem State.lp_withoutLp (s : State) (g slot j : Nat) : (s.withoutLp g slot).lp g j = if j = slot then none else s.lp g j := by
  simp only [State.withoutLp, State.lp, State.work_setWork, if_true, Tab.find_drop]

section
variable (hlp : s.lp g slot = some lp)
include hlp

theorem exec_checkpointSnapshot (hm : earliest ((s.work g).pendingOf lp) = some (src, z, m)) (hruns : s.runs g = true)
    (hidle : lp.idle = true) (hdue : lp.snapDue = true) (hroom : lp.snapRoom = true) (hahead : s.gvt g lp.domain < m.d2)
    (hq : Tab.look [] (s.work g).queues 1 = []) (hsnap : s.snapshot g slot m.d2 = .ok t) :
    exec (.checkpointSnapshot g slot) s = .next t := by
  show execCheckpointSnapshot g slot s = _
  simp only [execCheckpointSnapshot, hlp, hm, hsnap]
  refine congrArg _ (if_neg ?_)
  simp [hruns, hidle, hdue, hroom, hq, BitVec.ult_iff_lt.2 hahead]

section
variable (hunbind : lp.unbind ≠ []) (hdone : s.lpDone g lp = true)
include hunbind hdone

theorem exec_lpUnbind_some (hleft : (lp.channels.filter fun c => !lp.unbind.contains c) ≠ []) : exec (.lpUnbind g slot) s =
    .next (s.setLp g slot { lp with channels := lp.channels.filter fun c => !lp.unbind.contains c, unbind := [] }) := by
  show execLpUnbind g slot s = _
  simp only [execLpUnbind, hlp, List.isEmpty_eq_false_iff.2 hunbind, hdone, List.isEmpty_eq_false_iff.2 hleft]
  rfl

theorem exec_lpUnbind_last (hleft : (lp.channels.filter fun c => !lp.unbind.contains c) = []) :
    exec (.lpUnbind g slot) s = .next (s.withoutLp g slot) := by
  show execLpUnbind g slot s = _
  simp only [execLpUnbind, hlp, List.isEmpty_eq_false_iff.2 hunbind, hdone, hleft]
  rfl

end
end

/-! ### Rounds and publications (R322, R327, R328) -/

section
variable {p d : Nat} {v : Word} (hreset : (s.part p).resetDue = false)
include hreset

theorem exec_gvtRound (hcores : (s.part p).cores ≠ []) (hnext : ((s.part p).domain d).next = none)
    (hperiod : ((s.part p).domain d).began + (s.part p).gvtPeriod ≤ s.cycle (s.dispatcher p)) : exec (.gvtRound p d) s =
      .next (s.mapDomain p d fun q => { q with next := some (s.roundResult p d), began := s.cycle (s.dispatcher p) }) := by
  refine congrArg _ (if_neg ?_)
  simp [List.isEmpty_eq_false_iff.2 hcores, hreset, hnext, Nat.not_lt.2 hperiod]

theorem exec_gvtPublication (hnext : ((s.part p).domain d).next = some v) (hcan : s.canPublish p = true) :
    let r := s.commitUpTo p d v (sumOf ((s.domainLps p d).map fun e => e.2.2.commits.length))
    exec (.gvtPublication p d) s = .next (
      if r.2 then ((r.1.publishAt v (r.1.domainLps p d)).mapDomain p d fun q => { q with gvt := v, next := none }).lagSampled p
      else r.1) := by
  show execGvtPublication p d s = _
  simp only [execGvtPublication, hnext]
  refine congrArg _ (if_neg ?_)
  simp [hcan, hreset]

end

end

/-- Settles O42: each step of an LP, a round and a publication under its conditions. -/
theorem virtualTimeEvents : Obligations.VirtualTimeEvents := by
  intro s t u g slot k n lp m hlp here
  refine ⟨fun src c z => exec_lpEventStart hlp, fun hk hof hmeet => ⟨exec_stragglerRollback hk hof hmeet,
    exec_antiMessageArrival_waits hk hof hmeet, fun hmsg x => exec_antiMessageArrival_annihilates hk hof hmeet hmsg⟩,
    fun src z => exec_checkpointSnapshot hlp, exec_lpUnbind_some hlp, fun hunbind hdone hleft =>
      ⟨_, exec_lpUnbind_last hlp hunbind hdone hleft, (s.lp_withoutLp ..).trans (if_pos rfl),
        fun j hj => (s.lp_withoutLp ..).trans (if_neg hj)⟩,
    State.isStraggler_iff, fun tag d hcores hreset => ⟨exec_gvtRound hreset hcores, fun v hnext hcan => ?_⟩⟩
  have hexec := exec_gvtPublication hreset hnext hcan
  refine ⟨fun hcommit => ?_, fun hcommit => ?_⟩
  · rw [hcommit] at hexec
    exact hexec
  · rw [hcommit] at hexec
    exact hexec

end Sys2Proof.Machine
end

section
/-! The host link, the ports, and partitions formed, resized and released (O60). -/

namespace Sys2Proof.Machine

/-! ### Packages and cores replaced -/

theorem State.chip_setChip (s : State) (h x : Nat) (k : Chip) : (s.setChip h k).chip x = if x = h then k else s.chip x := Tab.look_put ..

section
variable {s : State} {t n x off : Nat} {h : Bool} {data : List Byte}

/-! ### The host link (R380, R382) -/

theorem exec_hostMemoryAccess {base : Nat} {ps : List (Nat × Nat)} (hn : n < 16) (hready : (s.chip x).ready = true)
    (hwindow : Tab.find (s.chip x).apertures n = some (t, base)) (hcores : (s.part t).cores ≠ []) (hlen : off + data.length ≤ 2 ^ 32)
    (hps : s.hostPieces t h (pieces64 (base + off) data.length) = some ps) :
    exec (.hostMemoryAccess t (n + 32 * x) off h data) s = .next (if !s.hostTurn t h ps then s
      else (if h then s.hostStore ps data else s.out (.hostRead (s.readPieces ps))).chargePieces t h ps) := by
  have hdiv : (n + 32 * x) / 32 = x := by omega
  have hmod : (n + 32 * x) % 32 = n := by omega
  have hopen : ¬ (!(s.chip x).ready || n == 16) = true := by simpa [hready] using hn.ne
  have hfits : (some (t, base)).filter (fun e => e.1 == t && !(s.part t).cores.isEmpty && decide (off + data.length ≤ 2 ^ 32))
      = some (t, base) := by
    rw [Option.filter_some, if_pos]
    simpa [hcores] using hlen
  show execHostMemoryAccess t (n + 32 * x) off h data s = _
  simp only [execHostMemoryAccess, hdiv, hmod, if_neg hopen, hwindow, hfits, hps]

theorem exec_hostMemoryAccess_closed (hn : n < 32) (hclosed : (s.chip x).ready = false ∨ n = 16) :
    exec (.hostMemoryAccess t (n + 32 * x) off h data) s = .next (if h then s else s.out (.hostRead (List.replicate data.length 0))) := by
  have hdiv : (n + 32 * x) / 32 = x := by omega
  have hmod : (n + 32 * x) % 32 = n := by omega
  show execHostMemoryAccess t (n + 32 * x) off h data s = _
  simp only [execHostMemoryAccess, hdiv, hmod]
  exact congrArg _ (if_pos (by simpa using hclosed))

theorem exec_msixDoorbell (ht : t < 64) : exec (.msixDoorbell (t + 64 * x) n) s = .next (
    if (t, n) ∈ (s.chip x).doorbells then
      (s.setChip x { s.chip x with doorbells := (s.chip x).doorbells.erase (t, n) }).out (.msix x (32 * t + n))
    else s) := by
  have hdiv : (t + 64 * x) / 64 = x := by omega
  have hmod : (t + 64 * x) % 64 = t := by omega
  show execMsixDoorbell (t + 64 * x) n s = _
  simp only [execMsixDoorbell, hdiv, hmod, List.contains_iff_mem]

theorem State.hostStore_cons (s : State) (pa : Nat) (bs data : List Byte) (r : List (Nat × Nat)) :
    s.hostStore ((pa, bs.length) :: r) (bs ++ data) =
      State.hostStore (if s.storeFails pa then s else (s.writePhys pa bs).markPoison pa bs.length false) r data := by
  rw [State.hostStore, List.take_left, List.drop_left]

/-- The device of a segment is lost from its failure on (R384). -/
theorem exec_cxlDeviceFailure_lost (s : State) (n : Nat) :
    ∃ u, exec (.cxlDeviceFailure n) s = .next u ∧ n % 256 ∈ (u.chip (n / 256)).lost := by
  refine ⟨_, rfl, ?_⟩
  rw [State.chip_setChip, if_pos rfl]
  exact List.mem_eraseDups.2 (List.mem_append_right _ (List.mem_singleton_self _))

end

/-! ### Partitions (R349, R351, R352, R386) -/

section
variable {s : State} {t lim fl : Nat} {h : Bool} {cores : List Nat}

theorem State.core_assigned (s : State) (t g : Nat) (l : List Nat) :
    (l.foldl (fun u g => u.assign t g) s).core g = if g ∈ l then { s.core g with ptag := BitVec.ofNat 6 t } else s.core g := by
  induction l generalizing s with
  | nil => rfl
  | cons j l ih =>
    rw [List.foldl_cons, ih, State.assign, State.core_setCore]
    by_cases hj : g = j
    · subst hj
      simp
    · simp [hj]

theorem exec_partitionForm (hlegal : formLegal t cores lim fl = true) (hnew : (s.part t).cores = [])
    (htakable : cores.all (s.takable t) = true) (hhyper : h = true → s.hyperThere t cores = false) (hfit : s.floorsFit t fl = true) :
    exec (.partitionForm t h cores lim fl) s = .next ((cores.foldl (fun u g => u.assign t g) s).setPart t { (s.part t).cleared with
      cores := coreMap cores, hyper := h, limit := lim, floor := BitVec.ofNat 16 fl }) := by
  refine congrArg _ (if_neg ?_)
  simpa [hlegal, hnew, hfit, htakable] using hhyper

/-- Whether the cores whose entries a resize changes may be given up or taken (R351). -/
def State.ResizeRests (s : State) (t : Nat) (cores : List Nat) : Prop :=
  ∀ g ∈ changed (s.part t).cores (coreMap cores),
    (g ∈ s.partCores t → s.atRest g = true ∧ s.tag g = t ∧ s.imageOf t g = none) ∧ (g ∉ s.partCores t → s.takable t g = true)

theorem State.givesUp_iff {g : Nat} : s.givesUp t g = true ↔ s.atRest g = true ∧ s.tag g = t ∧ s.imageOf t g = none := by
  simp [State.givesUp, and_assoc]

theorem State.resizeRests_iff : s.ResizeRests t cores ↔ (changed (s.part t).cores (coreMap cores)).all
    (fun g => if (s.partCores t).contains g then s.givesUp t g else s.takable t g) = true := by
  rw [List.all_eq_true]
  refine forall₂_congr fun g _ => ?_
  by_cases hg : g ∈ s.partCores t
  · simp [hg, State.givesUp_iff]
  · simp [hg]

section
variable (hlegal : formLegal t cores lim fl = true) (hfit : s.floorsFit t fl = true) (hformed : (s.part t).cores ≠ [])
  (hhyper : (s.part t).hyper = true → s.hyperThere t cores = false)
include hlegal hfit hformed hhyper

theorem exec_partitionResize_iff : exec (.partitionResize t cores lim fl) s = .next (
    if !(changed (s.part t).cores (coreMap cores)).all
      (fun g => if (s.partCores t).contains g then s.givesUp t g else s.takable t g) then s
    else
      let s1 := ((s.partCores t).filter fun g => !cores.contains g).foldl State.unassign s
      let s2 := cores.foldl (fun u g => if (s.partCores t).contains g && u.tag g != t then u else u.assign t g) s1
      s2.setPart t { (s.part t).flushAll s.stepNo with cores := coreMap cores, limit := lim, floor := BitVec.ofNat 16 fl }) := by
  have hother : ((s.part t).hyper && s.hyperThere t cores) = false := by
    simpa using hhyper
  show execPartitionResize t cores lim fl s = _
  simp only [execPartitionResize, hlegal, hfit, List.isEmpty_eq_false_iff.2 hformed, hother]
  rfl

theorem exec_partitionResize (hrests : s.ResizeRests t cores) : ∃ u, exec (.partitionResize t cores lim fl) s = .next u
    ∧ u.part t = { (s.part t).flushAll s.stepNo with cores := coreMap cores, limit := lim, floor := BitVec.ofNat 16 fl } := by
  refine ⟨_, (exec_partitionResize_iff hlegal hfit hformed hhyper).trans (congrArg _ (if_neg ?_)),
    (State.part_setPart ..).trans (if_pos rfl)⟩
  rw [State.resizeRests_iff.1 hrests]
  exact Bool.false_ne_true

theorem exec_partitionResize_refused (hrests : ¬ s.ResizeRests t cores) : exec (.partitionResize t cores lim fl) s = .next s := by
  refine (exec_partitionResize_iff hlegal hfit hformed hhyper).trans (congrArg _ (if_pos ?_))
  rw [Bool.not_eq_true', Bool.eq_false_iff]
  exact mt State.resizeRests_iff.2 hrests

end

theorem exec_partitionRelease (hcores : s.partCores t ≠ [])
    (hrests : ∀ g ∈ s.partCores t, s.tag g = t ∧ s.atRest g = true ∧ s.imageOf t g = none) :
    exec (.partitionRelease t) s =
      .next (((s.partCores t).foldl State.unassign (s.resetPartition t)).setPart t (s.part t).cleared) := by
  have hall : (s.partCores t).all (s.givesUp t) = true := List.all_eq_true.2 fun g hg => by
    obtain ⟨htag, hrest, himage⟩ := hrests g hg
    exact State.givesUp_iff.2 ⟨hrest, htag, himage⟩
  refine congrArg _ (if_neg ?_)
  simp [hcores, hall]

end

end Sys2Proof.Machine
end

section
/-! The reset of a package, its bring-up, and its clocks (O60). -/

namespace Sys2Proof.Machine

/-! ### Tables with entries left out -/

/-- An entry found in a table is one of its entries. -/
theorem Tab.mem_of_find {α : Type} {t : Tab α} {k : Nat} {a : α} (h : Tab.find t k = some a) : (k, a) ∈ t := by
  induction t with
  | nil => exact absurd h (by simp [Tab.find])
  | cons e r ih =>
    obtain ⟨j, b⟩ := e
    by_cases hj : j = k
    · subst hj
      rw [Tab.find, if_pos rfl] at h
      rw [Option.some.inj h]
      exact List.mem_cons_self
    · rw [Tab.find, if_neg hj] at h
      exact List.mem_cons_of_mem _ (ih h)

/-- What a table with some entries left out lists, where no key stands twice. -/
theorem Tab.find_filter {α : Type} {t : Tab α} (hkeys : (t.map fun e => e.1).Nodup) (q : Nat × α → Bool) (k : Nat) :
    Tab.find (t.filter q) k = (Tab.find t k).filter fun a => q (k, a) := by
  induction t with
  | nil => rfl
  | cons e r ih =>
    obtain ⟨j, b⟩ := e
    obtain ⟨hnot, hrest⟩ := List.nodup_cons.1 hkeys
    have hout : Tab.find r j = none := Option.eq_none_iff_forall_ne_some.2 fun a ha =>
      hnot (List.mem_map.2 ⟨_, Tab.mem_of_find ha, rfl⟩)
    by_cases hj : j = k
    · subst hj
      by_cases hq : q (j, b) = true
      · simp [Tab.find, Option.filter, hq]
      · simp [Tab.find, Option.filter, hq, ih hrest, hout]
    · by_cases hq : q (j, b) = true <;> simp [Tab.find, hq, hj, ih hrest]

theorem Tab.keys_each {α : Type} (f : Nat → α → α) (t : Tab α) : (Tab.each f t).map (fun e => e.1) = t.map fun e => e.1 := by
  induction t with
  | nil => rfl
  | cons e r ih => exact congrArg (e.1 :: ·) ih

theorem Tab.mem_each {α : Type} {f : α → α} {t : Tab α} {e : Nat × α} (he : e ∈ Tab.each (fun _ => f) t) : ∃ a, e.2 = f a := by
  induction t with
  | nil => exact absurd he List.not_mem_nil
  | cons d r ih =>
    rcases List.mem_cons.1 he with rfl | hr
    · exact ⟨d.2, rfl⟩
    · exact ih hr

/-! ### PACKAGE_RESET (R378, R386, R387) -/

/-- What a package's reset makes of a partition: it loses its cores there, and with its last core it is formed no longer. -/
def Partition.off (p : Partition) (h : Nat) : Partition :=
  if (Tab.drop p.cores h).isEmpty then p.cleared else { p with cores := Tab.drop p.cores h }

theorem Partition.cores_off (p : Partition) (h : Nat) : Tab.look [] (p.off h).cores h = [] := by
  unfold Partition.off
  split
  · rfl
  · simp [Tab.look]

theorem Partition.discards_off (p : Partition) (h : Nat) : (p.off h).discards = p.discards := by
  unfold Partition.off
  split <;> rfl

section
variable (s : State) (h : Nat)

theorem State.core_restart (g : Nat) : (s.restart h).core g = if chipOf g = h then (s.core g).restart else s.core g := by
  refine (Tab.look_each (k := g) ?_ s.cores)
  split <;> rfl

theorem State.chip_restart (x : Nat) : (s.restart h).chip x = if x = h then (s.chip h).restart s.now else s.chip x :=
  State.chip_setChip ..

theorem State.parts_restart : (s.restart h).parts =
    (Tab.each (fun _ p => p.off h) s.parts).filter fun e => !e.2.cores.isEmpty || e.2.discards != 0 := rfl

theorem State.cores_restart (t : Nat) : Tab.look [] ((s.restart h).part t).cores h = [] := by
  change Tab.look [] ((Tab.find (s.restart h).parts t).getD Partition.reset).cores h = []
  cases hfind : Tab.find (s.restart h).parts t with
  | none => rfl
  | some p =>
    rw [State.parts_restart] at hfind
    obtain ⟨q, hq⟩ := Tab.mem_each (List.mem_filter.1 (Tab.mem_of_find hfind)).1
    exact (congrArg (fun p : Partition => Tab.look [] p.cores h) hq).trans (q.cores_off h)

theorem State.discards_restart (hkeys : (s.parts.map fun e => e.1).Nodup) (t : Nat) :
    ((s.restart h).part t).discards = (s.part t).discards := by
  rw [State.part, State.part, Tab.look, Tab.look, State.parts_restart, Tab.find_filter (by rwa [Tab.keys_each]), Tab.find_each]
  cases Tab.find s.parts t with
  | none => rfl
  | some p =>
    rw [Option.map_some, Option.filter_some]
    split
    · exact p.discards_off h
    · next hgone =>
      have hnone : (p.off h).discards = 0 := by simpa using And.right (by simpa using hgone)
      exact ((p.discards_off h).symm.trans hnone).symm

theorem Chip.image_restart {k : Chip} {i : List Byte} {now : Nat} (hwaits : k.firmware = some i)
    (hloads : k.erased = false ∨ Config.freeKeyless i = true) : (k.restart now).image = i := by
  have hloads' : k.loads i = true := by simpa [Chip.loads] using hloads
  simp only [Chip.restart, hwaits, if_pos hloads']

theorem Chip.image_restart_none {k : Chip} {now : Nat} (hwaits : k.firmware = none) : (k.restart now).image = k.image := by
  simp only [Chip.restart, hwaits]

end

/-! ### Clocks and cooling (R388, R397) -/

theorem place_of_core (g : Nat) : g = chipOf g * 2560 + 320 * dieOf g + 16 * clusterIn g + positionOf g ∧ dieOf g < 8 ∧ clusterIn g < 20
    ∧ positionOf g < 16 ∧ meshColumn g < 16 ∧ meshRow g < 20 ∧ islandOf g / 128 = chipOf g := by
  simp only [islandOf, meshColumn, meshRow, chipOf, dieOf, clusterIn, positionOf, physOf]
  refine ⟨?_, ?_, ?_, ?_, ?_, ?_, ?_⟩ <;> omega

section
variable (s : State) (isl f : Nat)

theorem State.chip_setClock (x : Nat) : (s.setClock isl f).chip x = if x = isl / 128 then { s.chip x with
    clocks := Tab.put (s.chip x).clocks (isl % 128) (((s.chip x).island (isl % 128)).change s.now f) } else s.chip x := by
  refine (State.chip_setChip ..).trans ?_
  split
  · next hx => rw [hx]
  · rfl

/-- The clock of a core is changed where its island is the one named, and no other is. -/
theorem State.islandClock_setClock (g : Nat) : (s.setClock isl f).islandClock g =
    if islandOf g = isl then (s.islandClock g).change s.now f else s.islandClock g := by
  obtain ⟨-, -, -, -, -, -, hchip⟩ := place_of_core g
  have hisl : islandOf g = isl ↔ chipOf g = isl / 128 ∧ islandOf g % 128 = isl % 128 := by omega
  rw [State.islandClock, State.islandClock, State.chip_setClock]
  by_cases hc : chipOf g = isl / 128
  · rw [if_pos hc]
    by_cases hm : islandOf g % 128 = isl % 128 <;> simp [Chip.island, hisl, hc, hm]
  · rw [if_neg hc, if_neg (fun h => hc (hisl.1 h).1)]

theorem State.coreClock_setClock (g : Nat) : (s.setClock isl f).coreClock g = if islandOf g = isl then f else s.coreClock g := by
  rw [State.coreClock, State.islandClock_setClock]
  split <;> rfl

/-- A change of clock takes over what was counted (R52, R388). -/
theorem Clock.sixteenths_change (q : Clock) (now f : Nat) : (q.change now f).sixteenths now = q.sixteenths now := by
  simp [Clock.change, Clock.sixteenths]

theorem State.cycle_setClock (g : Nat) : (s.setClock isl f).cycle g = s.cycle g := by
  have hnow : (s.setClock isl f).now = s.now := rfl
  rw [State.cycle, State.cycle, State.islandClock_setClock, hnow]
  split
  · rw [Clock.sixteenths_change]
  · rfl

end

theorem exec_islandClockChange {s : State} {isl f : Nat} (hlow : 4 ≤ f) (hhigh : f ≤ 16) :
    exec (.islandClockChange isl f) s = .next (s.setClock isl f) := congrArg _ (if_pos ⟨hlow, hhigh⟩)

/-! ### What a partition's reset leaves of the packages (R361) -/

section
variable (s : State) (t g : Nat)

theorem State.dropMsg_chips (u : CurMsg) : (s.dropMsg g u).chips = s.chips := rfl

theorem State.releaseFor_chips (m : Msg) : (s.releaseFor g m).chips = s.chips := by
  unfold State.releaseFor
  split <;> rfl

theorem State.discardAll_chips (ms : List Msg) : (s.discardAll g ms).chips = s.chips :=
  foldl_kept State.chips _ (fun s m => s.releaseFor_chips g m) ms s

theorem State.vacate_chips (c : Nat) : (s.vacate g c).chips = s.chips := by
  have hcur : (s.releaseCur g c).chips = s.chips := by
    unfold State.releaseCur
    split <;> rfl
  exact hcur

theorem State.resetWork_chips (all : Bool) : (s.resetWork g all).chips = s.chips := by
  have hctx : ∀ (s : State) (c : Nat), (if (s.ctx g c).role = .free then s else s.vacate g c).chips = s.chips := by
    intro s c
    split
    · rfl
    · exact s.vacate_chips g c
  unfold State.resetWork
  simp only [State.setWork_chips, State.discardAll_chips]
  rw [foldl_kept State.chips _ fun s u => s.dropMsg_chips g u, foldl_kept State.chips _ hctx]

theorem State.dropImage_chips (i : Image) : (s.dropImage g i).chips = s.chips := by
  unfold State.dropImage
  dsimp only
  split <;> exact State.discardAll_chips ..

theorem State.resetCore_chips : (s.resetCore t g).chips = s.chips := by
  unfold State.resetCore
  cases s.imageOf t g <;> dsimp only <;> split <;>
    simp only [State.resetWork_chips, State.setCore_chips, State.dropImage_chips]

theorem State.resetPartition_chips : (s.resetPartition t).chips = s.chips := by
  show ((s.partCores t).foldl (fun u g => u.resetCore t g) s).chips = s.chips
  rw [foldl_kept State.chips _ fun s g => s.resetCore_chips t g]

end

/-- The partitions that have cores on a package reset one after the other (R388). -/
def State.resetThere (s : State) (h : Nat) : State :=
  (s.parts.filter fun e => !(Tab.look [] e.2.cores h).isEmpty).foldl (fun u e => u.resetPartition e.1) s

theorem State.chip_resetThere (s : State) (h x : Nat) : (s.resetThere h).chip x = s.chip x := by
  have hchips : (s.resetThere h).chips = s.chips := by
    have hkept : ∀ (u : State) (e : Nat × Partition), (u.resetPartition e.1).chips = u.chips := fun u e => u.resetPartition_chips e.1
    exact foldl_kept State.chips (fun u (e : Nat × Partition) => u.resetPartition e.1) hkept _ s
  rw [State.chip, hchips, State.chip]

theorem exec_thermalShutdown (s : State) : exec .thermalShutdown s = .next ((s.resetThere s.here).setChip s.here
    { (s.resetThere s.here).chip s.here with replace := true, told := false, off := true }) := rfl

/-! ### POWER_ON (R375, R378, R387) -/

/-- Every entry of an address is left out, in canonical form or not. -/
theorem Memory.get_filter_out {m : Memory} {q : Nat → Bool} {a : Nat} (hout : q a = false) :
    Memory.get (m.filter fun e => q e.1) a = 0 := by
  induction m with
  | nil => rfl
  | cons e r ih =>
    obtain ⟨k, v⟩ := e
    by_cases hk : q k = true
    · have hne : a ≠ k := fun h => by simp [← h, hout] at hk
      simp [hk, Memory.get, hne, ih]
    · simpa [List.filter_cons, hk] using ih

theorem homeOf_vaultAddr {g o : Nat} (hg : g < 163840) (ho : o < Config.vaultEnd) :
    homeOf (vaultAddr g o) = if o < Config.vaultUser then .vault g o else .shadow g o := by
  have hchip : chipOf g < 64 := Nat.div_lt_of_lt_mul hg
  have hphys : physOf g < 2560 := Nat.mod_lt _ (by decide)
  have hgc : chipOf g * 2560 + physOf g = g := by
    unfold chipOf physOf
    omega
  have hlow : o < 201326592 := ho
  unfold homeOf vaultAddr
  have hunder : ¬ 2 ^ 56 ≤ chipOf g * 2 ^ 50 + physOf g * 2 ^ 38 + o := by omega
  have hc : (chipOf g * 2 ^ 50 + physOf g * 2 ^ 38 + o) / 2 ^ 50 % 64 = chipOf g := by omega
  have hp : (chipOf g * 2 ^ 50 + physOf g * 2 ^ 38 + o) / 2 ^ 38 % 4096 = physOf g := by omega
  have hoff : (chipOf g * 2 ^ 50 + physOf g * 2 ^ 38 + o) % 2 ^ 38 = o := by omega
  rw [if_neg hunder]
  simp only [hc, hp, hoff]
  rw [if_pos hphys, hgc, if_pos ho]

/-- Whether an address lies in a vault of a package, the cores' shadow regions included. -/
def vaultOn (h a : Nat) : Bool :=
  match homeOf a with
  | .vault g _ => chipOf g == h
  | .shadow g _ => chipOf g == h
  | _ => false

theorem vaultOn_vaultAddr {g o : Nat} (hg : g < 163840) (ho : o < Config.vaultEnd) : vaultOn (chipOf g) (vaultAddr g o) = true := by
  rw [vaultOn, homeOf_vaultAddr hg ho]
  by_cases huser : o < Config.vaultUser
  · rw [if_pos huser]
    exact beq_self_eq_true (chipOf g)
  · rw [if_neg huser]
    exact beq_self_eq_true (chipOf g)

/-- A package at the end of its bring-up, with what its boot firmware found, and the machine around it (R375, R387). -/
def State.broughtUp (s : State) (h : Nat) (found : Bringup) : State :=
  let u := State.restart { s with
    mem := s.mem.filter fun e => !vaultOn h e.1, poison := s.poison.filter fun l => !vaultOn h (64 * l), cores := s.tested h } h
  u.setChip h { u.chip h with
    clocks := [], lost := [], ports := [], portsDown := [], doorbells := [], off := false, policy := found.policy, ready := true,
    cxl := found.segments.foldl (fun m e => if e.1 < 256 then Tab.put m e.1 e.2 else m) [], apertures := aperturesOf found.windows }

theorem exec_powerOn (s : State) (n : Nat) {found : Bringup} (hfailed : found.failed = []) : exec (.powerOn n found) s =
    .next (if found.measured then s.broughtUp n found else (s.broughtUp n found).alarm n) := by
  show execPowerOn n found s = _
  simp only [execPowerOn, hfailed, List.filter_nil, List.foldl_nil]
  rfl

theorem State.get_broughtUp (s : State) {n : Nat} (found : Bringup) {g o : Nat} (hg : g < 163840) (hn : chipOf g = n)
    (ho : o < Config.vaultEnd) : (s.broughtUp n found).mem.get (vaultAddr g o) = 0 := by
  show Memory.get (s.mem.filter fun e => !vaultOn n e.1) _ = 0
  exact Memory.get_filter_out (q := fun a => !vaultOn n a) (by rw [← hn, vaultOn_vaultAddr hg ho]; rfl)

theorem State.chip_broughtUp (s : State) (n : Nat) (found : Bringup) : (s.broughtUp n found).chip n = { (s.chip n).restart s.now with
    clocks := [], lost := [], ports := [], portsDown := [], doorbells := [], off := false, policy := found.policy, ready := true,
    cxl := found.segments.foldl (fun m e => if e.1 < 256 then Tab.put m e.1 e.2 else m) [], apertures := aperturesOf found.windows } := by
  rw [State.broughtUp, State.chip_setChip, if_pos rfl, State.chip_restart, if_pos rfl]
  rfl

theorem State.chip_alarm (s : State) (h x : Nat) : (s.alarm h).chip x = if x = h then
    { s.chip h with alarm := true, replace := true, told := false, erased := (s.chip h).erased || (s.chip h).policy } else s.chip x :=
  State.chip_setChip ..

/-- What a bring-up leaves, whether or not the check of the boot firmware has passed (R378, R380, R387). -/
theorem powerOn_brings_up (s : State) (n : Nat) {found : Bringup} (hfailed : found.failed = []) :
    ∃ u, exec (.powerOn n found) s = .next u
      ∧ (∀ g o, g < 163840 → g / 2560 = n → o < Config.vaultEnd → u.mem.get (vaultAddr g o) = 0)
      ∧ (u.chip n).off = false ∧ (u.chip n).ready = true ∧ (u.chip n).policy = found.policy ∧ (u.chip n).portsDown = []
      ∧ (u.chip n).apertures = aperturesOf found.windows ∧ (found.measured = false → (u.chip n).alarm = true)
      ∧ (found.measured = true → (u.chip n).alarm = (s.chip n).alarm) := by
  refine ⟨_, exec_powerOn s n hfailed, ?_⟩
  have hclear := fun g o hg hn ho => s.get_broughtUp (n := n) found (g := g) (o := o) hg hn ho
  have hchip := s.chip_broughtUp n found
  cases found.measured
  case true =>
    rw [if_pos rfl, hchip]
    exact ⟨hclear, rfl, rfl, rfl, rfl, rfl, fun h => Bool.noConfusion h, fun _ => rfl⟩
  case false =>
    rw [if_neg Bool.false_ne_true, State.chip_alarm, if_pos rfl, hchip]
    exact ⟨hclear, rfl, rfl, rfl, rfl, rfl, fun _ => rfl, fun h => Bool.noConfusion h⟩

/-! ### The steps together (O60) -/

theorem exec_statusHealth (s : State) : ∃ u, exec .statusHealth s = .next u ∧ u.outputs = s.outputs ++ [.report s.status]
    ∧ (u.chip s.here).told = true ∧ ∀ t, (u.part t).discards = 0 := by
  refine ⟨_, rfl, rfl, ?_, fun t => ?_⟩
  · rw [State.chip_setChip, if_pos rfl]
  · exact congrArg Partition.discards
      (Tab.look_each (d := Partition.reset) (f := fun _ p => { p with discards := 0 }) (k := t) rfl s.parts)

/-- Settles O60: each step of the host link, of the ports and of the management of packages under its conditions. -/
theorem managementEvents : Obligations.ManagementEvents := by
  intro s t n off port lim fl data h cores p k
  refine ⟨fun x => ?link, fun pa bs r => s.hostStore_cons pa bs data r, rfl, exec_cxlDeviceFailure_lost s n,
    fun hlegal hnew htakable hhyper hfit => ?form, fun hlegal hfit hformed hhyper => ⟨exec_partitionResize hlegal hfit hformed hhyper,
      exec_partitionResize_refused hlegal hfit hformed hhyper⟩,
    fun hcores hrests => ⟨_, exec_partitionRelease hcores hrests, (State.part_setPart ..).trans (if_pos rfl)⟩, rfl,
    exec_statusHealth s, fun hloads => ?firmware, fun herased hkey => ?keyless, rfl, fun hreplace htold => ?replace, rfl, ?restart,
    fun found => powerOn_brings_up s n, fun hlow hhigh => ⟨_, exec_islandClockChange hlow hhigh, rfl, fun g => ?clock⟩,
    fun g _ => place_of_core g, rfl, _, exec_thermalShutdown s, ?off⟩
  case link =>
    refine ⟨fun hready hn base ps hwindow hcores hlen hps => ?_, exec_hostMemoryAccess_closed,
      fun ht hmem => (exec_msixDoorbell ht).trans (congrArg _ (if_pos hmem)),
      fun ht hmem => (exec_msixDoorbell ht).trans (congrArg _ (if_neg hmem))⟩
    have hexec := exec_hostMemoryAccess hn hready hwindow hcores hlen hps
    exact ⟨fun hturn => by rwa [hturn] at hexec, fun hturn => by rwa [hturn] at hexec⟩
  case form =>
    refine ⟨_, exec_partitionForm hlegal hnew htakable hhyper hfit, (State.part_setPart ..).trans (if_pos rfl),
      fun g hg => ?_, fun g hg => ?_⟩
    · exact (s.core_assigned t g cores).trans (if_pos hg)
    · exact (s.core_assigned t g cores).trans (if_neg hg)
  case firmware =>
    have hloads' : k.loads data = true := by simpa [Chip.loads] using hloads
    exact congrArg _ ((if_neg (by decide)).trans (if_pos hloads'))
  case keyless =>
    have hloads' : ¬ k.loads data = true := by simp [Chip.loads, herased, hkey]
    exact congrArg _ ((if_neg (by decide)).trans (if_neg hloads'))
  case replace =>
    have hasks : (k.replace && !k.told) = true := by rw [hreplace, htold]; rfl
    exact congrArg _ (if_pos hasks)
  case restart =>
    intro u y
    have hcore : ∀ g, g / 2560 = n → u.core g = (s.core g).restart := fun g hg => (s.core_restart n g).trans (if_pos hg)
    have hchip : u.chip n = y.restart s.now := (s.chip_restart n n).trans (if_pos rfl)
    refine ⟨fun g hg => ?_, fun g hg => (s.core_restart n g).trans (if_neg hg), rfl, s.cores_restart n, s.discards_restart n, ?_, ?_,
      fun i hwaits hloads => ?_, fun hwaits => ?_⟩
    · rw [hcore g hg]
      exact ⟨rfl, rfl, rfl, rfl, rfl⟩
    all_goals rw [hchip]
    · rfl
    · rfl
    · exact Chip.image_restart hwaits hloads
    · exact Chip.image_restart_none hwaits
  case clock =>
    exact ⟨fun hg => (s.coreClock_setClock port n g).trans (if_pos hg), fun hg => (s.coreClock_setClock port n g).trans (if_neg hg),
      s.cycle_setClock port n g⟩
  case off =>
    have hhere := fun x => State.chip_setChip (s.resetThere s.here) s.here x
      { (s.resetThere s.here).chip s.here with replace := true, told := false, off := true }
    refine ⟨?_, ?_, ?_, fun x hx => (hhere x).trans ((if_neg hx).trans (s.chip_resetThere s.here x))⟩
    all_goals rw [hhere, if_pos rfl]

end Sys2Proof.Machine
end

section
/-! The resume of a halted cluster (O59). -/

namespace Sys2Proof.Machine

/-! ### What the freeing of a context leaves alone (R65, R92) -/

section
variable (s : State) (g c : Nat)

/-- Reports are messages in flight. -/
theorem State.kept_reports (l : List (Queue × Cmd × RingEntry)) :
    let t := l.foldl (fun t e => t.reportDetached g e.1 e.2.1 e.2.2.cause.toNat e.2.2.fault) s
    t.cores = s.cores ∧ t.clusters = s.clusters := by
  induction l generalizing s with
  | nil => exact ⟨rfl, rfl⟩
  | cons e l ih => exact ih (s.reportDetached g e.1 e.2.1 e.2.2.cause.toNat e.2.2.fault)

theorem State.core_free {h : Nat} (hne : h ≠ g) : (s.free g c).core h = s.core h := by
  rw [State.free, State.core, ((s.vacate g c).kept_reports g _).1]
  exact (s.oneReset_vacate g c).other h hne

theorem State.vacate_clusters : (s.vacate g c).clusters = s.clusters := by
  have hcur : (s.releaseCur g c).clusters = s.clusters := by
    unfold State.releaseCur
    split <;> rfl
  exact hcur

theorem State.free_clusters : (s.free g c).clusters = s.clusters := by
  rw [State.free, ((s.vacate g c).kept_reports g _).2, State.vacate_clusters]

/-! ### The context windows (R370) -/

theorem State.core_putWindows_other {h : Nat} (hne : h ≠ g) : (s.putWindows g).core h = s.core h := by
  unfold State.putWindows
  rw [foldl_kept (fun t => t.core h) _ fun t c => t.core_free g c hne, State.core_setWork, if_neg hne]

theorem State.putWindows_clusters : (s.putWindows g).clusters = s.clusters := by
  unfold State.putWindows
  rw [foldl_kept State.clusters _ fun t c => t.free_clusters g c, State.setWork_clusters]

/-- Where no window was last written the state free, what the windows were written takes effect in each context. -/
theorem State.ctx_putWindows (hkept : ∀ e ∈ (s.work g).ctxs, e.2.freed = false) : (s.putWindows g).ctx g c = (s.ctx g c).putWindows := by
  have hnone : (s.work g).ctxs.filter (fun e => e.2.freed) = [] := List.filter_eq_nil_iff.2 fun e he => Bool.eq_false_iff.1 (hkept e he)
  rw [State.putWindows, hnone, List.map_nil, List.foldl_nil, State.ctx_setWork, if_pos rfl]
  exact Tab.look_each (d := Ctx.reset) (f := fun _ k => k.putWindows) (k := c) rfl _

theorem State.core_foldl_putWindows_other (l : List Nat) {h : Nat} (hh : h ∉ l) : (l.foldl State.putWindows s).core h = s.core h := by
  induction l generalizing s with
  | nil => rfl
  | cons j l ih =>
    obtain ⟨hj, hl⟩ := not_or.1 (mt List.mem_cons.2 hh)
    exact (ih _ hl).trans (s.core_putWindows_other j hj)

theorem State.ctx_foldl_putWindows {l : List Nat} (hl : l.Nodup) {h : Nat} (hh : h ∈ l)
    (hkept : ∀ e ∈ (s.work h).ctxs, e.2.freed = false) : (l.foldl State.putWindows s).ctx h c = (s.ctx h c).putWindows := by
  have hctx : ∀ {t u : State}, t.core h = u.core h → t.ctx h c = u.ctx h c := fun hcore => by
    rw [State.ctx, State.ctx, State.work, State.work, hcore]
  induction l generalizing s with
  | nil => exact absurd hh List.not_mem_nil
  | cons j l ih =>
    obtain ⟨hnot, hnodup⟩ := List.nodup_cons.1 hl
    by_cases hj : h = j
    · subst hj
      exact (hctx (State.core_foldl_putWindows_other _ l hnot)).trans (s.ctx_putWindows h c hkept)
    · have hsame := s.core_putWindows_other j hj
      refine (ih _ hnodup ((List.mem_cons.1 hh).resolve_left hj) ?_).trans (congrArg Ctx.putWindows (hctx hsame))
      rwa [State.work, hsame]

end

theorem nodup_clusterCores (g : Nat) : (clusterCores g).Nodup :=
  List.Nodup.map (fun _ _ h => Nat.add_left_cancel h) List.nodup_range

/-- What O59 says of the resume of a halted cluster holds at every core of it where no window was last written the state free. -/
theorem exec_halyardResume_runs {s : State} {cl : Nat} (hhalted : (s.cluster (cl * 16)).halted = true) :
    ∃ u, exec (.halyardResume cl) s = .next u ∧ u.cluster (cl * 16) = { s.cluster (cl * 16) with halted := false }
      ∧ (∀ h ∈ clusterCores (cl * 16), (∀ e ∈ (s.work h).ctxs, e.2.freed = false) → ∀ c, u.ctx h c = (s.ctx h c).putWindows)
      ∧ ∀ h, h ∉ clusterCores (cl * 16) → u.core h = s.core h := by
  have hexec : exec (.halyardResume cl) s = .next (s.resumeCluster (cl * 16)) := congrArg Host.Outcome.next (if_pos hhalted)
  refine ⟨_, hexec, ?_, fun h hh hkept c => ?_, fun h hh => ?_⟩
  · have hclusters := foldl_kept State.clusters _ (fun t g => t.putWindows_clusters g) (clusterCores (cl * 16))
      (s.setCluster (cl * 16) { s.cluster (cl * 16) with halted := false })
    exact (congrArg (Tab.look Cluster.reset · (cl * 16 / 16)) hclusters).trans ((Tab.look_put ..).trans (if_pos rfl))
  · exact State.ctx_foldl_putWindows _ c (nodup_clusterCores _) hh hkept
  · exact State.core_foldl_putWindows_other _ _ hh

/-! ### A context that its window frees -/

/-- A halted cluster with a context in use whose window was written the state free. -/
def freeWritten : State :=
  (State.reset.setCluster 0 { State.reset.cluster 0 with halted := true }).setCtx 0 0
    { Ctx.reset with role := .migrated, xw := [(8, 7)] }

theorem role_resumed_freeWritten : ((freeWritten.resumeCluster 0).ctx 0 0).role = .free := by decide +kernel

/-- What the statement gives the context instead keeps its role. -/
theorem role_putWindows_freeWritten : (freeWritten.ctx 0 0).putWindows.role = .migrated := rfl

/-- Refutes O59: its clause on HALYARD_RESUME has every context of the cluster end as its window's writes leave it. A context in use
whose window was last written the state free is freed (R65, R370), while those writes alone keep its role. Where no window was last
written so, `exec_halyardResume_runs` gives what the clause says. -/
theorem not_errorAndDebugEvents : ¬ Obligations.ErrorAndDebugEvents := by
  intro hall
  obtain ⟨-, -, -, -, -, -, -, -, hresume, -⟩ := hall freeWritten 0 0 0 0 0 0 0 true 0 0 [] []
  obtain ⟨u, hexec, -, hctx, -⟩ := hresume rfl
  have hu : freeWritten.resumeCluster 0 = u := Host.Outcome.next.inj ((congrArg _ (if_pos rfl)).symm.trans hexec)
  have hrole := congrArg Ctx.role (hctx 0 (by decide) 0)
  rw [← hu, role_resumed_freeWritten, role_putWindows_freeWritten] at hrole
  exact Role.noConfusion hrole

end Sys2Proof.Machine
end
